-- ==== Sys2Proof/Word.lean ====
section
/-!
DEFINITION. The words of the machine: the 64-bit register and memory word, its 4-bit tag (R64), the
byte, and the 80-bit order key (R307).
-/
namespace Sys2Proof

/-- A 64-bit register, memory or control-space word. -/
abbrev Word := BitVec 64

/-- One byte. -/
abbrev Byte := BitVec 8

/-- The 4-bit tag that every 64-bit word carries (R64). -/
abbrev Tag := BitVec 4

/-- The 80-bit order key of a run (R307). -/
abbrev OrderKey := BitVec 80

/-- A word with its tag (R64: value and tag are read and written together). -/
structure TWord where
  val : Word
  tag : Tag
  deriving DecidableEq, Repr

end Sys2Proof
end

