-- ==== Sys2Proof/Machine/Bits.lean ====
section
/-!
DEFINITION. Bit fields, sign extension, byte order (R5, R69), the tags of R64, and the sorted sparse
maps that hold the banked and the numbered state.
-/
namespace Sys2Proof.Machine

/-- Field [hi:lo] of a word, as a number (R5: bit 0 is the least significant). -/
def fld (w : Word) (hi lo : Nat) : Nat := (w.toNat / 2 ^ lo) % 2 ^ (hi + 1 - lo)

/-- Bit i of a word. -/
def bit (w : Word) (i : Nat) : Bool := w.getLsbD i

/-- A Bool as the number 0 or 1. -/
def b2n (b : Bool) : Nat := if b then 1 else 0

/-- The word with field [hi:lo] replaced by v (v is cut to the field's width). -/
def setFld (w : Word) (hi lo v : Nat) : Word :=
  BitVec.ofNat 64 (w.toNat % 2 ^ lo + (v % 2 ^ (hi + 1 - lo)) * 2 ^ lo
    + (w.toNat / 2 ^ (hi + 1)) * 2 ^ (hi + 1))

/-- The word with bit i set to b. -/
def setBit (w : Word) (i : Nat) (b : Bool) : Word := setFld w i i (b2n b)

/-- A number of n bits read as two's complement. -/
def sext (n v : Nat) : Int := if v % 2 ^ n < 2 ^ (n - 1) then (v % 2 ^ n : Nat) else (v % 2 ^ n : Nat) - (2 ^ n : Nat)

/-- An integer as a 64-bit two's-complement word. -/
def ofInt (i : Int) : Word := BitVec.ofInt 64 i

/-- The n bytes of a number, most significant first (R69). -/
def toBytes : Nat → Nat → List Byte
  | 0, _ => []
  | n + 1, v => BitVec.ofNat 8 (v / 256 ^ n) :: toBytes n v

/-- The number that a list of bytes spells, most significant first (R69). -/
def ofBytes (bs : List Byte) : Nat := bs.foldl (fun a b => a * 256 + b.toNat) 0

/-- The n bytes at offset o of a list, as a number; a list that is too short reads as zeros. -/
def bytesAt (bs : List Byte) (o n : Nat) : Nat :=
  ofBytes ((bs.drop o).take n ++ List.replicate (n - ((bs.drop o).take n).length) 0)

/-- Saturating addition at n bits (R8, R301: counters saturate). -/
def satAdd (n a b : Nat) : Nat := min (a + b) (2 ^ n - 1)

/-! The tags of R64. -/

def tRAW : Tag := 0x0
def tINT : Tag := 0x1
def tPDEC : Tag := 0x2
def tPTR : Tag := 0x3
def tDESC : Tag := 0x4
def tTEXT : Tag := 0x5
def tBFP : Tag := 0x6
def tDFP : Tag := 0x7
def tCODE : Tag := 0x8
def tSEAL : Tag := 0x9
def tPOISON : Tag := 0xF

/-- The reserved tags 0xA to 0xE (R64, R66). -/
def tagReserved (t : Tag) : Bool := 0xA ≤ t.toNat && t.toNat ≤ 0xE

/-- RAW 0. -/
def raw0 : TWord := ⟨0, tRAW⟩

/-! Sparse maps: keys strictly rising, no entry equal to the default. -/

/-- A sparse map: (key, value) pairs with rising keys; an unlisted key holds the default. -/
abbrev SMap (α : Type) := List (Nat × α)

/-- The value at key k; d where nothing is listed. -/
def sget {α : Type} (d : α) : SMap α → Nat → α
  | [], _ => d
  | (k', v) :: r, k => if k = k' then v else sget d r k

/-- Insert (k, v) in key order, replacing an entry of the same key. -/
def sins {α : Type} : SMap α → Nat → α → SMap α
  | [], k, v => [(k, v)]
  | (k', v') :: r, k, v =>
    if k < k' then (k, v) :: (k', v') :: r
    else if k = k' then (k, v) :: r
    else (k', v') :: sins r k v

/-- Remove what is listed under key k. -/
def sdel {α : Type} (m : SMap α) (k : Nat) : SMap α := m.filter (·.1 != k)

/-- Write v at key k, keeping the canonical form: the default is stored as no entry. -/
def sset {α : Type} [DecidableEq α] (d : α) (m : SMap α) (k : Nat) (v : α) : SMap α :=
  if v = d then sdel m k else sins (sdel m k) k v

/-- The canonical form of a sparse map: keys strictly rising, no entry equal to the default. -/
def smapWf {α : Type} [DecidableEq α] (d : α) : SMap α → Bool
  | [] => true
  | [(_, v)] => decide (v ≠ d)
  | (k, v) :: (k', v') :: r => decide (v ≠ d) && decide (k < k') && smapWf d ((k', v') :: r)

end Sys2Proof.Machine
end

