-- ==== Sys2Proof/Machine/Reg.lean ====
section
/-!
DEFINITION. The register maps of the spec (R6, R7): one constructor of Reg for each control-space
register, one of Csr for each core register with a field map, and their fields with access code, cold
value and warm value, as the tables of the chapters give them.
-/
namespace Sys2Proof.Machine

/-- The access codes of R7. -/
inductive Acc where
  | rw | ro | wo | w1c | w1s | rc | rwo | mpo | dbg
  deriving DecidableEq, Repr

/-- A field of a register map (R6): bits hi:lo, access, cold value, warm value (none: kept). -/
structure Fld where
  hi : Nat
  lo : Nat
  acc : Acc
  cold : Nat
  warm : Option Nat
  deriving DecidableEq, Repr

/-- The control-space registers (R49, R253 to R273, R301, R328, R358, R390, R415, R447, R467, R490,
R514, R524); the arguments number the copies of a register. -/
inductive Reg where
  | devId
  | cluSignal (c : Nat) (k : Nat)
  | keyPtctl (p : Nat)
  | keyPtroot (p : Nat)
  | keyFkset
  | keyFkres (m : Nat)
  | keyGrant (g : Nat)
  | keyFnbind (f : Nat)
  | keyQbind (q : Nat)
  | mcuStatus (ch : Nat)
  | mcuEcccnt (ch : Nat)
  | mcuScrub (ch : Nat)
  | mcuPpr (ch : Nat)
  | npuStatus (ch : Nat)
  | npuCnt (ch : Nat)
  | tsqTick
  | tsqPeriod
  | tsqStatus
  | tsqSealed
  | tsqAdmit
  | tsqExw
  | tsqCnt
  | intStatus
  | intHorizon
  | intQcfg (q : Nat)
  | intRqarea (p : Nat)
  | vltStatus
  | cluMode (c : Nat)
  | cluSlot (c : Nat) (s : Nat)
  | chkStatus (c : Nat)
  | chkMismatch (c : Nat)
  | chkMismatchy (c : Nat)
  | chkCnt (c : Nat)
  | fmuStatus
  | fmuDegcfg
  | fmuLoss
  | fmuLogstat
  | fmuStctl
  | fmuDegcnt
  | fmuRoute (i : Nat)
  | fabPstatus (p : Nat)
  | fabRole
  | fabPartner
  | fabLease
  | fabRtctl
  | fabRoute (d : Nat)
  | mbxDoorbell (m : Nat)
  | mbxStatus (m : Nat)
  | mbxCtrl (m : Nat)
  | mbxOwner (m : Nat)
  | hifLink
  | hifCtl
  | dbgStatus
  | dbgAuthcmd
  | dbgHalt
  | dbgStep
  | dbgReq
  | dbgMactl
  | trcCtl
  | trcStatus
  | trcRdptr
  | hupStatus
  | hupCfg
  | hupEst
  | hupMeas
  | pwrRail (i : Nat)
  | pwrTherm
  | pwrSensinv
  | clkCtl
  | rstCtl
  | rstCause
  | rstPart
  | pwrIoctl
  | intNextisn
  | intIdemcnt
  | intSqbase (q : Nat)
  | intCqbase (q : Nat)
  | intCqtail (q : Nat)
  | intProgtab (p : Nat)
  | vltRtick
  | vltDump
  | fabPctl (p : Nat)
  | fabPcnt (p : Nat)
  | fabPdelay (p : Nat)
  | fabTime
  | dbgNonce (i : Nat)
  | dbgSig (i : Nat)
  | dbgMaaddr
  | dbgMadata
  | dbgTomon (c : Nat)
  | dbgFrommon (c : Nat)
  deriving DecidableEq, Repr

/-- The fields of each control-space register, as its map in the spec lists them (reserved fields left out). -/
def Reg.fields : Reg → List Fld
  -- DEV_ID (R47): PART STEP IDVALID DEVID
  | .devId => [⟨47, 32, .ro, 0, none⟩, ⟨31, 24, .ro, 0, none⟩, ⟨16, 16, .mpo, 0, none⟩, ⟨11, 0, .mpo, 0, none⟩]
  -- CLU_SIGNAL (R194): GO CODE
  | .cluSignal _ _ => [⟨63, 63, .wo, 0, some 0⟩, ⟨23, 16, .wo, 0, some 0⟩]
  -- KEY_PTCTL (R253): ACTIVE MIRRORED UNVER KMASK MKEY
  | .keyPtctl _ => [⟨63, 63, .mpo, 0, none⟩, ⟨62, 62, .mpo, 0, none⟩, ⟨61, 61, .mpo, 0, none⟩, ⟨55, 48, .mpo, 255, none⟩, ⟨47, 47, .mpo, 1, none⟩]
  -- KEY_PTROOT (R254): ROOT
  | .keyPtroot _ => [⟨51, 13, .mpo, 0, none⟩]
  -- KEY_FKSET (R263): FRAME QUERY INV FP KEY
  | .keyFkset => [⟨51, 12, .wo, 0, some 0⟩, ⟨11, 11, .wo, 0, some 0⟩, ⟨9, 9, .wo, 0, some 0⟩, ⟨8, 8, .wo, 0, some 0⟩, ⟨7, 0, .wo, 0, some 0⟩]
  -- KEY_FKRES (R263): VALID FP KEY
  | .keyFkres _ => [⟨63, 63, .ro, 0, some 0⟩, ⟨8, 8, .ro, 0, some 0⟩, ⟨7, 0, .ro, 0, some 0⟩]
  -- KEY_GRANT (R270): VALID RD PST ANYDEV SDEV SPART AKEY TPART
  | .keyGrant _ => [⟨63, 63, .mpo, 0, none⟩, ⟨62, 62, .mpo, 0, none⟩, ⟨61, 61, .mpo, 0, none⟩, ⟨60, 60, .mpo, 0, none⟩, ⟨47, 36, .mpo, 0, none⟩, ⟨33, 24, .mpo, 0, none⟩, ⟨23, 16, .mpo, 0, none⟩, ⟨9, 0, .mpo, 0, none⟩]
  -- KEY_FNBIND (R272): BOUND PART
  | .keyFnbind _ => [⟨63, 63, .mpo, 0, none⟩, ⟨9, 0, .mpo, 0, none⟩]
  -- KEY_QBIND (R273): BOUND FN PART
  | .keyQbind _ => [⟨63, 63, .mpo, 0, none⟩, ⟨55, 48, .mpo, 0, none⟩, ⟨9, 0, .mpo, 0, none⟩]
  -- MCU_STATUS (R301): FAILDEV CAPGB DPC STATE
  | .mcuStatus _ => [⟨47, 40, .ro, 255, none⟩, ⟨31, 16, .ro, 0, none⟩, ⟨7, 6, .ro, 0, none⟩, ⟨2, 0, .ro, 0, none⟩]
  -- MCU_ECCCNT (R301): CE UE RREP
  | .mcuEcccnt _ => [⟨63, 32, .rc, 0, none⟩, ⟨31, 16, .rc, 0, none⟩, ⟨15, 0, .rc, 0, none⟩]
  -- MCU_SCRUB (R301): PASSES POS PERIOD
  | .mcuScrub _ => [⟨63, 32, .ro, 0, none⟩, ⟨31, 16, .ro, 0, none⟩, ⟨7, 0, .mpo, 24, none⟩]
  -- MCU_PPR (R301): LEFT USED
  | .mcuPpr _ => [⟨31, 16, .ro, 0, none⟩, ⟨15, 0, .ro, 0, none⟩]
  -- NPU_STATUS (R301): LOGN STAGED MODE TEST STALLFULL
  | .npuStatus _ => [⟨47, 32, .ro, 0, some 0⟩, ⟨19, 8, .ro, 0, some 0⟩, ⟨3, 2, .ro, 0, none⟩, ⟨1, 1, .ro, 0, some 0⟩, ⟨0, 0, .w1c, 0, some 0⟩]
  -- NPU_CNT (R301): DONE REFUSED ROLLED
  | .npuCnt _ => [⟨63, 32, .rc, 0, none⟩, ⟨31, 16, .rc, 0, none⟩, ⟨15, 0, .rc, 0, none⟩]
  -- TSQ_TICK (R328): TICK
  | .tsqTick => [⟨47, 0, .ro, 0, none⟩]
  -- TSQ_PERIOD (R328): CUR NEXT AT
  | .tsqPeriod => [⟨63, 56, .ro, 10, none⟩, ⟨55, 48, .mpo, 10, none⟩, ⟨47, 0, .mpo, 0, none⟩]
  -- TSQ_STATUS (R328): UNSEALED SYNC PHASE
  | .tsqStatus => [⟨15, 8, .ro, 0, some 0⟩, ⟨4, 4, .ro, 0, none⟩, ⟨2, 0, .ro, 0, some 0⟩]
  -- TSQ_SEALED (R328): TICK
  | .tsqSealed => [⟨47, 0, .ro, 0, none⟩]
  -- TSQ_ADMIT (R328): THERM LIMIT
  | .tsqAdmit => [⟨17, 16, .ro, 0, some 0⟩, ⟨15, 0, .mpo, 1024, none⟩]
  -- TSQ_EXW (R328): EXW
  | .tsqExw => [⟨31, 0, .ro, 0, none⟩]
  -- TSQ_CNT (R328): OVR CASC EXACT REJ
  | .tsqCnt => [⟨63, 48, .rc, 0, none⟩, ⟨47, 32, .rc, 0, none⟩, ⟨31, 16, .rc, 0, none⟩, ⟨15, 0, .rc, 0, none⟩]
  -- INT_STATUS (R358): INFLIGHT FAWN FULL VAULT WITNESS MIRROR ENERGY NOID STOPPED
  | .intStatus => [⟨47, 32, .ro, 0, none⟩, ⟨7, 7, .ro, 0, none⟩, ⟨6, 6, .ro, 0, none⟩, ⟨5, 5, .ro, 0, none⟩, ⟨4, 4, .ro, 1, none⟩, ⟨3, 3, .ro, 1, none⟩, ⟨2, 2, .ro, 1, none⟩, ⟨1, 1, .ro, 1, none⟩, ⟨0, 0, .ro, 1, some 1⟩]
  -- INT_HORIZON (R358): TICKS
  | .intHorizon => [⟨31, 0, .mpo, 400000, none⟩]
  -- INT_QCFG (R358): EN ORDERED REGION SQSZ CQSZ IDEMWAIT CQFULL VEC
  | .intQcfg _ => [⟨63, 63, .mpo, 0, none⟩, ⟨62, 62, .mpo, 1, none⟩, ⟨61, 59, .mpo, 0, none⟩, ⟨55, 52, .mpo, 4, none⟩, ⟨51, 48, .mpo, 5, none⟩, ⟨15, 15, .ro, 0, some 0⟩, ⟨14, 14, .ro, 0, some 0⟩, ⟨10, 0, .mpo, 0, none⟩]
  -- INT_RQAREA (R358): BASE NSLOT
  | .intRqarea _ => [⟨51, 16, .mpo, 0, none⟩, ⟨14, 0, .mpo, 0, none⟩]
  -- VLT_STATUS (R358): DUMPPATH STATE OWNFREE PTNFREE RESTORED
  | .vltStatus => [⟨63, 62, .ro, 0, none⟩, ⟨61, 60, .ro, 3, some 0⟩, ⟨47, 32, .ro, 32768, none⟩, ⟨31, 16, .ro, 32768, none⟩, ⟨0, 0, .ro, 0, none⟩]
  -- CLU_MODE (R390): DRAINED NEXT CUR
  | .cluMode _ => [⟨2, 2, .ro, 0, some 0⟩, ⟨1, 1, .mpo, 0, none⟩, ⟨0, 0, .ro, 0, none⟩]
  -- CLU_SLOT (R390): STATE EXACT P2V POS2 P1V POS1 P0V POS0 NTRANS
  | .cluSlot _ _ => [⟨30, 28, .ro, 0, none⟩, ⟨27, 27, .ro, 0, none⟩, ⟨23, 23, .ro, 0, none⟩, ⟨22, 20, .ro, 0, none⟩, ⟨19, 19, .ro, 0, none⟩, ⟨18, 16, .ro, 0, none⟩, ⟨15, 15, .ro, 0, none⟩, ⟨14, 12, .ro, 0, none⟩, ⟨9, 8, .ro, 0, none⟩]
  -- CHK_STATUS (R390): DBG_BROKEN DIVERSITY_REDUCED YLOST XLOST INJRUN INJOK
  | .chkStatus _ => [⟨36, 32, .ro, 0, none⟩, ⟨28, 24, .ro, 0, none⟩, ⟨9, 9, .ro, 0, none⟩, ⟨8, 8, .ro, 0, none⟩, ⟨1, 1, .ro, 0, some 0⟩, ⟨0, 0, .ro, 0, some 0⟩]
  -- CHK_MISMATCH (R390): KIND SLOT POS GROUPS
  | .chkMismatch _ => [⟨63, 60, .ro, 0, none⟩, ⟨59, 57, .ro, 0, none⟩, ⟨56, 54, .ro, 0, none⟩, ⟨47, 0, .ro, 0, none⟩]
  -- CHK_MISMATCHY (R390): GROUPS
  | .chkMismatchy _ => [⟨47, 0, .ro, 0, none⟩]
  -- CHK_CNT (R390): MISM TRANS OUTV CHKF
  | .chkCnt _ => [⟨63, 48, .rc, 0, none⟩, ⟨47, 32, .rc, 0, none⟩, ⟨31, 16, .rc, 0, none⟩, ⟨15, 0, .rc, 0, none⟩]
  -- FMU_STATUS (R415): FAWN CAUSE COND HEALTHY CLUST2
  | .fmuStatus => [⟨61, 60, .ro, 0, none⟩, ⟨55, 48, .ro, 0, none⟩, ⟨47, 40, .ro, 0, some 0⟩, ⟨23, 16, .ro, 0, some 0⟩, ⟨15, 8, .ro, 0, none⟩]
  -- FMU_DEGCFG (R415): DRAIN FLOOR
  | .fmuDegcfg => [⟨31, 16, .mpo, 1024, none⟩, ⟨7, 0, .mpo, 8, none⟩]
  -- FMU_LOSS (R415): EVDROP LOGDROP TRDROP ALWAIT
  | .fmuLoss => [⟨63, 48, .rc, 0, none⟩, ⟨47, 32, .rc, 0, none⟩, ⟨31, 16, .rc, 0, none⟩, ⟨15, 0, .rc, 0, none⟩]
  -- FMU_LOGSTAT (R415): OLDEST ALARMS OTHERS
  | .fmuLogstat => [⟨51, 40, .ro, 0, none⟩, ⟨26, 16, .ro, 0, none⟩, ⟨11, 0, .ro, 0, none⟩]
  -- FMU_STCTL (R415): NPUPER CHMPER SPAREPER EN
  | .fmuStctl => [⟨31, 24, .mpo, 24, none⟩, ⟨23, 16, .mpo, 1, none⟩, ⟨15, 8, .mpo, 1, none⟩, ⟨0, 0, .mpo, 1, none⟩]
  -- FMU_DEGCNT (R415): CORES SLOTS CHANNELS COMPS DUMP
  | .fmuDegcnt => [⟨63, 48, .ro, 0, none⟩, ⟨47, 32, .ro, 0, none⟩, ⟨31, 16, .ro, 0, none⟩, ⟨15, 8, .ro, 0, none⟩, ⟨7, 0, .ro, 0, none⟩]
  -- FMU_ROUTE (R415): EN CLASS SIG SIGMASK CORE
  | .fmuRoute _ => [⟨63, 63, .mpo, 0, none⟩, ⟨62, 60, .mpo, 0, none⟩, ⟨47, 32, .mpo, 0, none⟩, ⟨31, 16, .mpo, 0, none⟩, ⟨7, 0, .mpo, 0, none⟩]
  -- FAB_PSTATUS (R447): PEER LANES STATE
  | .fabPstatus _ => [⟨43, 32, .ro, 0, none⟩, ⟨11, 8, .ro, 0, none⟩, ⟨2, 0, .ro, 0, none⟩]
  -- FAB_ROLE (R447): ISFM ISTM FMID TMID MPRI TPRI OFFSET
  | .fabRole => [⟨63, 63, .ro, 0, none⟩, ⟨62, 62, .ro, 0, none⟩, ⟨59, 48, .ro, 0, none⟩, ⟨47, 36, .ro, 0, none⟩, ⟨31, 24, .mpo, 0, none⟩, ⟨23, 16, .mpo, 0, none⟩, ⟨15, 0, .ro, 0, none⟩]
  -- FAB_PARTNER (R447): VALID WITNESS PARTNER MPORT
  | .fabPartner => [⟨63, 63, .mpo, 0, none⟩, ⟨59, 48, .mpo, 0, none⟩, ⟨43, 32, .mpo, 0, none⟩, ⟨2, 0, .mpo, 0, none⟩]
  -- FAB_LEASE (R447): PSTATE WMISS LASTHB
  | .fabLease => [⟨63, 61, .ro, 0, none⟩, ⟨59, 56, .ro, 0, none⟩, ⟨47, 0, .ro, 0, none⟩]
  -- FAB_RTCTL (R447): EPOCH HOPDROP
  | .fabRtctl => [⟨47, 32, .mpo, 0, none⟩, ⟨15, 0, .rc, 0, none⟩]
  -- FAB_ROUTE (R447): VALID AVALID DISJ PHOPS AHOPS APORT PPORT
  | .fabRoute _ => [⟨63, 63, .mpo, 0, none⟩, ⟨62, 62, .mpo, 0, none⟩, ⟨61, 61, .mpo, 0, none⟩, ⟨55, 52, .mpo, 0, none⟩, ⟨51, 48, .mpo, 0, none⟩, ⟨6, 4, .mpo, 0, none⟩, ⟨2, 0, .mpo, 0, none⟩]
  -- MBX_DOORBELL (R467): SEQ
  | .mbxDoorbell _ => [⟨31, 0, .wo, 0, some 0⟩]
  -- MBX_STATUS (R467): LASTSEQ SEQERR STATE
  | .mbxStatus _ => [⟨63, 32, .ro, 0, none⟩, ⟨2, 2, .w1c, 0, none⟩, ⟨1, 0, .ro, 0, none⟩]
  -- MBX_CTRL (R467): IEN VEC
  | .mbxCtrl _ => [⟨15, 15, .rw, 0, none⟩, ⟨10, 0, .rw, 0, none⟩]
  -- MBX_OWNER (R467): FN
  | .mbxOwner _ => [⟨7, 0, .mpo, 0, none⟩]
  -- HIF_LINK (R467): STATE FLIT WIDTH SPEED
  | .hifLink => [⟨15, 12, .ro, 0, some 0⟩, ⟨8, 8, .ro, 0, some 0⟩, ⟨7, 3, .ro, 0, some 0⟩, ⟨2, 0, .ro, 0, some 0⟩]
  -- HIF_CTL (R467): RO
  | .hifCtl => [⟨0, 0, .mpo, 1, none⟩]
  -- DBG_STATUS (R490): RCERR LOCK FAIL BAR4 SESS FAILS
  | .dbgStatus => [⟨7, 7, .w1c, 0, none⟩, ⟨6, 6, .ro, 0, none⟩, ⟨5, 5, .ro, 0, none⟩, ⟨4, 4, .ro, 0, none⟩, ⟨3, 2, .ro, 0, none⟩, ⟨1, 0, .ro, 0, none⟩]
  -- DBG_AUTHCMD (R490): CLOSE GO BAR4 INDEX LEVEL
  | .dbgAuthcmd => [⟨11, 11, .wo, 0, some 0⟩, ⟨10, 10, .wo, 0, some 0⟩, ⟨9, 9, .wo, 0, some 0⟩, ⟨7, 2, .wo, 0, some 0⟩, ⟨1, 0, .wo, 0, some 0⟩]
  -- DBG_HALT (R490): HALTED HALT
  | .dbgHalt => [⟨63, 32, .ro, 0, some 0⟩, ⟨31, 0, .dbg, 0, some 0⟩]
  -- DBG_STEP (R490): ERR BLK DONE INTEN CORE
  | .dbgStep => [⟨11, 11, .ro, 0, some 0⟩, ⟨10, 10, .ro, 0, some 0⟩, ⟨9, 9, .ro, 0, some 0⟩, ⟨8, 8, .dbg, 0, some 0⟩, ⟨7, 0, .dbg, 0, some 0⟩]
  -- DBG_REQ (R490): BUSY ERR LOC CODE
  | .dbgReq => [⟨63, 63, .ro, 0, some 0⟩, ⟨62, 62, .w1c, 0, some 0⟩, ⟨39, 8, .dbg, 0, some 0⟩, ⟨7, 0, .dbg, 0, some 0⟩]
  -- DBG_MACTL (R490): GO WR DONE ERR TAG
  | .dbgMactl => [⟨63, 63, .wo, 0, some 0⟩, ⟨62, 62, .dbg, 0, some 0⟩, ⟨61, 61, .ro, 0, some 0⟩, ⟨60, 60, .ro, 0, some 0⟩, ⟨3, 0, .dbg, 0, some 0⟩]
  -- TRC_CTL (R490): SYNCINT MODE EN
  | .trcCtl => [⟨47, 40, .dbg, 16, none⟩, ⟨32, 32, .dbg, 0, none⟩, ⟨31, 0, .dbg, 0, none⟩]
  -- TRC_STATUS (R490): LOST FULL WRPTR
  | .trcStatus => [⟨63, 32, .rc, 0, none⟩, ⟨23, 23, .ro, 0, none⟩, ⟨22, 0, .ro, 0, none⟩]
  -- TRC_RDPTR (R490): RDPTR
  | .trcRdptr => [⟨22, 0, .dbg, 0, none⟩]
  -- HUP_STATUS (R514): VMV TEST CHG PSEL PFAIL
  | .hupStatus => [⟨31, 16, .ro, 0, none⟩, ⟨3, 3, .ro, 0, none⟩, ⟨2, 2, .ro, 0, none⟩, ⟨1, 1, .ro, 0, none⟩, ⟨0, 0, .ro, 0, none⟩]
  -- HUP_CFG (R514): EWARN TPER IPK ICHG VTOP VCUT
  | .hupCfg => [⟨63, 48, .mpo, 1800, none⟩, ⟨47, 40, .mpo, 60, none⟩, ⟨39, 32, .mpo, 50, none⟩, ⟨31, 24, .mpo, 15, none⟩, ⟨23, 12, .mpo, 1200, none⟩, ⟨11, 0, .mpo, 600, none⟩]
  -- HUP_EST (R514): AGE EMJ
  | .hupEst => [⟨47, 32, .ro, 0, none⟩, ⟨15, 0, .ro, 0, none⟩]
  -- HUP_MEAS (R514): CAP ESR REJ
  | .hupMeas => [⟨63, 32, .ro, 0, none⟩, ⟨31, 16, .ro, 0, none⟩, ⟨1, 0, .ro, 0, none⟩]
  -- PWR_RAIL (R514): VMV IDA STAT TC FAULT
  | .pwrRail _ => [⟨63, 48, .ro, 0, none⟩, ⟨47, 32, .ro, 0, none⟩, ⟨31, 16, .ro, 0, none⟩, ⟨15, 8, .ro, 0, none⟩, ⟨0, 0, .w1c, 0, none⟩]
  -- PWR_THERM (R514): T2 T1 T0 INVANY
  | .pwrTherm => [⟨59, 48, .ro, 0, some 0⟩, ⟨47, 36, .ro, 0, some 0⟩, ⟨35, 24, .ro, 0, some 0⟩, ⟨2, 0, .ro, 0, some 0⟩]
  -- PWR_SENSINV (R514): DIE2 DIE1 DIE0
  | .pwrSensinv => [⟨39, 32, .ro, 0, some 0⟩, ⟨31, 16, .ro, 0, some 0⟩, ⟨15, 0, .ro, 0, some 0⟩]
  -- CLK_CTL (R514): LOCK TREF SSC
  | .clkCtl => [⟨63, 32, .ro, 0, none⟩, ⟨3, 3, .ro, 0, none⟩, ⟨2, 0, .mpo, 0, none⟩]
  -- RST_CTL (R514): WARM COLD
  | .rstCtl => [⟨1, 1, .mpo, 0, some 0⟩, ⟨0, 0, .mpo, 0, some 0⟩]
  -- RST_CAUSE (R514): THERM PWRFAIL SOFTCOLD PIN SOFTWARM WPIN
  | .rstCause => [⟨5, 5, .ro, 0, some 0⟩, ⟨4, 4, .ro, 0, some 0⟩, ⟨3, 3, .ro, 0, some 0⟩, ⟨2, 2, .ro, 0, some 0⟩, ⟨1, 1, .ro, 0, none⟩, ⟨0, 0, .ro, 0, none⟩]
  -- RST_PART (R514): GO ERR PEND PART
  | .rstPart => [⟨63, 63, .wo, 0, some 0⟩, ⟨62, 62, .w1c, 0, some 0⟩, ⟨61, 61, .ro, 0, some 0⟩, ⟨9, 0, .rw, 0, some 0⟩]
  -- PWR_IOCTL (R524): HUPSLEW XSPISLEW CTLSLEW
  | .pwrIoctl => [⟨15, 14, .mpo, 1, none⟩, ⟨13, 12, .mpo, 0, none⟩, ⟨11, 10, .mpo, 2, none⟩]
  -- INT_NEXTISN (R358): NEXTISN
  | .intNextisn => [⟨63, 0, .ro, 1, none⟩]
  -- INT_IDEMCNT (R358): DUP FULL REUSED
  | .intIdemcnt => [⟨63, 32, .rc, 0, none⟩, ⟨31, 16, .rc, 0, none⟩, ⟨15, 0, .rc, 0, none⟩]
  -- INT_SQBASE (R358): ADDR
  | .intSqbase _ => [⟨63, 0, .mpo, 0, none⟩]
  -- INT_CQBASE (R358): ADDR
  | .intCqbase _ => [⟨63, 0, .mpo, 0, none⟩]
  -- INT_CQTAIL (R358): ADDR
  | .intCqtail _ => [⟨63, 0, .mpo, 0, none⟩]
  -- INT_PROGTAB (R358): BASE
  | .intProgtab _ => [⟨51, 6, .mpo, 0, none⟩]
  -- VLT_RTICK (R358): RTICK
  | .vltRtick => [⟨47, 0, .ro, 0, none⟩]
  -- VLT_DUMP (R358): DUMPSEQ GRAN
  | .vltDump => [⟨63, 32, .ro, 0, none⟩, ⟨31, 0, .ro, 0, none⟩]
  -- FAB_PCTL (R447): EN FIR
  | .fabPctl _ => [⟨4, 4, .mpo, 1, none⟩, ⟨3, 0, .mpo, 0, none⟩]
  -- FAB_PCNT (R447): FEC RETRY DISC
  | .fabPcnt _ => [⟨63, 32, .rc, 0, none⟩, ⟨31, 16, .rc, 0, none⟩, ⟨15, 0, .rc, 0, none⟩]
  -- FAB_PDELAY (R447): DELAY
  | .fabPdelay _ => [⟨15, 0, .ro, 0, none⟩]
  -- FAB_TIME (R447): TIME
  | .fabTime => [⟨63, 0, .ro, 0, none⟩]
  -- DBG_NONCE (R490): NONCE
  | .dbgNonce _ => [⟨63, 0, .ro, 0, none⟩]
  -- DBG_SIG (R490): SIG
  | .dbgSig _ => [⟨63, 0, .wo, 0, none⟩]
  -- DBG_MAADDR (R490): ADDR
  | .dbgMaaddr => [⟨51, 3, .dbg, 0, none⟩]
  -- DBG_MADATA (R490): DATA
  | .dbgMadata => [⟨63, 0, .dbg, 0, none⟩]
  -- DBG_TOMON (R477, R490): DATA
  | .dbgTomon _ => [⟨63, 0, .dbg, 0, none⟩]
  -- DBG_FROMMON (R477, R490): DATA
  | .dbgFrommon _ => [⟨63, 0, .rw, 0, none⟩]

/-- The core registers that have a field map. -/
inductive CoreReg where
  | psw
  | scatw
  | rsctl
  | decctl
  | fpsr
  | lmask
  | vbr
  | linfo
  | gsp
  | apend
  | shstk
  | xown
  | ucstat
  | mode
  | tcmwin
  | tcmblk
  | txstall
  | budget
  | tbase
  | keyctl
  deriving DecidableEq, Repr

/-- The fields of each core register, as its map in the spec lists them. -/
def CoreReg.fields : CoreReg → List Fld
  -- CORE_PSW (R61): PROG KEY PRIV TX CT SUB RM FE GM T SI DI V C N Z
  | .psw => [⟨63, 55, .rw, 0, some 0⟩, ⟨47, 40, .rw, 0, some 0⟩, ⟨39, 38, .rw, 0, some 0⟩, ⟨37, 37, .ro, 0, some 0⟩, ⟨36, 36, .rw, 0, some 0⟩, ⟨35, 35, .rw, 0, some 0⟩, ⟨34, 32, .rw, 0, some 0⟩, ⟨31, 27, .rw, 0, some 0⟩, ⟨26, 26, .rw, 1, some 1⟩, ⟨6, 6, .rw, 0, some 0⟩, ⟨5, 5, .rw, 0, some 0⟩, ⟨4, 4, .rw, 0, some 0⟩, ⟨3, 3, .rw, 0, some 0⟩, ⟨2, 2, .rw, 0, some 0⟩, ⟨1, 1, .rw, 0, some 0⟩, ⟨0, 0, .rw, 0, some 0⟩]
  -- CORE_SCATW (R78): WIDTH
  | .scatw => [⟨4, 0, .rw, 0, some 0⟩]
  -- CORE_RSCTL (R79): WRAP TOP DEPTH
  | .rsctl => [⟨15, 15, .rw, 0, some 0⟩, ⟨12, 8, .rw, 0, some 0⟩, ⟨5, 0, .rw, 0, some 0⟩]
  -- CORE_DECCTL (R98): PLUS DOM DDM
  | .decctl => [⟨2, 2, .rw, 0, some 0⟩, ⟨1, 1, .rw, 0, some 0⟩, ⟨0, 0, .rw, 0, some 0⟩]
  -- CORE_FPSR (R129): CAUSE SBI IV DZ OF UF NX
  | .fpsr => [⟨19, 16, .rw, 0, some 0⟩, ⟨5, 5, .rw, 0, some 0⟩, ⟨4, 4, .rw, 0, some 0⟩, ⟨3, 3, .rw, 0, some 0⟩, ⟨2, 2, .rw, 0, some 0⟩, ⟨1, 1, .rw, 0, some 0⟩, ⟨0, 0, .rw, 0, some 0⟩]
  -- CORE_LMASK (R175): MASK
  | .lmask => [⟨15, 1, .rw, 32767, some 32767⟩]
  -- CORE_VBR (R177): BASE
  | .vbr => [⟨51, 11, .rw, 0, none⟩]
  -- CORE_LINFO (R183): VECTOR LRET ESCR ADDRV WR SPLIT2 CHAIN FVEC DETAIL
  | .linfo => [⟨63, 56, .rw, 0, some 0⟩, ⟨55, 51, .rw, 0, some 0⟩, ⟨50, 48, .rw, 0, some 0⟩, ⟨47, 47, .rw, 0, some 0⟩, ⟨46, 46, .rw, 0, some 0⟩, ⟨45, 45, .rw, 0, some 0⟩, ⟨44, 44, .rw, 0, some 0⟩, ⟨39, 32, .rw, 0, some 0⟩, ⟨31, 0, .rw, 0, some 0⟩]
  -- CORE_GSP (R186): ADDR
  | .gsp => [⟨41, 3, .rw, 0, some 0⟩]
  -- CORE_APEND (R193): PEND
  | .apend => [⟨5, 0, .w1s, 0, some 0⟩]
  -- CORE_SHSTK (R197): DEPTH BASE
  | .shstk => [⟨40, 32, .rw, 0, some 0⟩, ⟨17, 11, .rw, 0, some 0⟩]
  -- CORE_XOWN (R200): ADDR DIRTY LOADED
  | .xown => [⟨51, 6, .ro, 0, some 0⟩, ⟨1, 1, .ro, 0, some 0⟩, ⟨0, 0, .ro, 0, some 0⟩]
  -- CORE_UCSTAT (R229): IMGID PERR ACTIVE SEAL1 SEAL0
  | .ucstat => [⟨63, 32, .mpo, 0, none⟩, ⟨23, 16, .mpo, 0, none⟩, ⟨8, 8, .mpo, 0, none⟩, ⟨1, 1, .mpo, 0, none⟩, ⟨0, 0, .mpo, 0, none⟩]
  -- CORE_MODE (R232): TXREQ TX STATE
  | .mode => [⟨7, 7, .rw, 0, some 0⟩, ⟨6, 6, .ro, 0, some 0⟩, ⟨2, 0, .mpo, 0, some 0⟩]
  -- CORE_TCMWIN (R242): VBASE
  | .tcmwin => [⟨41, 18, .rw, 1, none⟩]
  -- CORE_TCMBLK (R243): VALID CODE PART KEY FP
  | .tcmblk => [⟨63, 63, .rw, 0, some 0⟩, ⟨62, 62, .rw, 0, none⟩, ⟨57, 48, .rw, 0, none⟩, ⟨47, 40, .rw, 0, none⟩, ⟨39, 39, .rw, 0, none⟩]
  -- CORE_TXSTALL (R246): CYCLES
  | .txstall => [⟨31, 0, .ro, 0, some 0⟩]
  -- CORE_BUDGET (R248): OVER REMAIN
  | .budget => [⟨63, 32, .rw, 0, some 0⟩, ⟨31, 0, .rw, 0, some 0⟩]
  -- CORE_TBASE (R255): PART ROOT EN
  | .tbase => [⟨63, 54, .rw, 0, some 0⟩, ⟨51, 13, .rw, 0, some 0⟩, ⟨0, 0, .rw, 0, some 0⟩]
  -- CORE_KEYCTL (R261): KMASK MKEY
  | .keyctl => [⟨15, 8, .rw, 255, some 255⟩, ⟨1, 1, .rw, 1, some 1⟩]
/-- What the fuses of the device give: the part number and stepping of DEV_ID (R47, R532) and the
serial number (R423). -/
structure Fuses where
  part : Nat
  step : Nat
  serial : Word
  /-- The voltage of VDD_CORE0 and VDD_CORE1 in mV (R494). -/
  vcore : Nat × Nat
  deriving DecidableEq, Repr

/-- The LF-9600 (R1). -/
def Fuses.big (f : Fuses) : Bool := f.part == 0x9600

/-- Home core of position p of slot s (R359); 0 where the slot has no such position. -/
def homeCore (s p : Nat) : Nat :=
  match s with
  | 0 => p | 1 => 2 + p | 2 => 4 + p | 3 => p | 4 => 3 + p | _ => 0

/-- Positions of slot s: 2 for the pair slots A, B, C and 3 for the triad slots T0, T1 (R359). -/
def slotSize (s : Nat) : Nat := if s < 3 then 2 else 3

/-- CLU_SLOT(s) after the slots of mode m (0 PAIR, 1 TRIAD) are assigned their home cores (R359, R390). -/
def homeSlotWord (m s : Nat) : Word :=
  let inMode := if s < 3 then m == 0 else m == 1
  let v := b2n inMode
  setFld (setFld (setFld (setFld (setFld (setFld (setFld 0 30 28 v) 23 23 (if s < 3 then 0 else 1))
    22 20 (if s < 3 then 0 else homeCore s 2)) 19 19 v) 18 16 (homeCore s 1)) 15 15 v) 14 12 (homeCore s 0)

/-- The word that a list of fields makes of their cold values. -/
def coldWord (fs : List Fld) : Word := fs.foldl (fun w f => setFld w f.hi f.lo f.cold) 0

/-- The value of a control-space register after cold reset (the Cold column of its map; R47 FUSE,
R272, R328, R358 and R390 for the values that depend on the part, the copy or the home cores). -/
def Reg.cold (fu : Fuses) : Reg → Word
  | .devId => setFld (setFld 0 47 32 fu.part) 31 24 fu.step
  | .keyFnbind f => setFld 0 63 63 (b2n (f == 0))
  | .tsqExw => setFld 0 31 0 (if fu.big then 25600 else 24000)
  | .intQcfg q => setFld (coldWord (Reg.intQcfg q).fields) 61 59 (q % 8)
  | .cluSlot _ s => homeSlotWord 0 s
  | r => coldWord r.fields

/-- The value a field stores for a written value v, where its map gives a limit (R301, R328, R358,
R415, R490, R514, R524); now is the field's present value. -/
def Reg.clamp : Reg → Nat → Nat → Nat
  | .mcuScrub _, 0, v => if v = 0 then 1 else min v 168
  | .tsqPeriod, 48, v => if v < 4 then 4 else min v 64
  | .intHorizon, 0, v => max v 1000
  | .fmuDegcfg, 16, v => max v 1
  | .fmuDegcfg, 0, v => max v 1
  | .fmuStctl, 24, v => max v 1
  | .hupCfg, 40, v => max v 10
  | .hupCfg, 24, v => min v 15
  | .hupCfg, 12, v => min v 1600
  | .clkCtl, 0, v => min v 5
  | .pwrIoctl, 14, v => min v 2
  | .trcCtl, 40, v => max v 1
  | _, _, v => v

/-- Offset of each control-space register from 0xF_0000_0000_0000 (R49, R50, R263, R301, R328, R358,
R390, R415, R447, R467, R490, R514, R524). MBX_DOORBELL, MBX_STATUS and MBX_CTRL stand at the offsets
of the management processor's view. -/
def Reg.offset : Reg → Nat
  | .devId => 0
  | .cluSignal c k => 0x1000000 + c * 0x100000 + 0x100 + k * 8
  | .keyPtctl p => 0x40000 + p * 0x20
  | .keyPtroot p => 0x40008 + p * 0x20
  | .keyFkset => 0x48000
  | .keyFkres _ => 0x48008
  | .keyGrant g => 0x50000 + g * 8
  | .keyFnbind f => 0x68000 + f * 8
  | .keyQbind q => 0x60000 + q * 8
  | .mcuStatus ch => 0x200000 + ch * 0x10000
  | .mcuEcccnt ch => 0x200008 + ch * 0x10000
  | .mcuScrub ch => 0x200010 + ch * 0x10000
  | .mcuPpr ch => 0x200018 + ch * 0x10000
  | .npuStatus ch => 0x208000 + ch * 0x10000
  | .npuCnt ch => 0x208008 + ch * 0x10000
  | .tsqTick => 0x20000
  | .tsqPeriod => 0x20008
  | .tsqStatus => 0x20010
  | .tsqSealed => 0x20018
  | .tsqAdmit => 0x20020
  | .tsqExw => 0x20028
  | .tsqCnt => 0x20030
  | .intStatus => 0x100000
  | .intHorizon => 0x100008
  | .intNextisn => 0x100010
  | .intIdemcnt => 0x100018
  | .intQcfg q => 0x110000 + q * 0x20
  | .intSqbase q => 0x110008 + q * 0x20
  | .intCqbase q => 0x110010 + q * 0x20
  | .intCqtail q => 0x110018 + q * 0x20
  | .intRqarea p => 0x140000 + p * 0x10
  | .intProgtab p => 0x140008 + p * 0x10
  | .vltStatus => 0x30000
  | .vltRtick => 0x30008
  | .vltDump => 0x30010
  | .cluMode c => 0x1000000 + c * 0x100000
  | .cluSlot c s => 0x1000010 + c * 0x100000 + s * 8
  | .chkStatus c => 0x1010000 + c * 0x100000
  | .chkMismatch c => 0x1010008 + c * 0x100000
  | .chkMismatchy c => 0x1010010 + c * 0x100000
  | .chkCnt c => 0x1010018 + c * 0x100000
  | .fmuStatus => 0x10000
  | .fmuDegcfg => 0x10008
  | .fmuLoss => 0x10010
  | .fmuLogstat => 0x10018
  | .fmuStctl => 0x10020
  | .fmuDegcnt => 0x10028
  | .fmuRoute i => 0x10100 + i * 8
  | .fabPstatus p => 0x300000 + p * 0x10000
  | .fabPctl p => 0x300008 + p * 0x10000
  | .fabPcnt p => 0x300010 + p * 0x10000
  | .fabPdelay p => 0x300018 + p * 0x10000
  | .fabRole => 0x380000
  | .fabPartner => 0x380008
  | .fabLease => 0x380010
  | .fabRtctl => 0x380018
  | .fabTime => 0x380020
  | .fabRoute d => 0x388000 + d * 8
  | .mbxDoorbell m => 0x500000 + m * 0x1000
  | .mbxStatus m => 0x500008 + m * 0x1000
  | .mbxCtrl m => 0x500010 + m * 0x1000
  | .mbxOwner m => 0x510000 + m * 8
  | .hifLink => 0x400000
  | .hifCtl => 0x400008
  | .dbgStatus => 0x700000
  | .dbgNonce i => 0x700010 + i * 8
  | .dbgAuthcmd => 0x700040
  | .dbgSig i => 0x700048 + i * 8
  | .dbgHalt => 0x700200
  | .dbgStep => 0x700208
  | .dbgReq => 0x700210
  | .dbgMaaddr => 0x700300
  | .dbgMactl => 0x700308
  | .dbgMadata => 0x700310
  | .dbgTomon c => 0x701000 + c * 16
  | .dbgFrommon c => 0x701008 + c * 16
  | .trcCtl => 0x780000
  | .trcStatus => 0x780008
  | .trcRdptr => 0x780010
  | .hupStatus => 0x38000
  | .hupCfg => 0x38008
  | .hupEst => 0x38010
  | .hupMeas => 0x38018
  | .pwrRail i => 0x600000 + i * 8
  | .pwrTherm => 0x600100
  | .pwrSensinv => 0x600108
  | .pwrIoctl => 0x600200
  | .clkCtl => 0x601000
  | .rstCtl => 0x602000
  | .rstCause => 0x602008
  | .rstPart => 0x602010

/-- What a control-space offset names (R49 to R52): a register, a core's CSR window, a word of the
device log window, an offset of an assigned block with no register, or nothing assigned. -/
inductive CtlAddr where
  | reg (r : Reg)
  | csr (core num : Nat)
  | log (slot word : Nat)
  | none
  | unassigned
  deriving DecidableEq, Repr

/-- The register at offset o of a cluster window (R50, R390). -/
def cluAddr (c o : Nat) : CtlAddr :=
  if o = 0 then .reg (.cluMode c)
  else if 0x10 ≤ o ∧ o < 0x38 then .reg (.cluSlot c ((o - 0x10) / 8))
  else if 0x100 ≤ o ∧ o < 0x140 then .reg (.cluSignal c ((o - 0x100) / 8))
  else if o = 0x10000 then .reg (.chkStatus c)
  else if o = 0x10008 then .reg (.chkMismatch c)
  else if o = 0x10010 then .reg (.chkMismatchy c)
  else if o = 0x10018 then .reg (.chkCnt c)
  else if 0x80000 ≤ o then .csr (c * 8 + (o - 0x80000) / 0x10000) ((o % 0x10000) / 8)
  else .none

/-- The KEY block, master m (R263 and the register summary of chapter 10). -/
def keyAddr (m o : Nat) : CtlAddr :=
  if o < 0x8000 then
    if o % 0x20 = 0 then .reg (.keyPtctl (o / 0x20))
    else if o % 0x20 = 8 then .reg (.keyPtroot (o / 0x20)) else .none
  else if o = 0x8000 then .reg .keyFkset
  else if o = 0x8008 then .reg (.keyFkres m)
  else if 0x10000 ≤ o ∧ o < 0x18000 then .reg (.keyGrant ((o - 0x10000) / 8))
  else if 0x20000 ≤ o ∧ o < 0x28000 then .reg (.keyQbind ((o - 0x20000) / 8))
  else if 0x28000 ≤ o ∧ o < 0x28800 then .reg (.keyFnbind ((o - 0x28000) / 8))
  else .none

/-- The INT block (R358). -/
def intAddr (o : Nat) : CtlAddr :=
  if o = 0 then .reg .intStatus else if o = 8 then .reg .intHorizon
  else if o = 0x10 then .reg .intNextisn else if o = 0x18 then .reg .intIdemcnt
  else if 0x10000 ≤ o ∧ o < 0x30000 then
    let q := (o - 0x10000) / 0x20
    match o % 0x20 with
    | 0 => .reg (.intQcfg q) | 8 => .reg (.intSqbase q)
    | 0x10 => .reg (.intCqbase q) | 0x18 => .reg (.intCqtail q) | _ => .none
  else if 0x40000 ≤ o ∧ o < 0x44000 then
    match o % 0x10 with
    | 0 => .reg (.intRqarea ((o - 0x40000) / 0x10))
    | 8 => .reg (.intProgtab ((o - 0x40000) / 0x10))
    | _ => .none
  else .none

/-- The DBG and TRC block (R490). -/
def dbgAddr (o : Nat) : CtlAddr :=
  if o = 0 then .reg .dbgStatus
  else if 0x10 ≤ o ∧ o < 0x40 then .reg (.dbgNonce ((o - 0x10) / 8))
  else if o = 0x40 then .reg .dbgAuthcmd
  else if 0x48 ≤ o ∧ o < 0xA8 then .reg (.dbgSig ((o - 0x48) / 8))
  else if o = 0x200 then .reg .dbgHalt else if o = 0x208 then .reg .dbgStep
  else if o = 0x210 then .reg .dbgReq else if o = 0x300 then .reg .dbgMaaddr
  else if o = 0x308 then .reg .dbgMactl else if o = 0x310 then .reg .dbgMadata
  else if 0x1000 ≤ o ∧ o < 0x2000 then
    if o % 16 = 0 then .reg (.dbgTomon ((o - 0x1000) / 16)) else .reg (.dbgFrommon ((o - 0x1000) / 16))
  else if o = 0x80000 then .reg .trcCtl else if o = 0x80008 then .reg .trcStatus
  else if o = 0x80010 then .reg .trcRdptr
  else .none

/-- The PWR, CLK and RST block (R514, R524). -/
def pwrAddr (o : Nat) : CtlAddr :=
  if o < 0x40 then .reg (.pwrRail (o / 8))
  else if o = 0x100 then .reg .pwrTherm else if o = 0x108 then .reg .pwrSensinv
  else if o = 0x200 then .reg .pwrIoctl else if o = 0x1000 then .reg .clkCtl
  else if o = 0x2000 then .reg .rstCtl else if o = 0x2008 then .reg .rstCause
  else if o = 0x2010 then .reg .rstPart
  else .none

/-- What the 8-byte aligned offset o of control space names for master m (R49 to R52). -/
def CtlAddr.ofOffset (m o : Nat) : CtlAddr :=
  if o < 0x10000 then if o = 0 then .reg .devId else .none
  else if o < 0x20000 then
    let p := o - 0x10000
    if p = 0 then .reg .fmuStatus else if p = 8 then .reg .fmuDegcfg
    else if p = 0x10 then .reg .fmuLoss else if p = 0x18 then .reg .fmuLogstat
    else if p = 0x20 then .reg .fmuStctl else if p = 0x28 then .reg .fmuDegcnt
    else if 0x100 ≤ p ∧ p < 0x180 then .reg (.fmuRoute ((p - 0x100) / 8)) else .none
  else if o < 0x30000 then
    match o - 0x20000 with
    | 0 => .reg .tsqTick | 8 => .reg .tsqPeriod | 0x10 => .reg .tsqStatus | 0x18 => .reg .tsqSealed
    | 0x20 => .reg .tsqAdmit | 0x28 => .reg .tsqExw | 0x30 => .reg .tsqCnt | _ => .none
  else if o < 0x40000 then
    match o - 0x30000 with
    | 0 => .reg .vltStatus | 8 => .reg .vltRtick | 0x10 => .reg .vltDump
    | 0x8000 => .reg .hupStatus | 0x8008 => .reg .hupCfg | 0x8010 => .reg .hupEst
    | 0x8018 => .reg .hupMeas | _ => .none
  else if o < 0x80000 then keyAddr m (o - 0x40000)
  else if o < 0x100000 then .unassigned
  else if o < 0x200000 then intAddr (o - 0x100000)
  else if o < 0x2C0000 then
    let ch := (o - 0x200000) / 0x10000
    match o % 0x10000 with
    | 0 => .reg (.mcuStatus ch) | 8 => .reg (.mcuEcccnt ch) | 0x10 => .reg (.mcuScrub ch)
    | 0x18 => .reg (.mcuPpr ch) | 0x8000 => .reg (.npuStatus ch) | 0x8008 => .reg (.npuCnt ch)
    | _ => .none
  else if o < 0x300000 then .unassigned
  else if o < 0x380000 then
    let p := (o - 0x300000) / 0x10000
    match o % 0x10000 with
    | 0 => .reg (.fabPstatus p) | 8 => .reg (.fabPctl p) | 0x10 => .reg (.fabPcnt p)
    | 0x18 => .reg (.fabPdelay p) | _ => .none
  else if o < 0x390000 then
    if o = 0x380000 then .reg .fabRole else if o = 0x380008 then .reg .fabPartner
    else if o = 0x380010 then .reg .fabLease else if o = 0x380018 then .reg .fabRtctl
    else if o = 0x380020 then .reg .fabTime
    else if 0x388000 ≤ o then .reg (.fabRoute ((o - 0x388000) / 8)) else .none
  else if o < 0x400000 then .unassigned
  else if o < 0x500000 then
    if o = 0x400000 then .reg .hifLink else if o = 0x400008 then .reg .hifCtl else .none
  else if o < 0x600000 then
    let p := o - 0x500000
    if 0x10000 ≤ p ∧ p < 0x10100 then .reg (.mbxOwner ((p - 0x10000) / 8))
    else if p < 0x20000 then
      match p % 0x1000 with
      | 0 => .reg (.mbxDoorbell (p / 0x1000)) | 8 => .reg (.mbxStatus (p / 0x1000))
      | 0x10 => .reg (.mbxCtrl (p / 0x1000)) | _ => .none
    else .none
  else if o < 0x700000 then pwrAddr (o - 0x600000)
  else if o < 0x800000 then dbgAddr (o - 0x700000)
  else if o < 0x810000 then .none
  else if o < 0x900000 then .unassigned
  else if o < 0x940000 then .log ((o - 0x900000) / 0x40) ((o % 0x40) / 8)
  else if o < 0x1000000 then .unassigned
  else if o < 0x3000000 then cluAddr ((o - 0x1000000) / 0x100000) (o % 0x100000)
  else if o < 0x3080000 then .none
  else .unassigned

end Sys2Proof.Machine
end

