-- ==== Sys2Proof/Machine/MemState.lean ====
section
/-!
DEFINITION. The state of the memory channels and posting units (chapter 11) and of the fault management
unit (chapter 15).
-/
namespace Sys2Proof.Machine

/-- State of a posting-cache entry (R285). -/
inductive NSt where
  | clean | held | staged | flipped
  deriving DecidableEq, Repr

/-- A posting-cache entry (R285): the balance word's physical address, its committed value and tag, its
running value, the log index of its last entry in the tick (0xFFFF: none) and its state. The list that
holds the entries is in order of use, latest first. -/
structure NEntry where
  addr : Nat
  c : TWord
  r : TWord
  last : Nat
  st : NSt
  /-- The exact-lane runs that touches hold the word for (R288, R318). -/
  holders : List Nat
  /-- On a LOST channel: the tick until whose sealing the entry is kept (R284). -/
  pin : Option Nat
  /-- Filled in this tick (R287). -/
  fresh : Bool
  deriving DecidableEq, Repr

/-- The entry serves its word in this tick (R284, R287): the first request on a word in a tick fills its entry, so that a
CLEAN entry of an earlier tick serves no request, but one that is pinned holds the only copy. -/
def NEntry.serves (x : NEntry) : Bool := x.fresh || x.st != .clean || x.pin.isSome

/-- KIND of a posting log entry (R290). -/
inductive LKind where
  | post | refused | read | remote
  deriving DecidableEq, Repr

/-- A posting log entry (R290). owner is the ISN of the local run, or the issuing device of a REMOTE
entry; floor is the floor of a REMOTE entry (R297). -/
structure LogE where
  okey : Nat
  lseq : Nat
  prev : Nat
  kind : LKind
  rolled : Bool
  floored : Bool
  word : Nat
  amount : Word
  after : Word
  owner : Nat
  floor : Option Word
  deriving DecidableEq, Repr

/-- A request that waits in a posting unit's queue (R287, R288, R289). -/
inductive NReq where
  /-- A POST of a core: its instruction word and effective address, ISN and order key of its run, the balance
  word, amount and floor; exact-lane requests go first. -/
  | post (core w ea isn okey word : Nat) (amount : Word) (floor : Option Word) (exact : Bool)
  /-- A PREAD of a core. -/
  | pread (core w ea isn okey word : Nat) (exact : Bool)
  /-- A remote POST of device src with its tag (R296, R438). -/
  | remote (src rid okey tick word : Nat) (amount : Word) (floor : Option Word)
  /-- A stage-in touch for the run with this ISN. -/
  | touch (isn : Nat) (word : Nat)
  deriving DecidableEq, Repr

/-- The word of a request. -/
def NReq.word : NReq → Nat
  | .post _ _ _ _ _ w _ _ _ => w
  | .pread _ _ _ _ _ w _ => w
  | .remote _ _ _ _ w _ _ => w
  | .touch _ w => w

/-- The run whose POST or PREAD it is. -/
def NReq.run : NReq → Option Nat
  | .post _ _ _ i _ _ _ _ _ => some i
  | .pread _ _ _ i _ _ _ => some i
  | _ => none

/-- One posting unit (R285 to R289). -/
structure Npu where
  cache : List NEntry
  log : List LogE
  queue : List NReq
  /-- Words whose fill from DRAM is under way (R287). -/
  fills : List Nat
  /-- NPU_FULL was recorded in this tick (R289). -/
  fullSeen : Bool
  /-- NPU_STATUS.STALLFULL (R301). -/
  stallFull : Bool
  /-- NPU_STATUS.TEST and the slice of the test that runs next (R300, R402). -/
  test : Bool
  slice : Nat
  /-- Aborted test slices in a row (R404). -/
  starved : Nat
  /-- The unit was lost in this tick (R299, R539). -/
  lostNow : Bool
  deriving DecidableEq, Repr

/-- A posting unit after reset: empty (R285, R301). -/
def Npu.cold : Npu := ⟨[], [], [], [], false, false, false, 0, 0, false⟩

/-- Who reads a memory line (R279): the unit of a core, a posting unit that fills the entry of a word, or a remote operation
with its source and RID. -/
inductive Reader where
  | core (e : Nat)
  | fill (word : Nat)
  | remote (src rid : Nat)
  deriving DecidableEq, Repr

/-- A memory line with an error (R279): uncorrectable and not handled yet, or being fetched from the replica, or a line of
the partner's data whose contents are lost. -/
inductive LineSt where
  | ok | ue | fetching | stale
  /-- Fetched from the replica for a LOST channel, which keeps no copy: good for one access (R284). -/
  | served
  deriving DecidableEq, Repr

/-- A corrected error of a channel (R278, R282): the DIMM rank, the device, its row, the line, and when. -/
structure CeRec where
  rank : Nat
  dev : Nat
  row : Nat
  line : Nat
  time : Nat
  deriving DecidableEq, Repr

/-- The symbols in error that a read finds in a line's code word (R278): the DIMM rank, the row, and for each device
position how many of its 8 symbols are in error. No device: no error. -/
structure Ecc where
  rank : Nat
  row : Nat
  errs : List (Nat × Nat)
  deriving DecidableEq, Repr

/-- Run-time state of one memory channel beside its registers (R278, R282). -/
structure Chan where
  /-- Corrected errors of the last 24 h. -/
  ce : List CeRec
  /-- Devices marked failed: rank and device (R278, R283). -/
  failed : List (Nat × Nat)
  /-- Rows that produced an uncorrectable error: rank, device and row (R282). -/
  ueRows : List (Nat × Nat × Nat)
  /-- Rows repaired by soft repair, replayed as hard repair at the next cold reset, and those so repaired (R282). -/
  soft : List (Nat × Nat × Nat)
  hard : List (Nat × Nat × Nat)
  /-- The next line that patrol scrub reads. -/
  patrol : Nat
  deriving DecidableEq, Repr

/-- A channel after reset. -/
def Chan.cold : Chan := ⟨[], [], [], [], [], 0⟩

/-- The ledger memory layout (R45): sizes in bytes of the own ledger area M, the unmirrored area U, the
replica area P, and the installed capacity C. -/
structure Layout where
  cap : Nat
  m : Nat
  u : Nat
  p : Nat
  deriving DecidableEq, Repr

/-- An error record (R391). cls is CLASS, detail the 16 bytes of DETAIL as one number. -/
structure Rec where
  cls : Nat
  close : Bool
  gap : Bool
  level : Nat
  sig : Nat
  root : Nat
  first : Nat
  count : Nat
  time : Nat
  tick : Nat
  bitmap : Nat
  rseq : Nat
  detail : Nat
  deriving DecidableEq, Repr

/-- One aggregator (R397 to R399, R536): open entries, whether an EVENT was discarded since the last one
passed upward, and the TRACE records discarded since the last one passed upward. -/
structure Agg where
  entries : List Rec
  evLost : Bool
  trLost : Nat
  deriving DecidableEq, Repr

/-- An aggregator after reset. -/
def Agg.cold : Agg := ⟨[], false, 0⟩

/-- A locator word in fields (R40). -/
structure Loc where
  dev : Nat
  depth : Nat
  die : Nat
  region : Nat
  cluster : Nat
  core : Nat
  slot : Nat
  element : Nat
  deriving DecidableEq, Repr

/-- The fault management unit (chapter 15). -/
structure Fmu where
  /-- Aggregators by key (level × 1,000 + index). -/
  aggs : SMap Agg
  /-- ALARM records that wait for an entry or a log slot: (aggregator key, record) (R399). -/
  waiting : List (Nat × Rec)
  /-- Undrained device log records in writing order, with their slots (R400). -/
  log : List (Nat × Rec)
  /-- Contents of the log window slots (R415). -/
  slots : SMap Rec
  /-- Next log sequence number (R391). -/
  rseq : Nat
  /-- A record of class EVENT, TRACE was discarded at the device log since the last one written (R536). -/
  logLostEv : Bool
  logLostTr : Bool
  /-- Records that the management processor still has to pass to the fabric manager (R398, R538). -/
  forward : List Rec
  /-- FMU_LOSS (R415). -/
  loss : Word
  /-- In-service tests aborted in a row, by core, and by 1,000 + cluster × 8 + slot (R404). -/
  starved : SMap Nat
  /-- A fault has cost full protection, and it is not restored yet (R18); the same of the partner's protection by this
  device's replica (R279, R284): the spec names no record that reports its loss. -/
  unprot : Bool
  ptnUnprot : Bool
  /-- Causes of R409 that the detectors report as present, bit i for cause i. -/
  causes : Word
  deriving DecidableEq, Repr

/-- The empty record that an unused log slot reads as. -/
def Rec.empty : Rec := ⟨0, false, false, 0, 0, 0, 0, 0, 0, 0, 0, 0, 0⟩

/-- The fault management unit after cold reset (R415). -/
def Fmu.cold : Fmu := ⟨[], [], [], [], 0, false, false, [], 0, [], false, false, 0⟩

/-- Pending asynchronous requests of one core (R191): bits of CORE_APEND and the DETAIL of each vector. -/
structure Async where
  pend : Word
  detail : SMap Nat
  deriving DecidableEq, Repr

/-- No request pending (R202). -/
def Async.cold : Async := ⟨0, []⟩

end Sys2Proof.Machine
end

