-- ==== Sys2Proof/Machine/Payload.lean ====
section
/-!
DEFINITION. What commands carry from outside: journal records (R340 to R342), the messages of the fabric
(R420, R422, R423, R438), mailbox requests (R457, R463), and the facts of the environment.
-/
namespace Sys2Proof.Machine

/-! Journal records. -/

/-- The type-specific part of a journal record (R341, R342). Order keys and idempotency keys are numbers;
payload is the 448 bytes of PAYLOAD, res the 64 bytes of RESULT. sqidx is no part of the record's bytes: R342 has no field
for SQIDX, which R15 needs at the survivor (DESIGN CHOICE, log 90). -/
inductive JBody where
  | accept (isn idem queue part prog plen check : Nat) (payload : List Byte) (sqidx : Nat)
  | result (isn queue status okey : Nat) (res : List Byte) (entries : List LogE)
  | commit (tick nres : Nat) (entries : List LogE)
  | release (queue okey : Nat)
  | retire (queue okey : Nat)
  deriving DecidableEq, Repr

/-- A journal record: RSN, key epoch and TAG (R340), and its body. -/
structure JRec where
  rsn : Nat
  keyep : Nat
  tag : Nat
  body : JBody
  deriving DecidableEq, Repr

/-! Messages of the fabric. -/

/-- SUB of LEASE (R422). -/
inductive LeaseSub where
  | renew | ok | denied | takeoverReq | grant
  deriving DecidableEq, Repr

/-- SUB of HANDOVER (R422). -/
inductive HandSub where
  | req | ack | refused
  deriving DecidableEq, Repr

/-- A Pronghorn beacon (R423). devid holds IDVALID in bit 15. -/
structure Beacon where
  serial : Nat
  sysid : Nat
  devid : Nat
  port : Nat
  roles : Nat
  pri : Nat
  epoch : Nat
  best : Nat
  deriving DecidableEq, Repr

/-- A remote operation (R438). -/
structure RReq where
  ra : Nat
  amount : Word
  floor : Option Word
  okey : Nat
  spart : Nat
  rid : Nat
  tick : Nat
  deriving DecidableEq, Repr

/-- A reply to a remote operation (R438, R439). -/
structure RReply where
  rid : Nat
  status : Nat
  vec : Nat
  detail : Nat
  value : Word
  tick : Nat
  deriving DecidableEq, Repr

/-- A route update entry (R428): destination and FAB_ROUTE value. -/
structure RouteUpd where
  dst : Nat
  val : Word
  deriving DecidableEq, Repr

/-- A stored response (R457). -/
structure OmiResp where
  cmd : Nat
  status : Nat
  seq : Nat
  detail : Nat
  data : List Byte
  deriving DecidableEq, Repr

/-- What a MANAGE frame carries (R420, R424, R425, R428, R461). -/
inductive Manage where
  /-- Announcement of the fabric manager with this device ID and of the time master. -/
  | announce (fmid tmid : Nat)
  /-- ID assignment: the device with this serial receives this ID, and joins the system with this SYSID (R423, log 130). -/
  | assign (serial id sysid : Nat)
  /-- The binding of this serial is removed from the copies of the ID table (R425). -/
  | unbind (serial : Nat)
  /-- Route update: epoch E + 1 from the pulse of a tick. -/
  | routes (epoch tick : Nat) (entries : List RouteUpd)
  /-- An error record for the system aggregator (R398, R538). -/
  | record (r : Rec)
  /-- The response to a command that the fabric manager sent (R461). -/
  | response (r : OmiResp)
  deriving DecidableEq, Repr

/-- A line of 8 words with tags (R279). -/
abbrev Line := List TWord

/-- A frame image (R280): the frame number and its 4,096 bytes with the tags of its 512 words. -/
structure FrameImg where
  frame : Nat
  bytes : List Byte
  tags : List Tag
  deriving DecidableEq, Repr

/-- A partition's data shipped to the partner (R276): KEY_PTCTL, KEY_PTROOT, grants, keys of frames (the key, plus 256
when FP = 1) and table frames; part 1,024 holds keys of frames alone, or the ledger area that goes back, and part 1,025 the
sender's own ledger area for the receiver's replica (R355, R436). -/
structure Tables where
  part : Nat
  ptctl : Word
  ptroot : Word
  grants : List (Nat × Word)
  keys : List (Nat × Nat)
  frames : List FrameImg
  deriving DecidableEq, Repr

/-- An idempotency table entry (R335): KEY, CHECK, STATE (0 FREE, 1 INFLIGHT, 2 DONE), QUEUE, ORDER_KEY.
isn and result are what R337 answers for a duplicate. -/
structure Idem where
  key : Nat
  check : Nat
  st : Nat
  queue : Nat
  okey : Nat
  isn : Nat
  result : List Byte
  /-- For work of the mirror partner: the partition to which its queue is bound there (R334, R357). -/
  bound : Option Nat
  deriving DecidableEq, Repr

/-- Idempotency entries by their places in a table (R335). -/
abbrev IdemTable := List (Nat × Idem)

/-- A FREE entry. -/
def Idem.free : Idem := ⟨0, 0, 0, 0, 0, 0, [], none⟩

/-- The posting log of a tick as shipped (R295): the surviving POST and REMOTE entries by channel in LSEQ
order, frame images, and the result, commit, release and retire records that go with it (R349, R350). -/
structure PostLog where
  tick : Nat
  entries : List LogE
  images : List FrameImg
  recs : List JRec
  deriving DecidableEq, Repr

/-- A message between devices, by TYPE (R420, R422). -/
inductive Msg where
  | beacon (b : Beacon)
  | manage (m : Manage)
  | timeProbe (stamp : Nat)
  | timeSync (time tick : Nat) (history : List (Nat × Nat))
  | heartbeat (mseq : Nat) (warm fawn : Bool) (tick time isSealed : Nat)
  | lease (mseq : Nat) (sub : LeaseSub) (tick subject lasthb : Nat)
  | handover (mseq : Nat) (sub : HandSub) (tick isSealed nreq reason : Nat)
  | remoteClose (mseq tick issuer : Nat) (keys : List Nat)
  | rollback (mseq : Nat) (ack : Bool) (tick okey : Nat)
  | remoteLost (mseq tick okey words : Nat)
  | journal (r : JRec)
  | postlog (p : PostLog)
  | remoteEntry (src rid : Nat) (e : LogE)
  | remoteAck (src rid : Nat)
  | pin (mseq tick trigger : Nat) (recs : List JRec)
  | mirrorAck (mseq tick typ acked : Nat)
  | rpost (r : RReq)
  | rread (r : RReq)
  | rreply (r : RReply)
  | repairReq (line : Nat)
  | repairReply (line : Nat) (data : Line)
  | tables (t : Tables)
  | restore (t : Tables) (recs : List JRec) (idem : IdemTable)
  deriving DecidableEq, Repr

/-- A message that the endpoint has sent: destination, PAIRCAST (R433), on both paths (R427), and on the other path of its
route (R344). -/
structure OutMsg where
  dst : Nat
  paircast : Bool
  both : Bool
  msg : Msg
  alt : Bool
  deriving DecidableEq, Repr

/-- The BARs of a function (R449). -/
inductive Bar where
  | bar0 | bar2 | bar4
  deriving DecidableEq, Repr

/-- Who accesses a register (R7, R53, R467): a core at P0 in partition 0, the management processor, the debug domain
under its session, or a host function through a BAR, with the number of bytes of the access. -/
inductive Master where
  | core (e : Fin 256)
  | mp
  | dbg
  | host (fn : Fin 256) (bar : Bar) (size : Nat)
  deriving DecidableEq, Repr

/-- The value that a host write carries, and its number of bytes (R449). -/
structure HostWord where
  val : BitVec 64
  size : Nat
  deriving DecidableEq, Repr

/-- A write of the host to BAR0 or BAR2 has 4 or 8 bytes (R449). -/
def HostWord.fits (w : HostWord) : Bool := w.size == 4 || w.size == 8

/-- What the mirror partner acknowledges (R343, R422, R440): journal records up to an RSN, or that it refuses further
ACCEPT records (R351); the posting log of a tick; a PIN message; the REMOTE entry of a remote operation. -/
inductive MirAck where
  | journal (rsn : Nat) (refused : Bool)
  | postlog (tick : Nat)
  | pin (mseq : Nat)
  | remote (src rid : Nat)
  deriving DecidableEq, Repr

/-- What comes with TIME_SYNC (R304, R429, R430): the offset that the receiver measures, in ns, and the master's period
history, which a joining device takes (log 94). -/
structure SyncData where
  offset : BitVec 16
  history : List (Nat × Nat)
  deriving DecidableEq, Repr

/-- The device that a message of R422 comes from, and its MSEQ. -/
structure Sender where
  src : Fin 4096
  mseq : BitVec 32
  deriving DecidableEq, Repr

/-- What comes with TYPE POSTLOG: the posting log of a tick (R295), or one REMOTE entry of the partner's posting units, with
the issuer and RID of its RPOST (R440). -/
inductive LogMsg where
  | tick (p : PostLog)
  | entry (src rid : Nat) (e : LogE)
  deriving DecidableEq, Repr

/-- What a REMOTE_CLOSE says (R442). -/
structure CloseRec where
  issuer : Nat
  tick : Nat
  keys : List Nat
  deriving DecidableEq, Repr

/-- A PIN record (R441). -/
structure PinRec where
  tick : Nat
  trigger : Nat
  recs : List JRec
  deriving DecidableEq, Repr

/-- A frame that a device forwards (R417, R427): TYPE, source, destination, PATH and HOPS. -/
structure Transit where
  typ : BitVec 8
  src : Fin 4096
  dst : Fin 4096
  path : Bool
  hops : Fin 16
  deriving DecidableEq, Repr

/-- What comes back to a device with its partitions (R436): journal records, and idempotency entries by their places. -/
structure ReturnedWork where
  recs : List JRec
  idem : IdemTable
  deriving DecidableEq, Repr

/-- The extension word of STM or LDM, and after how many registers an interrupt is to be taken, if one is (R82). -/
structure MultiExt where
  ext : BitVec 32
  stop : Option Nat
  deriving DecidableEq, Repr

/-- A DRAM device of a channel: its DIMM rank and its position there (R278, R282). -/
structure DramDevice where
  rank : BitVec 32
  pos : BitVec 32
  deriving DecidableEq, Repr

/-! Mailboxes. -/

/-- Who sends a command (R461): a mailbox, or the fabric manager with its device ID. -/
inductive OmiSrc where
  | mbx (m : Fin 32)
  | fm (id : Fin 4096)
  deriving DecidableEq, Repr

/-- A request (R457): header fields and the parameter bytes from 0x20; PLEN is their number. rsvA and rsvB are the reserved
header fields at 0x0A and 0x1C. -/
structure OmiReq where
  flags : Nat
  seq : Nat
  daddr : Nat
  dlen : Nat
  params : List Byte
  rsvA : Nat
  rsvB : Nat
  deriving DecidableEq, Repr

/-- What the environment contributes to an OMI command: the data at DADDR, whether the accesses to the
buffer succeed (R458), whether the mirror partner acknowledges within the limit (R466). -/
structure OmiEnv where
  buf : List Byte
  dmaOk : Bool
  ack : Bool
  deriving DecidableEq, Repr

/-- A firmware slot, or an image for one: its version, its MINVER, and whether its signature verifies (R456). -/
structure FwImg where
  version : Nat
  minver : Nat
  valid : Bool
  deriving DecidableEq, Repr

/-! Level entry (R180). -/

/-- What makes a core enter a level at a boundary. -/
inductive EntryCause where
  /-- The highest pending unmasked asynchronous request (R174, R176). -/
  | request
  /-- A machine check of a source with its code and address (R395). -/
  | machineCheck (src addr : Nat)
  /-- The instruction at PC is this word, whose opcode R148 leaves unassigned. -/
  | unassigned (w : BitVec 32)
  /-- The instruction at PC is fetched: a fault of the fetch itself is taken (R149). -/
  | fetch
  /-- SECDED in a cache that serves the core could not correct these words of working storage (R238). -/
  | cacheError (words : List Nat)
  /-- SECDED in the core's TCM could not correct this word (R245). -/
  | tcmError (word : Nat)
  deriving DecidableEq, Repr

/-- What an injection pass on a slot finds (R383, R384): the checks that copy X, and that copy Y, fails. Check 0 is
step 1, checks 1 to 48 the groups 0 to 47 of step 2, higher numbers the delay stages of step 3. -/
structure Chamois where
  x : List Nat
  y : List Nat
  deriving DecidableEq, Repr

/-- A slot's finding in a pass over a cluster: SLOT code and what the pass finds. -/
structure SlotPass where
  slot : Nat
  res : Chamois
  deriving DecidableEq, Repr

/-! Reset and power. -/

/-- What the Chamois pass on a cluster finds (R382). -/
structure ClusterPass where
  cluster : Nat
  slots : List SlotPass
  deriving DecidableEq, Repr

/-- What the start of the cores finds (R230, R382, R507, R510): the cores that fail BOOT self-test, and the findings of
the Chamois passes. -/
structure BootEnv where
  fail : List Nat
  passes : List ClusterPass
  deriving DecidableEq, Repr

/-- What starts a cold reset (R506). -/
inductive ColdKind where
  | powerUp | pin | request
  deriving DecidableEq, Repr

/-- The state of the mirror partner after a cold reset of this device (R355): it took over the work; it runs and did not,
with its replica of the own area up to a SEALED tick, the keys of its frames (the key, plus 256 when FP = 1) and its copy
of the idempotency table; or it restarts from a dump itself. -/
inductive PtnState where
  | took
  | running (upTo : Nat) (area : List FrameImg) (keys : List (Nat × Nat)) (idem : List (Nat × Idem))
  | restarting
  deriving DecidableEq, Repr

/-- What a cold reset finds (R277, R282, R355, R506, R510): the capacity of each channel in GiB (none: training failed) and
its repair resources, the dump slots (R354), the vendor release with its microwords and nanowords (R204), and the partner. -/
structure ColdEnv where
  kind : ColdKind
  boot : BootEnv
  dimms : List (Option Nat)
  /-- DIMMs fitted to each channel (R301). -/
  dpc : List Nat
  ppr : List Nat
  /-- The dump slot pairs that bad blocks have cost since the last cold reset (R354). -/
  lostSlots : Nat
  release : Nat
  micro : List Nat
  nano : List Nat
  ptn : PtnState
  deriving DecidableEq, Repr

/-- What a regulator reports (R494, R514): mV, 0.1 A, degrees and STATUS_WORD. -/
structure RailRead where
  vmv : Nat
  ida : Nat
  tc : Nat
  stat : Nat
  deriving DecidableEq, Repr

end Sys2Proof.Machine
end

