-- ==== Sys2Proof/Syntax.lean ====
section
/-!
DEFINITION. The commands of the device: one constructor for each row of spec/opcode_table.json, in the
table's order. A core instruction carries the executing core e (device-wide number, R39), its first word w
and its extension word x (read when bit L of w is 1, R74); the fields are those of R145. Every other row
carries what its rule takes from outside the step: which instance it acts on, the value written, the frame
received, and the facts of the environment (the outcome of a test, a sample, an error of a transfer).
-/
namespace Sys2Proof

open Sys2Proof.Machine

inductive Instr where
  /-- NOP (R151): Instruction that does nothing and retires. -/
  | nop (e : Fin 256) (w x : BitVec 32)
  /-- JMP (R151): Instruction that transfers control to the effective address, conditionally when COND is not AL. -/
  | jmp (e : Fin 256) (w x : BitVec 32)
  /-- CALL (R152): Instruction that pushes a CODE-tagged return address on the return stack and jumps. -/
  | call (e : Fin 256) (w x : BitVec 32)
  /-- RET (R152): Instruction that pops a CODE-tagged return address from the return stack and jumps to it. -/
  | ret (e : Fin 256) (w x : BitVec 32)
  /-- RETL (R153): Instruction that ends service of the current level and returns through the level link, or chains to a pending level. -/
  | retl (e : Fin 256) (w x : BitVec 32)
  /-- SVC (R154): Instruction that raises the SVC trap with number n. -/
  | svc (e : Fin 256) (w x : BitVec 32)
  /-- SYNC (R86): Instruction that is a synchronising event for needs-SYNC registers, store visibility and instruction fetch. -/
  | sync (e : Fin 256) (w x : BitVec 32)
  /-- WAIT (R155): Instruction that stops issue in C1 until an unmasked request or the next tick pulse. -/
  | wait (e : Fin 256) (w x : BitVec 32)
  /-- DISPATCH (R169): Instruction that waits for and installs the next transaction descriptor or suspended context at level 0. -/
  | dispatch (e : Fin 256) (w x : BitVec 32)
  /-- YIELD_END (R170): Instruction that stages the 64-byte result record, ends the transaction and then performs DISPATCH. -/
  | yieldEnd (e : Fin 256) (w x : BitVec 32)
  /-- YIELD_SUS (R170): Instruction that saves the level 0 context to its save area for requeue in the same tick and then performs DISPATCH. -/
  | yieldSus (e : Fin 256) (w x : BitVec 32)
  /-- REP (R115): Prefix word that repeats the following string or decimal instruction until CNT
  reaches 0 or an early end; with stop, an interrupt at the boundary after that many elements (R118) ends it. -/
  | rep (e : Fin 256) (r w x : BitVec 32) (stop : Option Nat)
  /-- CSRR (R156): Instruction that reads a CSR into ACC. -/
  | csrr (e : Fin 256) (w x : BitVec 32)
  /-- CSRW (R156): Instruction that writes ACC to a CSR after the checks of R59. -/
  | csrw (e : Fin 256) (w x : BitVec 32)
  /-- INVT (R157): Instruction that removes cached translations and key copies of one frame from every core of the device. -/
  | invt (e : Fin 256) (w x : BitVec 32)
  /-- INVTA (R157): Instruction that removes every cached translation and key copy of a partition from every core. -/
  | invta (e : Fin 256) (w x : BitVec 32)
  /-- LD (R158): Word load into ACC with its tag. -/
  | ld (e : Fin 256) (w x : BitVec 32)
  /-- ST (R158): Word store of ACC with its tag. -/
  | st (e : Fin 256) (w x : BitVec 32)
  /-- LDE (R158): Word load into AEX with its tag. -/
  | lde (e : Fin 256) (w x : BitVec 32)
  /-- STE (R158): Word store of AEX with its tag. -/
  | ste (e : Fin 256) (w x : BitVec 32)
  /-- LEA (R158): Loads the effective address into ACC tagged PTR. -/
  | lea (e : Fin 256) (w x : BitVec 32)
  /-- ADD (R121): Integer add of a memory word to ACC, setting Z N C V. -/
  | add (e : Fin 256) (w x : BitVec 32)
  /-- SUB (R121): Integer subtract of a memory word from ACC, setting Z N C V. -/
  | sub (e : Fin 256) (w x : BitVec 32)
  /-- CMP (R121): Sets flags from ACC minus a memory word without writing a register. -/
  | cmp (e : Fin 256) (w x : BitVec 32)
  /-- AND (R158): Logical AND of ACC with a memory word. -/
  | andAcc (e : Fin 256) (w x : BitVec 32)
  /-- OR (R158): Logical OR of ACC with a memory word. -/
  | orAcc (e : Fin 256) (w x : BitVec 32)
  /-- XOR (R158): Logical XOR of ACC with a memory word. -/
  | xor (e : Fin 256) (w x : BitVec 32)
  /-- SHL (R158): Shifts ACC left by ea bits 5:0. -/
  | shl (e : Fin 256) (w x : BitVec 32)
  /-- SHR (R158): Shifts ACC right with zero fill. -/
  | shr (e : Fin 256) (w x : BitVec 32)
  /-- SAR (R158): Shifts ACC right with sign fill. -/
  | sar (e : Fin 256) (w x : BitVec 32)
  /-- MUL (R122): Signed 128-bit multiply of ACC by an INT operand into AEX:ACC. -/
  | mul (e : Fin 256) (w x : BitVec 32)
  /-- MULU (R122): Unsigned 128-bit multiply of ACC by an INT operand into AEX:ACC. -/
  | mulu (e : Fin 256) (w x : BitVec 32)
  /-- DIV (R123): Signed divide of AEX:ACC by a 64-bit operand in a fixed 67 cc. -/
  | div (e : Fin 256) (w x : BitVec 32)
  /-- DIVU (R123): Unsigned divide of AEX:ACC by a 64-bit operand in a fixed 67 cc. -/
  | divu (e : Fin 256) (w x : BitVec 32)
  /-- STM (R81): Stores the masked registers of the current bank as consecutive words, interruptibly. -/
  | stm (e : Fin 256) (w : BitVec 32) (x : MultiExt)
  /-- LDM (R81): Loads the masked registers of the current bank from consecutive words, interruptibly. -/
  | ldm (e : Fin 256) (w : BitVec 32) (x : MultiExt)
  /-- MOV (R160): Copies one register to another under the tag rule of R160. -/
  | mov (e : Fin 256) (w x : BitVec 32)
  /-- LDI (R159): Loads a sign-extended immediate into a register. -/
  | ldi (e : Fin 256) (w x : BitVec 32)
  /-- XADD (R159): Adds a register and immediate to an index register. -/
  | xadd (e : Fin 256) (w x : BitVec 32)
  /-- XSUB (R159): Subtracts a register and immediate from an index register. -/
  | xsub (e : Fin 256) (w x : BitVec 32)
  /-- XCMP (R159): Sets flags from a register compared with a register plus immediate. -/
  | xcmp (e : Fin 256) (w x : BitVec 32)
  /-- TTST (R161): Tests the tag of a register into PSW.T. -/
  | ttst (e : Fin 256) (w x : BitVec 32)
  /-- TAGSET (R68): Sets the tag of a register under the privilege rules of R68. -/
  | tagset (e : Fin 256) (w x : BitVec 32)
  /-- TTSTM (R161): Tests the tag of a memory word into PSW.T. -/
  | ttstm (e : Fin 256) (w x : BitVec 32)
  /-- TAGSETM (R161): Sets the tag of a memory word under R68 and store access checks. -/
  | tagsetm (e : Fin 256) (w x : BitVec 32)
  /-- DADD (R101): Decimal field add of op2 into op1. -/
  | dadd (e : Fin 256) (w x : BitVec 32)
  /-- DSUB (R101): Decimal field subtract of op2 from op1. -/
  | dsub (e : Fin 256) (w x : BitVec 32)
  /-- DMUL (R101): Decimal field multiply of op1 by op2. -/
  | dmul (e : Fin 256) (w x : BitVec 32)
  /-- DDIV (R103): Decimal field divide writing quotient and remainder into op1. -/
  | ddiv (e : Fin 256) (w x : BitVec 32)
  /-- DCMP (R102): Decimal field compare setting flags. -/
  | dcmp (e : Fin 256) (w x : BitVec 32)
  /-- DSET (R101): Decimal field move of op2 into op1 in preferred form. -/
  | dset (e : Fin 256) (w x : BitVec 32)
  /-- DSRP (R104): Decimal shift and round of op1 by a count in the effective address. -/
  | dsrp (e : Fin 256) (w x : BitVec 32)
  /-- DADJ (R101): Rewrites a decimal field in preferred form. -/
  | dadj (e : Fin 256) (w x : BitVec 32)
  /-- PACK (R101): Converts a zoned field into a packed field. -/
  | pack (e : Fin 256) (w x : BitVec 32)
  /-- UNPK (R101): Converts a packed field into a zoned field. -/
  | unpk (e : Fin 256) (w x : BitVec 32)
  /-- DCVB (R105): Converts a packed field into a 128-bit integer in AEX:ACC. -/
  | dcvb (e : Fin 256) (w x : BitVec 32)
  /-- DCVD (R105): Converts the 128-bit integer in AEX:ACC into a packed field. -/
  | dcvd (e : Fin 256) (w x : BitVec 32)
  /-- MVS (R108): String move forward, one element or under REP. -/
  | mvs (e : Fin 256) (w x : BitVec 32)
  /-- MVSR (R108): String move backward, one element or under REP. -/
  | mvsr (e : Fin 256) (w x : BitVec 32)
  /-- CMS (R108): String compare ending early at the first difference. -/
  | cms (e : Fin 256) (w x : BitVec 32)
  /-- TRN (R108): String translate through a 256-byte table. -/
  | trn (e : Fin 256) (w x : BitVec 32)
  /-- TRT (R108): String translate-and-test ending at the first non-zero table entry. -/
  | trt (e : Fin 256) (w x : BitVec 32)
  /-- SRCH (R108): String search for a CHAR argument. -/
  | srch (e : Fin 256) (w x : BitVec 32)
  /-- EDIT (R114): Edits packed digits into characters over a pattern, one pattern byte per element. -/
  | edit (e : Fin 256) (w x : BitVec 32)
  /-- EDMK (R114): Edit that also marks in AEX where significance starts. -/
  | edmk (e : Fin 256) (w x : BitVec 32)
  /-- POST (R165): Applies a PDEC amount with an optional floor to a balance word at its posting unit. -/
  | post (e : Fin 256) (w x : BitVec 32)
  /-- POSTR (R167): Applies a POST to a balance word named by a remote ledger address. -/
  | postr (e : Fin 256) (w x : BitVec 32)
  /-- PREAD (R168): Reads the staged running value of a balance word. -/
  | pread (e : Fin 256) (w x : BitVec 32)
  /-- RREAD (R167): Reads the committed value of a remote balance word. -/
  | rread (e : Fin 256) (w x : BitVec 32)
  /-- FADD (R127): Floating-point add in the format given by the opcode. -/
  | fadd (e : Fin 256) (w x : BitVec 32)
  /-- FSUB (R127): Floating-point subtract. -/
  | fsub (e : Fin 256) (w x : BitVec 32)
  /-- FMUL (R127): Floating-point multiply. -/
  | fmul (e : Fin 256) (w x : BitVec 32)
  /-- FDIV (R127): Floating-point divide. -/
  | fdiv (e : Fin 256) (w x : BitVec 32)
  /-- FMAD (R127): Fused multiply-add rounded once. -/
  | fmad (e : Fin 256) (w x : BitVec 32)
  /-- FSQRT (R127): Floating-point square root. -/
  | fsqrt (e : Fin 256) (w x : BitVec 32)
  /-- FCMP (R138): Quiet floating-point compare setting flags. -/
  | fcmp (e : Fin 256) (w x : BitVec 32)
  /-- FCMPS (R138): Signalling floating-point compare setting flags. -/
  | fcmps (e : Fin 256) (w x : BitVec 32)
  /-- FCVT (R137): Converts between widths of one radix. -/
  | fcvt (e : Fin 256) (w x : BitVec 32)
  /-- FCVTI (R137): Converts a floating-point value to a 64-bit signed integer. -/
  | fcvti (e : Fin 256) (w x : BitVec 32)
  /-- FCVTF (R127): Converts an INT in ACC to a floating-point format. -/
  | fcvtf (e : Fin 256) (w x : BitVec 32)
  /-- FNEG (R127): Flips the sign bit of a floating-point value. -/
  | fneg (e : Fin 256) (w x : BitVec 32)
  /-- FABS (R127): Clears the sign bit of a floating-point value. -/
  | fabs (e : Fin 256) (w x : BitVec 32)
  /-- CUSTOMER_INSTRUCTION (R172): Instruction in slot 0xF0-0xFF that runs the loaded customer microcode of its decode entry. -/
  | customerInstruction (e : Fin 256) (w x : BitVec 32)
  /-- LEVEL_ENTRY (R180): Entry to a level for an exception, trap or taken asynchronous request at a
  boundary. e: the core; cause: what it enters a level for. -/
  | levelEntry (e : Fin 256) (cause : EntryCause)
  /-- BUDGET_EXCEEDED (R247): REMAIN of the budget counter reaches zero and the exception is raised at the
  next level 0 boundary. -/
  | budgetExceeded (e : Fin 256)
  /-- WAIT_WAKEUP (R155): A core in C1 leaves WAIT on a pending request or the tick pulse. -/
  | waitWakeup (e : Fin 256)
  /-- SCHED_MESSAGE (R191): The region scheduler asserts SCHED_MESSAGE on a core. code: the message code. -/
  | schedMessage (e : Fin 256) (code : BitVec 32)
  /-- MP_NOTIFY (R191): The management processor asserts MP_NOTIFY on a core. code: the notification code. -/
  | mpNotify (e : Fin 256) (code : BitVec 32)
  /-- TICK_PULSE (R302): Tick boundary: committed state becomes visible, TSQ_TICK advances and the batch is
  dispatched. -/
  | tickPulse
  /-- HEARTBEAT_HALF_TICK (R432): Device sends the mid-tick heartbeat to its partner at T/2. -/
  | heartbeatHalfTick
  /-- REMOTE_CLOSE (R322): Remote close phase: remote staging ends, transactions are pinned or aborted and
  REMOTE_CLOSE is sent. -/
  | remoteClose
  /-- STAGE_CLOSE (R313): Stage close phase: unfinished transactions abort and the abort closure is
  computed. -/
  | stageClose
  /-- FLIP (R294): Posting units make staged values committed, copy entries to the vault and write DRAM. -/
  | flip
  /-- SEAL_DEADLINE (R29): No mirror acknowledgement by T-0.4 µs: results held and mirror-link fault
  handling. -/
  | sealDeadline
  /-- STALENESS_SWEEP (R267): Discards cached translations filled 65 or more ticks earlier. -/
  | stalenessSweep
  /-- TICK_PERIOD_CHANGE (R306): TSQ_PERIOD.NEXT takes effect at the pulse of tick AT. -/
  | tickPeriodChange
  /-- IDEM_ENTRY_EXPIRY (R336): A DONE idempotency entry expires at its horizon. -/
  | idemEntryExpiry
  /-- TRANSIENT_EXPIRY (R375): A counted lockstep transient stops counting after 1,024 ticks. -/
  | transientExpiry
  /-- INTAKE_STOP_TIMEOUT (R20): Intake stopped by a condition for longer than 1 s puts the device into Fawn
  mode. -/
  | intakeStopTimeout
  /-- ENERGY_LOW_TIMEOUT (R409): Hold-up estimate below 1.2 J for longer than 1 s is a Fawn cause. -/
  | energyLowTimeout
  /-- FAWN_ENTER (R410): Device enters Fawn mode at the first pulse after a cause is present. -/
  | fawnEnter
  /-- FAWN_DRAIN_TIMEOUT (R411): DRAIN not finished within FMU_DEGCFG.DRAIN ticks switches to HANDOVER. -/
  | fawnDrainTimeout
  /-- HANDOVER_ADOPTION (R411): Partner adopts a handed-over device's work at its first admit after ACK. -/
  | handoverAdoption
  /-- TAKEOVER (R357): Lease holder takes over the lost partner's work at the first admit after h+3.5T. -/
  | takeover
  /-- RESULT_RELEASE (R349): Intake writes the result completions of a SEALED tick and RELEASE records. -/
  | resultRelease
  /-- ACCEPTANCE_PASS (R452): Per-queue acceptance completion pass with tail write and MSI-X message. q: the
  queue. -/
  | acceptancePass (q : Fin 4096)
  /-- SQ_TAIL_DOORBELL (R451): Host write of a new submission tail index. f: the writing function; v: the
  value written. -/
  | sqTailDoorbell (f : Fin 256) (q : Fin 4096) (v : HostWord)
  /-- CQ_HEAD_DOORBELL (R451): Host write of a new completion head index, freeing slots and resuming held
  queues. f: the writing function; v: the value written. -/
  | cqHeadDoorbell (f : Fin 256) (q : Fin 4096) (v : HostWord)
  /-- RETIRE_DOORBELL (R350): Host confirms retirement through an order key, freeing journal space. whole:
  the write is one of 16 bytes, aligned, with bytes 10 to 15 zero; key: bytes 0 to 9. -/
  | retireDoorbell (f : Fin 256) (q : Fin 4096) (whole : Bool) (key : BitVec 80)
  /-- DESCRIPTOR_FETCH (R343): DMA read of a submission descriptor completes and acceptance proceeds. ok:
  the read completed without error, with these bytes. -/
  | descriptorFetch (q : Fin 4096) (ok : Bool) (bytes : List Byte)
  /-- STAGE_IN (R244): Stage engine copies stage-in frames into TCM and touches balance words before
  delivery. g: the region. -/
  | stageIn (g : Fin 8)
  /-- DESCRIPTOR_DELIVERY (R198): Region scheduler delivers a transaction descriptor to a waiting DISPATCH.
  e: a core of the unit; isn: the request. -/
  | descriptorDelivery (e : Fin 256) (isn : BitVec 64)
  /-- NPU_POST_APPLY (R165): Posting unit applies a POST to the staged running value and logs it. u: the
  posting unit. -/
  | npuPostApply (u : Fin 12)
  /-- NPU_PREAD (R168): Posting unit returns the staged running value and makes a READ entry. u: the posting
  unit. -/
  | npuPread (u : Fin 12)
  /-- NPU_TOUCH (R288): Posting unit fills a word's entry and marks it HELD for the exact lane. u: the
  posting unit. -/
  | npuTouch (u : Fin 12)
  /-- NPU_FILL (R287): Posting cache entry fill from DRAM completes and queued requests proceed. pa: the
  word's physical address. -/
  | npuFill (u : Fin 12) (pa : BitVec 52)
  /-- NPU_ROLLBACK (R293): A rollback of a word's entries after an abort trigger. u: the posting unit. -/
  | npuRollback (u : Fin 12)
  /-- NPU_LOST (R299): A posting unit is lost and its buddy takes over the channel. u: the posting unit. -/
  | npuLost (u : Fin 12)
  /-- NPU_BIST_SLICE (R402): In-service posting unit self-test slice in idle time. preempted: its queue
  filled meanwhile; fail: the slice found a fault. -/
  | npuBistSlice (u : Fin 12) (preempted fail : Bool)
  /-- PATROL_SCRUB (R281): Patrol reads and corrects one line of a channel. e: what the read finds. -/
  | patrolScrub (ch : Fin 12) (e : Ecc)
  /-- SOFT_PPR (R282): Soft post-package repair of a failing DRAM row. -/
  | softPpr (ch : Fin 12) (dev : DramDevice) (row : BitVec 32)
  /-- MEMORY_CHANNEL_RETRAIN (R283): Retraining after an uncleared command or address parity error, possibly
  making the channel LOST. cleared: retraining cleared the error. -/
  | memoryChannelRetrain (ch : Fin 12) (cleared : Bool)
  /-- REMOTE_REPAIR_TIMEOUT (R279): A remote repair fetch unanswered within 6 µs completes the access as
  POISON. line: the line address. -/
  | remoteRepairTimeout (line : BitVec 46)
  /-- REPAIR (R279): Partner receives a remote repair request and returns the replica line. src: the asking
  device. -/
  | repair (src : Fin 4096) (line : BitVec 46)
  /-- REPAIR_COMPLETE (R279): Repair reply arrives, the line is written back and the access completes. ws:
  the 8 words with tags. -/
  | repairComplete (line : BitVec 46) (ws : List TWord)
  /-- BEACON (R423): Pronghorn beacon received from a neighbour. p: the port. -/
  | beacon (p : Fin 8) (b : Beacon)
  /-- BEACON_SEND (R423): Beacon sent on each port every 1 ms. -/
  | beaconSend
  /-- ELECTION_SETTLE (R424): A candidate named by every beacon for 3 ms becomes fabric manager or time
  master. manager: fabric manager, else time master. -/
  | electionSettle (manager : Bool)
  /-- MANAGE (R424): Fabric manager announcement, ID assignment or route update received. src: the sending
  device. -/
  | manage (src : Fin 4096) (m : Manage)
  /-- MANAGER_FAILOVER (R424): Standby receives no MANAGE for 3 ms and becomes fabric manager. -/
  | managerFailover
  /-- TIME_PROBE_SEND (R429): Link delay probe sent every 10 µs on each UP link. -/
  | timeProbeSend
  /-- TIME_PROBE (R429): Link delay probe received and one-way delay computed. delay: the delay that the
  port computes. -/
  | timeProbe (p : Fin 8) (delay : BitVec 16)
  /-- TIME_SYNC_SEND (R429): Time master sends TIME_SYNC every 10 µs. -/
  | timeSyncSend
  /-- TIME_SYNC (R429): Time distribution frame received and clock slewed. d: the measured offset in ns,
  signed, and the period history. -/
  | timeSync (time : BitVec 64) (tick : BitVec 48) (d : SyncData)
  /-- TIME_SYNC_TIMEOUT (R430): No valid TIME_SYNC for 100 µs sets SYNC to 0. -/
  | timeSyncTimeout
  /-- HEARTBEAT (R432): Partner heartbeat received. fawn: FLAGS bit 1. -/
  | heartbeat (src : Fin 4096) (mseq : BitVec 32) (fawn : Bool)
  /-- HEARTBEAT_MISSED (R434): Second missed heartbeat in a row: the device asks the witness for takeover. -/
  | heartbeatMissed
  /-- LEASE_RENEW (R432): Witness receives a lease renewal. m: the renewing device and its MSEQ; paired: the
  pair is recorded as PAIRED again. -/
  | leaseRenew (m : Sender) (paired : Bool)
  /-- LEASE_OK (R432): Device receives the witness's OK. -/
  | leaseOk (m : Sender)
  /-- WITNESS_TIMEOUT (R432): No witness OK in 3 consecutive ticks sets INT_STATUS.WITNESS. -/
  | witnessTimeout
  /-- LEASE_TAKEOVER_REQ (R434): Witness receives a takeover request and grants or denies it. rival: the
  subject's own request arrives within 1 µs. -/
  | leaseTakeoverReq (m : Sender) (subject : Fin 4096) (lasthb : BitVec 64) (rival : Bool)
  /-- LEASE_GRANT (R434): Requesting device receives the lease grant. -/
  | leaseGrant (m : Sender)
  /-- LEASE_DENIED (R434): Device receives DENIED and stops at h+3T. -/
  | leaseDenied (m : Sender)
  /-- LEASE_EXPIRY (R435): A device without the lease stops accepting and releasing at h+3T. -/
  | leaseExpiry
  /-- HANDOVER_REQ (R436): Partner receives a handover request and answers ACK or REFUSED. -/
  | handoverReq (src : Fin 4096) (mseq : BitVec 32)
  /-- HANDOVER_SEND (R436): A device in HANDOVER sends HANDOVER REQ once every COMMITTED tick is SEALED. -/
  | handoverSend
  /-- HANDOVER_ACK (R436): Handing-over device receives ACK. -/
  | handoverAck (m : Sender)
  /-- HANDOVER_REFUSED (R412): Handing-over device receives REFUSED and moves to HELD. -/
  | handoverRefused (m : Sender)
  /-- RESTORE (R436): Custody return data received from the custodian. -/
  | restore (src : Fin 4096) (t : Tables) (work : ReturnedWork)
  /-- TABLES (R276): Partner receives shipped translation table frames. -/
  | tables (src : Fin 4096) (t : Tables)
  /-- JOURNAL (R344): Partner receives a journal record, verifies its tag, stores it and acknowledges. -/
  | journal (src : Fin 4096) (r : JRec)
  /-- POSTLOG (R295): Partner receives a posting log, applies it to the replica and acknowledges. -/
  | postlog (src : Fin 4096) (p : LogMsg)
  /-- PIN (R441): Partner receives a PIN record and acknowledges. -/
  | pinRecord (src : Fin 4096) (mseq : BitVec 32) (p : PinRec)
  /-- MIRROR_ACK (R343): Acknowledgement of a journal record, posting log or PIN received from the partner. -/
  | mirrorAck (m : Sender) (a : MirAck)
  /-- REMOTE_CLOSE_MESSAGE (R442): Target or mirror partner receives an issuer's REMOTE_CLOSE. to_: the
  devices to which the issuer's partner forwards it. -/
  | remoteCloseMessage (src : Fin 4096) (mseq : BitVec 32) (c : CloseRec) (to_ : List Nat)
  /-- ROLLBACK_NOTICE (R298): Target receives a rollback notice and rolls back the key's REMOTE entries.
  direct: this device is the target, not its partner. -/
  | rollbackNotice (src : Fin 4096) (mseq : BitVec 32) (tick : BitVec 48) (okey : BitVec 80) (direct : Bool)
  /-- ROLLBACK_ACK (R323): Issuer receives the acknowledgement of a rollback notice. -/
  | rollbackAck (src : Fin 4096) (mseq : BitVec 32)
  /-- REMOTE_LOST (R443): Issuer learns its REMOTE entries were lost with a posting unit. -/
  | remoteLost (src : Fin 4096) (mseq : BitVec 32) (tick : BitVec 48) (okey : BitVec 80)
  /-- RPOST (R296): Target receives a remote POST and decides it on conservative bounds. -/
  | rpost (src : Fin 4096) (rq : RReq)
  /-- RREAD_FRAME (R324): Target receives a remote read and answers with a committed value. -/
  | rreadFrame (src : Fin 4096) (rq : RReq)
  /-- RREPLY (R439): Issuer receives the reply to a remote operation. -/
  | rreply (r : RReply)
  /-- FRAME_FORWARD (R427): A transit frame is forwarded or switched to the other path. p: the port it came
  on. -/
  | frameForward (p : Fin 8) (fr : Transit)
  /-- LINK_RETRY_REQUEST (R419): A retry request makes the sender retransmit, and repeated retries take the
  link DOWN. -/
  | linkRetryRequest (p : Fin 8) (fseq : BitVec 32)
  /-- LINK_KEY_AGREEMENT (R418): ECDH key agreement when a link comes up. ok: both signatures verify. -/
  | linkKeyAgreement (p : Fin 8) (ok : Bool)
  /-- LINK_REKEY (R418): Link key replaced before the frame counter reaches 2^32. -/
  | linkRekey (p : Fin 8)
  /-- LINK_NARROWED (R416): A lane fails and the port narrows. lanes: those still in use. -/
  | linkNarrowed (p : Fin 8) (lanes : BitVec 4)
  /-- LOCKSTEP_MISMATCH (R373): Divergence detected: retirement stops, the unit freezes and its run aborts.
  gx and gy are the masks of copies X and Y; odd is the position of a triad that differs from two that
  agree. -/
  | lockstepMismatch (c : Fin 32) (sl : Fin 5) (gx gy : BitVec 48) (odd : Option Nat)
  /-- SAMPLE_DISAGREE (R369): Positions' sampled asynchronous inputs still differ after 3 cc. odd is the
  minority position of a triad. -/
  | sampleDisagree (c : Fin 32) (sl : Fin 5) (odd : Option Nat)
  /-- TRIAGE_COMPLETE (R374): Triage self-test result: transient, or cores retired and spares promoted.
  failed: the positions whose cores fail. -/
  | triageComplete (c : Fin 32) (sl : Fin 5) (failed : List Nat)
  /-- RESYNC_IMAGE_CAPTURE (R370): Capture of the resync image when the unit first waits idle after stage
  close. -/
  | resyncImageCapture (c : Fin 32) (sl : Fin 5)
  /-- COLD_RESYNC (R371): Cold resync of a unit begun at a tick pulse. r is what the Chamois pass of the
  slot finds. -/
  | coldResync (c : Fin 32) (sl : Fin 5) (r : Chamois)
  /-- CHAMOIS_REINJECTION (R402): Scheduled in-service Chamois pass on an idle slot. window: the cluster
  checker self-test of R380 and R381. -/
  | chamoisReinjection (c : Fin 32) (sl : Fin 5) (r : Chamois) (window preempted : Bool)
  /-- SPARE_SELF_TEST (R402): Scheduled self-test of a spare core. -/
  | spareSelfTest (e : Fin 256)
  /-- UNIT_SPLIT_HANDOVER (R385): A pair slot becomes SPLIT at the first suitable pulse. -/
  | unitSplitHandover (c : Fin 32) (sl : Fin 5)
  /-- UNIT_REJOIN_HANDOVER (R387): A split slot rejoins at the first suitable pulse. -/
  | unitRejoinHandover (c : Fin 32) (sl : Fin 5)
  /-- CLUSTER_RESET (R388): Cluster reset applying the next mode once the cluster is drained. fail: the
  cores that fail BOOT self-test; rs: what the Chamois passes find. -/
  | clusterReset (c : Fin 32) (fail : List Nat) (rs : List SlotPass)
  /-- C6_ENTRY (R249): The MP puts a spare or idle split core into C6. -/
  | c6Entry (e : Fin 256)
  /-- C6_EXIT (R249): A core completes its exit from C6. -/
  | c6Exit (e : Fin 256)
  /-- MICROCODE_ACTIVATION (R225): Customer image becomes active after the activation tick's pulse. same:
  the mirror partner and every device whose replica it holds have sealed the same image for the same tick. -/
  | microcodeActivation (same : Bool)
  /-- TCM_CODE_INSTALL (R465): Each core takes a loaded CODE block at its first wait in DISPATCH after the
  next pulse. -/
  | tcmCodeInstall (e : Fin 256)
  /-- FMU_RECORD (R397): An aggregator receives an error record and opens, merges or passes it. level: the
  DEPTH of the aggregator; the record as it comes from below. -/
  | fmuRecord (level : Fin 6) (r : Rec)
  /-- AGGREGATOR_ENTRY_CLOSE (R397): An aggregator entry closes and sends a CLOSE record if COUNT is above
  1. -/
  | aggregatorEntryClose (level : Fin 6) (idx : Fin 1000) (sig : BitVec 16) (root : BitVec 32)
  /-- FMU_RECORD_FORWARD (R538): The MP forwards a device log record to the fabric manager. -/
  | fmuRecordForward
  /-- MP_MEMBER_LOST (R455): A management processor member is outvoted and retired. -/
  | mpMemberLost (m : Fin 3)
  /-- OMI_HEALTH_READ (R464): Returns the health summary and per-cluster records. src: the sender; rq: the
  request; env: the host buffer and the partner's answer. -/
  | omiHealthRead (src : OmiSrc) (rq : OmiReq) (env : OmiEnv)
  /-- OMI_FAULT_LOG_READ (R400): Returns device log records and optionally frees slots. -/
  | omiFaultLogRead (src : OmiSrc) (rq : OmiReq) (env : OmiEnv)
  /-- OMI_PARTITION_CREATE (R465): Creates or updates a partition. -/
  | omiPartitionCreate (src : OmiSrc) (rq : OmiReq) (env : OmiEnv)
  /-- OMI_PARTITION_DELETE (R465): Deletes a partition. -/
  | omiPartitionDelete (src : OmiSrc) (rq : OmiReq) (env : OmiEnv)
  /-- OMI_FUNCTION_BIND (R465): Binds or unbinds a virtual function and allots MSI-X entries. -/
  | omiFunctionBind (src : OmiSrc) (rq : OmiReq) (env : OmiEnv)
  /-- OMI_QUEUE_CREATE (R465): Creates and binds a queue. -/
  | omiQueueCreate (src : OmiSrc) (rq : OmiReq) (env : OmiEnv)
  /-- OMI_QUEUE_DELETE (R465): Deletes a queue. -/
  | omiQueueDelete (src : OmiSrc) (rq : OmiReq) (env : OmiEnv)
  /-- OMI_GRANT_SET (R270): Writes a remote grant entry. -/
  | omiGrantSet (src : OmiSrc) (rq : OmiReq) (env : OmiEnv)
  /-- OMI_TABLES_SHIP (R276): Ships translation table frames to the mirror partner. -/
  | omiTablesShip (src : OmiSrc) (rq : OmiReq) (env : OmiEnv)
  /-- OMI_TCM_CODE_LOAD (R465): Loads a resident CODE block into every enabled core. -/
  | omiTcmCodeLoad (src : OmiSrc) (rq : OmiReq) (env : OmiEnv)
  /-- OMI_MEMORY_LAYOUT_SET (R45): Sets the ledger memory layout. ptnM, ptnP: M and P of the mirror
  partner's layout. -/
  | omiMemoryLayoutSet (src : OmiSrc) (rq : OmiReq) (env : OmiEnv) (ptnM ptnP : Nat)
  /-- OMI_JOURNAL_KEY_SET (R340): Sets the journal key of a new epoch. -/
  | omiJournalKeySet (src : OmiSrc) (rq : OmiReq) (env : OmiEnv)
  /-- OMI_TAKEOVER_QUEUE_SET (R357): Maps a partner queue to an own queue for takeover completions. -/
  | omiTakeoverQueueSet (src : OmiSrc) (rq : OmiReq) (env : OmiEnv)
  /-- OMI_ADMIT_SET (R327): Sets the admission limit per tick. -/
  | omiAdmitSet (src : OmiSrc) (rq : OmiReq) (env : OmiEnv)
  /-- OMI_UNIT_SPLIT (R385): Requests the split of a pair slot at a given tick. OMI_UNIT_MODE_SET with MODE
  other than 0. -/
  | omiUnitSplit (src : OmiSrc) (rq : OmiReq) (env : OmiEnv)
  /-- OMI_UNIT_REJOIN (R387): Requests the rejoin of a split slot at a given tick. OMI_UNIT_MODE_SET with
  MODE 0. -/
  | omiUnitRejoin (src : OmiSrc) (rq : OmiReq) (env : OmiEnv)
  /-- OMI_CLUSTER_MODE_SET (R388): Sets the next cluster mode and drains the cluster. -/
  | omiClusterModeSet (src : OmiSrc) (rq : OmiReq) (env : OmiEnv)
  /-- OMI_MICROCODE_LOAD (R223): Checks, loads and seals a customer microcode image for activation. -/
  | omiMicrocodeLoad (src : OmiSrc) (rq : OmiReq) (env : OmiEnv)
  /-- OMI_FIRMWARE_UPDATE (R456): Writes and verifies the inactive firmware slot. img: what the image at
  DADDR holds. -/
  | omiFirmwareUpdate (src : OmiSrc) (rq : OmiReq) (env : OmiEnv) (img : FwImg)
  /-- OMI_CREDENTIAL_ENROLL (R465): Enrols an owner, identity, microcode, debug or key-encryption
  credential. -/
  | omiCredentialEnroll (src : OmiSrc) (rq : OmiReq) (env : OmiEnv)
  /-- OMI_DEGRADATION_CLEAR (R406): Removes a degradation ledger entry for a repaired function. repaired:
  the function was replaced or repaired. -/
  | omiDegradationClear (src : OmiSrc) (rq : OmiReq) (env : OmiEnv) (repaired : Bool)
  /-- OMI_FAWN_EXIT (R414): Leaves Fawn mode when no cause is present. -/
  | omiFawnExit (src : OmiSrc) (rq : OmiReq) (env : OmiEnv)
  /-- OMI_MAILBOX_ASSIGN (R461): Assigns a mailbox to a function. -/
  | omiMailboxAssign (src : OmiSrc) (rq : OmiReq) (env : OmiEnv)
  /-- OMI_ROLE_SET (R464): Sets manager and time master priorities. -/
  | omiRoleSet (src : OmiSrc) (rq : OmiReq) (env : OmiEnv)
  /-- OMI_PARTNER_SET (R431): Assigns the mirror partner and witness. -/
  | omiPartnerSet (src : OmiSrc) (rq : OmiReq) (env : OmiEnv)
  /-- OMI_PARTNER_RESTORE (R436): Returns custody of a partner's work at a named tick. -/
  | omiPartnerRestore (src : OmiSrc) (rq : OmiReq) (env : OmiEnv)
  /-- OMI_LEDGER_LOAD (R355): Loads a ledger image committed as at a given tick for restore. image: the
  frames of the ledger image at DADDR. -/
  | omiLedgerLoad (src : OmiSrc) (rq : OmiReq) (env : OmiEnv) (image : List FrameImg)
  /-- OMI_DEVICE_ID_RELEASE (R425): Removes a serial-to-ID binding. held: another device holds journal
  records or a replica of the bound device. -/
  | omiDeviceIdRelease (src : OmiSrc) (rq : OmiReq) (env : OmiEnv) (held : Bool)
  /-- OMI_TICK_PERIOD_SET (R306): Schedules a tick period change. -/
  | omiTickPeriodSet (src : OmiSrc) (rq : OmiReq) (env : OmiEnv)
  /-- DEV_ID_WRITE (R48): MP write of DEVID and IDVALID with its lock. -/
  | devIdWrite (v : BitVec 64)
  /-- CSR_CONTROL_WRITE (R60): Control-space write to a CSR of a running unit at a retired-instruction
  boundary. -/
  | csrControlWrite (m : Master) (e : Fin 256) (n : BitVec 16) (v : BitVec 64)
  /-- CLU_SIGNAL_WRITE (R194): Write with GO raising CORE_SIGNAL on a core or unit. -/
  | cluSignalWrite (m : Master) (c : Fin 32) (k : Fin 8) (code : BitVec 8)
  /-- KEY_FKSET_SET (R263): Sets a frame's storage key and FP. -/
  | keyFksetSet (m : Master) (frame : BitVec 40) (fp : Bool) (key : BitVec 8)
  /-- KEY_FKSET_QUERY (R263): Loads KEY_FKRES with a frame's key and FP. -/
  | keyFksetQuery (m : Master) (frame : BitVec 40)
  /-- KEY_FKSET_INVALIDATE (R266): Sets a key and removes every cached copy before completing. -/
  | keyFksetInvalidate (m : Master) (frame : BitVec 40) (fp : Bool) (key : BitVec 8)
  /-- TSQ_PERIOD_WRITE (R306): MP write of the next period and the tick it applies at. -/
  | tsqPeriodWrite (nxt : BitVec 8) (tick : BitVec 48)
  /-- RST_CTL_COLD (R506): Register request for a cold reset. -/
  | rstCtlCold
  /-- RST_CTL_WARM (R507): Register request for a warm reset. -/
  | rstCtlWarm
  /-- RST_PART_GO (R508): Request for a partition reset at the next stage close. -/
  | rstPartGo (m : Master) (part : Fin 1024)
  /-- DBG_AUTHCMD_GO (R471): Verifies a signed challenge and opens a debug session. -/
  | dbgAuthcmdGo (level : Fin 4) (index : Fin 64) (bar4 : Bool)
  /-- DBG_AUTHCMD_CLOSE (R473): Ends the debug session. -/
  | dbgAuthcmdClose
  /-- DBG_HALT_SET (R479): Stops the cores of a cluster and breaks lockstep. -/
  | dbgHaltSet (c : Fin 32)
  /-- DBG_HALT_RELEASE (R479): Restarts the cores of a halted cluster. -/
  | dbgHaltRelease (c : Fin 32)
  /-- DBG_STEP_GO (R480): Steps one core of a halted cluster by one instruction or element. -/
  | dbgStepGo (e : Fin 256) (int : Bool)
  /-- DBG_REQ_WRITE (R477): Raises DEBUG_REQUEST on the unit holding the named core. -/
  | dbgReqWrite (loc : BitVec 32) (code : BitVec 8)
  /-- DBG_MA_READ (R482): Memory access master read of one tagged word. word: the physical address divided
  by 8. -/
  | dbgMaRead (word : BitVec 49)
  /-- DBG_MA_WRITE (R482): Memory access master write of one tagged word. -/
  | dbgMaWrite (word : BitVec 49) (v : BitVec 64) (tag : BitVec 4)
  /-- DBG_LOCK_EXPIRY (R472): The 60 s authentication lock ends. -/
  | dbgLockExpiry
  /-- DBG_SESSION_TIMEOUT (R473): A session ends after 600 s without access. -/
  | dbgSessionTimeout
  /-- TAP_UPDATE_IR (R474): TAP instruction register update selects an instruction. -/
  | tapUpdateIr (code : BitVec 8)
  /-- DBGACC (R475): TAP Update-DR performs one access to the debug window. -/
  | dbgacc (go wr : Bool) (off : BitVec 24) (v : BitVec 64)
  /-- TRACE_BUFFER_READ (R488): Read of the trace buffer that frees space in stop mode. off: the offset in
  the buffer divided by 8. -/
  | traceBufferRead (off : BitVec 20)
  /-- REGISTER_WRITE (R9): Write to a register with no row of its own, under its access codes. off: an
  offset of control space, or of the BAR of a host function. -/
  | registerWrite (m : Master) (off : BitVec 48) (v : BitVec 64)
  /-- REGISTER_READ_CLEAR (R8): Read of an RC field that returns and clears it. off: as for REGISTER_WRITE. -/
  | registerReadClear (m : Master) (off : BitVec 48)
  /-- COLD_RESET (R506): Cold reset from power-up, COLD_RST_N or a request, starting the start-up order. -/
  | coldReset (env : Machine.ColdEnv)
  /-- INTAKE_OPEN (R510): Intake opens at the admit after every start-up step and condition. -/
  | intakeOpen
  /-- FIRMWARE_COUNTER_RAISE (R456): Anti-rollback counter raised after new firmware runs 1,024 tk. -/
  | firmwareCounterRaise
  /-- WARM_RESET_REQUEST (R526): WARM_RST_N assertion requests a warm reset. -/
  | warmResetRequest
  /-- WARM_RESET (R507): Warm reset takes effect at the first stage close after the request. -/
  | warmReset (env : Machine.BootEnv)
  /-- WARM_RESET_RESUME (R507): Device resumes at a fabric tick boundary and replays. tick: the number that
  the time master gives the tick that starts. -/
  | warmResetResume (tick : BitVec 48)
  /-- PARTITION_RESET (R508): Partition reset aborts the partition's runs at stage close. -/
  | partitionReset
  /-- PWR_FAIL (R501): Power-fail sequence: intake stops, vault freezes and switches to the bank, dump
  starts. -/
  | pwrFail
  /-- VAULT_UNDERVOLTAGE (R501): VDD_VAULT below 0.76 V for 200 ns starts the power-fail sequence. -/
  | vaultUndervoltage
  /-- DUMP_COMPLETE (R502): The vault dump completes and a pending cold reset proceeds. -/
  | dumpComplete
  /-- RAIL_FAULT (R493): A rail leaves tolerance for longer than 10 µs. -/
  | railFault (rail : Fin 8)
  /-- VR_ALERT (R494): VR_ALERT_N assertion makes the MP read STATUS_WORD. stat: STATUS_WORD of each
  regulator, by rail. -/
  | vrAlert (stat : List Nat)
  /-- PMBUS_POLL (R494): MP polls every regulator once per millisecond. rs: what each regulator reports, by
  rail. -/
  | pmbusPoll (rs : List Machine.RailRead)
  /-- TIMEREF_LOST (R505): TIMEREF absent or off frequency for 1 µs. -/
  | timerefLost
  /-- PLL_LOCK_LOSS (R505): A cluster's core PLL loses lock. -/
  | pllLockLoss (c : Fin 32)
  /-- TEMPERATURE_SAMPLE (R511): Junction sensors are read every 100 µs. The sensors of compute dies 0 and 1
  and of the spine die, in quarter degrees. -/
  | temperatureSample (t0 t1 t2 : List Int)
  /-- THERM_TRIP (R512): A sensor at 110 °C asserts THERMTRIP_N and starts the power-fail sequence. -/
  | thermTrip
  /-- CAPACITANCE_TEST (R497): Periodic or retried capacitance test of the hold-up bank starts. v0: the bank
  voltage in units of 0.25 mV. -/
  | capacitanceTest (v0 : BitVec 16)
  /-- CAPACITANCE_TEST_COMPLETE (R497): Test samples V2 after 20 ms and computes capacitance and ESR. The
  two samples in units of 0.25 mV. -/
  | capacitanceTestComplete (v1 v2 : BitVec 16)
  /-- ENERGY_ESTIMATE (R498): Energy estimate recomputed every 100 µs. v: the bank voltage in units of 0.25
  mV. -/
  | energyEstimate (v : BitVec 16)
  /-- DEBUG_DOMAIN_RESET (R469): DBG_RST_N or VDD_DBG power-up resets the debug domain. -/
  | debugDomainReset
  /-- FLR (R454): Function level reset holds the function's queues. -/
  | flr (f : Fin 256)
  /-- BUS_MASTER_DISABLE (R454): Bus master enable cleared or D3hot holds the function's queues. -/
  | busMasterDisable (f : Fin 256)
  /-- HOST_LINK_DOWN (R454): PCIe link down or hot reset holds every queue. hot: hot reset. -/
  | hostLinkDown (hot : Bool)
  /-- IDE_FAULT (R468): An IDE integrity failure closes a selective stream. -/
  | ideFault (stream : Fin 8)
  /-- MBX_DOORBELL (R459): The management processor takes a mailbox doorbell write and either executes the
  request, resends the stored response, or sets SEQERR. fn: the writing function; size: bytes of the write. -/
  | mbxDoorbell (m : Fin 32) (seq : BitVec 32) (fn : Fin 256) (size : Nat)
  /-- LINK_TRAINING_COMPLETE (R419): A fabric link finishes training after DOWN and moves on towards KEY and
  UP. -/
  | linkTrainingComplete (p : Fin 8) (lanes : BitVec 4)
  /-- HOST_LINK_UP (R448): The PCIe link finishes training and HIF_LINK.STATE becomes UP or NARROW. width:
  lanes; speed: the code of HIF_LINK.SPEED. -/
  | hostLinkUp (width : Fin 17) (speed : Fin 5) (flit : Bool)
  /-- BUS_MASTER_ENABLE (R454): A function's bus master enable is set again or the function leaves D3hot,
  allowing its held queues to resume. -/
  | busMasterEnable (f : Fin 256)
  /-- VDD_DBG_LOSS (R469): Loss of VDD_DBG ends the debug session, clears the trace buffer and releases
  halts. -/
  | vddDbgLoss
  /-- STATE_COPY_COMPLETE (R374): The copy of the current resync image into the slot's cores completes, so
  cold resync can start at the next pulse. -/
  | stateCopyComplete (c : Fin 32) (sl : Fin 5)
  /-- SPARE_SELF_TEST_COMPLETE (R405): A 6 µs spare-core self-test ends, and a failed spare is retired or a
  passed one returns to SPARE. -/
  | spareSelfTestComplete (e : Fin 256) (fail : Bool)
  /-- DIMM_DEVICE_FAULT (R278): A DIMM reports a DRAM device faulty, and the controller marks it in
  MCU_STATUS.FAILDEV. -/
  | dimmDeviceFault (ch : Fin 12) (rank dev : BitVec 8)
  /-- JOURNAL_ACK_MISSING (R344): The shipping device gets no acknowledgement for a journal record and
  re-ships it once on the other path; a second failure is a mirror-link fault. -/
  | journalAckMissing (rsn : BitVec 64)
  /-- MP_PAIR_MISMATCH (R455): The two remaining management processor members differ, self-test, and a
  failing member is retired. failed: the members that fail self-test. -/
  | mpPairMismatch (failed : List Nat)
  /-- TIME_MASTER_FAILOVER (R424): The standby time master takes over when the elected time master falls
  silent. -/
  | timeMasterFailover
  /-- VENDOR_RELEASE_ROLL (R204): The management processor applies a vendor microcode release cluster by
  cluster, draining, writing, verifying and returning each cluster's units. micro and nano are the words of
  the release; ok: they are verified. -/
  | vendorReleaseRoll (c : Fin 32) (release : BitVec 32) (micro nano : List Nat) (ok : Bool)
  /-- SMBUS_CLOCK_LOW_TIMEOUT (R527): SCL is held low beyond 25-35 ms; the target releases the bus and the
  master abandons the transaction and retries once. master: in a transaction that the device masters. -/
  | smbusClockLowTimeout (master : Bool)
  /-- ZQ_RECALIBRATION (R529): The device recalibrates ZQ on both ONFI channels every 1 s to keep them ready
  for a dump. -/
  | zqRecalibration
  /-- VAULT_DOMAIN_POWER_OFF (R501): After the dump, the vault domain powers off when the bank voltage
  reaches Vmin. -/
  | vaultDomainPowerOff
  deriving DecidableEq, Repr

end Sys2Proof
end

