-- ==== Sys2Proof/Machine/Dec.lean ====
section
/-!
DEFINITION. Packed and zoned decimal values (R94 to R97), PDEC words (R64) and digit counts.
-/
namespace Sys2Proof.Machine

/-- Digits of a byte string, two to a byte, most significant first (R94). -/
def nibbles (bs : List Byte) : List Nat := bs.flatMap fun b => [b.toNat / 16, b.toNat % 16]

/-- The number that decimal digits spell; none when one is above 9 (R96). -/
def digitsVal : List Nat → Nat → Option Nat
  | [], a => some a
  | d :: ds, a => if d ≤ 9 then digitsVal ds (a * 10 + d) else none

/-- A packed sign nibble: minus, plus or invalid (R96). -/
def signPacked (n : Nat) : Option Bool :=
  if n = 0xB ∨ n = 0xD then some true
  else if n = 0xA ∨ n = 0xC ∨ n = 0xE ∨ n = 0xF then some false else none

/-- A zoned sign nibble: minus, plus or invalid (R96). -/
def signZoned (n : Nat) : Option Bool := if n = 3 then some false else signPacked n

/-- The signed value of a magnitude. -/
def signedVal (neg : Bool) (m : Nat) : Int := if neg then -(m : Int) else m

/-- The value of a PACKED field (R94, R96); none when a digit or the sign is invalid. -/
def packedVal (bs : List Byte) : Option Int :=
  let ns := nibbles bs
  match digitsVal ns.dropLast 0, signPacked (ns.getLastD 0) with
  | some m, some neg => some (signedVal neg m)
  | _, _ => none

/-- The value of a ZONED field (R95, R96). -/
def zonedVal (bs : List Byte) : Option Int :=
  match digitsVal (bs.map fun b => b.toNat % 16) 0, signZoned ((bs.getLastD 0).toNat / 16) with
  | some m, some neg => some (signedVal neg m)
  | _, _ => none

/-- The low n decimal digits of m, most significant first. -/
def lowDigits : Nat → Nat → List Nat
  | 0, _ => []
  | n + 1, m => (m / 10 ^ n % 10) :: lowDigits n m

/-- Bytes from nibbles. -/
def packNibbles : List Nat → List Byte
  | a :: b :: r => BitVec.ofNat 8 (a * 16 + b) :: packNibbles r
  | _ => []

/-- The PACKED field of L bytes with magnitude m and a sign, in preferred form (R97): the low 2L − 1 digits. -/
def packedOf (plus : Bool) (L : Nat) (neg : Bool) (m : Nat) : List Byte :=
  packNibbles (lowDigits (2 * L - 1) m ++ [if neg then 0xD else if plus then 0xF else 0xC])

/-- The ZONED field of L bytes in preferred form (R97). -/
def zonedOf (plus : Bool) (L : Nat) (neg : Bool) (m : Nat) : List Byte :=
  (lowDigits L m).mapIdx fun i d =>
    BitVec.ofNat 8 ((if i + 1 = L then (if neg then 0xD else if plus then 0x3 else 0xC) else 0x3) * 16 + d)

/-- The value of a PDEC word (R64, R94). -/
def pdecVal (w : Word) : Option Int := packedVal (toBytes 8 w.toNat)

/-- A value of at most 15 digits as a PDEC word with the preferred signs 0xC and 0xD (R165). -/
def pdecOf (i : Int) : Word :=
  BitVec.ofNat 64 (ofBytes (packedOf false 8 (decide (i < 0)) i.natAbs))

/-- The value needs more than 15 digits (R165). -/
def over15 (i : Int) : Bool := i.natAbs ≥ 10 ^ 15

end Sys2Proof.Machine
end

