-- ==== Sys2Proof/Machine/CoreState.lean ====
section
/-!
DEFINITION. The state of one Lanam core: banks and PSW (R57, R61), shared registers (R58 and the
register maps of chapters 3 to 10), level links (R182), return stack (R79), TCM (R242), control stores
(R203), cached translations (R263), and what the core waits for.
-/
namespace Sys2Proof.Machine

/-- One bank of registers (R57). -/
structure Bank where
  acc : TWord
  aex : TWord
  x1 : TWord
  x2 : TWord
  cnt : Word
  sp : Word
  mb : Word
  ml : Word
  psw : Word
  deriving DecidableEq, Repr

/-- A bank after reset (R57, R61: GM = 1). -/
def Bank.cold : Bank := ⟨raw0, raw0, raw0, raw0, 0, 0, 0, 0, 0x4000000⟩

/-- A level link group (R182): CORE_LPC with its tag, CORE_LINFO and CORE_LADDR. -/
structure Link where
  lpc : TWord
  linfo : Word
  laddr : Word
  deriving DecidableEq, Repr

/-- A link group after reset (R183; CORE_LPC and CORE_LADDR: DESIGN CHOICE 0, log 3). -/
def Link.cold : Link := ⟨raw0, 0, 0⟩

/-- A needs-SYNC register with a write still inside the window of R85: its code (the CSR number; 0x10000
plus the bank for the CT and SUB fields of a PSW), its value before the write, and how many more retired
instructions may still use that value. -/
structure Delayed where
  reg : Nat
  old : Word
  left : Nat
  deriving DecidableEq, Repr

/-- A control-space write to a needs-SYNC register that waits for the next synchronising event (R60): the code of
the register as in Delayed, whether the management processor wrote it, and the value written. -/
structure Held where
  reg : Nat
  mp : Bool
  val : Word
  deriving DecidableEq, Repr

/-- A cached translation item (R263, R267): kind 0 is the leaf entry of one 4 KiB frame with the frame's
key and FP, kinds 1 and 2 are intermediate entries of that level. idx is the virtual address divided by
the span of the item. -/
structure TlbItem where
  part : Nat
  kind : Nat
  idx : Nat
  entry : Word
  key : Nat
  fp : Bool
  tick : Nat
  deriving DecidableEq, Repr

/-- What keeps a core from issuing. -/
inductive Act where
  /-- The core issues instructions. -/
  | run
  /-- WAIT: the core is in C1 (R155, R249). -/
  | c1
  /-- WAIT: in C1, and a tick pulse has come since (R155). -/
  | c1p
  /-- DISPATCH waits for a descriptor (R169). -/
  | disp
  /-- A POST, PREAD, POSTR or RREAD waits for its reply, or a load for a remote repair (R166, R167, R279). -/
  | reply
  /-- Retirement has stopped at a divergence, until triage has ended (R373, R380, R386). -/
  | stopped
  deriving DecidableEq, Repr

/-- The level 0 transaction context that a core runs (R169, R247, R348). -/
structure Ctx where
  /-- Intake sequence number of the request. -/
  isn : Nat
  /-- Order key of the run. -/
  key : Nat
  /-- Physical address of the context save area. -/
  save : Nat
  /-- The context was suspended with its extension state saved (R199). -/
  xsaved : Bool
  deriving DecidableEq, Repr

/-- An entry in progress, until the first handler instruction retires (R181, R541). -/
structure Entering where
  vec : Nat
  lret : Nat
  rpc : Word
  deriving DecidableEq, Repr

/-- One core. -/
structure Core where
  pc : Word
  lev : Nat
  /-- Bit k: level k is active (R173). -/
  active : Word
  banks : SMap Bank
  links : SMap Link
  vbr : Word
  gsp : Word
  lmask : Word
  rsctl : Word
  rstk : SMap TWord
  scatw : Word
  shstk : Word
  tbase : Word
  keyctl : Word
  mode : Word
  tcmwin : Word
  budget : Word
  /-- BUDGET_EXCEEDED is armed (R247, R248). -/
  armed : Bool
  txstall : Word
  decctl : Word
  fpsr : Word
  xscr : SMap Word
  xown : Word
  ucstat : Word
  tcmblk : SMap Word
  /-- TCM words by word offset (R242). -/
  tcm : SMap TWord
  /-- Vendor microwords, vendor nanowords and the vendor release they came from (R203, R204). -/
  vmicro : SMap (BitVec 24)
  vnano : SMap (BitVec 160)
  /-- Customer store words (R203). -/
  cstore : SMap (BitVec 32)
  /-- Decode table: 64 × bank + entry (R203, R207). -/
  dectab : SMap Word
  /-- Store words that read with a parity error (R227): (source code, address). -/
  parity : List (Nat × Nat)
  delayed : List Delayed
  /-- Control-space writes that wait for a synchronising event, oldest first (R60). -/
  held : List Held
  /-- Retired instructions, bits 31:0 of which enter the compare vector (R364). -/
  retired : Nat
  ctx : Option Ctx
  /-- Level 0 stands in a DISPATCH that the hardware performs, after a YIELD or an abort: RETL to level 0 lands on
  it (R169, R170, R195). -/
  dead0 : Bool
  /-- The level 0 context was aborted while a handler ran: its PSW is set at that RETL (R195). -/
  aborted0 : Bool
  act : Act
  /-- The core is in C6 (R249). -/
  c6 : Bool
  tlb : List TlbItem
  entering : Option Entering
  /-- A customer instruction has begun and waits for a remote repair: no boundary comes before its END (R220). -/
  mid : Bool
  /-- CORE_UCSTAT as the activation of microcode leaves it, while a customer instruction completes with the old bank
  (R225). -/
  ucNext : Option Word
  deriving DecidableEq, Repr

/-- The level 0 to 15 and guard banks: bank b of the core. -/
def Core.bank (c : Core) (b : Nat) : Bank := sget Bank.cold c.banks b

/-- The bank of the current level (R57). -/
def Core.cur (c : Core) : Bank := c.bank c.lev

/-- Replace bank b. -/
def Core.setBank (c : Core) (b : Nat) (v : Bank) : Core := { c with banks := sset Bank.cold c.banks b v }

/-- Replace the bank of the current level. -/
def Core.setCur (c : Core) (v : Bank) : Core := c.setBank c.lev v

/-- Link group of level b (R182). -/
def Core.link (c : Core) (b : Nat) : Link := sget Link.cold c.links b

/-- Replace the link group of level b. -/
def Core.setLink (c : Core) (b : Nat) (v : Link) : Core := { c with links := sset Link.cold c.links b v }

/-- A core after cold reset (R57, R61, R78, R79, R98, R129, R175, R177, R183, R186, R197, R199, R200,
R202, R232, R242, R243, R248, R255, R261): level 0, BOOT, running. -/
def Core.cold : Core where
  pc := 0
  lev := 0
  active := 1
  banks := []
  links := []
  vbr := 0
  gsp := 0
  lmask := 0xFFFE
  rsctl := 0
  rstk := []
  scatw := 0
  shstk := 0
  tbase := 0
  keyctl := 0xFF02
  mode := 0
  tcmwin := 0x40000
  budget := 0
  armed := false
  txstall := 0
  decctl := 0
  fpsr := 0
  xscr := []
  xown := 0
  ucstat := 0
  tcmblk := []
  tcm := []
  vmicro := []
  vnano := []
  cstore := []
  dectab := []
  parity := []
  delayed := []
  held := []
  retired := 0
  ctx := none
  dead0 := false
  aborted0 := false
  act := .run
  c6 := false
  tlb := []
  entering := none
  mid := false
  ucNext := none

/-- A customer instruction is over: the boundary at which an activation that came during it switches the banks (R220,
R225). -/
def Core.leaveMid (c : Core) : Core := { c with mid := false, ucstat := c.ucNext.getD c.ucstat, ucNext := none }

/-- Core state codes of CORE_MODE.STATE (R230). -/
def csBOOT : Nat := 0
def csTEST : Nat := 1
def csSERVICE : Nat := 2
def csRECOVERY : Nat := 3
def csSPARE : Nat := 4
def csRETIRED : Nat := 5

/-- CORE_MODE.STATE (R232). -/
def Core.stateCode (c : Core) : Nat := fld c.mode 2 0

/-- Set CORE_MODE.STATE (R230). -/
def Core.setStateCode (c : Core) (v : Nat) : Core := { c with mode := setFld c.mode 2 0 v }

/-- Tick-exact mode (R239): CORE_MODE.TX. -/
def Core.tx (c : Core) : Bool := bit c.mode 6

/-- The value that only the writable fields of a map take from v; the others keep theirs (R7, R10). -/
def mergeFields (fs : List Fld) (mp : Bool) (old v : Word) : Word :=
  fs.foldl (fun w f =>
    match f.acc with
    | .rw => setFld w f.hi f.lo (fld v f.hi f.lo)
    | .mpo => if mp then setFld w f.hi f.lo (fld v f.hi f.lo) else w
    | .w1s => setFld w f.hi f.lo (fld old f.hi f.lo ||| fld v f.hi f.lo)
    | _ => w) old

/-- What a write leaves in CORE_MODE: an unassigned STATE is not stored, and RETIRED is not left (R230 to R232). -/
def modeStore (mp : Bool) (old v : Word) : Word :=
  let n := mergeFields CoreReg.mode.fields mp old v
  if fld n 2 0 ≥ 6 || fld old 2 0 = csRETIRED then setFld n 2 0 (fld old 2 0) else n

/-- What a write leaves in CORE_SCATW: above 16 stores 16 (R78). -/
def scatwStore (v : Word) : Word := BitVec.ofNat 64 (min (fld v 4 0) 16)

/-- A held control-space write takes effect (R60): of CORE_RSCTL only WRAP, of a PSW only CT and SUB waited (R84). -/
def Core.applyHeld (c : Core) (h : Held) : Core :=
  match h.reg with
  | 0x12 => { c with vbr := mergeFields CoreReg.vbr.fields h.mp c.vbr h.val }
  | 0x14 => { c with lmask := mergeFields CoreReg.lmask.fields h.mp c.lmask h.val }
  | 0x20 => { c with rsctl := setBit c.rsctl 15 (bit h.val 15) }
  | 0x22 => { c with scatw := scatwStore h.val }
  | 0x30 => { c with tbase := mergeFields CoreReg.tbase.fields h.mp c.tbase h.val }
  | 0x31 => { c with keyctl := mergeFields CoreReg.keyctl.fields h.mp c.keyctl h.val }
  | 0x38 => { c with mode := modeStore h.mp c.mode h.val }
  | n =>
    let b := c.bank (n - 0x10000)
    c.setBank (n - 0x10000) { b with psw := setFld b.psw 36 35 (fld h.val 36 35) }

/-- A synchronising event: every earlier write is in effect (R86), and held control-space writes take effect (R60). -/
def Core.sync (c : Core) : Core := { c.held.foldl Core.applyHeld c with delayed := [], held := [] }

end Sys2Proof.Machine
end

