-- ==== Sys2Proof/Machine/FlowState.lean ====
section
/-!
DEFINITION. The state of the intake engine, the journal vault and the idempotency table (chapter 13), of the
fabric endpoint (chapter 16) and of the host interface and the management processor (chapter 17).
-/
namespace Sys2Proof.Machine

/-! Intake and vault. -/

/-- A completion that waits to be written in ring order (R332, R337): its slot, and what decides it. -/
inductive AccWait where
  /-- A journaled request: ACCEPTED when its record is acknowledged (R343). -/
  | request (sqidx isn idem : Nat)
  /-- A refusal with its STATUS (R331). -/
  | refusal (sqidx status idem : Nat)
  /-- A duplicate of the request isn (R337): the order key and the result of the original's committing run, once its
  entry was DONE at the lookup or its result completion has been written. -/
  | duplicate (sqidx idem isn : Nat) (answer : Option (Nat × List Byte))
  deriving DecidableEq, Repr

/-- Run-time state of a submission and completion queue pair. -/
structure Queue where
  /-- Submission tail of the host and fetch pointer of the engine (R451). -/
  sqTail : Nat
  fetch : Nat
  /-- Completion head of the host and tail of the engine (R333). -/
  cqHead : Nat
  cqTail : Nat
  /-- Acceptance and refusal completions not written yet, in ring order (R332). -/
  acc : List AccWait
  /-- QSTAT.HELD (R454). -/
  held : Bool
  /-- Last order key of a RELEASE record (R349). -/
  relKey : Option Nat
  deriving DecidableEq, Repr

/-- A queue after reset. -/
def Queue.cold : Queue := ⟨0, 0, 0, 0, [], false, none⟩

/-- A dump image in NAND (R353): the header, the records of both halves, and the footer with the key epoch of its tag. -/
structure DumpImg where
  device : Nat
  seq : Nat
  nextRsn : Nat
  nextIsn : Nat
  rtick : Nat
  tick : Nat
  own : List JRec
  ptn : List JRec
  keyep : Nat
  digest : Nat
  tag : Nat
  deriving DecidableEq, Repr

/-- The journal vault (R339 to R354). -/
structure Vault where
  own : List JRec
  ptn : List JRec
  nextRsn : Nat
  /-- Highest RSN of the partner that is applied (R344). -/
  ptnRsn : Nat
  /-- Own records shipped and not acknowledged: RSN, and how often they were shipped again (R344). -/
  unacked : List (Nat × Nat)
  /-- Journal keys of the current and the previous epoch: epoch and wrapped key (R340). -/
  key : Option (Nat × Nat)
  prevKey : Option (Nat × Nat)
  /-- REMOTE entries and FLIPPED copies that posting units put into the vault (R294, R322, R443). -/
  npuCopy : List (Nat × LogE)
  /-- Frame images that posting units put into the vault at the flip (R294). -/
  imgCopy : List FrameImg
  /-- RELEASE and RETIRE records that ship with the next posting log (R349, R350). -/
  toShip : List JRec
  /-- The dump slot pairs (R354), and the blocks of a slot pair still usable: slot pairs left. -/
  slots : List DumpImg
  slotsLeft : Nat
  /-- The partner refused an ACCEPT record for want of space (R351). -/
  ptnFull : Bool
  /-- Records of the partner whose TAG was wrong and that have not come again, and verified ones that wait for them, since
  records apply in RSN order (R344). -/
  badRsn : List Nat
  early : List JRec
  /-- ACCEPT records of the partner that were refused for want of space and have not come again (R351): their RSNs. -/
  refused : List Nat
  /-- The posting logs of the ticks that are not SEALED (R29, R356). -/
  logs : List PostLog
  /-- The power-fail sequence froze the vault with this image not yet written (R352). -/
  dumping : Option DumpImg
  deriving DecidableEq, Repr

/-- An empty vault: both halves empty, no key, no image, two slot pairs (R354). RSN and ISN start at 1
(DESIGN CHOICE, log 9). -/
def Vault.cold : Vault := ⟨[], [], 1, 0, [], none, none, [], [], [], [], 2, false, [], [], [], [], none⟩

/-! Fabric. -/

/-- An outstanding POSTR or RREAD of a core (R438, R439). -/
structure RWait where
  core : Nat
  isn : Nat
  dst : Nat
  ra : Nat
  isRead : Bool
  /-- The tick in which it was issued. -/
  tick : Nat
  /-- A value of a tick that this device has not reached yet (R324). -/
  held : Option RReply
  deriving DecidableEq, Repr

/-- A REMOTE entry of a run at a target (R322): target device, tick. -/
structure RHeld where
  isn : Nat
  okey : Nat
  dst : Nat
  tick : Nat
  deriving DecidableEq, Repr

/-- A PIN of an own transaction: its ISN, message number, acknowledged, what it covers, and the tick (R441). -/
structure OwnPin where
  isn : Nat
  mseq : Nat
  acked : Bool
  covers : List Nat
  tick : Nat
  deriving DecidableEq, Repr

/-- An RPOST at this device as target, whose REMOTE entry waits for the partner's acknowledgement (R440). -/
structure TgtWait where
  src : Nat
  rid : Nat
  okey : Nat
  value : Word
  tick : Nat
  deriving DecidableEq, Repr

/-- What a witness records of a pair (R432, R434): the devices, who took over, and the global time of the
first takeover request. -/
structure WitPair where
  a : Nat
  b : Nat
  granted : Option Nat
  reqTime : Nat
  deriving DecidableEq, Repr

/-- A fabric port (R418, R419): the key of the sending direction, its frame counter (restarted with each key; log 73), retry
requests that named one frame: the frame and the times of the requests. -/
structure PortX where
  key : Option Nat
  counter : Nat
  retryFrame : Nat
  retryTimes : List Nat
  /-- The neighbour's last beacon. -/
  beacon : Option Beacon
  /-- The key of the receiving direction, and the link salts of both (R418). -/
  rxKey : Option Nat
  salt : Nat
  rxSalt : Nat
  deriving DecidableEq, Repr

/-- A port after reset. -/
def PortX.cold : PortX := ⟨none, 0, 0, [], none, none, 0, 0⟩

/-- The fabric endpoint. -/
structure Fab where
  /-- Messages that the endpoint has sent, oldest first. -/
  out : List OutMsg
  /-- Frames forwarded: the port, and the frame as it leaves (R427). -/
  fwd : List (Nat × Transit)
  /-- Next MSEQ by TYPE (R422). -/
  mseq : SMap Nat
  /-- First copies seen: (source, TYPE, MSEQ) (R427). -/
  seen : List (Nat × Nat × Nat)
  ports : SMap PortX
  waits : SMap RWait
  held : List RHeld
  notices : List (Nat × Nat)
  tgtWaits : List TgtWait
  closes : List CloseRec
  ownPins : List OwnPin
  pins : List PinRec
  /-- REMOTE entries of the partner's posting units that this device holds under R440. -/
  ptnRemote : List LogE
  wit : List WitPair
  /-- Heartbeats missed in a row, and whether one came since the last heartbeat instant (R432). -/
  hbMiss : Nat
  hbSeen : Bool
  /-- A takeover request was sent (R434); its answer: none, granted, denied. -/
  asked : Bool
  granted : Option Bool
  /-- An OK of the witness came in this tick (R432). -/
  okSeen : Bool
  /-- The partner is in Fawn mode, as its heartbeat says. -/
  ptnFawn : Bool
  /-- The handover: REQ sent, ACK received; as partner: ACK given (R436). -/
  handSent : Bool
  handAck : Bool
  handTaken : Bool
  /-- The candidate that the beacons name best, and since when: fabric manager and time master (R424). -/
  fmBest : Nat
  fmSince : Nat
  tmBest : Nat
  tmSince : Nat
  /-- Serial numbers of the fabric manager, of its standby, of the time master and of its standby. -/
  fmSerial : Nat
  fmStandby : Nat
  tmSerial : Nat
  tmStandby : Nat
  sysid : Nat
  /-- The system ID table: (SERIAL, device ID) (R425). -/
  ids : List (Nat × Nat)
  /-- Route updates that wait for their ticks: epoch, tick, entries (R428). -/
  routeNext : List (Nat × Nat × List RouteUpd)
  /-- Serial numbers of devices from which the manager withholds every ID (R425). -/
  withheld : List Nat
  /-- Routes cached by the forwarding engine: (destination, entry, epoch of loading) (R428). -/
  routeCache : List (Nat × Word × Nat)
  /-- The partner's partitions as last shipped (R276), its custody data. -/
  tables : List Tables
  /-- A route or mirror-path failure is known: both routes to the partner down (R446). -/
  mirrorDown : Bool
  /-- Global time of the last valid TIME_SYNC (R430). -/
  lastSync : Nat
  /-- The tick at which the partner's custody returns by OMI_PARTNER_RESTORE (R436). -/
  restoreAt : Option Nat
  /-- Global time is within the limit of R305, as the last TIME_SYNC showed. -/
  syncOk : Bool
  /-- Remote reads of a later tick, which wait for the pulse (R324): source and request. -/
  rdWaits : List (Nat × RReq)
  /-- Remote reads that wait for the remote repair of a line (R279, R284): the line, the source and the request. -/
  lineWaits : List (Nat × Nat × RReq)
  /-- Remote POSTs of a later tick, which wait for the pulse as such reads do (R321): source and request. -/
  postWaits : List (Nat × RReq)
  /-- The replica is promoted: this device has custody of its partner's work (R357). -/
  custody : Bool
  deriving DecidableEq, Repr

/-- The endpoint after cold reset. -/
def Fab.cold : Fab where
  out := []
  fwd := []
  mseq := []
  seen := []
  ports := []
  waits := []
  held := []
  notices := []
  tgtWaits := []
  closes := []
  ownPins := []
  pins := []
  ptnRemote := []
  wit := []
  hbMiss := 0
  hbSeen := false
  asked := false
  granted := none
  okSeen := false
  ptnFawn := false
  handSent := false
  handAck := false
  handTaken := false
  fmBest := 0
  fmSince := 0
  tmBest := 0
  tmSince := 0
  fmSerial := 0
  fmStandby := 0
  tmSerial := 0
  tmStandby := 0
  sysid := 0
  ids := []
  routeNext := []
  withheld := []
  routeCache := []
  tables := []
  mirrorDown := false
  lastSync := 0
  restoreAt := none
  syncOk := false
  rdWaits := []
  lineWaits := []
  postWaits := []
  custody := false

/-! Host interface. -/

/-- What the device sends to the host (R330, R333, R449, R452, R453, R458): a completion entry, with or without the relaxed
ordering attribute; the tail index, without it; a message with the address and data of its table entry; a write and a read of
host memory with a function's requester ID; the answer to a read of a BAR. -/
inductive HostOut where
  | completion (queue slot : Nat) (entry : List Byte) (relaxed : Bool)
  | tail (addr value : Nat)
  | msix (fn vec addr data : Nat)
  | buffer (fn addr : Nat) (data : List Byte)
  | fetch (fn addr len : Nat)
  | answer (fn : Nat) (data : List Byte)
  deriving DecidableEq, Repr

/-- An MSI-X table entry (R449, R452), with the fields of the PCI Express standard (PRESUMED, log 131). -/
structure MsixEntry where
  addr : Nat
  data : Nat
  masked : Bool
  deriving DecidableEq, Repr

/-- An entry after reset: masked (PRESUMED, the standard's value, log 131). -/
def MsixEntry.cold : MsixEntry := ⟨0, 0, true⟩

/-- A function (R449, R452, R454). -/
structure Fn where
  busMaster : Bool
  vbase : Nat
  nvec : Nat
  /-- The MSI-X table, and the vectors that are pending (R449, R452). -/
  table : SMap MsixEntry
  pend : List Nat
  deriving DecidableEq, Repr

/-- A function after reset: bus mastering off; function 0 holds MSI-X entries 0 to 31 (R452). -/
def Fn.cold : Fn := ⟨false, 0, 0, [], []⟩

/-- A mailbox beside its registers: the stored response, the request that is BUSY, the request area (R457 to R459). -/
structure Mbx where
  resp : Option OmiResp
  /-- The request that was copied when its doorbell was taken: CMD and the rest (R458). -/
  busy : Option (Nat × OmiReq)
  /-- The bytes of the request area, from 0x040 (R457). -/
  area : SMap Byte
  deriving DecidableEq, Repr

/-- An idle mailbox, its request area zero (DESIGN CHOICE, log 125). -/
def Mbx.cold : Mbx := ⟨none, none, []⟩

/-- LASTSEQ and response for one fabric manager ID (R461). -/
structure FmMbx where
  lastSeq : Nat
  resp : Option OmiResp
  deriving DecidableEq, Repr

/-- No command from this fabric manager yet. -/
def FmMbx.cold : FmMbx := ⟨0, none⟩

/-- An enrolled credential (R465): KIND, INDEX and key. -/
structure Cred where
  kind : Nat
  index : Nat
  key : Nat
  deriving DecidableEq, Repr

/-- An entry of the degradation ledger in the boot flash (R405, R406). -/
structure Degr where
  loc : Nat
  sig : Nat
  time : Nat
  /-- The comparator copy that is lost, 0 X or 1 Y; 0 in an entry of another kind (log 127). -/
  copy : Nat
  deriving DecidableEq, Repr

/-- A command whose mailbox stays BUSY until a later event: source, CMD, SEQ (R458, R460). -/
structure OmiBusy where
  src : OmiSrc
  cmd : Nat
  seq : Nat
  /-- The object that the command holds (R460). -/
  obj : Nat
  deriving DecidableEq, Repr

/-- A vendor release for a cluster (R204): its number, its words, and whether it reads back as written. -/
structure VRoll where
  cluster : Nat
  release : Nat
  micro : List Nat
  nano : List Nat
  ok : Bool
  deriving DecidableEq, Repr

/-- The management processor and the boot flash. -/
structure MpState where
  /-- Members in service (R455). -/
  members : List Nat
  /-- The firmware slots, the slot that runs, and whether a valid image was found (R456). -/
  fw : List FwImg
  running : Nat
  fwFail : Bool
  /-- The anti-rollback counter and the tick at which the running image started. -/
  antiRollback : Nat
  fwSince : Nat
  creds : List Cred
  ledger : List Degr
  /-- PERSIST of OMI_HEALTH_READ (R464). -/
  persist : Word
  busy : List OmiBusy
  /-- Requested code blocks by block (R465): the block's words and descriptor, and the tick from whose pulse
  each core takes it. -/
  code : List (Nat × Word × List TWord × Nat)
  /-- A customer image that waits for its activation tick (R225). -/
  image : Option (Nat × List Byte)
  /-- Base and length of the store words that the active image and the waiting image use (R222, R225). -/
  ucode : Nat × Nat
  ucodeNext : Nat × Nat
  /-- MPRI and TPRI in the boot flash (R464: OMI_ROLE_SET persists). -/
  prio : Nat × Nat
  /-- Code blocks that a core has still to take: core and block (R465). -/
  codeDue : List (Nat × Nat)
  /-- Vendor release that the vendor stores of each cluster hold (R204). -/
  release : SMap Nat
  /-- Control store words that triage rewrote: core, source code, address and tick (R228). -/
  perr : List (Nat × Nat × Nat × Nat)
  /-- CORE_UCSTAT.PERR by core (R228, R229): the field in which the cores of a unit can differ. -/
  perrs : SMap Nat
  /-- Vendor releases that wait until the units of their cluster are drained (R204). -/
  rolls : List VRoll
  deriving DecidableEq, Repr

/-- The management processor after cold reset: three members, and one valid firmware image that runs (R455, R456; the
contents of the boot flash: DESIGN CHOICE, log 34). -/
def MpState.cold : MpState := ⟨[0, 1, 2], [⟨1, 1, true⟩, ⟨0, 0, false⟩], 0, false, 0, 0, [], [], 0, [], [], none, (0, 0), (0, 0), (0, 0), [], [], [], [], []⟩

/-- The host interface. -/
structure Hif where
  out : List HostOut
  fns : SMap Fn
  mbx : SMap Mbx
  fmMbx : SMap FmMbx
  /-- The status page copies (R450). -/
  page : SMap Word
  /-- Open selective IDE streams (R448, R468). -/
  ide : List Nat
  /-- The mailboxes whose command has been taken and not executed, in the order of their doorbells (R460). -/
  taken : List Nat
  deriving DecidableEq, Repr

/-- The host interface after cold reset. -/
def Hif.cold : Hif := ⟨[], [], [], [], [], [], []⟩

end Sys2Proof.Machine
end

