-- ==== Sys2Proof/Machine/DevState.lean ====
section
/-!
DEFINITION. The state of the debug domain and of trace (chapter 18), and of power, the hold-up store, clocks and the
control lands (chapters 19 and 20), beside their registers.
-/
namespace Sys2Proof.Machine

/-! Debug domain. -/

/-- The debug domain. -/
structure Dbg where
  /-- VDD_DBG is up (R469). -/
  powered : Bool
  /-- The domain's copy of the enrolled debug credentials (R471); none: not made yet. -/
  creds : Option (List Cred)
  /-- The TAP instruction register (R474). -/
  ir : Nat
  /-- What the next Capture-DR of DBGACC reads: DONE, ERR and the read data (R475). -/
  done : Bool
  err : Bool
  data : Word
  /-- A step that is under way: the core, and INTEN (R480). -/
  step : Option (Nat × Bool)
  /-- Where DBG_REQ waits to be taken: the core (R478). -/
  req : Option Nat
  deriving DecidableEq, Repr

/-- The debug domain after its own reset, without VDD_DBG: IDCODE is the TAP instruction of Test-Logic-Reset. -/
def Dbg.cold : Dbg := ⟨false, none, 1, false, false, 0, none, none⟩

/-- A trace source (R483 to R488): the first core of a unit, or a core of a split slot. -/
structure TrcSrc where
  /-- Atoms not emitted yet, in program order (R485). -/
  atoms : List Bool
  /-- Bytes of the stream since the last SYNC (R486). -/
  since : Nat
  /-- Bytes discarded and not yet told by a GAP (R488). -/
  lost : Nat
  /-- The stream has begun (R486). -/
  on : Bool
  /-- State of POWER_ENTER while the source is stopped (R487). -/
  asleep : Option Nat
  /-- A tick whose TICK packet follows POWER_EXIT. -/
  tick : Option Nat
  deriving DecidableEq, Repr

/-- A source that has not started. -/
def TrcSrc.cold : TrcSrc := ⟨[], 0, 0, false, none, none⟩

/-- Trace (R488): the sources by core, the 8 MiB buffer by offset, and the bytes in it that are not read. -/
structure Trc where
  srcs : SMap TrcSrc
  buf : SMap Byte
  unread : Nat
  deriving DecidableEq, Repr

/-- Trace after the reset of the debug domain: empty (R469). -/
def Trc.cold : Trc := ⟨[], [], 0⟩

/-! Power. -/

/-- The hold-up store, the control lands and the board buses. -/
structure Pwr where
  /-- The present bank voltage in units of 0.25 mV (R495). -/
  volt : Nat
  /-- V0 of the capacitance test that runs (R497). -/
  v0 : Option Nat
  /-- V1 − V2 of the last accepted test, in units of 0.25 mV (R497, R498). -/
  test : Option Nat
  /-- Global time of the last accepted test (R514: HUP_EST.AGE). -/
  testAt : Nat
  /-- A test has been accepted since cold reset (R497). -/
  tested : Bool
  /-- THERMTRIP_N is asserted (R512, R526). -/
  thermTrip : Bool
  /-- The vault domain is powered (R501). -/
  vaultOn : Bool
  /-- The dump of the power-fail sequence is complete (R502). -/
  dumped : Bool
  /-- As PMBus master, the device has abandoned a transaction and retries it (R527). -/
  pmbRetry : Bool
  /-- Global time of the last ZQ calibration of both ONFI channels (R529). -/
  zqAt : Nat
  /-- What VOUT_COMMAND has set VDD_CORE0 and VDD_CORE1 to since cold reset, in mV (R494); 0: nothing. -/
  vcore : Nat × Nat
  deriving DecidableEq, Repr

/-- After cold reset. -/
def Pwr.cold : Pwr := ⟨0, none, none, 0, false, false, true, false, false, 0, (0, 0)⟩

end Sys2Proof.Machine
end

