-- ==== Sys2Proof/Machine/LockState.lean ====
section
/-!
DEFINITION. The state of a cluster slot beside its registers (chapter 14): the resync image (R370), the
event in triage (R372), counted transients (R375), and requested splits and rejoins (R385, R387).
-/
namespace Sys2Proof.Machine

/-- The resync image of a slot (R370): banks 1 to 16, the shared registers it names, and CORE_TCMBLK of
every CODE block. -/
structure Image where
  banks : SMap Bank
  vbr : Word
  gsp : Word
  lmask : Word
  wrap : Bool
  scatw : Word
  tcmwin : Word
  shstkBase : Nat
  txreq : Bool
  code : SMap Word
  deriving DecidableEq, Repr

/-- Run-time state of a slot. -/
structure SlotX where
  /-- CHK_MISMATCH.KIND of the event in triage; 0 when none. -/
  evt : Nat
  /-- Ticks of the transients still counted (R375). -/
  trans : List Nat
  /-- The current image (R370). -/
  image : Option Image
  /-- The image was captured since the last stage close (R370). -/
  captured : Bool
  /-- The state copy into the slot's cores is complete: cold resync can start (R374). -/
  copied : Bool
  /-- The tick from which the unit is in the production pool (R371, R36). -/
  poolFrom : Nat
  /-- Requested tick of a split, of a rejoin (R385, R387). -/
  splitAt : Option Nat
  rejoinAt : Option Nat
  /-- Control store words that read with a parity error since the last triage: core, source code, address and tick
  (R227, R228). -/
  parity : List (Nat × Nat × Nat × Nat)
  /-- Asynchronous requests of the unit at its freeze, held by the checker (R371). -/
  reqs : Async
  /-- The region scheduler has set TXREQ in the slot's cores (R240, R241). -/
  exact : Bool
  /-- No spare was left at the first capture after an outvote: the triad runs on its two positions until cluster reset
  (R379). -/
  lone : Bool
  deriving DecidableEq, Repr

/-- A slot after reset. -/
def SlotX.cold : SlotX := ⟨0, [], none, false, false, 0, none, none, [], Async.cold, false, false⟩

end Sys2Proof.Machine
end

