-- ==== Sys2Proof/Machine/SchedState.lean ====
section
/-!
DEFINITION. The state of the region schedulers and the tick sequencer (chapter 12) and of the runs they
schedule (R11, R310 to R319, R345 to R348).
-/
namespace Sys2Proof.Machine

/-- Where a request stands (R11, R310, R313, R169, R170). -/
inductive RunSt where
  /-- Journaled, not acknowledged by the mirror partner: SUBMITTED (R343). -/
  | journaled
  /-- ACCEPTED, waiting for its first batch. -/
  | accepted
  /-- In the batch of the tick, not dispatched (R310, R311). -/
  | queued
  /-- Queued for the exact lane: the stage engine has still to stage it in, or is waiting for a touch (R244, R288). -/
  | staging
  /-- Staged in, ready for delivery. -/
  | ready
  /-- Running on the unit that holds the core. -/
  | running (core : Nat)
  /-- Suspended by YIELD.SUS; the core that holds its extension state dirty, if any (R170, R201). -/
  | suspended (dirty : Option Nat)
  /-- Waits for the next tick at the head (R318). -/
  | deferred
  /-- Aborted in this tick, to be requeued (R315). -/
  | aborted
  /-- EXECUTED: ended with a staged result (R170). -/
  | executed
  /-- COMMITTED (R11). -/
  | committed
  /-- SEALED (R11). -/
  | isSealed
  /-- RELEASED (R11). -/
  | released
  deriving DecidableEq, Repr

/-- A program table entry (R346). -/
structure Prog where
  entry : Nat
  xtwo : Word
  budget : Nat
  txbudget : Nat
  key : Nat
  nstage : Nat
  stage : Nat
  deriving DecidableEq, Repr

/-- The frame of a request that holds none: an address beyond every frame (R43, R345). -/
def noFrame : Nat := 2 ^ 52

/-- A request and its present run. -/
structure Run where
  isn : Nat
  queue : Nat
  part : Nat
  region : Nat
  prog : Nat
  plen : Nat
  payload : List Byte
  idem : Nat
  sqidx : Nat
  /-- The request area frame of R345. -/
  frame : Nat
  /-- Physical address of its context save area (R345), and whether the extension slot holds its state (R199). -/
  save : Nat
  xsaved : Bool
  okey : Nat
  st : RunSt
  ovr : Nat
  abt : Nat
  /-- Due on the exact lane (R316). -/
  exact : Bool
  /-- STATUS, and the vector and DETAIL of a FAULT, of the completion. -/
  status : Nat
  vec : Nat
  detail : Nat
  /-- The staged result record (R170). -/
  result : List Byte
  /-- The core of the unit that holds its region's exact lane, or the region it was moved to (R37). -/
  xregion : Nat
  /-- Stage-in words touched and blocks copied so far (R319). -/
  staged : Nat
  /-- The tick in which the run executed. -/
  tick : Nat
  /-- Completed as adopted work of the device with this ID (R357). -/
  adopted : Option Nat
  /-- CHECK of the request (R334). -/
  check : Nat
  /-- Pinned at remote close (R322). -/
  pinned : Bool
  /-- Ends at stage close without an overrun: a remote refusal, a lost posting unit (R314). -/
  noovr : Bool
  /-- A result completion with REPEAT (R27, R357). -/
  isRepeat : Bool
  /-- The program table entry that the run reads (R346): a change to the table applies from the next run. -/
  prg : Option Prog
  /-- The TCM block that holds the payload of an exact-lane run, from its stage-in list (R347, R348). -/
  pblk : Option Nat
  deriving DecidableEq, Repr

/-- Two runs are of one queue: an adopted run is of the partner's queue of its number, which is another queue than the own
one (R357). -/
def Run.sameQueue (p q : Run) : Bool := p.queue == q.queue && p.adopted == q.adopted

/-- The tick sequencer and the intake engine beside their registers. -/
structure Sched where
  /-- Global time of the pulse of the current tick (R302, R304). -/
  start : Nat
  /-- Requests taken in this tick (R327). -/
  admitted : Nat
  /-- Intake has been opened (R355, R510). -/
  isOpen : Bool
  /-- A warm reset is not resumed yet (R507). -/
  warm : Bool
  /-- Charge used in the exact-lane window, by region (R319). -/
  window : SMap Nat
  /-- IDEM_FULL was recorded in this tick (R338). -/
  idemFull : Bool
  /-- COMMITTED ticks not SEALED, oldest first (R29). -/
  unsealed : List Nat
  /-- Global time since which a condition of R19, or the hold-up estimate, has been bad (R20, R409). -/
  stopSince : Option Nat
  energySince : Option Nat
  /-- Tick at which DRAIN began (R411). -/
  drainSince : Nat
  /-- Frame images shipped with a tick that is not SEALED: (tick, frame) (R280). -/
  imaged : List (Nat × Nat)
  /-- Highest die temperature that TSQ_ADMIT.THERM follows, in quarter degrees (R327, R511). -/
  hottest : Nat
  /-- Regions without a healthy unit at the last pulse (R408). -/
  noUnit : List Nat
  /-- Intake opens at the next pulse (R414). -/
  opening : Bool
  /-- The restore waits for OMI_LEDGER_LOAD (R355). -/
  waitLoad : Bool
  /-- The flip of the present tick is done (R294). -/
  flipped : Bool
  /-- The last tick that has COMMITTED (R11, R328). -/
  lastCommit : Nat
  /-- Boundaries that a warm reset has let pass since TSQ_TICK (R306, R507). -/
  missed : Nat
  /-- The period history (R306, R429): the ticks from which a new period held, and that period in µs. -/
  history : List (Nat × Nat)
  deriving DecidableEq, Repr

/-- After cold reset. -/
def Sched.cold : Sched := ⟨0, 0, false, false, [], false, [], none, none, 0, [], 0, [], false, false, false, 0, 0, []⟩

end Sys2Proof.Machine
end

