-- ==== Sys2Proof/Machine/State.lean ====
section
/-!
DEFINITION. The state of the device, the state after reset, and the reasons a step can stop.
-/
namespace Sys2Proof.Machine

/-- Reset requests (R506 to R509): the cause bit of RST_CAUSE of a pending cold and warm reset, and the
partitions with a pending partition reset. -/
structure Resets where
  cold : Option Nat
  warm : Option Nat
  parts : List Nat
  /-- Partitions whose cached translations go at the next pulse (R508). -/
  inv : List Nat
  /-- The first stage close since the request has come: of the warm reset, and of these partition resets (R507, R508). -/
  due : Bool
  partsDue : List Nat
  deriving DecidableEq, Repr

/-- No reset requested. -/
def Resets.none : Resets := ⟨.none, .none, [], [], false, []⟩

/-- Everything the spec gives the device, as plain data, and the queue of waiting commands. -/
structure State where
  /-- Device fuses (R47, R423). -/
  fuses : Fuses
  /-- Cores by device-wide number (R39); an unlisted core is as after cold reset. -/
  cores : SMap Core
  /-- Pending asynchronous requests by core (R191, R193). -/
  async : SMap Async
  /-- Control-space registers that differ from their cold value (R6). -/
  regs : List (Reg × Word)
  /-- Ledger memory by physical byte address (R43, R69): addresses rising, no zero listed. -/
  mem : List Host.Cell
  /-- Tag shadow by word (R64); an unlisted word is RAW. -/
  tags : SMap Tag
  /-- Key array by frame: the storage key, plus 256 when FP = 1 (R260). -/
  keys : SMap Nat
  /-- Posting-class bit PC by frame (R280). -/
  postClass : SMap Bool
  /-- Frames that wait to ship their image, in order (R280). -/
  shipWait : List Nat
  /-- Lines with a memory error by line address (R279). -/
  lines : SMap LineSt
  /-- Cached translations of the fabric endpoint (R263). -/
  fabTlb : List TlbItem
  /-- Memory channels (R278, R282). -/
  chans : SMap Chan
  /-- The ledger memory layout (R45). -/
  layout : Layout
  /-- Posting units (R285). -/
  npus : SMap Npu
  /-- Requests and runs by ISN, and the runs of each region in batch order are those whose order key is in
  the tick (R310). -/
  runs : List Run
  /-- The tick sequencer and the intake engine (chapters 12 and 13). -/
  sched : Sched
  /-- Queue pairs by number (R329 to R333, R451). -/
  queues : SMap Queue
  /-- Own queue that takes the completions of a partner queue (R357, R465). -/
  takeQ : SMap Nat
  /-- The idempotency table by entry, bucket × 8 + place, and the copy of the partner's (R335, R336). -/
  idem : SMap Idem
  idemPtn : SMap Idem
  /-- The journal vault (R339 to R354). -/
  vault : Vault
  /-- The fabric endpoint (chapter 16). -/
  fab : Fab
  /-- The host interface and the management processor (chapter 17). -/
  hif : Hif
  mp : MpState
  /-- The fault management unit (chapter 15). -/
  fmu : Fmu
  /-- Loads that wait for a remote repair: (core, line) (R279). -/
  repairWait : List (Nat × Nat)
  /-- Accesses that waited for a line which could not be fetched: each completes as though the line were POISON (R279). -/
  lineDead : List (Nat × Reader)
  /-- Slots beside their registers, by cluster × 8 + slot (chapter 14). -/
  slots : SMap SlotX
  /-- Clusters held in cluster reset (R54, R505). -/
  cluInReset : List Nat
  /-- Clusters to which delivery is stopped, and the tick from whose pulse (R388, R204). -/
  cluDrain : List (Nat × Nat)
  /-- Resets requested and not taken yet (R506 to R509). -/
  resets : Resets
  /-- The debug domain, trace, and power with the control lands (chapters 18 to 20). -/
  dbg : Dbg
  trc : Trc
  pwr : Pwr
  /-- Free values consumed so far: the model's own counter (log 1). -/
  free : Nat
  /-- Commands that wait, first in, first out. -/
  pending : List Instr
  deriving DecidableEq, Repr

/-- The fuses of the modelled device: an LF-9600 (R1, R47). The stepping, the serial and the core voltages, which stand at
the lower bound of R491, are not in the spec (DESIGN CHOICE, log 2). -/
def State.resetFuses : Fuses := ⟨0x9600, 0x21, 0, (650, 650)⟩

/-- The device after cold reset. -/
def State.reset : State where
  fuses := State.resetFuses
  cores := []
  async := []
  regs := []
  mem := []
  tags := []
  keys := []
  postClass := []
  shipWait := []
  lines := []
  fabTlb := []
  chans := []
  layout := ⟨0, 0, 0, 0⟩
  npus := []
  runs := []
  sched := Sched.cold
  queues := []
  takeQ := []
  idem := []
  idemPtn := []
  vault := Vault.cold
  fab := Fab.cold
  hif := Hif.cold
  mp := MpState.cold
  fmu := Fmu.cold
  repairWait := []
  lineDead := []
  slots := []
  cluInReset := []
  cluDrain := []
  resets := Resets.none
  dbg := Dbg.cold
  trc := Trc.cold
  pwr := Pwr.cold
  free := 0
  pending := []

/-- The reasons a step can stop with a fault. The model raises none: every effect that the spec describes
is a next state. -/
inductive Fault where
  /-- Raised by no command (safe: it never occurs). -/
  | none
  deriving DecidableEq, Repr

/-- The reasons a command can be refused. -/
inductive Refusal where
  /-- Answered by an arm of exec whose command has no meaning yet (safe). -/
  | notModelled (mnemonic : String)
  deriving DecidableEq, Repr

end Sys2Proof.Machine
end

