-- ==== Sys2Proof/Machine/RegOps.lean ====
section
/-!
DEFINITION. Reading and writing the control-space registers, the cores and the pending requests; device
time; locators (R38 to R42); which cores form a unit (R359).
-/
namespace Sys2Proof.Machine

/-- The value listed for r, if any. -/
def regFind (r : Reg) : List (Reg × Word) → Option Word
  | [] => none
  | (r', w) :: l => if r = r' then some w else regFind r l

/-- List r with value w. -/
def regPut (r : Reg) (w : Word) : List (Reg × Word) → List (Reg × Word)
  | [] => [(r, w)]
  | (r', w') :: l => if r = r' then (r, w) :: l else (r', w') :: regPut r w l

/-- The value a register holds. -/
def State.rd (s : State) (r : Reg) : Word := (regFind r s.regs).getD (Reg.cold s.fuses r)

/-- Set the value a register holds. -/
def State.wr (s : State) (r : Reg) (w : Word) : State := { s with regs := regPut r w s.regs }

/-- Field [hi:lo] of a register. -/
def State.rf (s : State) (r : Reg) (hi lo : Nat) : Nat := fld (s.rd r) hi lo

/-- HUP_STATUS.PFAIL: the power-fail sequence has started (R501). -/
def State.pfail (s : State) : Bool := bit (s.rd .hupStatus) 0

/-- Set field [hi:lo] of a register. -/
def State.wf (s : State) (r : Reg) (hi lo v : Nat) : State := s.wr r (setFld (s.rd r) hi lo v)

/-- Add n to the saturating counter field [hi:lo] of a register (R8, R301). -/
def State.count (s : State) (r : Reg) (hi lo n : Nat) : State :=
  s.wf r hi lo (satAdd (hi + 1 - lo) (s.rf r hi lo) n)

/-- The core with device-wide number e. -/
def State.core (s : State) (e : Nat) : Core := sget Core.cold s.cores e

/-- Replace core e. -/
def State.setCore (s : State) (e : Nat) (c : Core) : State :=
  { s with cores := sset Core.cold s.cores e c }

/-- Apply f to core e. -/
def State.modCore (s : State) (e : Nat) (f : Core → Core) : State := s.setCore e (f (s.core e))

/-- The posting unit of channel ch. -/
def State.npu (s : State) (ch : Nat) : Npu := sget Npu.cold s.npus ch

/-- Replace the posting unit of channel ch. -/
def State.setNpu (s : State) (ch : Nat) (n : Npu) : State :=
  { s with npus := sset Npu.cold s.npus ch n }

/-- The memory channel ch. -/
def State.chan (s : State) (ch : Nat) : Chan := sget Chan.cold s.chans ch

/-- Replace the memory channel ch. -/
def State.setChan (s : State) (ch : Nat) (c : Chan) : State :=
  { s with chans := sset Chan.cold s.chans ch c }

/-- TSQ_TICK (R328): the number of the current tick. -/
def State.tick (s : State) : Nat := s.rf .tsqTick 47 0

/-- Global time in ns: FAB_TIME (R447). -/
def State.now (s : State) : Nat := (s.rd .fabTime).toNat

/-- The tick period T in ns (R306: TSQ_PERIOD.CUR in µs). -/
def State.period (s : State) : Nat := s.rf .tsqPeriod 63 56 * 1000

/-- The device ID (R47). -/
def State.devId (s : State) : Nat := s.rf .devId 11 0

/-- Cluster c is enabled (R2: cluster 3 of every region is disabled in the LF-9400). -/
def State.clusterOn (s : State) (c : Nat) : Bool := c < 32 && (s.fuses.big || c % 4 != 3)

/-! Locators (R38 to R42). -/

/-- The locator word of a locator (R40). -/
def Loc.word (l : Loc) : Nat :=
  l.dev % 4096 * 2 ^ 20 + l.depth % 8 * 2 ^ 17 + l.die % 4 * 2 ^ 15 + l.region % 4 * 2 ^ 13
    + l.cluster % 4 * 2 ^ 11 + l.core % 8 * 2 ^ 8 + l.slot % 8 * 2 ^ 5 + l.element % 32

/-- The fields of a locator word (R40). -/
def Loc.of (w : Nat) : Loc :=
  ⟨w / 2 ^ 20 % 4096, w / 2 ^ 17 % 8, w / 2 ^ 15 % 4, w / 2 ^ 13 % 4, w / 2 ^ 11 % 4, w / 2 ^ 8 % 8,
    w / 2 ^ 5 % 8, w % 32⟩

/-- Device-wide cluster number of a locator (R39). -/
def Loc.clusterDw (l : Loc) : Nat := l.die * 16 + l.region * 4 + l.cluster

/-- Device-wide core number of a locator (R39). -/
def Loc.coreDw (l : Loc) : Nat := l.clusterDw * 8 + l.core

/-- The locator of the system, of this device, of a die, of a device-wide region, of a device-wide cluster. -/
def State.locDevice (s : State) : Loc := ⟨s.devId, 1, 0, 0, 0, 0, 0, 0⟩
def State.locDie (s : State) (d : Nat) : Loc := ⟨s.devId, 2, d, 0, 0, 0, 0, 0⟩
def State.locRegion (s : State) (r : Nat) : Loc := ⟨s.devId, 3, r / 4, r % 4, 0, 0, 0, 0⟩
def State.locCluster (s : State) (c : Nat) : Loc := ⟨s.devId, 4, c / 16, c / 4 % 4, c % 4, 0, 0, 0⟩
/-- The locator of a slot of a cluster (R40, DEPTH 5). -/
def State.locUnit (s : State) (c sl : Nat) : Loc := ⟨s.devId, 5, c / 16, c / 4 % 4, c % 4, 0, sl, 0⟩
/-- The locator of a core (R40, DEPTH 6). -/
def State.locCore (s : State) (e : Nat) : Loc :=
  ⟨s.devId, 6, e / 128, e / 32 % 4, e / 8 % 4, e % 8, 0, 0⟩
/-- The locator of a spine element (R41). -/
def State.locElement (s : State) (el : Nat) : Loc := ⟨s.devId, 2, 2, 0, 0, 0, 0, el⟩

/-- CLU_MODE.CUR of a cluster: 0 PAIR, 1 TRIAD (R390). -/
def State.cluMode (s : State) (c : Nat) : Nat := s.rf (.cluMode c) 0 0

/-- A locator word is valid (R42). -/
def State.locValid (s : State) (w : Nat) : Bool :=
  let l := Loc.of w
  let fieldsOk :=
    match l.depth with
    | 0 => l.dev == 0 && l.die == 0 && l.region == 0 && l.cluster == 0 && l.core == 0 && l.slot == 0 && l.element == 0
    | 1 => l.die == 0 && l.region == 0 && l.cluster == 0 && l.core == 0 && l.slot == 0 && l.element == 0
    | 2 => l.region == 0 && l.cluster == 0 && l.core == 0 && l.slot == 0 &&
        (if l.die == 2 then l.element != 0x0F && l.element != 0x1F else l.element == 0)
    | 3 => l.die != 2 && l.cluster == 0 && l.core == 0 && l.slot == 0 && l.element == 0
    | 4 => l.die != 2 && l.core == 0 && l.slot == 0 && l.element == 0 && s.clusterOn l.clusterDw
    | 5 => l.die != 2 && l.core == 0 && l.element == 0 && s.clusterOn l.clusterDw && l.slot < 5 &&
        (if l.slot < 3 then s.cluMode l.clusterDw == 0 else s.cluMode l.clusterDw == 1)
    | 6 => l.die != 2 && l.slot == 0 && l.element == 0 && s.clusterOn l.clusterDw
    | _ => false
  fieldsOk && l.die != 3

/-! Slots and units (R359, R390). -/

/-- CLU_SLOT.STATE codes (R390). -/
def slEMPTY : Nat := 0
def slACTIVE : Nat := 1
def slTRIAGE : Nat := 2
def slRESYNC : Nat := 3
def slSPLIT : Nat := 4
def slHELD : Nat := 5
def slRETIRED : Nat := 6

/-- CLU_SLOT(s).STATE of cluster c. -/
def State.slotState (s : State) (c sl : Nat) : Nat := s.rf (.cluSlot c sl) 30 28

/-- Set CLU_SLOT(s).STATE. -/
def State.setSlotState (s : State) (c sl v : Nat) : State := s.wf (.cluSlot c sl) 30 28 v

/-- The cores (device-wide) that hold positions 0, 1 and 2 of a slot, by its word w. -/
def slotCoresOf (c : Nat) (w : Word) : List Nat :=
  (if bit w 15 then [c * 8 + fld w 14 12] else []) ++ (if bit w 19 then [c * 8 + fld w 18 16] else [])
    ++ (if bit w 23 then [c * 8 + fld w 22 20] else [])

/-- The core (device-wide) that holds position p of a slot, if one does. -/
def State.slotPos (s : State) (c sl p : Nat) : Option Nat :=
  let w := s.rd (.cluSlot c sl)
  if p < 3 && bit w (15 + 4 * p) then some (c * 8 + fld w (14 + 4 * p) (12 + 4 * p)) else none

/-- The cores of a slot in position order. -/
def State.slotCores (s : State) (c sl : Nat) : List Nat := slotCoresOf c (s.rd (.cluSlot c sl))

/-- The slot of cluster c, if any, in which core e holds a position. -/
def State.slotOf (s : State) (e : Nat) : Option Nat :=
  [0, 1, 2, 3, 4].find? fun sl =>
    s.slotState (e / 8) sl != slEMPTY && s.slotState (e / 8) sl != slRETIRED
      && (s.slotCores (e / 8) sl).contains e

/-- The slot whose unit core e belongs to: a split slot is no unit (R385), nor is one whose lockstep debug has broken
(R389). -/
def State.unitOf (s : State) (e : Nat) : Option Nat :=
  match s.slotOf e with
  | some sl => if s.slotState (e / 8) sl == slSPLIT || s.slotState (e / 8) sl == slHELD then none else some sl
  | none => none

/-- The cores that run the instruction stream of core e: those of its unit, or the core alone. -/
def State.unitCores (s : State) (e : Nat) : List Nat :=
  match s.unitOf e with
  | some sl => s.slotCores (e / 8) sl
  | none => [e]

/-- Write one core state to every core of a unit: the cores of a unit hold identical contents (R242, R363). -/
def State.setCores (s : State) (es : List Nat) (c : Core) : State :=
  { s with cores := es.foldl (fun m e => sset Core.cold m e c) s.cores }

/-- CORE_MODE.STATE of core e. -/
def State.coreState (s : State) (e : Nat) : Nat := (s.core e).stateCode

/-- The locator of the place where core e runs: its unit, or the core when it is in none (R534). -/
def State.locOfExec (s : State) (e : Nat) : Loc :=
  match s.unitOf e with
  | some sl => s.locUnit (e / 8) sl
  | none => s.locCore e

/-! Asynchronous requests (R191). -/

/-- Raise vector 0x20 + i with a DETAIL on one core. -/
def State.raiseOne (s : State) (i detail e : Nat) : State :=
  let a := sget Async.cold s.async e
  { s with async := sset Async.cold s.async e ⟨setBit a.pend i true, sset 0 a.detail i detail⟩ }

/-- Raise vector 0x20 + i on every core of the unit of core e (R192). -/
def State.raise (s : State) (i detail e : Nat) : State :=
  (s.unitCores e).foldl (fun s k => s.raiseOne i detail k) s

/-- Clear vector 0x20 + i on every core of the unit of core e: the request is taken (R191); DBG_REQ is no longer
BUSY when it is DEBUG_REQUEST (R478). -/
def State.clearReq (s : State) (i e : Nat) : State :=
  let s1 := (s.unitCores e).foldl (fun s k =>
    let a := sget Async.cold s.async k
    { s with async := sset Async.cold s.async k ⟨setBit a.pend i false, sset 0 a.detail i 0⟩ }) s
  if i = 5 && s.dbg.req.any (s.unitCores e).contains then
    { s1.wf .dbgReq 63 63 0 with dbg := { s1.dbg with req := none } }
  else s1

/-- Change one part of the state. -/
def State.modFab (s : State) (f : Fab → Fab) : State := { s with fab := f s.fab }
def State.modSched (s : State) (f : Sched → Sched) : State := { s with sched := f s.sched }
def State.modVault (s : State) (f : Vault → Vault) : State := { s with vault := f s.vault }
def State.modHif (s : State) (f : Hif → Hif) : State := { s with hif := f s.hif }
def State.modMp (s : State) (f : MpState → MpState) : State := { s with mp := f s.mp }
def State.modFmu (s : State) (f : Fmu → Fmu) : State := { s with fmu := f s.fmu }

def State.modDbg (s : State) (f : Dbg → Dbg) : State := { s with dbg := f s.dbg }
def State.modPwr (s : State) (f : Pwr → Pwr) : State := { s with pwr := f s.pwr }

/-- FAB_PARTNER.VALID and the device IDs of the mirror partner and of the witness (R431, R447). -/
def State.hasPartner (s : State) : Bool := bit (s.rd .fabPartner) 63
def State.partnerId (s : State) : Nat := s.rf .fabPartner 43 32
def State.witnessId (s : State) : Nat := s.rf .fabPartner 59 48

/-- Put a message out, to d, with PAIRCAST and on both paths as said. -/
def State.send (s : State) (d : Nat) (pair both : Bool) (m : Msg) : State :=
  { s with fab := { s.fab with out := s.fab.out ++ [⟨d, pair, both, m, false⟩] } }

/-- Put a message out on the other path of its route (R344). -/
def State.sendAlt (s : State) (d : Nat) (m : Msg) : State :=
  { s with fab := { s.fab with out := s.fab.out ++ [⟨d, false, false, m, true⟩] } }

/-- Full protection is lost (R18). -/
def State.unprotect (s : State) : State := { s with fmu := { s.fmu with unprot := true } }

/-- The next free value counter (log 1). -/
def State.takeFree (s : State) : State := { s with free := s.free + 1 }

end Sys2Proof.Machine
end

