-- ==== Sys2Proof/Machine/FmuOps.lean ====
section
/-!
DEFINITION. Reporting: signatures and classes (R392, R393), the passage of a record through the
aggregators to the device log (R396 to R400, R536, R537), and routing to cores (R401).
-/
namespace Sys2Proof.Machine

/-! Signature codes (R393 and the tables of chapters 16 to 19). -/

def sgCTL_WRITE_DENIED : Nat := 0x0001
def sgCTL_TARGET_OFFLINE : Nat := 0x0002
def sgCARVEOUT_ACCESS : Nat := 0x0003
def sgDEVID_LOCKED : Nat := 0x0004
def sgPROTECTION_RESTORED : Nat := 0x0005
def sgRETIRE_EARLY : Nat := 0x0006
def sgMACHINE_CHECK : Nat := 0x0101
def sgVECTOR_INVALID : Nat := 0x0102
def sgCSTORE_PARITY : Nat := 0x0103
def sgUCODE_PARTNER_MISMATCH : Nat := 0x0104
def sgPF_AREA : Nat := 0x0105
def sgQUEUE_NOT_BOUND : Nat := 0x0106
def sgLOCKSTEP_MISMATCH : Nat := 0x0201
def sgSAMPLE_DISAGREE : Nat := 0x0202
def sgUNIT_LOST : Nat := 0x0203
def sgLOCKSTEP_TRANSIENT : Nat := 0x0204
def sgCORE_RETIRED : Nat := 0x0205
def sgSLOT_RETIRED : Nat := 0x0206
def sgSPARE_PROMOTED : Nat := 0x0207
def sgCORE_OUTVOTED : Nat := 0x0208
def sgCHECKER_FAULT : Nat := 0x0209
def sgCOMPARATOR_LOST : Nat := 0x020A
def sgCHAMOIS_FAIL : Nat := 0x020B
def sgMEM_CONFIG : Nat := 0x0301
def sgMEM_UE : Nat := 0x0302
def sgMEM_CHANNEL_STATE : Nat := 0x0303
def sgNPU_FULL : Nat := 0x0304
def sgTICK_SYNC_LOST : Nat := 0x0401
def sgTICK_PERIOD_LATE : Nat := 0x0402
def sgTX_OVERRUN : Nat := 0x0403
def sgREMOTE_NOTICE_LOST : Nat := 0x0404
def sgIDEM_KEY_REUSED : Nat := 0x0501
def sgIDEM_FULL : Nat := 0x0502
def sgJOURNAL_AUTH : Nat := 0x0503
def sgDEVICE_UNREACHABLE : Nat := 0x0601
def sgLINK_DOWN : Nat := 0x0602
def sgLINK_NARROWED : Nat := 0x0603
def sgLINK_AUTH : Nat := 0x0604
def sgROUTE_FAILOVER : Nat := 0x0605
def sgMIRROR_PATH_LOST : Nat := 0x0606
def sgHEARTBEAT_MISSED : Nat := 0x0607
def sgTAKEOVER : Nat := 0x0608
def sgLEASE_DENIED : Nat := 0x0609
def sgTIME_MASTER_CHANGE : Nat := 0x060A
def sgMANAGER_CHANGE : Nat := 0x060B
def sgDEVID_CONFLICT : Nat := 0x060C
def sgREMOTE_CLOSE_MISSING : Nat := 0x060D
def sgDOORBELL_INVALID : Nat := 0x0701
def sgHOST_DMA_FAULT : Nat := 0x0702
def sgMBX_SEQ_ERROR : Nat := 0x0703
def sgMP_MEMBER_LOST : Nat := 0x0704
def sgHOST_LINK_STATE : Nat := 0x0705
def sgIDE_FAULT : Nat := 0x0706
def sgRAIL_FAULT : Nat := 0x0801
def sgHUP_LOW : Nat := 0x0802
def sgHUP_AGING : Nat := 0x0803
def sgHUP_TEST_FAIL : Nat := 0x0804
def sgPWR_FAIL : Nat := 0x0805
def sgTIMEREF_LOST : Nat := 0x0806
def sgSENSOR_FAULT : Nat := 0x0807
def sgTHERM_TRIP : Nat := 0x0808
def sgDBG_AUTH_FAIL : Nat := 0x0901
def sgDBG_SESSION_OPEN : Nat := 0x0902
def sgDBG_SESSION_CLOSE : Nat := 0x0903
def sgDBG_HALT : Nat := 0x0904
def sgDBG_MEM_WRITE : Nat := 0x0905
def sgSELFTEST_FAIL : Nat := 0x0A01
def sgSELFTEST_STARVED : Nat := 0x0A02
def sgREGION_NO_UNIT : Nat := 0x0A03
def sgFAWN_ENTER : Nat := 0x0A04
def sgFAWN_EXIT : Nat := 0x0A05
def sgTRACE_GAP : Nat := 0x0A06

/-- CLASS codes of HDR (R391). -/
def clALARM : Nat := 0
def clEVENT : Nat := 1
def clTRACE : Nat := 2

/-- The signatures of class ALARM, and those of class EVENT (R393 and the tables of chapters 16 to 19). -/
def alarmSigs : List Nat :=
  [sgCARVEOUT_ACCESS, sgMACHINE_CHECK, sgLOCKSTEP_MISMATCH, sgSAMPLE_DISAGREE, sgUNIT_LOST, sgCORE_RETIRED,
   sgSLOT_RETIRED, sgCORE_OUTVOTED, sgCHECKER_FAULT, sgCOMPARATOR_LOST, sgCHAMOIS_FAIL, sgMEM_CONFIG, sgMEM_UE,
   sgMEM_CHANNEL_STATE, sgTICK_SYNC_LOST, sgREMOTE_NOTICE_LOST, sgJOURNAL_AUTH, sgDEVICE_UNREACHABLE, sgLINK_DOWN,
   sgLINK_AUTH, sgMIRROR_PATH_LOST, sgTAKEOVER, sgLEASE_DENIED, sgDEVID_CONFLICT, sgREMOTE_CLOSE_MISSING,
   sgMP_MEMBER_LOST, sgIDE_FAULT, sgRAIL_FAULT, sgHUP_LOW, sgHUP_TEST_FAIL, sgPWR_FAIL, sgTIMEREF_LOST, sgTHERM_TRIP,
   sgDBG_AUTH_FAIL, sgDBG_SESSION_OPEN, sgDBG_HALT, sgSELFTEST_FAIL, sgREGION_NO_UNIT, sgFAWN_ENTER, sgFAWN_EXIT]
def eventSigs : List Nat :=
  [sgCTL_WRITE_DENIED, sgCTL_TARGET_OFFLINE, sgDEVID_LOCKED, sgPROTECTION_RESTORED, sgRETIRE_EARLY, sgVECTOR_INVALID,
   sgCSTORE_PARITY, sgUCODE_PARTNER_MISMATCH, sgPF_AREA, sgQUEUE_NOT_BOUND, sgLOCKSTEP_TRANSIENT, sgSPARE_PROMOTED,
   sgNPU_FULL, sgTICK_PERIOD_LATE, sgTX_OVERRUN, sgIDEM_KEY_REUSED, sgIDEM_FULL, sgLINK_NARROWED, sgROUTE_FAILOVER,
   sgHEARTBEAT_MISSED, sgTIME_MASTER_CHANGE, sgMANAGER_CHANGE, sgDOORBELL_INVALID, sgHOST_DMA_FAULT, sgMBX_SEQ_ERROR,
   sgHOST_LINK_STATE, sgHUP_AGING, sgSENSOR_FAULT, sgDBG_SESSION_CLOSE, sgDBG_MEM_WRITE, sgSELFTEST_STARVED]

/-- The one fixed class of a signature (R392); none: the code is reserved. -/
def sigClass (sig : Nat) : Option Nat :=
  if alarmSigs.contains sig then some clALARM
  else if eventSigs.contains sig then some clEVENT
  else if sig = sgTRACE_GAP then some clTRACE
  else none

/-- A record has the class of its signature, which no detector raises or lowers (R392). -/
def Rec.fixed (r : Rec) : Rec := { r with cls := (sigClass r.sig).getD r.cls }

/-- Key of an aggregator: level × 1,000 + index (unit: cluster × 8 + slot; cluster; region; die). -/
def aggKey (level idx : Nat) : Nat := level * 1000 + idx

/-- The device log, as a place where ALARM records wait. -/
def logKey : Nat := 9000

/-- The aggregators a record passes, from the one nearest the reporter up to the device (R33, R396). -/
def State.aggPath (s : State) (l : Loc) : List Nat :=
  let cl := l.clusterDw
  let above := [aggKey 4 cl, aggKey 3 (cl / 4), aggKey 2 l.die, aggKey 1 0]
  match l.depth with
  | 6 => match s.unitOf l.coreDw with
    | some sl => aggKey 5 (cl * 8 + sl) :: above
    | none => above
  | 5 => aggKey 5 (cl * 8 + l.slot) :: above
  | 4 => above
  | 3 => above.drop 1
  | 2 => above.drop 2
  | _ => [aggKey 1 0]

/-- The bit that a reporter sets at the nearest aggregator; a reporter that is the aggregator's own item
sets none (R396, R537). -/
def State.firstBits (s : State) (l : Loc) : Nat :=
  match l.depth with
  | 6 => match s.unitOf l.coreDw with
    | some sl =>
      2 ^ (([0, 1, 2].find? fun p => s.slotPos l.clusterDw sl p == some l.coreDw).getD 0)
    | none => 2 ^ l.core
  | 2 => if l.die == 2 then 2 ^ l.element else 0
  | _ => 0

/-- The set bits of a bitmap. -/
def bitsOf (m : Nat) : List Nat := (List.range 64).filter fun i => m.testBit i

/-- The union of single bits. -/
def orBits (l : List Nat) : Nat := l.foldl (fun a b => a ||| 2 ^ b) 0

/-- Map the bitmap of a record that aggregator key passes upward into the index of the next aggregator
(R396); a record with no bit is from the whole item (R537). -/
def State.mapBits (s : State) (key m : Nat) : Nat :=
  let lv := key / 1000
  let i := key % 1000
  match lv with
  | 5 =>
    let ps := s.slotCores (i / 8) (i % 8)
    if m = 0 then orBits (ps.map (· % 8))
    else orBits ((bitsOf m).filterMap fun p => (s.slotPos (i / 8) (i % 8) p).map (· % 8))
  | 4 => if m = 0 then orBits ((List.range 8).map (8 * (i % 4) + ·)) else orBits ((bitsOf m).map (8 * (i % 4) + ·))
  | 3 => if m = 0 then orBits ((List.range 4).map (4 * (i % 4) + ·))
         else orBits ((bitsOf m).map fun b => 4 * (i % 4) + b / 8)
  | 2 =>
    if i = 2 then (if m = 0 then 2 ^ 32 else orBits ((bitsOf m).map (32 + ·)))
    else if m = 0 then orBits ((List.range 16).map (16 * i + ·)) else orBits ((bitsOf m).map (16 * i + ·))
  | _ => 2 ^ (s.devId / 64)

/-- What an aggregator does with a record: keeps it, or passes records upward. -/
structure AggRes where
  agg : Agg
  up : List Rec
  /-- Loss counter increments of FMU_LOSS: EVDROP, TRDROP, ALWAIT. -/
  ev : Nat
  tr : Nat
  al : Nat
  /-- The ALARM record waits (R399). -/
  wait : Bool

/-- Records of one class among the open entries. -/
def aggCount (a : Agg) (alarm : Bool) : Nat := (a.entries.filter fun r => (r.cls == clALARM) == alarm).length

/-- The open entry of a pair of SIG and ROOT (R397). -/
def aggFind (a : Agg) (r : Rec) : Option Rec := a.entries.find? fun x => x.sig == r.sig && x.root == r.root

/-- Merge a record into the open entry of its pair (R397: COUNT added, BITMAP ORed). -/
def aggMerge (a : Agg) (r : Rec) (n : Nat) : Agg :=
  { a with entries := a.entries.map fun x =>
      if x.sig == r.sig && x.root == r.root then
        { x with count := min (x.count + n) (2 ^ 32 - 1), bitmap := x.bitmap ||| r.bitmap }
      else x }

/-- The records an aggregator sends for a record it passes upward: GAP after a loss, and a TRACE_GAP
record before a TRACE record (R399, R536), whose reporter is the aggregator's own item (R537). own is the aggregator's
locator word. -/
def aggSend (a : Agg) (own : Nat) (r : Rec) : Agg × List Rec :=
  if r.cls == clEVENT && a.evLost then ({ a with evLost := false }, [{ r with gap := true }])
  else if r.cls == clTRACE && a.trLost > 0 then
    ({ a with trLost := 0 },
      [{ r with sig := sgTRACE_GAP, root := own, first := own, count := a.trLost, gap := true, close := false,
                bitmap := 0, detail := 0 }, r])
  else (a, [r])

/-- An aggregator accepts a record from below (R397 to R399). T is the tick period. -/
def aggAccept (a : Agg) (own T : Nat) (r : Rec) : AggRes :=
  match aggFind a r with
  | some x =>
    if r.close then ⟨aggMerge a r (r.count - 1), [], 0, 0, 0, false⟩
    else if r.time < x.time + T then ⟨aggMerge a r r.count, [], 0, 0, 0, false⟩
    else let (a', up) := aggSend a own r; ⟨a', up, 0, 0, 0, false⟩
  | none =>
    if r.close then let (a', up) := aggSend a own r; ⟨a', up, 0, 0, 0, false⟩
    else if r.cls == clALARM then
      if aggCount a true < 32 then ⟨{ a with entries := a.entries ++ [r] }, [r], 0, 0, 0, false⟩
      else ⟨a, [], 0, 0, 1, true⟩
    else if aggCount a false < 64 then
      let (a', up) := aggSend { a with entries := a.entries ++ [r] } own r; ⟨a', up, 0, 0, 0, false⟩
    else if r.cls == clEVENT then ⟨{ a with evLost := true }, [], 1, 0, 0, false⟩
    else ⟨{ a with trLost := a.trLost + 1 }, [], 0, 1, 0, false⟩

/-- The locator word of an aggregator. -/
def State.aggLoc (s : State) (key : Nat) : Nat :=
  let i := key % 1000
  match key / 1000 with
  | 5 => (s.locUnit (i / 8) (i % 8)).word
  | 4 => (s.locCluster i).word
  | 3 => (s.locRegion i).word
  | 2 => (s.locDie i).word
  | _ => s.locDevice.word

/-- Route a logged record to the cores of the matching FMU_ROUTE entries (R401, R415). -/
def State.route (s : State) (r : Rec) : State :=
  (List.range 16).foldl (fun s i =>
    let w := s.rd (.fmuRoute i)
    let e := fld w 7 0
    let active := s.clusterOn (e / 8) && s.coreState e != csRETIRED
    if bit w 63 && active && (fld w 62 60).testBit r.cls
        && (r.sig &&& fld w 31 16) == (fld w 47 32 &&& fld w 31 16)
    then s.raise 4 r.sig e else s) s

/-- Add to the FMU_LOSS counters (R415). -/
def lossAdd (w : Word) (ev logd tr al : Nat) : Word :=
  setFld (setFld (setFld (setFld w 63 48 (satAdd 16 (fld w 63 48) ev)) 47 32 (satAdd 16 (fld w 47 32) logd))
    31 16 (satAdd 16 (fld w 31 16) tr)) 15 0 (satAdd 16 (fld w 15 0) al)

/-- The log slot that the next record of a class takes: the lowest free one (DESIGN CHOICE, log 8). -/
def freeSlot (log : List (Nat × Rec)) : Nat :=
  ((List.range 4096).find? fun i => !(log.any fun p => p.1 == i)).getD 0

/-- Write a record to the device log, if a slot of its class is free (R400), and route it (R401). The
first flag is false when an ALARM record has to wait. -/
def State.logWrite (s : State) (r : Rec) : State × Bool :=
  let f := s.fmu
  let alarms := (f.log.filter fun p => p.2.cls == clALARM).length
  if r.cls == clALARM then
    if alarms < 1024 then
      let sl := freeSlot f.log
      let fwd := if r.level = 0 then f.forward else f.forward ++ [r]
      (({ s with fmu := { f with log := f.log ++ [(sl, r)], slots := sset Rec.empty f.slots sl r,
                                 forward := fwd } }).route r, true)
    else (s, false)
  else if f.log.length - alarms < 3072 then
    let sl := freeSlot f.log
    let lost := if r.cls == clEVENT then f.logLostEv else f.logLostTr
    let r := if lost then { r with gap := true } else r
    let fwd := if (Loc.of r.root).dev != s.devId && r.level != 0 then f.forward ++ [r] else f.forward
    (({ s with fmu := { f with
          log := f.log ++ [(sl, r)], slots := sset Rec.empty f.slots sl r, forward := fwd,
          logLostEv := if r.cls == clEVENT then false else f.logLostEv,
          logLostTr := if r.cls == clTRACE then false else f.logLostTr } }).route r, true)
  else
    ({ s with fmu := { f with loss := lossAdd f.loss 0 1 0 0,
                              logLostEv := r.cls == clEVENT || f.logLostEv,
                              logLostTr := r.cls == clTRACE || f.logLostTr } }, true)

/-- The device aggregator, or the system aggregator (level 0), writes what it passes to the device log, giving a first
record the next RSEQ (R391, R398); an entry keeps the RSEQ of its first record for its CLOSE record. -/
def State.toLog (s : State) (r : Rec) : State × Bool :=
  let fresh := !(r.close && r.rseq != 0)
  let key := if r.level = 0 then aggKey 0 0 else aggKey 1 0
  let q := s.devId * 2 ^ 52 + (s.fmu.rseq + 1)
  let r' := if fresh then { r with rseq := q } else r
  let (s', ok) := s.logWrite r'
  if !ok then (s, false)
  else if fresh then
    let f := s'.fmu
    let a := sget Agg.cold f.aggs key
    let a' := { a with entries := a.entries.map fun x =>
      if x.sig == r.sig && x.root == r.root && x.rseq == 0 then { x with rseq := q } else x }
    ({ s' with fmu := { f with rseq := f.rseq + 1, aggs := sset Agg.cold f.aggs key a' } }, true)
  else (s', true)

/-- The aggregator whose output slot an ALARM record holds while it waits for the aggregator key, or for the device log
(R399); none: a detector holds it. -/
def State.senderOf (s : State) (key : Nat) (r : Rec) : Option Nat :=
  if key / 1000 = 0 then none else ((s.aggPath (Loc.of r.first)).takeWhile (· != key)).getLast?

/-- An aggregator accepts no further ALARM: one that it sent waits in its output slot (R399), or it is the device's and the
ALARM slots of the log are full (R400). -/
def State.aggBlocked (s : State) (key : Nat) : Bool :=
  s.fmu.waiting.any (fun p => p.1 == key || s.senderOf p.1 p.2 == some key)
    || (key == aggKey 1 0 && decide (1024 ≤ (s.fmu.log.filter fun p => p.2.cls == clALARM).length))

/-- Pass a record up a path of aggregators (R397 to R399). A credit is back at once, since a record passes in no time
(DESIGN CHOICE, log 135). -/
def State.passUp : List Nat → Nat → Rec → State → State
  | [], _, r, s =>
    let (s', ok) := s.toLog r
    if ok then s'
    else { s with fmu := { s.fmu with waiting := s.fmu.waiting ++ [(logKey, r)],
                                      loss := lossAdd s.fmu.loss 0 0 0 1 } }
  | key :: rest, bm, r, s =>
    let f := s.fmu
    let r := { r with bitmap := bm, level := key / 1000 }
    if r.cls == clALARM && s.aggBlocked key then
      { s with fmu := { f with waiting := f.waiting ++ [(key, r)], loss := lossAdd f.loss 0 0 0 1 } }
    else
      let res := aggAccept (sget Agg.cold f.aggs key) (s.aggLoc key) s.period r
      let w := if res.wait then f.waiting ++ [(key, r)] else f.waiting
      let s1 := { s with fmu := { f with aggs := sset Agg.cold f.aggs key res.agg, waiting := w,
                                         loss := lossAdd f.loss res.ev 0 res.tr res.al } }
      res.up.foldl (fun s u => State.passUp rest (s.mapBits key u.bitmap) u s) s1

/-- A record of a detector of this device, at the present tick and time (R391). -/
def State.newRec (s : State) (sig cls root first detail : Nat) : Rec :=
  Rec.fixed ⟨cls, false, false, 0, sig, root, first, 1, s.now, s.tick, 0, 0, detail⟩

/-- A detector at locator `first` reports a signature whose root is `root` (R391 to R399). -/
def State.report (s : State) (sig cls : Nat) (root first : Loc) (detail : Nat) : State :=
  State.passUp (s.aggPath first) (s.firstBits first) (s.newRec sig cls root.word first.word detail) s

/-- A report whose reporter is the function at fault. -/
def State.alarm (s : State) (sig : Nat) (l : Loc) (detail : Nat) : State := s.report sig clALARM l l detail
def State.event (s : State) (sig : Nat) (l : Loc) (detail : Nat) : State := s.report sig clEVENT l l detail

/-- An entry of the degradation ledger (R406); copy: of a comparator. -/
def State.degradeCopy (s : State) (loc : Loc) (sig copy : Nat) : State :=
  s.modMp fun m => { m with ledger := m.ledger ++ [⟨loc.word, sig, s.tick, copy⟩] }

/-- An entry of the degradation ledger for a function that is no comparator copy. -/
def State.degrade (s : State) (loc : Loc) (sig : Nat) : State := s.degradeCopy loc sig 0

/-- The system aggregator, which the fabric manager's firmware runs (R396, R398), accepts a record that the device of its
RSEQ logged; what it passes on goes to the log of the fabric manager's device, as the example of chapter 15 shows. -/
def State.sysAccept (s : State) (r : Rec) : State :=
  State.passUp [aggKey 0 0] (2 ^ (r.rseq / 2 ^ 52 / 64)) { r with rseq := 0 } s

/-- A DETAIL value whose first bytes (from 0x30) are the given n-byte number. -/
def detBytes (n v : Nat) : Nat := v % 256 ^ n * 256 ^ (16 - n)

/-- The DETAIL of a record for an exception: the 4-byte DETAIL, then the vector (R394). -/
def detExc (detail vec : Nat) : Nat := detail % 2 ^ 32 * 2 ^ 96 + vec % 256 * 2 ^ 88

end Sys2Proof.Machine
end

