-- ==== Sys2Proof/Machine/MemOps.lean ====
section
/-!
DEFINITION. Ledger memory by physical address: areas (R43 to R46), bytes, words and their tags (R64, R69),
line errors (R279, R284), frame keys (R260) and the posting-class bit (R280).
-/
namespace Sys2Proof.Machine

/-- The byte that memory holds where nothing is listed (DESIGN CHOICE 0, log 4). -/
def Memory.unlisted : Byte := 0

/-- The byte at an address: memory is a sparse map from addresses to bytes. -/
def Memory.read (m : List Host.Cell) (a : Nat) : Byte := sget Memory.unlisted m a

/-- Write one byte, keeping the canonical form. -/
def Memory.write (m : List Host.Cell) (a : Nat) (b : Byte) : List Host.Cell := sset Memory.unlisted m a b

/-- Write consecutive bytes. -/
def Memory.writeBytes (m : List Host.Cell) (a : Nat) : List Byte → List Host.Cell
  | [] => m
  | b :: bs => Memory.writeBytes (Memory.write m a b) (a + 1) bs

/-- The n bytes from an address. -/
def Memory.readBytes (m : List Host.Cell) (a : Nat) : Nat → List Byte
  | 0 => []
  | n + 1 => Memory.read m a :: Memory.readBytes m (a + 1) n

/-- The canonical form: addresses strictly rising, no entry equal to what an unlisted address reads as. -/
def Memory.wf (m : List Host.Cell) : Bool := smapWf Memory.unlisted m

/-! Areas of the physical address space. -/

/-- What a physical address lies in (R43, R45). -/
inductive Area where
  | own | unmirrored | replica | carveout | control | nowhere
  deriving DecidableEq, Repr

/-- D of R45: the space that the own ledger, the unmirrored and the replica area fill. -/
def Layout.d (l : Layout) : Nat := l.cap - l.cap / 16 - l.cap / 4096 - 2 ^ 32

/-- The default layout for an installed capacity: U = 0, M = P = D / 2 (R45). -/
def Layout.default (c : Nat) : Layout := ⟨c, Layout.d ⟨c, 0, 0, 0⟩ / 2, 0, Layout.d ⟨c, 0, 0, 0⟩ / 2⟩

/-- The area of a physical address (R43, R45); a promoted replica is ledger (R357). -/
def State.area (s : State) (pa : Nat) : Area :=
  let l := s.layout
  if pa ≥ 0xF000000000000 then (if pa < 2 ^ 52 then .control else .nowhere)
  else if pa ≥ l.cap then .nowhere
  else if pa < l.m then .own
  else if pa < l.m + l.u then .unmirrored
  else if pa < l.m + l.u + l.p then (if s.fab.custody then .own else .replica)
  else if pa ≥ l.d then .carveout
  else .nowhere

/-- A hardware access by physical address can be performed; any other completes with a bus error (R43, R177, R199). -/
def State.physOk (s : State) (pa : Nat) : Bool := s.area pa = .own || s.area pa = .unmirrored

/-- A core access, or a hardware access for a core, at pa: one that reaches the replica area or a carve-out is recorded
(R46). The spec names no root locator for CARVEOUT_ACCESS: DESIGN CHOICE the device (log 85). -/
def State.carveout (s : State) (pa : Nat) : State :=
  match s.area pa with
  | .replica | .carveout => s.alarm sgCARVEOUT_ACCESS s.locDevice 0
  | _ => s

/-- The channel that holds the frame of a physical address (R44). -/
def chanOf (pa : Nat) : Nat := pa / 4096 % 12

/-- MCU_STATUS.STATE of a channel: 0 ABSENT, 1 HEALTHY, 2 DEGRADED, 3 LOST (R283, R301). -/
def State.chanState (s : State) (ch : Nat) : Nat := s.rf (.mcuStatus ch) 2 0

/-- The storage key and FP of a frame (R260); a frame whose key byte lies on a LOST channel has key 0x00
and FP 1 (R279, R284). -/
def State.frameKey (s : State) (pa : Nat) : Nat × Bool :=
  let f := pa / 4096
  let keyAddr := s.layout.cap - s.layout.cap / 4096 + f
  if s.chanState (chanOf keyAddr) == 3 then (0, true)
  else let v := sget 0 s.keys f; (v % 256, v / 256 % 2 == 1)

/-- Set the storage key and FP of a frame (R263). -/
def State.setFrameKey (s : State) (pa key : Nat) (fp : Bool) : State :=
  { s with keys := sset 0 s.keys (pa / 4096) (key % 256 + 256 * b2n fp) }

/-- PC of the frame (R280). -/
def State.pcBit (s : State) (pa : Nat) : Bool := sget false s.postClass (pa / 4096)

/-- The state of a memory line (R279). -/
def State.line (s : State) (pa : Nat) : LineSt := sget .ok s.lines (pa / 64)

/-- Set the state of a memory line. -/
def State.setLine (s : State) (pa : Nat) (v : LineSt) : State :=
  { s with lines := sset .ok s.lines (pa / 64) v }

/-- The physical address of the tag nibble of a word (R45). -/
def State.tagAddr (s : State) (pa : Nat) : Nat := s.layout.d + 2 ^ 32 + pa / 16

/-- The tag of the word at a physical address as stored, with the POISON rules of a LOST channel (R284):
a line of a LOST channel outside PC = 1 frames reads as POISON, and so does a word whose tag lies there. -/
def State.tagAt (s : State) (pa : Nat) : Tag :=
  if s.chanState (chanOf (s.tagAddr pa)) == 3 then tPOISON
  else if s.chanState (chanOf pa) == 3 && !s.pcBit pa then tPOISON
  else sget tRAW s.tags (pa / 8)

/-- The word at an aligned physical address, with its tag. -/
def State.memWord (s : State) (pa : Nat) : TWord :=
  ⟨BitVec.ofNat 64 (ofBytes (Memory.readBytes s.mem (pa / 8 * 8) 8)), s.tagAt pa⟩

/-- A write by a master other than a posting unit clears PC and ends the frame's wait for its image; an image on its
way no longer sets PC (R280). -/
def State.otherWrite (s : State) (pa : Nat) : State :=
  { s with postClass := sset false s.postClass (pa / 4096) false,
           shipWait := s.shipWait.filter (· != pa / 4096),
           sched := { s.sched with imaged := s.sched.imaged.filter (·.2 != pa / 4096) } }

/-- Write a tagged word, as a posting unit or the memory controller does (PC unchanged). -/
def State.putWord (s : State) (pa : Nat) (v : TWord) : State :=
  { s with mem := Memory.writeBytes s.mem (pa / 8 * 8) (toBytes 8 v.val.toNat),
           tags := sset tRAW s.tags (pa / 8) v.tag }

/-- Every byte from an address on, n of them, is zero and every word there RAW, as an unwritten one is. -/
def State.clearArea (s : State) (a n : Nat) : State :=
  { s with mem := s.mem.filter fun c => !(decide (a ≤ c.1) && decide (c.1 < a + n)),
           tags := s.tags.filter fun c => !(decide (a ≤ 8 * c.1) && decide (8 * c.1 < a + n)) }

/-- A word store by a core, the intake engine or another master: value and tag together (R64). -/
def State.storeWord (s : State) (pa : Nat) (v : TWord) : State := (s.otherWrite pa).putWord pa v

/-- A byte store: the word is tagged RAW (R67). -/
def State.storeByte (s : State) (pa : Nat) (b : Byte) : State :=
  let s := s.otherWrite pa
  { s with mem := Memory.write s.mem pa b, tags := sset tRAW s.tags (pa / 8) tRAW }

/-- Store consecutive bytes (R67, R69). -/
def State.storeBytes (s : State) (pa : Nat) : List Byte → State
  | [] => s
  | b :: bs => (s.storeByte pa b).storeBytes (pa + 1) bs

/-- Mark n consecutive words, from the word with this index, POISON (R66, R279). -/
def State.poisonWords (s : State) (i n : Nat) : State :=
  { s with tags := (List.range n).foldl (fun t k => sset tRAW t (i + k) tPOISON) s.tags }

/-- Mark every word of a 64-byte line POISON (R279). -/
def State.poisonLine (s : State) (pa : Nat) : State := s.poisonWords (pa / 64 * 8) 8

/-- What an uncorrectable line held that remote repair does not restore (R279, R45): a line of the replica or of the
partner's copy of the idempotency table becomes stale; one of the tag shadow makes the 128 words that it describes
read as POISON; one of the key array gives its 64 frames key 0x00 with FP 1; any other line is POISON itself. -/
def State.loseLine (s : State) (pa : Nat) : State :=
  let l := s.layout
  let tb := l.d + 2 ^ 32
  let kb := l.cap - l.cap / 4096
  let a := pa / 64 * 64
  if s.area pa == .replica || (l.d + 2 ^ 31 ≤ a && a < tb) then s.setLine pa .stale
  else if tb ≤ a && a < kb then s.poisonWords ((a - tb) * 2) 128
  else if kb ≤ a && a < l.cap then
    { s with keys := (List.range 64).foldl (fun m k => sset 0 m (a - kb + k) 256) s.keys }
  else s.poisonLine pa

/-- The posting unit that serves channel ch now, if any (R299, R540: NPU_STATUS.MODE). -/
def State.serving (s : State) (ch : Nat) : Option Nat :=
  if (s.npu ch).lostNow then none
  else match s.rf (.npuStatus ch) 3 2 with
  | 0 => some ch | 1 => some ch | 2 => some ((ch + 6) % 12) | _ => none

/-- The posting-cache entry of a balance word in a posting unit. -/
def Npu.find (n : Npu) (pa : Nat) : Option NEntry := n.cache.find? fun x => x.addr == pa && x.serves

/-- The committed value of a word of a posting frame: that of the posting-cache entry, else memory
(R89, R286, R294). In the tick in which a unit is lost the buddy answers, which holds its FLIPPED entries (R299,
R539). -/
def State.committed (s : State) (pa : Nat) : TWord :=
  let u := (s.serving (chanOf pa)).getD ((chanOf pa + 6) % 12)
  match (s.npu u).find (pa / 8 * 8) with
  | some x => x.c
  | none => s.memWord pa

/-- A posting unit holds the word, so that a read of it reaches no memory line (R89, R287). -/
def State.cachedWord (s : State) (pa : Nat) : Bool :=
  ((s.npu ((s.serving (chanOf pa)).getD ((chanOf pa + 6) % 12))).find (pa / 8 * 8)).isSome

/-- A request on a word of a frame that p selects waits in a posting unit's queue, translated and checked (R265, R266). -/
def State.accessQueued (s : State) (p : Nat → Bool) : Bool :=
  (List.range 12).any fun u => (s.npu u).queue.any fun q => p (q.word / 4096)

/-- The record of an uncorrectable line, and the count of the channel (R279, R301). -/
def State.memUe (s : State) (pa : Nat) : State :=
  (s.alarm sgMEM_UE (s.locElement (chanOf pa + 1)) 0).count (.mcuEcccnt (chanOf pa)) 31 16 1

/-- Ask the mirror partner for a line (R279); a LOST channel asks for every read without a record (R284). -/
def State.askRepair (s : State) (pa : Nat) (lost : Bool) : State :=
  let s := if lost then s else (s.memUe pa).unprotect
  let s := s.setLine pa .fetching
  if s.hasPartner then s.send s.partnerId false false (.repairReq (pa / 64)) else s

/-- What a read of a memory line finds (R279): its contents, POISON, or nothing before a remote repair ends. -/
inductive LineRes where
  | good | poison | wait
  deriving DecidableEq, Repr

/-- A read reaches a memory line (R279, R284). A line with an uncorrectable error in a PC = 1 frame of the own ledger, or
any line of such a frame on a LOST channel, is fetched from the partner; any other is handled by the table of R279. An access
whose fetch has failed gets POISON. -/
def State.lineRead (s : State) (pa : Nat) (by_ : Reader) : State × LineRes :=
  if s.lineDead.contains (pa / 64, by_) then ({ s with lineDead := s.lineDead.erase (pa / 64, by_) }, .poison)
  else
  let own := s.area pa == .own && s.pcBit pa
  let lost := s.chanState (chanOf pa) == 3 && own
  match (if lost && s.line pa == .ok then LineSt.ue else s.line pa) with
  | .ok | .stale => (s, .good)
  | .served => (s.setLine pa .ok, .good)
  | .fetching => (s, .wait)
  | .ue => if own then (s.askRepair pa lost, .wait) else (((s.memUe pa).setLine pa .ok).loseLine pa, .good)

end Sys2Proof.Machine
end

