-- ==== Sys2Proof/Machine/NpuOps.lean ====
section
/-!
DEFINITION. The posting units: applying POST and PREAD (R165, R168, R286 to R291, R297), fills (R287),
and the abort closure over posting logs and ORDERED queues (R292, R293, R312, R314, R315).
-/
namespace Sys2Proof.Machine

/-- The value of a word as the posting unit computes with it (0 where it is no valid PDEC: not reached). -/
def wordVal (w : Word) : Int := (pdecVal w).getD 0

/-- The surviving entries of a word in a log. -/
def survivors (log : List LogE) (pa : Nat) : List LogE := log.filter fun x => x.word == pa && !x.rolled

/-- r(w): the committed value plus the surviving local POST amounts (R286). -/
def runningVal (c : Int) (log : List LogE) (pa : Nat) : Int :=
  ((survivors log pa).filter fun x => x.kind == .post).foldl (fun a x => a + wordVal x.amount) c

/-- D(w): the negative amounts of every surviving POST and REMOTE entry (R286). -/
def debits (log : List LogE) (pa : Nat) : Int :=
  ((survivors log pa).filter fun x => x.kind == .post || x.kind == .remote).foldl
    (fun a x => a + min (wordVal x.amount) 0) 0

/-- The sum of the positive surviving amounts (R296). -/
def credits (log : List LogE) (pa : Nat) : Int :=
  ((survivors log pa).filter fun x => x.kind == .post || x.kind == .remote).foldl
    (fun a x => a + max (wordVal x.amount) 0) 0

/-- The floors of the surviving REMOTE entries of a word (R297). -/
def remoteFloors (log : List LogE) (pa : Nat) : List Int :=
  (survivors log pa).filterMap fun x => if x.kind == .remote then x.floor.map wordVal else none

/-- STATUS of a POST (R165). -/
inductive PostSt where
  | done | floor | overflow
  deriving DecidableEq, Repr

/-- The status of a local POST of amount a with a floor on a word with running value b and committed value
c (R165, R297). -/
def postStatus (log : List LogE) (pa : Nat) (b c a : Int) (floor : Option Int) : PostSt :=
  let lo := c + debits log pa + min a 0
  let hi := c + credits log pa + max a 0
  if over15 (b + a) || over15 lo || over15 hi then .overflow
  else if (match floor with | some f => decide (b + a < f) | none => false) then .floor
  else if (remoteFloors log pa).any fun f => decide (lo < f) then .floor
  else .done

/-- What a posting unit answers to a POST or PREAD. -/
inductive PostOut where
  /-- The request is served: the value for ACC, C and V. -/
  | done (acc : Word) (c v : Bool)
  /-- Refused with an exception at the instruction: the vector and the tag of the word (R165). -/
  | refuse (vec : Nat) (tag : Tag)
  /-- It waits in the unit's queue. -/
  | wait
  /-- It is discarded: its transaction has aborted, or no posting unit serves the channel (R293, R539, R540). -/
  | dead
  deriving DecidableEq, Repr

/-- Replace a posting-cache entry and make it the most recently used. -/
def Npu.use (n : Npu) (x : NEntry) : Npu :=
  { n with cache := x :: n.cache.filter fun y => y.addr != x.addr }

/-- Words STAGED, FLIPPED or HELD, or pinned (R284, R289). -/
def Npu.heldCount (n : Npu) : Nat := (n.cache.filter fun x => x.st != .clean || x.pin.isSome).length

/-- The unit is full for a request (R289): it needs a log slot of which none is left, or a word more than the unit can
hold; held says that the word's entry counts already. -/
def Npu.full (n : Npu) (held needLog : Bool) : Bool :=
  (needLog && n.log.length ≥ 4096) || (!held && n.heldCount ≥ 2048)

/-- The entry counts as held (R284, R289). -/
def NEntry.held (x : NEntry) : Bool := x.st != .clean || x.pin.isSome

/-- Append a log entry for the word of entry x and make the entry STAGED (R285, R290). -/
def Npu.append (n : Npu) (x : NEntry) (k : LKind) (okey owner : Nat) (amount after r : Word) (floored : Bool)
    (floor : Option Word) : Npu :=
  let q := n.log.length
  { (n.use { x with r := ⟨r, tPDEC⟩, last := q, st := .staged }) with
    log := n.log ++ [⟨okey, q, x.last, k, false, floored, x.addr, amount, after, owner, floor⟩] }

/-- The run with an ISN. -/
def State.run (s : State) (isn : Nat) : Option Run := s.runs.find? fun r => r.isn == isn

/-- Apply f to the run with an ISN. -/
def State.modRun (s : State) (isn : Nat) (f : Run → Run) : State :=
  { s with runs := s.runs.map fun r => if r.isn == isn then f r else r }

/-- The run has still to end in this tick (R318). -/
def RunSt.live : RunSt → Bool
  | .queued | .staging | .ready | .running _ | .suspended _ => true
  | _ => false

/-- A word is held for an exact-lane run that has not ended, and the run isn does not stand on its lane (R318). -/
def State.heldByOther (s : State) (x : NEntry) (isn : Nat) : Bool :=
  x.holders.any fun h => match s.run h with
    | some r => r.st.live && !(s.run isn).any fun q => q.exact && q.xregion == r.xregion
    | none => false

/-- Record NPU_FULL once per tick and set STALLFULL (R289). -/
def State.npuFull (s : State) (u : Nat) : State :=
  let n := s.npu u
  let s := s.setNpu u { n with stallFull := true, fullSeen := true }
  if n.fullSeen then s else s.event sgNPU_FULL (s.locElement (u + 1)) 0

/-- Start the fill of a word's entry (R287). -/
def State.startFill (s : State) (u pa : Nat) : State :=
  let n := s.npu u
  if n.fills.contains pa then s else s.setNpu u { n with fills := n.fills ++ [pa] }

/-- The run can still post: it has not aborted (R293). -/
def State.runDead (s : State) (isn : Nat) : Bool :=
  match s.run isn with
  | some r => r.st == .aborted
  | none => false

/-- Whether the posting unit takes a request of run isn on a word: the unit, or why not (R166, R293, R299, R300, R302,
R313, R539, R540). After stage close nothing is staged. -/
def State.npuAdmit (s : State) (isn pa : Nat) : Sum PostOut Nat :=
  match s.serving (chanOf pa) with
  | none => .inl .dead
  | some u =>
    if s.runDead isn || s.rf .tsqStatus 2 0 ≥ 2 || s.sched.warm then .inl .dead
    else if (s.npu u).test then .inl .wait
    else .inr u

/-- A request that no posting unit serves leaves its transaction to abort without an overrun (R314, R539, R540). -/
def State.npuDead (s : State) (isn pa : Nat) : State :=
  if (s.serving (chanOf pa)).isNone then s.modRun isn fun r => { r with noovr := true } else s

/-- The entry that serves a request on a word now, or why it waits (R287 to R289, R318); post: the request is a POST,
which a word held for another run keeps waiting. -/
def State.npuEntry (s : State) (isn pa : Nat) (needLog post : Bool) : State × Sum PostOut (Nat × NEntry) :=
  match s.npuAdmit isn pa with
  | .inl o => (s.npuDead isn pa, .inl o)
  | .inr u =>
    match (s.npu u).find pa with
    | none =>
      if (s.npu u).full false needLog then (s.npuFull u, .inl .wait) else (s.startFill u pa, .inl .wait)
    | some x =>
      if post && s.heldByOther x isn then (s, .inl .wait)
      else if (s.npu u).full x.held needLog then (s.npuFull u, .inl .wait)
      else (s, .inr (u, x))

/-- A CLEAN entry whose word is POISON is dropped, so that the next access tries remote repair again (R279). -/
def State.dropPoison (s : State) (u : Nat) (x : NEntry) : State :=
  if x.st == .clean then
    s.setNpu u { s.npu u with cache := (s.npu u).cache.filter fun y => y.addr != x.addr }
  else s

/-- The posting unit applies a POST (R165, R297, R291). A POST with status FLOOR or OVERFLOW makes the REFUSED entry of R291,
where R165 says that it makes no posting log entry (DEDUCED, log 106). -/
def State.npuPost (s : State) (isn okey pa : Nat) (amount : Word) (floor : Option Word) : State × PostOut :=
  match s.npuEntry isn pa true true with
  | (s, .inl o) => (s, o)
  | (s, .inr (u, x)) =>
    if x.r.tag = tPOISON then (s.dropPoison u x, .refuse 0x05 tPOISON)
    else if x.r.tag ≠ tPDEC then (s, .refuse 0x04 x.r.tag)
    else match pdecVal x.r.val with
    | none => (s, .refuse 0x0A tPDEC)
    | some b =>
      let n := s.npu u
      let a := wordVal amount
      match postStatus n.log pa b (wordVal x.c.val) a (floor.map wordVal) with
      | .done =>
        let v := pdecOf (b + a)
        ((s.setNpu u (n.append x .post okey isn amount v v floor.isSome none)).count (.npuCnt u) 63 32 1,
          .done v false false)
      | st =>
        let v := pdecOf b
        ((s.setNpu u (n.append x .refused okey isn amount v x.r.val floor.isSome none)).count (.npuCnt u) 31 16 1,
          .done v true (st == .overflow))

/-- The posting unit answers a PREAD and makes a READ entry (R168, R291). -/
def State.npuPread (s : State) (isn okey pa : Nat) : State × PostOut :=
  match s.npuEntry isn pa true false with
  | (s, .inl o) => (s, o)
  | (s, .inr (u, x)) =>
    if x.r.tag = tPOISON then (s.dropPoison u x, .refuse 0x05 tPOISON)
    else if x.r.tag ≠ tPDEC then (s, .refuse 0x04 x.r.tag)
    else match pdecVal x.r.val with
    | none => (s, .refuse 0x0A tPDEC)
    | some _ => (s.setNpu u ((s.npu u).append x .read okey isn 0xC x.r.val x.r.val false none),
        .done x.r.val false false)

/-- A request of an exact lane, or of the stage engine for one (R288). -/
def NReq.exact : NReq → Bool
  | .post _ _ _ _ _ _ _ _ x => x
  | .pread _ _ _ _ _ _ x => x
  | .touch _ _ => true
  | .remote .. => false

/-- A request on the word waits in the queue of its unit, and one that arrives now is applied after it (R287); requests
from the exact lane stand ahead of all others (R288). -/
def State.npuBehind (s : State) (pa : Nat) (exact : Bool) : Bool :=
  match s.serving (chanOf pa) with
  | none => false
  | some u => (s.npu u).queue.any fun q => q.word == pa && (!exact || q.exact)

/-- A test slice of unit u ends without a verdict (R300, R403, R404). -/
def State.testAbort (s : State) (u : Nat) : State :=
  let n := s.npu u
  let s := s.setNpu u { n with test := false, starved := n.starved + 1 }
  if n.starved + 1 = 64 then s.event sgSELFTEST_STARVED (s.locElement (u + 1)) 0 else s

/-- Put a waiting request into its unit's queue; exact-lane requests stand ahead of all others (R288). The 512th aborts a
test slice (R300); one beyond the 512 waits in front of the queue, in arrival order as in it. -/
def State.npuEnqueue (s : State) (ch : Nat) (q : NReq) : State :=
  match s.serving ch with
  | none => s
  | some u =>
    let n := s.npu u
    let queue := if q.exact then (n.queue.filter (·.exact)) ++ [q] ++ n.queue.filter (fun r => !r.exact)
      else n.queue ++ [q]
    let s := s.setNpu u { n with queue := queue }
    if n.test && queue.length ≥ 512 then s.testAbort u else s

/-- A touch of a word for run isn (R288): its entry is HELD, or the touch waits, or the run is dead. -/
def State.npuTouch (s : State) (isn pa : Nat) : State × PostOut :=
  match s.npuEntry isn pa false false with
  | (s, .inl o) => (s, o)
  | (s, .inr (u, x)) =>
    let st : NSt := if x.st == .clean then .held else x.st
    (s.setNpu u ((s.npu u).use { x with st := st, holders := x.holders ++ [isn] }), .done 0 false false)

/-- The stage engine touches a word (R288, R318). -/
def State.stageTouch (s : State) (isn pa : Nat) : State :=
  if s.npuBehind pa true then s.npuEnqueue (chanOf pa) (.touch isn pa)
  else match s.npuTouch isn pa with
  | (s, .wait) => s.npuEnqueue (chanOf pa) (.touch isn pa)
  | (s, _) => s

/-- The fill of a word's entry completes: a CLEAN entry with the word's committed value, evicting the least
recently used CLEAN entry of a full cache (R285, R287). -/
def Npu.fillEntry (n : Npu) (pa : Nat) (v : TWord) : Npu :=
  let n := { n with fills := n.fills.filter (· != pa) }
  if (n.find pa).isSome then n
  else
    let n := { n with cache := n.cache.filter fun x => x.addr != pa }
    let e : NEntry := ⟨pa, v, v, 0xFFFF, .clean, [], none, true⟩
    if n.cache.length < 2048 then { n with cache := e :: n.cache }
    else match n.cache.reverse.find? fun x => !x.held with
      | some old => { n with cache := e :: n.cache.filter fun x => x.addr != old.addr }
      | none => n

/-! The abort closure. -/

/-- A transaction of an ORDERED queue aborts those after it in the tick (R311, R312). -/
def State.ordered (s : State) (q : Nat) : Bool := bit (s.rd (.intQcfg q)) 62

/-- The run belongs to the tick in progress and can abort. -/
def RunSt.inTick : RunSt → Bool
  | .queued | .staging | .ready | .running _ | .suspended _ | .executed => true
  | _ => false

/-- The run has an order key of the tick in progress, so that a stream cascade reaches it (R312): it can abort, or it waits
for the next tick under R318. -/
def RunSt.inBatch (t : RunSt) : Bool := t.inTick || t == .deferred

/-- Entry x of a log is rolled back when the runs in A abort: it is a surviving POST of A, or a local
entry after one for the same word (R292); what a rollback has taken out triggers nothing again (R293). -/
def rolledBy (log : List LogE) (A : List Nat) (x : LogE) : Bool :=
  x.kind != .remote && !x.rolled &&
    log.any fun y => y.word == x.word && y.lseq ≤ x.lseq && y.kind == .post && !y.rolled && A.contains y.owner
      && (y.lseq < x.lseq || x.kind == .post)

/-- One round of the closure: the owners of rolled entries, those of requests that wait in a unit's queue behind a POST which
is rolled back and so are rolled back with the rest (R293), and the followers in ORDERED queues (R292, R312). -/
def State.closureStep (s : State) (A : List Nat) : List Nat :=
  let owners := (List.range 12).flatMap fun u =>
    ((s.npu u).log.filter (rolledBy (s.npu u).log A)).map (·.owner)
  let waiting := (List.range 12).flatMap fun u => ((s.npu u).queue.filter fun q => (s.npu u).log.any fun y =>
    y.word == q.word && y.kind == .post && !y.rolled && A.contains y.owner).filterMap NReq.run
  let stream := (s.runs.filter fun r => r.st.inBatch && s.ordered r.queue &&
    s.runs.any fun p => A.contains p.isn && p.sameQueue r && p.okey < r.okey).map (·.isn)
  let live := fun i => (s.run i).any fun r => r.st.inBatch && !r.pinned
  A ++ ((owners ++ waiting ++ stream).filter fun i => live i && !A.contains i).eraseDups

/-- The closure, in as many rounds as there are runs. -/
def State.closure (s : State) : Nat → List Nat → List Nat
  | 0, A => A
  | n + 1, A => s.closure n (s.closureStep A)

/-- Roll back a unit's entries for the aborting runs A and set r(w) afresh (R292, R293). -/
def Npu.rollback (n : Npu) (A : List Nat) : Npu × Nat :=
  let k := (n.log.filter (rolledBy n.log A)).length
  let log := n.log.map fun x => if rolledBy n.log A x then { x with rolled := true } else x
  let cache := n.cache.map fun e =>
    if n.log.any (fun x => x.word == e.addr && rolledBy n.log A x) then
      { e with r := ⟨pdecOf (runningVal (wordVal e.c.val) log e.addr), tPDEC⟩ }
    else e
  ({ n with log := log, cache := cache }, k)

/-- Roll back in every posting unit, counting NPU_CNT.ROLLED (R301). -/
def State.rollbackAll (s : State) (A : List Nat) : State :=
  (List.range 12).foldl (fun s u =>
    let (n, k) := (s.npu u).rollback A
    (s.setNpu u n).count (.npuCnt u) 15 0 k) s

/-- A run aborts: its result and its saved extension state are discarded (R170, R199), ABT counts, and OVR for an overrun of a run that is not on the
exact lane (R314 to R316). -/
def Run.abort (r : Run) (overrun : Bool) : Run :=
  { r with st := .aborted, result := [], abt := r.abt + 1, xsaved := false,
           ovr := if overrun && !r.exact then r.ovr + 1 else r.ovr }

/-- The runs A abort, with everything the closure draws in; over: the causes of A are overruns (R314). -/
def State.abortRuns (s : State) (A : List Nat) (isOvr : Bool) : State :=
  let A := A.filter fun i => (s.run i).any fun r => r.st.inTick && !r.pinned
  if A.isEmpty then s
  else
    let all := s.closure (s.runs.length + 1) A
    let casc := (all.filter fun i => !A.contains i).length
    let s1 := s.rollbackAll all
    let f (r : Run) : Run :=
      if all.contains r.isn && r.st.inBatch then r.abort (isOvr && A.contains r.isn) else r
    let s2 := { s1 with runs := s1.runs.map f }
    let s3 := if isOvr = true then
        A.foldl (fun s _ => (s.count .tsqCnt 63 48 1).event sgTX_OVERRUN (s.locElement 0x0D) 0) s2
      else s2
    s3.count .tsqCnt 47 32 casc

/-- Roll back the REMOTE entries of an issuer in the tick, those of the keys in the list excepted (R298, R442): the unit,
and how many entries. -/
def Npu.rollRemote (n : Npu) (issuer : Nat) (keep : Nat → Bool) : Npu × Nat :=
  let hit (x : LogE) : Bool := x.kind == .remote && x.owner == issuer && !keep x.okey && !x.rolled
  ({ n with log := n.log.map fun x => if hit x then { x with rolled := true } else x }, (n.log.filter hit).length)

/-- The same in every posting unit, counted in NPU_CNT.ROLLED (R301). -/
def State.rollRemotes (s : State) (issuer : Nat) (keep : Nat → Bool) : State :=
  (List.range 12).foldl (fun (s : State) u =>
    let (n, k) := (s.npu u).rollRemote issuer keep
    (s.setNpu u n).count (.npuCnt u) 15 0 k) s

end Sys2Proof.Machine
end

