-- ==== Sys2Proof/Machine/Trace.lean ====
section
/-!
DEFINITION. Program-flow trace (R483 to R488): the packets of a source and the trace buffer. A cluster's FIFO drains
each packet at once, as a group of its own (log 32).
-/
namespace Sys2Proof.Machine

/-- The core whose stream core e belongs to (R483): position 0 of its unit, a core of a split slot itself. -/
def State.trcKey (s : State) (e : Nat) : Option Nat :=
  if !bit (s.rd .trcCtl) (e / 8) || !s.dbg.powered then none
  else match s.slotOf e with
  | none => none
  | some sl =>
    if s.slotState (e / 8) sl == slSPLIT || s.slotState (e / 8) sl == slHELD then some e
    else (s.slotCores (e / 8) sl).head?

/-- Source e. -/
def State.src (s : State) (e : Nat) : TrcSrc := sget TrcSrc.cold s.trc.srcs e

/-- Change source e. -/
def State.modSrc (s : State) (e : Nat) (f : TrcSrc → TrcSrc) : State :=
  { s with trc := { s.trc with srcs := sset TrcSrc.cold s.trc.srcs e (f (s.src e)) } }

/-- TRC_CTL.MODE: the buffer stops when full (R488). -/
def State.trcStop (s : State) : Bool := bit (s.rd .trcCtl) 32

/-- Size of the trace buffer (R488). -/
def trcSize : Nat := 2 ^ 23

/-- Put bytes into the trace buffer at TRC_STATUS.WRPTR (R488, R490); in wrap mode the oldest bytes go. -/
def State.trcStore (s : State) (bs : List Byte) : State :=
  let w := s.rf .trcStatus 22 0
  let n := bs.length
  let buf := (bs.zipIdx).foldl (fun m (p : Byte × Nat) => sset 0 m ((w + p.2) % trcSize) p.1) s.trc.buf
  let w' := (w + n) % trcSize
  let isOver := decide (s.trc.unread + n > trcSize)
  let t : Trc := { s.trc with buf := buf, unread := min trcSize (s.trc.unread + n) }
  let s : State := { s with trc := t }
  let s := s.wf .trcStatus 22 0 w'
  let s := if isOver then s.wf .trcRdptr 22 0 w' else s
  s.wf .trcStatus 23 23 (b2n (s.trcStop && s.trc.unread == trcSize))

/-- The buffer has room for n bytes (R488). -/
def State.trcRoom (s : State) (n : Nat) : Bool := !s.trcStop || decide (s.trc.unread + n ≤ trcSize)

/-- One packet of source e: its group in the buffer, or discarded and counted (R488). -/
def State.trcRaw (s : State) (e : Nat) (bs : List Byte) : State :=
  if s.trcRoom (bs.length + 1) then
    (s.trcStore (BitVec.ofNat 8 (0xC0 + e / 8) :: bs)).modSrc e fun x => { x with since := x.since + bs.length }
  else
    let s := s.wf .trcStatus 23 23 1
    (s.count .trcStatus 63 32 bs.length).modSrc e fun x => { x with lost := min (2 ^ 32 - 1) (x.lost + bs.length) }

/-- A packet: its header and fields of the given sizes and values, big-endian (R484). -/
def trcPkt (hdr : Nat) (fs : List (Nat × Nat)) : List Byte :=
  BitVec.ofNat 8 hdr :: fs.flatMap fun p => toBytes p.1 p.2

/-- SYNC for the instruction at pc (R484, R486). -/
def State.trcSync (s : State) (e : Nat) (pc : Word) : State :=
  (s.trcRaw e (trcPkt 1 [(5, fld pc 41 2), (1, (s.core e).lev), (1, e), (8, s.now)])).modSrc e fun x => { x with since := 0 }

/-- A GAP and a SYNC at the first room after a loss (R488). -/
def State.trcGap (s : State) (e : Nat) (pc : Word) : State :=
  let n := (s.src e).lost
  if n = 0 || !s.trcRoom 23 then s
  else ((s.modSrc e fun x => { x with lost := 0 }).trcRaw e (trcPkt 7 [(4, n)])).trcSync e pc

/-- The ATOM byte of up to 6 atoms (R485). -/
def atomByte (l : List Bool) : Byte :=
  BitVec.ofNat 8 (0x80 + 2 ^ l.length + (l.zipIdx).foldl (fun n (p : Bool × Nat) => n + b2n p.1 * 2 ^ p.2) 0)

/-- Emit the atoms that are held (R485). -/
def State.trcFlush (s : State) (e : Nat) (pc : Word) : State :=
  let l := (s.src e).atoms
  if l.isEmpty then s
  else (((s.modSrc e fun x => { x with atoms := [] }).trcGap e pc).trcRaw e [atomByte l])

/-- A packet other than ATOM (R485): the atoms held go first. -/
def State.trcEmit (s : State) (e : Nat) (pc : Word) (bs : List Byte) : State :=
  ((s.trcFlush e pc).trcGap e pc).trcRaw e bs

/-- One atom (R485). -/
def State.trcAtom (s : State) (e : Nat) (pc : Word) (taken : Bool) : State :=
  let s := s.modSrc e fun x => { x with atoms := x.atoms ++ [taken] }
  if (s.src e).atoms.length = 6 then s.trcFlush e pc else s

/-- The stream of core e before the instruction at pc (R486): the first SYNC, or the periodic one. -/
def State.trcBegin (s : State) (e : Nat) (pc : Word) : State :=
  let x := s.src e
  if !x.on then (s.modSrc e fun x => { x with on := true }).trcSync e pc
  else if x.since ≥ s.rf .trcCtl 47 40 * 256 then (s.trcFlush e pc).trcSync e pc
  else s

/-- EXC of an entry or a chaining (R485) of core e, to level lev, with the reported PC. -/
def State.trcExc (s : State) (e vec lev : Nat) (rpc : Word) : State :=
  match s.trcKey e with
  | none => s
  | some k => (s.trcBegin k rpc).trcEmit k rpc (trcPkt 3 [(1, vec), (1, lev), (5, fld rpc 41 2)])

/-- A taken transfer whose target is not PC-relative (R485): its atom, then BRANCH_IND. -/
def State.trcInd (s : State) (e : Nat) (pc target : Word) : State :=
  (s.trcAtom e pc true).trcEmit e pc (trcPkt 2 [(5, fld target 41 2)])

/-- The transfer of DISPATCH to the entry of a run (R485). -/
def State.trcDispatch (s : State) (e : Nat) (pc target : Word) : State :=
  match s.trcKey e with
  | none => s
  | some k => (s.trcBegin k pc).trcInd k pc target

/-- TICK at a pulse that core e receives (R486); a stopped source emits it after POWER_EXIT. -/
def State.trcTick (s : State) (e : Nat) : State :=
  match s.trcKey e with
  | none => s
  | some k =>
    if k != e then s
    else if (s.src k).asleep.isSome then s.modSrc k fun x => { x with tick := some s.tick }
    else if !(s.src k).on then s
    else s.trcEmit k (s.core k).pc (trcPkt 8 [(6, s.tick)])

/-- POWER_ENTER of core e with the state code of R484 (R487): the source stops. -/
def State.trcSleep (s : State) (e code : Nat) : State :=
  match s.trcKey e with
  | none => s
  | some k =>
    if k != e || (s.src k).asleep.isSome then s
    else ((s.trcBegin k (s.core k).pc).trcEmit k (s.core k).pc (trcPkt 5 [(1, code), (8, s.now)])).modSrc k
      fun x => { x with asleep := some code }

/-- POWER_EXIT and SYNC of core e, which goes on at pc (R487), and a TICK held meanwhile. -/
def State.trcWake (s : State) (e : Nat) (pc : Word) : State :=
  match s.trcKey e with
  | none => s
  | some k =>
    if k != e then s
    else match (s.src k).asleep with
    | none => s
    | some code =>
      let t := (s.src k).tick
      let s := s.modSrc k fun x => { x with asleep := none, tick := none }
      let s := (s.trcEmit k pc (trcPkt 6 [(1, code), (8, s.now)])).trcSync k pc
      match t with
      | some n => s.trcEmit k pc (trcPkt 8 [(6, n)])
      | none => s

/-- Core e leaves C6, with its POWER_EXIT (R249, R250, R487). -/
def State.leaveC6 (s : State) (e : Nat) : State :=
  if (s.core e).c6 then (s.modCore e fun c => { c with c6 := false }).trcWake e (s.core e).pc else s

/-- A read of 8 bytes of the trace buffer at an offset: bytes past the end read 0. -/
def State.trcWord (s : State) (o : Nat) : Word :=
  BitVec.ofNat 64 (ofBytes ((List.range 8).map fun i => sget 0 s.trc.buf (o + i)))

/-- What a read at an offset frees in stop mode (R488): the bytes from TRC_RDPTR that it returns. -/
def State.trcFree (s : State) (o : Nat) : State :=
  let r := s.rf .trcRdptr 22 0
  if !s.trcStop || o % trcSize ≠ r then s
  else
    let n := min 8 s.trc.unread
    let s : State := { s with trc := { s.trc with unread := s.trc.unread - n } }
    (s.wf .trcRdptr 22 0 ((r + n) % trcSize)).wf .trcStatus 23 23 0

end Sys2Proof.Machine
end

