-- ==== Sys2Proof/Config.lean ====
section
/-!
DEFINITION. The free values: what the spec leaves open. Each is an opaque constant with no body, applied
to the counter State.free (or to the operands it depends on), so that nothing can be proved of its value.
-/
namespace Sys2Proof.Config

/-- R85: inside the 64-instruction window an instruction uses the old value (true) or the new value of
the needs-SYNC register with the given code. Arguments: State.free, register code. -/
opaque syncPick : Nat → Nat → Bool

/-- R77, R147: the offset from MB of an address in modulo mode with ML = 0, of an instruction that may raise no
exception for it. Argument: State.free. -/
opaque modZero : Nat → BitVec 64

/-- R53, R189: the virtual address that CORE_LADDR reports when a core that may not reach control space is turned away;
the command names a control-space offset only. Argument: State.free. -/
opaque ctlVa : Nat → BitVec 42

/-- R236: the cycles an instruction is charged in normal mode, which the spec does not fix. -/
opaque normalCycles : Nat → Nat

/-- R246, R167: the cycles by which a reply comes later than the listed cost. Argument: State.free. -/
opaque stallCycles : Nat → Nat

/-- R267: a cached translation item is still there and is used (true), or it was evicted. Arguments:
State.free, the virtual frame number. -/
opaque tlbHit : Nat → Nat → Bool

/-- R209: the temporaries T0 to T15 at START are undefined. Arguments: State.free, the temporary. -/
opaque microTemp : Nat → Nat → BitVec 68

/-- R195: the level 0 bank after an abort is left undefined for software. Arguments: State.free, the
register index of R57. -/
opaque abortedBank : Nat → Nat → BitVec 68

/-- R340, R344: the AES-256-GCM tag of a journal record. Arguments: the key, the IV, the record
bytes as one number. -/
opaque gcmTag : Nat → Nat → Nat → Nat

/-- R353: SHA-384 of a byte sequence as one number. -/
opaque sha384 : Nat → Nat

/-- R222, R456, R471: ECDSA P-384 verification. Arguments: the key, the message, the signature. -/
opaque ecdsaVerify : Nat → Nat → Nat → Bool

/-- R470: the bits of a fresh debug nonce. Argument: State.free. -/
opaque nonce : Nat → Nat

/-- R464: what unwrapping a key under the enrolled key-encryption key gives; none when the check fails. Arguments: the
key-encryption key, the wrapped key. -/
opaque unwrapKey : Nat → Nat → Option Nat

/-- R335: the hash that places an idempotency key in its table. -/
opaque idemHash : Nat → Nat

/-- R418: a fresh link key. Argument: State.free. -/
opaque linkKey : Nat → Nat

/-- R418: a fresh link salt. Argument: State.free. -/
opaque linkSalt : Nat → Nat

/-- R423: the system identifier that a first fabric manager gives its system. Argument: State.free. -/
opaque systemId : Nat → Nat

/-- R116: Z (bit 0) and N (bit 1) at the end of REP DADD and REP DSUB when op1 holds an invalid digit or
sign. Argument: State.free. -/
opaque repFlags : Nat → BitVec 2

/-- R45, R482: what a debug read of a word of the tag shadow or the key array returns; the spec does not give the
places of the tags, keys, FP and PC inside it. Arguments: State.free, the physical address. -/
opaque shadowRead : Nat → Nat → BitVec 64

/-- R167, R296: the word returned to the issuer of a remote POST whose value lo + max(a, 0) needs more than 15 digits, which
PDEC does not hold. Argument: that value. -/
opaque overPdec : Int → BitVec 64

/-- R497: the ESR of an accepted capacitance test whose V1 lies above V0, for which the formula gives a negative number
that HUP_MEAS does not hold. Arguments: V0, V1. -/
opaque negativeEsr : Nat → Nat → Nat

end Sys2Proof.Config
end

