-- ==== Sys2Proof/Machine/Xlate.lean ====
section
/-!
DEFINITION. Translation, cached translations and the access checks (R255 to R268), for any accessor: a
core, the stage engine, or the fabric endpoint.
-/
namespace Sys2Proof.Machine

/-! Vectors (R179). -/

def vILLEGAL_OPCODE : Nat := 0x01
def vILLEGAL_COND : Nat := 0x02
def vPRIVILEGE : Nat := 0x03
def vTAG_MISMATCH : Nat := 0x04
def vPOISON : Nat := 0x05
def vMISALIGNED : Nat := 0x06
def vTRANSLATION : Nat := 0x07
def vKEY_VIOLATION : Nat := 0x08
def vBUS_ERROR : Nat := 0x09
def vDECIMAL_DATA : Nat := 0x0A
def vDECIMAL_OVERFLOW : Nat := 0x0B
def vDIVIDE_BY_ZERO : Nat := 0x0C
def vFP_INVALID : Nat := 0x0D
def vFP_DIVIDE_BY_ZERO : Nat := 0x0E
def vFP_OVERFLOW : Nat := 0x0F
def vFP_UNDERFLOW : Nat := 0x10
def vFP_INEXACT : Nat := 0x11
def vSUBNORMAL : Nat := 0x12
def vRS_OVERFLOW : Nat := 0x13
def vRS_UNDERFLOW : Nat := 0x14
def vBUDGET_EXCEEDED : Nat := 0x15
def vSHADOW_MISMATCH : Nat := 0x16
def vMACHINE_CHECK : Nat := 0x17
def vSVC : Nat := 0x40

/-- The kinds of access that R258 tells apart. -/
inductive AK where
  | fetch | read | write | post | pread
  deriving DecidableEq, Repr

/-- Accesses that store (R258, R260). -/
def AK.isWrite : AK → Bool
  | .write => true | .post => true | _ => false

/-- Who makes an access: partition, table root, whether translation is on, privilege, access key and the
key controls (R255, R260, R261). -/
structure Who where
  part : Nat
  root : Nat
  en : Bool
  priv : Nat
  key : Nat
  kmask : Nat
  mkey : Bool
  deriving DecidableEq, Repr

/-- The outcome of the checks: a physical address and whether the frame is a posting frame, or the vector
and DETAIL of a fault (addrv: R189 gives the address with it). -/
inductive XOut where
  | ok (pa : Nat) (pf : Bool)
  | fail (vec detail : Nat) (addrv : Bool)
  deriving DecidableEq, Repr

/-- Access key k matches storage key s (R260). -/
def keyMatch (w : Who) (sk : Nat) : Bool :=
  (w.mkey && w.key == 0) || ((w.key ^^^ sk) &&& w.kmask) == 0

/-- The key check of R260: a store requires a match; a read or fetch a match or FP = 0. -/
def keyOk (w : Who) (k : AK) (sk : Nat) (fp : Bool) : Bool :=
  keyMatch w sk || (!k.isWrite && !fp)

/-- DETAIL of KEY_VIOLATION for a storage key and FP (R189). -/
def keyDetail (sk : Nat) (fp : Bool) : Nat := sk % 256 + 256 * b2n fp

/-- A translation entry is a leaf at level lv (R256, R257). -/
def entryLeaf (lv : Nat) (w : Word) : Bool := lv == 3 || bit w 62

/-- A translation entry is valid at level lv, apart from R259 (R257). -/
def entryValid (lv : Nat) (w : Word) : Bool :=
  bit w 63 && fld w 57 52 == 0 && fld w 11 0 == 0 && !(lv == 3 && bit w 62) &&
  (if entryLeaf lv w then
    (lv != 1 || fld w 31 12 == 0) && (lv != 2 || fld w 21 12 == 0) && !(bit w 58 && (bit w 61 || bit w 60))
   else fld w 61 58 == 0 && !bit w 12)

/-- The physical address that a leaf at level lv gives for va (R256). -/
def leafAddr (lv : Nat) (w : Word) (va : Nat) : Nat :=
  let span := 12 + 10 * (3 - lv)
  fld w 51 12 * 4096 / 2 ^ span * 2 ^ span + va % 2 ^ span

/-- The table index bits of va at level lv (R256). -/
def walkIndex (lv va : Nat) : Nat := va / 2 ^ (12 + 10 * (3 - lv)) % 1024

/-- A cached item for va in a partition, if it is held and still used (R267). -/
def tlbFind (free : Nat) (tlb : List TlbItem) (part kind va : Nat) : Option TlbItem :=
  let idx := if kind = 0 then va / 4096 else va / 2 ^ (12 + 10 * (3 - kind))
  match tlb.find? fun t => t.part == part && t.kind == kind && t.idx == idx with
  | some t => if Config.tlbHit free (va / 4096) then some t else none
  | none => none

/-- Hold an item, replacing one for the same place. -/
def tlbPut (tlb : List TlbItem) (t : TlbItem) : List TlbItem :=
  t :: tlb.filter fun x => !(x.part == t.part && x.kind == t.kind && x.idx == t.idx)

/-- Read a table entry by physical address (R256, R257): TRANSLATION reason 3 outside the own ledger and
unmirrored areas, MACHINE_CHECK 0x0201 for POISON. -/
def State.readEntry (s : State) (pa : Nat) : Except (Nat × Nat) Word :=
  match s.area pa with
  | .own | .unmirrored =>
    let w := s.memWord pa
    if w.tag = tPOISON then .error (vMACHINE_CHECK, 0x02010001) else .ok w.val
  | _ => .error (vTRANSLATION, 3)

/-- The walk from a table at level lv (3 − fuel + 1): the new cached items, and the leaf's level and entry. -/
def State.walk (s : State) (part va : Nat) : Nat → Nat → List TlbItem → List TlbItem × Except (Nat × Nat) (Nat × Word)
  | 0, _, tlb => (tlb, .error (vTRANSLATION, 0))
  | fuel + 1, table, tlb =>
    let lv := 3 - fuel
    match s.readEntry (table + 8 * walkIndex lv va) with
    | .error x => (tlb, .error x)
    | .ok w =>
      if !entryValid lv w then (tlb, .error (vTRANSLATION, 0))
      else if entryLeaf lv w then (tlb, .ok (lv, w))
      else
        let t : TlbItem := ⟨part, lv, va / 2 ^ (12 + 10 * (3 - lv)), w, 0, false, s.tick⟩
        State.walk s part va fuel (fld w 51 13 * 8192) (tlbPut tlb t)

/-- R259: a posting-frame leaf must name a frame of the area of its kind of partition. -/
def State.pfAreaOk (s : State) (part : Nat) (w : Word) (pa : Nat) : Bool :=
  !bit w 58 || (if bit (s.rd (.keyPtctl part)) 62 then s.area pa == .own else s.area pa == .unmirrored)

/-- The leaf that an access to va uses, from the cached items or from a walk (R256, R263, R267, R268):
new items, and the leaf's level, entry, key and FP, or a fault. -/
def State.leaf (s : State) (tlb : List TlbItem) (w : Who) (va : Nat) :
    List TlbItem × Except (Nat × Nat) (Nat × Word × Nat × Bool) :=
  match tlbFind s.free tlb w.part 0 va with
  | some t => (tlb, .ok (t.entry.toNat % 4, setFld t.entry 1 0 0, t.key, t.fp))
  | none =>
    let start :=
      match tlbFind s.free tlb w.part 2 va with
      | some t => (1, fld t.entry 51 13 * 8192)
      | none => match tlbFind s.free tlb w.part 1 va with
        | some t => (2, fld t.entry 51 13 * 8192)
        | none => (3, w.root)
    match s.walk w.part va start.1 start.2 tlb with
    | (tlb, .error x) => (tlb, .error x)
    | (tlb, .ok (lv, e)) =>
      let pa := leafAddr lv e va
      let (key, fp) := s.frameKey pa
      (tlbPut tlb ⟨w.part, 0, va / 4096, setFld e 1 0 lv, key, fp, s.tick⟩, .ok (lv, e, key, fp))

/-- Steps 6 to 9 of R258 and the bus errors of R43, for a physical address with its entry's PF and W and its key. -/
def State.physChecks (s : State) (w : Who) (k : AK) (pa : Nat) (pf wr : Bool) (key : Nat) (fp : Bool) :
    State × XOut :=
  if (k == .post || k == .pread) && !pf then (s, .fail vKEY_VIOLATION 0x200 true)
  else if k == .write && pf then (s, .fail vKEY_VIOLATION 0x200 true)
  else if k == .write && !wr then (s, .fail vTRANSLATION 0 true)
  else match s.area pa with
  | .replica | .carveout | .nowhere => (s.carveout pa, .fail vBUS_ERROR 0 true)
  | .control => (s, .ok pa pf)
  | _ => if keyOk w k key fp then (s, .ok pa pf) else (s, .fail vKEY_VIOLATION (keyDetail key fp) true)

/-- The checks of R258 from step 2 on, for a virtual address below 2^42 outside the TCM window; those for another device
begin at step 3 (R271). -/
def State.xlate (s : State) (tlb : List TlbItem) (w : Who) (k : AK) (va : Nat) (step2 : Bool := true) :
    State × List TlbItem × XOut :=
  if !w.en then
    if w.priv = 0 && w.part = 0 && k != .fetch then
      let (key, fp) := s.frameKey va
      let (s, o) := s.physChecks w k va false true key fp
      (s, tlb, o)
    else (s, tlb, .fail vTRANSLATION 0 true)
  else match s.leaf tlb w va with
  | (tlb, .error (v, d)) => (s, tlb, .fail v d (v != vMACHINE_CHECK))
  | (tlb, .ok (lv, e, key, fp)) =>
    let pa := leafAddr lv e va
    if step2 && s.area pa = .control && !(w.priv = 0 && w.part = 0 && k != .fetch) then
      (s, tlb, .fail vTRANSLATION 3 true)
    else if !s.pfAreaOk w.part e pa then
      (s.event sgPF_AREA s.locDevice 0, tlb, .fail vTRANSLATION 0 true)
    else if w.priv ≥ 2 && !bit e 59 then (s, tlb, .fail vTRANSLATION 0 true)
    else if k == .fetch && !bit e 60 then (s, tlb, .fail vTRANSLATION 0 true)
    else
      let (s, o) := s.physChecks w k pa (bit e 58) (bit e 61) key fp
      (s, tlb, o)

/-- Items that INVT removes: those of the partition for the frame of va, and the block and intermediate
entries that cover it (R157, R265). -/
def invtKeeps (part va : Nat) (t : TlbItem) : Bool :=
  !(t.part == part &&
    ((t.kind == 0 && (t.idx == va / 4096 ||
        (t.entry.toNat % 4 != 3 &&
          t.idx * 4096 / 2 ^ (12 + 10 * (3 - t.entry.toNat % 4)) == va / 2 ^ (12 + 10 * (3 - t.entry.toNat % 4)))))
      || (t.kind == 1 && t.idx == va / 2 ^ 32) || (t.kind == 2 && t.idx == va / 2 ^ 22)))

/-- Items that hold the key of a physical frame (R266). -/
def tlbFrame (t : TlbItem) : Nat :=
  leafAddr (t.entry.toNat % 4) (setFld t.entry 1 0 0) (t.idx * 4096) / 4096

end Sys2Proof.Machine
end

