-- ==== Sys2Proof/Machine/Ops.lean ====
section
/-!
DEFINITION. The named operations of a core: the execution context of an instruction, raising, the memory
accesses with their checks (R70, R71, R258, R533, R535), taking an exception (R180, R185 to R189, R541),
and retiring (R247).
-/
namespace Sys2Proof.Machine

/-- An exception as an instruction raises it (R179, R189). after: the reported PC is that of the next
instruction (R188). -/
structure Exc where
  vec : Nat
  detail : Nat
  addr : Option Nat
  wr : Bool
  split2 : Bool
  after : Bool
  deriving DecidableEq, Repr

/-- Why an instruction does not retire. -/
inductive Stop where
  | exc (x : Exc)
  /-- It waits: for a descriptor, a reply or a remote repair; C1 for WAIT. -/
  | wait (a : Act)
  deriving DecidableEq, Repr

/-- The values of the needs-SYNC registers that one instruction uses (R84, R85). -/
structure View where
  tbase : Word
  keyctl : Word
  mode : Word
  scatw : Word
  lmask : Word
  wrap : Bool
  sub : Bool
  deriving DecidableEq, Repr

/-- The value of a needs-SYNC register inside the window of R85: an old value, or the present one. -/
def effVal (free code : Nat) (cur : Word) : List Delayed → Word
  | [] => cur
  | d :: ds => if d.reg = code ∧ Config.syncPick free code = true then d.old else effVal free code cur ds

/-- The view of a core (R85). -/
def Core.view (c : Core) (free : Nat) : View where
  tbase := effVal free 0x30 c.tbase c.delayed
  keyctl := effVal free 0x31 c.keyctl c.delayed
  mode := effVal free 0x38 c.mode c.delayed
  scatw := effVal free 0x22 c.scatw c.delayed
  lmask := effVal free 0x14 c.lmask c.delayed
  wrap := bit (effVal free 0x20 c.rsctl c.delayed) 15
  sub := bit (effVal free (0x10000 + c.lev) c.cur.psw c.delayed) 35

/-- The execution context of an instruction of core e: the device, a working copy of the core, the view,
the first word, the address of the instruction (of its REP word under REP), its own address as BASE = PC
supplies it (R77), the address of the next, the cost so far, the cost if it raises an exception
(R150), the entry that the instruction itself begins by chaining (R184), the number of elements after which an
interruptible instruction stops at a boundary (R82, R118, R480), and the path cost so far of a customer instruction with
its extension load and whether a memory micro-operation has run (R219). -/
structure Cx where
  s : State
  e : Nat
  c : Core
  v : View
  w : Nat
  ipc : Word
  ia : Word
  npc : Word
  cost : Nat
  xcost : Nat
  ent : Option Entering
  lim : Option Nat
  path : Option Nat
  stall : Bool
  deriving DecidableEq, Repr

/-- An operation of an instruction; what it did to the context is kept when it stops. -/
abbrev Op := EStateM Stop Cx

/-- The context. -/
def cx : Op Cx := get

/-- Raise an exception. -/
def raiseExc {α : Type} (x : Exc) : Op α := throw (.exc x)

/-- Raise a vector with a DETAIL and no address. -/
def raiseV {α : Type} (vec detail : Nat) : Op α := raiseExc ⟨vec, detail, none, false, false, false⟩

/-- Raise a vector with a DETAIL and the failing address. -/
def raiseA {α : Type} (vec detail addr : Nat) (wr split2 : Bool) : Op α :=
  raiseExc ⟨vec, detail, some addr, wr, split2, false⟩

/-- Raise ILLEGAL_OPCODE: DETAIL is the instruction's first word (R189). -/
def illegal {α : Type} : Op α := do raiseV vILLEGAL_OPCODE (← cx).w

/-- Raise PRIVILEGE: DETAIL is the instruction's first word (R189). -/
def privFault {α : Type} : Op α := do raiseV vPRIVILEGE (← cx).w

/-- Check a condition. -/
def require (b : Bool) (f : Op Unit) : Op Unit := if b then pure () else f

/-- Change the core. -/
def modC (f : Core → Core) : Op Unit := modify fun x => { x with c := f x.c }

/-- Change the device. -/
def modS (f : State → State) : Op Unit := modify fun x => { x with s := f x.s }

/-- Change the current bank. -/
def modB (f : Bank → Bank) : Op Unit := modC fun c => c.setCur (f c.cur)

/-- The current bank. -/
def curB : Op Bank := do return (← cx).c.cur

/-- Add to the cost of the instruction (R150). -/
def addCost (n : Nat) : Op Unit := modify fun x => { x with cost := x.cost + n }

/-- Set the cost of the instruction. -/
def setCost (n : Nat) : Op Unit := modify fun x => { x with cost := n }

/-! PSW fields (R61). -/

def pPRIV (w : Word) : Nat := fld w 39 38
def pKEY (w : Word) : Nat := fld w 47 40

/-- The current privilege: 0 P0, 1 P1, 2 P2. -/
def privNow : Op Nat := do return pPRIV (← curB).psw

/-- The bank's PSW with field [hi:lo] replaced. -/
def Bank.pswFld (b : Bank) (hi lo v : Nat) : Bank := { b with psw := setFld b.psw hi lo v }

/-- The partition, root and keys that the core's accesses use (R251, R255, R260). -/
def Cx.who (x : Cx) : Who :=
  ⟨fld x.v.tbase 63 54, fld x.v.tbase 51 13 * 8192, bit x.v.tbase 0, pPRIV x.c.cur.psw, pKEY x.c.cur.psw,
    fld x.v.keyctl 15 8, bit x.v.keyctl 1⟩

/-! Accesses. -/

/-- Where a checked access goes. -/
inductive Target where
  /-- TCM byte offset. -/
  | tcm (off : Nat)
  /-- A physical address of ledger memory, and whether the frame is a posting frame. -/
  | mem (pa : Nat) (pf : Bool)
  /-- A control-space offset. -/
  | ctl (off : Nat)
  deriving DecidableEq, Repr

/-- va lies in the TCM window (R242). -/
def inTcm (c : Core) (va : Nat) : Bool := va / 2 ^ 18 == fld c.tcmwin 41 18

/-- The block checks of R243 (vector, DETAIL) for an access by w. -/
def tcmCheck (c : Core) (w : Who) (k : AK) (off : Nat) : Option (Nat × Nat) :=
  let d := sget 0 c.tcmblk (off / 4096)
  let key := fld d 47 40
  let fp := bit d 39
  if !bit d 63 then some (vTRANSLATION, 0)
  else if fld d 57 48 ≠ w.part then some (vKEY_VIOLATION, keyDetail key fp)
  else if (k == .fetch && !bit d 62) || (k.isWrite && bit d 62) then some (vKEY_VIOLATION, keyDetail key fp)
  else if !keyOk w k key fp then some (vKEY_VIOLATION, keyDetail key fp)
  else none

/-- The checks of one access that does not cross an 8-byte boundary (R77, R239, R242, R258): where it goes, or
its fault with the address of its first byte. -/
def access (k : AK) (va : Nat) (split2 : Bool) : Op Target := do
  let x ← cx
  if va ≥ 2 ^ 42 then raiseA vTRANSLATION 1 va k.isWrite split2
  else if inTcm x.c va then
    if k == .post || k == .pread then raiseA vKEY_VIOLATION 0x200 va (k == .post) split2
    else if k == .fetch && !x.c.tx then raiseA vTRANSLATION 0 va false split2
    else match tcmCheck x.c x.who k (va % 2 ^ 18) with
      | some (v, d) => raiseA v d va k.isWrite split2
      | none => return .tcm (va % 2 ^ 18)
  else if x.c.tx && !(k == .post || k == .pread) then raiseA vTRANSLATION 0 va k.isWrite split2
  else
    let (s, tlb, o) := x.s.xlate x.c.tlb x.who k va
    set { x with s := s, c := { x.c with tlb := tlb } }
    match o with
    | .fail v d addrv =>
      if addrv then raiseA v d va k.isWrite split2 else raiseV v d
    | .ok pa pf =>
      if x.s.area pa = .control then return .ctl (pa % 2 ^ 48) else return .mem pa pf

/-- The line of a ledger word is readable, or the access waits for remote repair, or it reads as POISON (R279). va and
split2 are what a POISON of an unreachable line reports (R189). -/
def lineCheck (pa va : Nat) (split2 : Bool) : Op Unit := do
  let x ← cx
  let (s, o) := x.s.lineRead pa (.core x.e)
  set { x with s := s }
  match o with
  | .good => pure ()
  | .poison => raiseA vPOISON (15 + 8 * 16) va false split2
  | .wait =>
    modS fun s => { s with repairWait := s.repairWait ++ [(x.e, pa / 64)] }
    throw (.wait .reply)

/-- The word at a checked target of the virtual address va, with the committed value in a posting frame (R89), for which a
word that a posting unit holds reads no memory line (R287). Control space is read by the operation that calls this. -/
def targetWord (t : Target) (va : Nat) (split2 : Bool) : Op TWord := do
  match t with
  | .tcm off => return sget raw0 (← cx).c.tcm (off / 8)
  | .mem pa pf =>
    let x ← cx
    if !(pf && x.s.cachedWord pa) then lineCheck pa va split2
    let x ← cx
    return if pf then x.s.committed pa else x.s.memWord pa
  | .ctl _ => return raw0

/-- Raise for the tag of a word read from memory: POISON, or TAG_MISMATCH for a reserved tag (R66, R189). -/
def checkReadTag (t : Tag) (va : Nat) : Op Unit := do
  if t = tPOISON then raiseA vPOISON (15 + 8 * 16) va false false
  else if tagReserved t then raiseA vTAG_MISMATCH (t.toNat + 8 * 16) va false false
  else pure ()

/-- DETAIL of TAG_MISMATCH and POISON: the tag found and the operand code (R189). -/
def tagDetail (t : Tag) (operand : Nat) : Nat := t.toNat + 16 * operand

/-- The tag that an operand register has to carry (R65, R66, R189): a tag that is not accepted raises TAG_MISMATCH, also
POISON; where every tag is accepted, POISON raises POISON. -/
def needTag (t : Tag) (ok : Bool) (operand : Nat) : Op Unit := do
  if tagReserved t || !ok then raiseV vTAG_MISMATCH (tagDetail t operand)
  else if t = tPOISON then raiseV vPOISON (tagDetail t operand)
  else pure ()

/-- An aligned word address (R70). -/
def needAligned (va : Nat) (wr : Bool) : Op Unit :=
  if va % 8 = 0 then pure () else raiseA vMISALIGNED 0 va wr false

/-! Stopping a unit (R372, R373). -/

/-- The slot state beside the registers. -/
def State.slotX (s : State) (c sl : Nat) : SlotX := sget SlotX.cold s.slots (c * 8 + sl)

/-- Change the slot state beside the registers. -/
def State.modSlotX (s : State) (c sl : Nat) (f : SlotX → SlotX) : State :=
  { s with slots := sset SlotX.cold s.slots (c * 8 + sl) (f (s.slotX c sl)) }

/-- Requests of a core in a posting unit's queue. -/
def NReq.isOf (es : List Nat) : NReq → Bool
  | .post e _ _ _ _ _ _ _ _ => es.contains e
  | .pread e _ _ _ _ _ _ => es.contains e
  | .touch _ _ => false
  | .remote _ _ _ _ _ _ _ => false

/-- Cancel what the cores wait for (R373: released requests are answered or cancelled). -/
def State.cancelReqs (s : State) (es : List Nat) : State :=
  (List.range 12).foldl (fun s u =>
    let n := s.npu u
    s.setNpu u { n with queue := n.queue.filter fun r => !r.isOf es }) 
    { s with repairWait := s.repairWait.filter fun p => !es.contains p.1,
             lineDead := s.lineDead.filter fun p => match p.2 with | .core e => !es.contains e | _ => true }

/-- End the level 0 context of a core without a result: its data TCM blocks are cleared (R244), its
extension state is discarded (R199). -/
def Core.dropCtx (c : Core) : Core :=
  let end_ (p : Nat × Word) : Nat × Word := if bit p.2 62 then p else (p.1, setBit p.2 63 false)
  { c.leaveMid with
    ctx := none, armed := false, tcmblk := (c.tcmblk.map end_).filter fun p => p.2 != 0,
    xown := if bit c.xown 0 then 0 else c.xown }

/-- Put the masks of an event into CHK_MISMATCH and CHK_MISMATCHY and count it in CHK_CNT (R390). -/
def State.latchEvent (s : State) (c sl kind pos gx gy : Nat) : State :=
  let g := if kind == 1 || kind == 3 || kind == 4 || kind == 7 then gx else 0
  let s := s.wr (.chkMismatch c) (setFld (setFld (setFld (setFld 0 63 60 kind) 59 57 sl) 56 54 pos) 47 0 g)
  let s := s.wr (.chkMismatchy c) (setFld 0 47 0 gy)
  if kind == 3 then s.count (.chkCnt c) 15 0 1
  else if kind == 4 then s.count (.chkCnt c) 31 16 1
  else if kind == 7 then s
  else s.count (.chkCnt c) 63 48 1

/-- A parity error of a control store word of core e is noted with its word and counted in CORE_UCSTAT.PERR (R227 to
R229). -/
def State.noteParity (s : State) (e src addr : Nat) : State :=
  let s := s.modCore e fun c => { c with parity := (src, addr) :: c.parity.filter (· != (src, addr)) }
  let s := s.modMp fun x => { x with perrs := sset 0 x.perrs e (satAdd 8 (sget 0 x.perrs e) 1) }
  match s.slotOf e with
  | some sl => s.modSlotX (e / 8) sl fun x => { x with parity := x.parity ++ [(e, src, addr, s.tick)] }
  | none => s

/-- Core e is in the self-test of a spare (R402): in TEST, in no slot. -/
def State.spareTest (s : State) (e : Nat) : Bool :=
  s.coreState e == csTEST && (List.range 5).all fun sl =>
    s.slotState (e / 8) sl == slEMPTY || !(s.slotCores (e / 8) sl).contains e

/-- The spare that R376 chooses in place of core old (R403: one under self-test counts as a spare). -/
def State.pickSpare (s : State) (old : Nat) : Option Nat :=
  let cs := ((List.range 8).map (old / 8 * 8 + ·)).filter fun e =>
    s.clusterOn (e / 8) && (s.coreState e == csSPARE || s.spareTest e)
  match cs.find? fun e => e % 2 == old % 2 with
  | some e => some e
  | none => cs.head?

/-- Freeze cores: they enter TEST, what they wait for is cancelled and their run aborts as unit lost (R373). Until they are
replaced or come back the device is not fully protected (R18). As triage begins, the spares that R376 would choose in place
of them leave C6 (R250). A RETIRED core stays so (R230). -/
def State.freezeCores (s : State) (es : List Nat) : State :=
  let isns := es.filterMap fun e => (s.core e).ctx.map (·.isn)
  let s := (s.unprotect.cancelReqs es).abortRuns isns.eraseDups false
  let s := (es.filterMap s.pickSpare).foldl State.leaveC6 s
  es.foldl (fun s e => s.modCore e fun c =>
    if c.stateCode = csRETIRED then c else { c.dropCtx.setStateCode csTEST with act := .stopped }) s

/-- A core becomes RETIRED (R230): it is powered off and what it waits for is cancelled. -/
def State.powerOff (s : State) (e : Nat) : State :=
  let s1 := (s.cancelReqs [e]).modCore e fun c => { c.dropCtx.setStateCode csRETIRED with act := .run, c6 := false }
  { s1 with async := sset Async.cold s1.async e Async.cold }

/-- A core that failed triage or self-test is RETIRED (R374, R406), with its ledger entry. -/
def State.retireCore (s : State) (e : Nat) : State :=
  ((s.powerOff e).alarm sgCORE_RETIRED (s.locCore e) 0).degrade (s.locCore e) sgCORE_RETIRED

/-- Stop the unit of core e, or the split core e, for an event with its KIND, signature and the DETAIL of its record (R372,
R373, R386). -/
def State.stopWith (s : State) (e kind sig gx gy detail : Nat) : State :=
  let c := e / 8
  match s.unitOf e with
  | some sl =>
    let s := (s.latchEvent c sl kind 0 gx gy).alarm sig (s.locUnit c sl) detail
    let es := s.slotCores c sl
    ((s.freezeCores es).setSlotState c sl slTRIAGE).modSlotX c sl fun x =>
      { x with evt := kind, copied := false, reqs := sget Async.cold s.async e }
  | none =>
    let sl := (s.slotOf e).getD 0
    let s := (s.latchEvent c sl kind 0 gx gy).alarm sig (s.locCore e) detail
    s.freezeCores [e]

/-- Stop a unit or a split core: the masks of both copies go into the record (R372). -/
def State.stopUnit (s : State) (e kind sig gx gy : Nat) : State := s.stopWith e kind sig gx gy (gx * 2 ^ 64 + gy)

/-- The cycles charged for an instruction or a level entry (R150, R181, R236, R247): its cost in tick-exact mode, a free
number in normal mode. -/
def chargeOf (c : Core) (free cost : Nat) : Nat := if c.tx then cost else Config.normalCycles free

/-- The cycles charged for the instruction of a context with a listed cost (R150, R219): a customer instruction in normal
mode takes its path cost, and the stalls of its memory micro-operations, a free number. -/
def Cx.charged (x : Cx) (free cost : Nat) : Nat :=
  match x.path with
  | some p => if x.c.tx then cost else if x.stall then p + Config.stallCycles free else p
  | none => chargeOf x.c free cost

/-- Charge cycles to the budget counter of a core with a context (R247). -/
def Core.charge (c : Core) (n : Nat) : Core :=
  match c.ctx with
  | none => c
  | some _ =>
    let r := fld c.budget 31 0
    let o := satAdd 32 (fld c.budget 63 32) (n - r)
    { c with budget := setFld (setFld 0 63 32 o) 31 0 (r - n) }

/-! Taking an exception (R180, R185, R187, R541). -/

/-- The vector table entry of vector v (R177, R178): none is invalid. An entry in a line that waits for remote repair, or
that none repairs, is read as the word that memory holds (DESIGN CHOICE, log 124). -/
def State.vecEntry (s : State) (vbr : Word) (v : Nat) : State × Option Word :=
  let pa := fld vbr 51 11 * 2048 + 8 * v
  match s.area pa with
  | .own | .unmirrored =>
    let w := s.memWord pa
    if w.tag = tPOISON || tagReserved w.tag then (s, none)
    else if v = 0 then (s, some w.val)
    else if fld w.val 63 60 = 0 || fld w.val 59 58 = 3 || bit w.val 56 || fld w.val 47 42 != 0 || fld w.val 1 0 != 0
    then (s, none)
    else (s, some w.val)
  | _ => (s.carveout pa, none)

/-- Request for level k is masked for the core's current level by CORE_LMASK or PSW.GM (R174, R185). -/
def masked (lmask psw : Word) (k : Nat) : Bool := bit lmask k || bit psw 26

/-- CORE_LINFO of an entry (R183). -/
def linfoWord (vec lret escr : Nat) (x : Exc) (chain : Bool) (fvec : Nat) : Word :=
  let w := setFld (setFld (setFld 0 63 56 vec) 55 51 lret) 50 48 escr
  let w := setFld (setFld (setFld w 47 47 (b2n x.addr.isSome)) 46 46 (b2n x.wr)) 45 45 (b2n x.split2)
  setFld (setFld (setFld w 44 44 (b2n chain)) 39 32 fvec) 31 0 x.detail

/-- Enter level k (R180): link group, PSW and SP of the target bank, CORE_LEV and PC; a synchronising event. -/
def Core.enter (c : Core) (k : Nat) (ent : Word) (lpc : TWord) (info : Word) (addr : Option Nat)
    (lret vec : Nat) : Core :=
  let b := c.bank k
  let psw := setFld (setFld b.psw 6 0 0) 63 55 0
  let psw := if k = 16 then setFld (setFld (setFld psw 39 38 0) 47 40 0) 26 26 1
    else setFld (setFld (setFld psw 39 38 (fld ent 59 58)) 47 40 (fld ent 55 48)) 26 26 (fld ent 57 57)
  let sp := if k = 16 then setFld 0 41 3 (fld c.gsp 41 3) else b.sp
  { ((c.leaveMid.setBank k { b with psw := psw, sp := sp }).setLink k
      ⟨lpc, info, BitVec.ofNat 64 (addr.getD 0)⟩).sync with
    lev := k, active := setBit c.active k true, pc := setFld 0 41 2 (fld ent 41 2),
    act := .run, entering := some ⟨vec, lret, lpc.val⟩ }

/-- ESCR of an exception that is delivered to G, or 0 when it is delivered as mapped (R185). -/
def escOf (c : Core) (vec : Nat) (ent : Option Word) : Nat :=
  if vec = vMACHINE_CHECK then 5
  else if vec = vSHADOW_MISMATCH then 6
  else if c.entering.isSome && vec != vSVC && vec != vBUDGET_EXCEEDED then 4
  else match ent with
  | none => 3
  | some w =>
    if fld w 63 60 ≤ c.lev then 2
    else if masked c.lmask c.cur.psw (fld w 63 60) then 1 else 0

/-- An entry that begins at a boundary costs 12 cc (R181, R239, R247), which RETL's chaining does not add (R184). -/
def Core.entered (c : Core) (free k : Nat) (ent : Word) (lpc : TWord) (info : Word) (addr : Option Nat) (lret vec : Nat) :
    Core :=
  (c.charge (chargeOf c free 12)).enter k ent lpc info addr lret vec

/-- A fault, trap or machine check of core e, whose state is c, with the reported PC rpc (R180, R185, R187,
R541). The result is written to every core of the unit. The vector read and the mask test use CORE_VBR and CORE_LMASK as they
are before a control-space write that the entry, a synchronising event, lets take effect (R60, R86; DESIGN CHOICE, log 115).
The ignored entries of vectors 0x16 and 0x17 are read as any other (DESIGN CHOICE, log 123). -/
def State.takeExc (s : State) (e : Nat) (c : Core) (x : Exc) (rpc : Word) : State :=
  let es := s.unitCores e
  if c.lev = 16 then (s.setCores es c).stopUnit e 5 sgUNIT_LOST 0 0
  else
    let (s, ent) := s.vecEntry c.vbr x.vec
    let esc := escOf c x.vec ent
    if esc = 0 then
      let w := ent.getD 0
      (s.setCores es (c.entered s.free (fld w 63 60) w ⟨rpc, tCODE⟩ (linfoWord x.vec c.lev 0 x false 0) x.addr c.lev
        x.vec)).trcExc e x.vec (fld w 63 60) rpc
    else
      let (s, g) := s.vecEntry c.vbr 0
      match g with
      | none => (s.setCores es c).stopUnit e 5 sgUNIT_LOST 0 0
      | some w =>
        match c.entering, esc == 4 with
        | some en, true =>
          let c := { c with active := setBit c.active c.lev false }
          (s.setCores es (c.entered s.free 16 w ⟨en.rpc, tCODE⟩ (linfoWord en.vec en.lret 4 x false x.vec) x.addr
            en.lret en.vec)).trcExc e en.vec 16 en.rpc
        | _, _ =>
          (s.setCores es (c.entered s.free 16 w ⟨rpc, tCODE⟩ (linfoWord x.vec c.lev esc x false 0) x.addr c.lev
            x.vec)).trcExc e x.vec 16 rpc

/-- Core e executes, so that a machine check can reach it: it is not in SPARE, RETIRED, C6 or cluster reset, and not
stopped for triage (R230, R373, R505). -/
def State.checkable (s : State) (e : Nat) : Bool :=
  s.clusterOn (e / 8) && !s.cluInReset.contains (e / 8) && s.coreState e != csSPARE && s.coreState e != csRETIRED
    && !(s.core e).c6 && (s.core e).act != .stopped

/-- Parity errors of core e since the last triage of its slot of which one is the second of its word within 1,024 tk (R228). -/
def State.secondError (s : State) (e src addr : Nat) : Bool :=
  match s.slotOf e with
  | some sl =>
    let ps := (s.slotX (e / 8) sl).parity ++ s.mp.perr
    decide (2 ≤ (ps.filter fun p => p.1 == e && p.2.1 == src && p.2.2.1 == addr && decide (s.tick < p.2.2.2 + 1024)).length)
  | none => false

/-- A machine check with an FMU source code (R189, R227, R395): a control store parity error in a unit is a
divergence; any other, and any in a split core, is delivered at G. The second error of a word within 1,024 tk retires a split
core, which no triage follows (R228). -/
def State.machineCheck (s : State) (e : Nat) (c : Core) (src restart : Nat) (rpc : Word) : State :=
  let detail := detExc (src * 65536 + restart) vMACHINE_CHECK
  if 0x0101 ≤ src ∧ src ≤ 0x0104 ∧ (s.unitOf e).isSome then s.stopWith e 6 sgMACHINE_CHECK 0 0 detail
  else
    let s := s.alarm sgMACHINE_CHECK (s.locOfExec e) detail
    if decide (0x0101 ≤ src) && decide (src ≤ 0x0104) && c.parity.any (fun p => p.1 == src && s.secondError e src p.2) then
      (s.abortRuns ((s.core e).ctx.map (·.isn)).toList false).retireCore e
    else s.takeExc e c ⟨vMACHINE_CHECK, src * 65536 + restart, none, false, false, false⟩ rpc

/-! The extension state (R199, R200). -/

/-- The order of the extension slot (R345): CORE_FPSR, then CORE_XSCR0 to CORE_XSCR3. -/
def Core.extWords (c : Core) : List Word := c.fpsr :: (List.range 4).map fun i => sget 0 c.xscr i

/-- Load the extension registers from five words. -/
def Core.setExt (c : Core) (ws : List Word) : Core :=
  let xs := (List.range 4).foldl (fun m i => sset 0 m i (ws.getD (i + 1) 0)) []
  { c with fpsr := ws.getD 0 0, xscr := xs }

/-- The words of the extension slot of the save area at a are reachable; a carve-out is recorded (R46, R199, R345). -/
def State.extSlot (s : State) (a : Nat) : State × Bool :=
  (s.carveout (a + 0x60), s.physOk (a + 0x60) && s.physOk (a + 0x87))

/-- Write the held extension state of the suspended owner at a into its slot (R199). -/
def State.extSave (s : State) (a : Nat) (c : Core) : State :=
  let ws := c.extWords
  let s := (List.range 5).foldl (fun s i => s.storeWord (a + 0x60 + 8 * i) ⟨ws.getD i 0, tRAW⟩) s
  { s with runs := s.runs.map fun r => if r.save == a then { r with xsaved := true, st := .suspended none } else r }

/-- The core with the extension state of its context loaded: from the slot when it was saved there, else 0; false is a
bus error or POISON (R199). -/
def State.extLoad (s : State) (c : Core) : State × Core × Bool :=
  match c.ctx with
  | some k =>
    if !k.xsaved then (s, c.setExt [], true)
    else
      let (s, ok) := s.extSlot k.save
      let ws := (List.range 5).map fun i => s.memWord (k.save + 0x60 + 8 * i)
      if !ok || ws.any (·.tag == tPOISON) then (s, c, false) else (s, c.setExt (ws.map (·.val)), true)
  | none => (s, c.setExt [], true)

/-- Make the extension registers those of the current context (R199): the device, the core, the cost, and whether every
access succeeded. For a handler on a core without a level 0 context the registers are loaded with 0, and CORE_XOWN.ADDR is 0
(DESIGN CHOICE, log 119). -/
def State.extOwn (s : State) (c : Core) : State × Core × Nat × Bool :=
  if bit c.xown 0 then (s, c, 0, true)
  else
    let a := fld c.xown 51 6 * 64
    let saves := bit c.xown 1
      && s.runs.any fun r => r.save == a && (match r.st with | .suspended _ => true | _ => false)
    let (s, ok) := if saves then s.extSlot a else (s, true)
    if !ok then (s, c, 0, false)
    else
      let s := if saves then s.extSave a c else s
      let (s, c, ok) := s.extLoad c
      let own := match c.ctx with | some k => k.save | none => 0
      (s, if ok then { c with xown := setBit (setFld 0 51 6 (own / 64)) 0 true } else c, if saves then 48 else 24, ok)

/-! Returning from a level (R153, R174, R184). -/

/-- The pending request that is unmasked for level lv with PSW psw: the highest target level, then the
lowest vector; with its vector entry (R174, R176). A request whose vector entry is invalid is not taken. -/
def State.pick (s : State) (e : Nat) (lmask : Word) (lv : Nat) (psw : Word) (vbr : Word) : Option (Nat × Word) :=
  let a := sget Async.cold s.async e
  (List.range 6).foldl (fun best i =>
    if !bit a.pend i then best
    else match (s.vecEntry vbr (0x20 + i)).2 with
      | none => best
      | some w =>
        let k := fld w 63 60
        if k ≤ lv || masked lmask psw k then best
        else match best with
          | some (_, w') => if k > fld w' 63 60 then some (i, w) else best
          | none => some (i, w)) none

/-- The exception information of an asynchronous request (R189, R191). -/
def State.asyncExc (s : State) (e i : Nat) : Exc :=
  ⟨0x20 + i, sget 0 (sget Async.cold s.async e).detail i, none, false, false, false⟩

/-- Take request i with entry w at a boundary: entry to its level (R176, R180), the request cleared (R191). -/
def State.takeAsync (s : State) (e : Nat) (c : Core) (i : Nat) (w : Word) (rpc : Word) (lret : Nat) (lpc : Option TWord) :
    State :=
  let x := s.asyncExc e i
  let c' := c.entered s.free (fld w 63 60) w (lpc.getD ⟨rpc, tCODE⟩) (linfoWord x.vec lret 0 x lpc.isSome 0) none lret x.vec
  ((s.takeFree.setCores (s.unitCores e) c').clearReq i e).trcExc e x.vec (fld w 63 60) (lpc.getD ⟨rpc, tCODE⟩).val

/-- Clear the pending requests whose vector entry is invalid, with an EVENT for each, and an ALARM where the entry lies in a
carve-out (R46, R185); the EVENT reports the DETAIL and the vector of the request (R394). -/
def State.dropInvalid (s : State) (e : Nat) : State :=
  (List.range 6).foldl (fun s i =>
    if bit (sget Async.cold s.async e).pend i then
      match s.vecEntry (s.core e).vbr (0x20 + i) with
      | (s, none) => (s.clearReq i e).event sgVECTOR_INVALID (s.locOfExec e)
          (detExc (sget 0 (sget Async.cold s.async e).detail i) (0x20 + i))
      | (s, some _) => s
    else s) s

end Sys2Proof.Machine
end

