-- ==== Sys2Proof/Machine/Csr.lean ====
section
/-!
DEFINITION. The core CSRs (R58, R59, R182, and the maps of chapters 3 to 10): which numbers are
assigned, their privileges, their values, and the field rules of a write.
-/
namespace Sys2Proof.Machine

/-- A CSR, by number (R58, R182, R199, R229, R243). -/
inductive Csr where
  | coreId | pc | lev | vbr | gsp | lmask | apend | psw | rsctl | scatw | shstk | tbase | keyctl | mode
  | tcmwin | budget | txstall | fpsr | decctl | xown
  | xscr (i : Nat)
  | ucstat
  | rsent (i : Nat)
  | lpc (b : Nat) | lpct (b : Nat) | linfo (b : Nat) | laddr (b : Nat)
  | tcmblk (i : Nat)
  | bank (b r : Nat) | bankTag (b r : Nat)
  deriving DecidableEq, Repr

/-- The CSR with a number; none where the number is unassigned (R59). -/
def Csr.of (n : Nat) : Option Csr :=
  if n < 0x100 then
    match n with
    | 0x00 => some .coreId | 0x10 => some .pc | 0x11 => some .lev | 0x12 => some .vbr | 0x13 => some .gsp
    | 0x14 => some .lmask | 0x15 => some .apend | 0x18 => some .psw | 0x20 => some .rsctl
    | 0x22 => some .scatw | 0x24 => some .shstk | 0x30 => some .tbase | 0x31 => some .keyctl
    | 0x38 => some .mode | 0x39 => some .tcmwin | 0x3A => some .budget | 0x3B => some .txstall
    | 0x40 => some .fpsr | 0x41 => some .decctl | 0x43 => some .xown
    | 0x44 => some (.xscr 0) | 0x45 => some (.xscr 1) | 0x46 => some (.xscr 2) | 0x47 => some (.xscr 3)
    | 0x51 => some .ucstat | _ => none
  else if n < 0x120 then some (.rsent (n - 0x100))
  else if 0x204 ≤ n ∧ n < 0x244 then
    let b := (n - 0x200) / 4
    match n % 4 with
    | 0 => some (.lpc b) | 1 => some (.lpct b) | 2 => some (.linfo b) | _ => some (.laddr b)
  else if 0x300 ≤ n ∧ n < 0x340 then some (.tcmblk (n - 0x300))
  else if 0x1000 ≤ n ∧ n < 0x1212 then
    let b := (n - 0x1000) / 0x20
    let o := n % 0x20
    if o / 2 ≤ 8 then (if o % 2 = 0 then some (.bank b (o / 2)) else some (.bankTag b (o / 2))) else none
  else none

/-- The privilege a read needs (R58 and the maps): the largest PRIV value that may read. -/
def Csr.readPriv : Csr → Nat
  | .coreId | .pc | .lev | .psw | .rsctl | .scatw | .budget | .txstall | .fpsr | .decctl | .xscr _ | .ucstat => 2
  | .bank _ _ | .bankTag _ _ => 0
  | _ => 1

/-- The privilege a write needs; for a read-only CSR that is the read privilege (R59). -/
def Csr.writePriv : Csr → Nat
  | .coreId | .pc | .lev | .psw | .fpsr | .decctl | .xscr _ | .txstall => 2
  | .xown | .rsctl | .scatw | .rsent _ | .lpc _ | .lpct _ => 1
  | _ => 0

/-- Read only: a write changes nothing (R59, R229 at P0). -/
def Csr.readOnly : Csr → Bool
  | .coreId | .pc | .lev | .xown | .txstall | .ucstat => true
  | _ => false

/-- Register r of a bank with its tag: its own, or the one STM writes (R57). -/
def Bank.reg (b : Bank) (r : Nat) : TWord :=
  match r with
  | 0 => b.acc | 1 => b.aex | 2 => b.x1 | 3 => b.x2
  | 4 => ⟨b.cnt, tINT⟩ | 5 => ⟨b.sp, tPTR⟩ | 6 => ⟨b.mb, tPTR⟩ | 7 => ⟨b.ml, tINT⟩ | _ => ⟨b.psw, tRAW⟩

/-- Write register r of a bank; an untagged register takes the value only (R160). -/
def Bank.setReg (b : Bank) (r : Nat) (v : TWord) : Bank :=
  match r with
  | 0 => { b with acc := v } | 1 => { b with aex := v } | 2 => { b with x1 := v } | 3 => { b with x2 := v }
  | 4 => { b with cnt := v.val } | 5 => { b with sp := v.val } | 6 => { b with mb := v.val }
  | 7 => { b with ml := v.val } | _ => { b with psw := v.val }

/-- A protected field (MPO; DBG outside debug) that a write would change (R9). -/
def deniedFields (fs : List Fld) (mp dbg : Bool) (old v : Word) : Bool :=
  fs.any fun f => ((f.acc == .mpo && !mp) || (f.acc == .dbg && !dbg)) && fld v f.hi f.lo != fld old f.hi f.lo

/-- The PSW fields, TX left out: a write to TX is discarded (R62). -/
def pswStore (old v : Word) : Word := mergeFields CoreReg.psw.fields true old v

/-- The value of a CSR (R58, R59); id is the locator word that CORE_ID gives, pend the pending bits. -/
def Core.csrVal (c : Core) (id : Nat) (pend : Word) (k : Csr) : TWord :=
  let raw (w : Word) : TWord := ⟨w, tRAW⟩
  match k with
  | .coreId => raw (BitVec.ofNat 64 id)
  | .pc => raw c.pc
  | .lev => raw (BitVec.ofNat 64 c.lev)
  | .vbr => raw c.vbr
  | .gsp => raw c.gsp
  | .lmask => raw c.lmask
  | .apend => raw pend
  | .psw => raw c.cur.psw
  | .rsctl => raw c.rsctl
  | .scatw => raw c.scatw
  | .shstk => raw c.shstk
  | .tbase => raw c.tbase
  | .keyctl => raw c.keyctl
  | .mode => raw c.mode
  | .tcmwin => raw c.tcmwin
  | .budget => raw c.budget
  | .txstall => raw c.txstall
  | .fpsr => raw c.fpsr
  | .decctl => raw c.decctl
  | .xown => raw c.xown
  | .xscr i => raw (sget 0 c.xscr i)
  | .ucstat => raw c.ucstat
  | .rsent i => sget raw0 c.rstk i
  | .lpc b => raw (c.link b).lpc.val
  | .lpct b => raw ((c.link b).lpc.tag.setWidth 64)
  | .linfo b => raw (c.link b).linfo
  | .laddr b => raw (c.link b).laddr
  | .tcmblk i => raw (sget 0 c.tcmblk i)
  | .bank b r => raw ((c.bank b).reg r).val
  | .bankTag b r => raw (if r < 4 then ((c.bank b).reg r).tag.setWidth 64 else 0)

/-- An extension register (R199). -/
def Csr.isExt : Csr → Bool
  | .fpsr => true | .xscr _ => true | _ => false

/-- The code under which a needs-SYNC register waits in Core.delayed (R84): its CSR number, or 0x10000 plus
the bank for the CT and SUB fields of a PSW. -/
def Csr.syncCode (lev : Nat) : Csr → Option Nat
  | .vbr => some 0x12 | .lmask => some 0x14 | .tbase => some 0x30 | .keyctl => some 0x31 | .mode => some 0x38
  | .scatw => some 0x22 | .rsctl => some 0x20 | .psw => some (0x10000 + lev)
  | .bank b r => if r = 8 then some (0x10000 + b) else none
  | _ => none

/-- Store a value into a CSR under its field rules (R7, R10 and the limits of R78, R79, R129, R197, R230,
R248). mp: the management processor writes. Tags go with CORE_RSENT and CORE_LPC (R156, R182). -/
def Core.csrStore (c : Core) (mp : Bool) (k : Csr) (v : TWord) : Core :=
  let w := v.val
  let put (r : CoreReg) (old : Word) : Word := mergeFields r.fields mp old w
  match k with
  | .coreId | .pc | .lev | .txstall | .xown | .apend => c
  | .vbr => { c with vbr := put .vbr c.vbr }
  | .gsp => { c with gsp := put .gsp c.gsp }
  | .lmask => { c with lmask := put .lmask c.lmask }
  | .psw => c.setCur { c.cur with psw := pswStore c.cur.psw w }
  | .rsctl =>
    let n := put .rsctl c.rsctl
    { c with rsctl := setFld n 5 0 (min (fld n 5 0) 32) }
  | .scatw => { c with scatw := scatwStore w }
  | .shstk =>
    let n := put .shstk c.shstk
    { c with shstk := setFld n 40 32 (min (fld n 40 32) 256) }
  | .tbase => { c with tbase := put .tbase c.tbase }
  | .keyctl => { c with keyctl := put .keyctl c.keyctl }
  | .mode => { c with mode := modeStore mp c.mode w }
  | .tcmwin => { c with tcmwin := put .tcmwin c.tcmwin }
  | .budget => { c with budget := w, armed := decide (fld w 31 0 > 0) }
  | .fpsr =>
    let n := put .fpsr c.fpsr
    { c with fpsr := if fld n 19 16 ≥ 8 then setFld n 19 16 0 else n }
  | .decctl => { c with decctl := put .decctl c.decctl }
  | .xscr i => { c with xscr := sset 0 c.xscr i w }
  | .ucstat => { c with ucstat := put .ucstat c.ucstat }
  | .rsent i => { c with rstk := sset raw0 c.rstk i v }
  | .lpc b => c.setLink b { c.link b with lpc := v }
  | .lpct b => c.setLink b { c.link b with lpc := ⟨(c.link b).lpc.val, w.setWidth 4⟩ }
  | .linfo b => c.setLink b { c.link b with linfo := put .linfo (c.link b).linfo }
  | .laddr b => c.setLink b { c.link b with laddr := w }
  | .tcmblk i => { c with tcmblk := sset 0 c.tcmblk i (put .tcmblk (sget 0 c.tcmblk i)) }
  | .bank b r =>
    let bk := c.bank b
    if r = 8 then c.setBank b { bk with psw := pswStore bk.psw w }
    else c.setBank b (bk.setReg r ⟨w, (bk.reg r).tag⟩)
  | .bankTag b r =>
    let bk := c.bank b
    if r < 4 then c.setBank b (bk.setReg r ⟨(bk.reg r).val, w.setWidth 4⟩) else c

/-- The value that a needs-SYNC register holds under a code. -/
def Core.syncVal (c : Core) (code : Nat) : Word :=
  match code with
  | 0x12 => c.vbr | 0x14 => c.lmask | 0x30 => c.tbase | 0x31 => c.keyctl | 0x38 => c.mode | 0x22 => c.scatw
  | 0x20 => c.rsctl | n => (c.bank (n - 0x10000)).psw

/-- Open the window of R85 for a register that an instruction wrote: the old value may be used by the next
64 retired instructions (one more counts the writer itself). In tick-exact mode there is no window. -/
def Core.openWindow (c : Core) (code : Nat) (old : Word) : Core :=
  if c.tx then c else { c with delayed := c.delayed ++ [⟨code, old, 65⟩] }

/-- The part of a control-space write to a needs-SYNC register that does not wait: every field of CORE_RSCTL but WRAP,
every field of a PSW but CT and SUB (R60, R84). -/
def Core.csrStoreNow (c : Core) (mp : Bool) (k : Csr) (code : Nat) (v : Word) : Core :=
  if code = 0x20 then c.csrStore mp k ⟨setBit v 15 (bit c.rsctl 15), tRAW⟩
  else if code ≥ 0x10000 then c.csrStore mp k ⟨setFld v 36 35 (fld (c.syncVal code) 36 35), tRAW⟩
  else c

/-- One retired instruction passes in every window of R85. -/
def Core.ageWindow (c : Core) : Core :=
  { c with delayed := (c.delayed.map fun d => { d with left := d.left - 1 }).filter fun d => d.left > 0 }

end Sys2Proof.Machine
end

