-- ==== Sys2Proof/Machine/FabOps.lean ====
section
/-!
DEFINITION. The fabric endpoint: sending messages (R422, R427, R433), routes (R427, R428), remote operations at
the target (R271, R296, R324, R326, R438 to R440), precedence and pinning (R322, R441).
-/
namespace Sys2Proof.Machine

/-! Elements of the spine die (R41). -/

def elMC (ch : Nat) : Nat := ch + 1
def elTSQ : Nat := 0x0D
def elPWR : Nat := 0x0E
def elFP (p : Nat) : Nat := 0x10 + p
def elINT : Nat := 0x18
def elVLT : Nat := 0x19
def elHUP : Nat := 0x1A
def elMP : Nat := 0x1B
def elFMU : Nat := 0x1C
def elHIF : Nat := 0x1D
def elDBG : Nat := 0x1E

/-! Partner and routes. -/

/-- Port p carries traffic: FAB_PSTATUS.STATE is UP (R419). -/
def State.portUp (s : State) (p : Nat) : Bool := s.rf (.fabPstatus p) 2 0 == 3

/-- Route entry that the forwarding engine uses for destination d: the cached one until the second epoch
increment after its loading, else the present one, which it caches (R428). -/
def State.routeOf (s : State) (d : Nat) : State × Word :=
  let ep := s.rf .fabRtctl 47 32
  match s.fab.routeCache.find? fun c => c.1 == d && (ep + 65536 - c.2.2) % 65536 < 2 with
  | some c => (s, c.2.1)
  | none =>
    let w := s.rd (.fabRoute d)
    ({ s with fab := { s.fab with
        routeCache := (d, w, ep) :: s.fab.routeCache.filter fun c => c.1 != d } }, w)

/-- Some path of a route leads over a port that is UP (R427). -/
def State.entryUp (s : State) (w : Word) : Bool :=
  (bit w 63 && s.portUp (fld w 2 0)) || (bit w 62 && s.portUp (fld w 6 4))

/-- The endpoint reaches device d (R427). -/
def State.reaches (s : State) (d : Nat) : State × Bool :=
  let (s, w) := s.routeOf d
  (s, s.entryUp w)

/-- The next MSEQ of a TYPE (R422). -/
def State.takeSeq (s : State) (typ : Nat) : State × Nat :=
  let n := sget 0 s.fab.mseq typ
  ({ s with fab := { s.fab with mseq := sset 0 s.fab.mseq typ ((n + 1) % 2 ^ 32) } }, n)

/-- Whether a copy of a message was already received; the first copy is noted (R422, R427). -/
def State.firstCopy (s : State) (src typ mseq : Nat) : State × Bool :=
  if s.fab.seen.contains (src, typ, mseq) then (s, false)
  else ({ s with fab := { s.fab with seen := (src, typ, mseq) :: s.fab.seen } }, true)

/-- The endpoint sends to its mirror partner unless it has asked for a takeover of it (R434). -/
def State.quiet (s : State) : Bool := s.fab.asked

/-- MIRROR_ACK to the partner for a message of a TYPE (R422); none after a takeover request (R434). -/
def State.mirrorAck (s : State) (dst typ acked : Nat) : State :=
  if s.quiet && dst == s.partnerId then s
  else
    let (s, q) := s.takeSeq 0x13
    s.send dst false false (.mirrorAck q s.tick typ acked)

/-! Remote operations at the target. -/

/-- STATUS codes of RREPLY (R439). -/
def rsDONE : Nat := 0
def rsFLOOR : Nat := 1
def rsOVERFLOW : Nat := 2
def rsNOT_STAGED : Nat := 3
def rsNOT_SEALED : Nat := 4
def rsNOT_SYNCED : Nat := 5
def rsDEGRADED : Nat := 6
def rsFAULT : Nat := 7
def rsLOST : Nat := 8

/-- The fields of a remote ledger address (R55). -/
def raDev (ra : Nat) : Nat := ra / 2 ^ 52 % 4096
def raPart (ra : Nat) : Nat := ra / 2 ^ 42 % 1024
def raOff (ra : Nat) : Nat := ra % 2 ^ 42

/-- A grant that permits the operation (R271). -/
def State.grant (s : State) (src : Nat) (rq : RReq) (isRead : Bool) : Option Word :=
  ((List.range 4096).map fun g => s.rd (.keyGrant g)).find? fun w =>
    bit w 63 && fld w 9 0 == raPart rq.ra && fld w 33 24 == rq.spart && (bit w 60 || fld w 47 36 == src)
      && bit w (if isRead then 62 else 61)

/-- The checks of R271: the physical address of the word, or a vector with its DETAIL. -/
def State.remoteCheck (s : State) (src : Nat) (rq : RReq) (isRead : Bool) : State × Sum (Nat × Nat) Nat :=
  match s.grant src rq isRead with
  | none => (s, .inl (vTRANSLATION, 0))
  | some g =>
    let p := raPart rq.ra
    let ctl := s.rd (.keyPtctl p)
    let w : Who := ⟨p, (s.rd (.keyPtroot p)).toNat / 8192 % 2 ^ 39 * 8192, true, 2, fld g 23 16, fld ctl 55 48, bit ctl 47⟩
    if raOff rq.ra % 8 ≠ 0 then (s, .inl (vMISALIGNED, 0))
    else
      let (s, tlb, o) := s.xlate s.fabTlb w (if isRead then .pread else .post) (raOff rq.ra) false
      let s := { s with fabTlb := tlb }
      match o with
      | .fail v d _ => (s, .inl (v, d))
      | .ok pa _ => (s, .inr pa)

/-- The status of a remote POST on a word with committed value c, and the value returned, whatever the status (R296). -/
def remoteStatus (log : List LogE) (pa : Nat) (c a : Int) (floor : Option Int) : Nat × Int :=
  let lo := c + debits log pa + min a 0
  let hi := c + credits log pa + max a 0
  (if over15 lo || over15 hi then rsOVERFLOW
   else if (match floor with | some f => decide (lo < f) | none => false) then rsFLOOR
   else rsDONE, lo + max a 0)

/-- A value returned to an issuer (R167, R296): one of more than 15 digits is free (log 89). -/
def remoteVal (v : Int) : Word := if over15 v then Config.overPdec v else pdecOf v

/-- What the posting unit does with a remote POST: none where it waits (R287, R289, R300). -/
def State.npuRemote (s : State) (src okey pa : Nat) (amount : Word) (floor : Option Word) : State × Option RReply :=
  let rep (st vec det : Nat) (v : Word) : RReply := ⟨0, st, vec, det, v, s.tick⟩
  match s.serving (chanOf pa) with
  | none => (s, some (rep rsLOST 0 0 0))
  | some u =>
    let n := s.npu u
    if n.test then (s, none)
    else match n.find pa with
    | none => if n.full false true then (s.npuFull u, none) else (s.startFill u pa, none)
    | some x =>
      if x.c.tag = tPOISON then (s.dropPoison u x, some (rep rsFAULT vPOISON (15 + 8 * 16) 0))
      else if x.c.tag ≠ tPDEC then (s, some (rep rsFAULT vTAG_MISMATCH (x.c.tag.toNat + 8 * 16) 0))
      else match pdecVal x.c.val with
      | none => (s, some (rep rsFAULT vDECIMAL_DATA 0 0))
      | some c =>
        match remoteStatus n.log pa c (wordVal amount) (floor.map wordVal) with
        | (st, v) =>
          if st = rsDONE then
            if n.full x.held true then (s.npuFull u, none)
            else
              ((s.setNpu u (n.append x .remote okey src amount 0 x.r.val floor.isSome floor)).count (.npuCnt u) 63 32 1,
                some (rep rsDONE 0 0 (remoteVal v)))
          else (s.count (.npuCnt u) 31 16 1, some (rep st 0 0 (remoteVal v)))

/-- Put a reply to a remote operation out; a reply to the device itself stays inside (R56): it is returned. -/
def State.reply (s : State) (src : Nat) (r : RReply) : State × Option RReply :=
  if src = s.devId then (s, some r) else (s.send src false false (.rreply r), none)

/-- A remote POST with its word found: decided, queued, or held until the partner acknowledges its REMOTE
entry (R287, R296, R440); wait: it arrives now and stands behind the requests that wait. An answer for the device itself
is returned. -/
def State.remoteAt (s : State) (src : Nat) (rq : RReq) (pa : Nat) (wait : Bool) : State × Option RReply :=
  match (if wait && s.npuBehind pa false then (s, none) else s.npuRemote src rq.okey pa rq.amount rq.floor) with
  | (s, none) => (s.npuEnqueue (chanOf pa) (.remote src rq.rid rq.okey rq.tick pa rq.amount rq.floor), none)
  | (s, some r) =>
    let r := { r with rid := rq.rid }
    if r.status = rsDONE && s.hasPartner then
      let e := (((s.npu ((s.serving (chanOf pa)).getD 0)).log.reverse.find? fun x => x.word == pa && x.kind == .remote))
      match e with
      | some e =>
        let s := s.send s.partnerId false false (.remoteEntry src rq.rid e)
        ({ s with fab := { s.fab with tgtWaits := s.fab.tgtWaits ++ [⟨src, rq.rid, rq.okey, r.value, r.tick⟩] } }, none)
      | none => s.reply src r
    else s.reply src r

/-- Why a target refuses a remote operation before its checks (R305, R321, R326, R413). -/
def State.remoteGate (s : State) (isRead : Bool) : Option Nat :=
  if s.rf .fmuStatus 61 60 ≠ 0 then some rsDEGRADED
  else if !bit (s.rd .tsqStatus) 4 then some rsNOT_SYNCED
  else if !s.sched.unsealed.isEmpty then some rsNOT_SEALED
  else if !isRead && (s.rf .tsqStatus 2 0 ≠ 0 || s.sched.warm) then some rsNOT_STAGED
  else none

/-- An RPOST at its target (R271, R296, R321, R326, R438 to R440): one of an earlier tick comes after the remote close of
that tick; one of a later tick waits for the pulse. -/
def State.targetPost (s : State) (src : Nat) (rq : RReq) : State × Option RReply :=
  match (if rq.tick > s.tick then s.remoteGate true else s.remoteGate false) with
  | some st => s.reply src ⟨rq.rid, st, 0, 0, 0, s.tick⟩
  | none =>
    if rq.tick < s.tick then s.reply src ⟨rq.rid, rsNOT_STAGED, 0, 0, 0, s.tick⟩
    else if rq.tick > s.tick then ({ s with fab := { s.fab with postWaits := s.fab.postWaits ++ [(src, rq)] } }, none)
    else match s.remoteCheck src rq false with
    | (s, .inl (v, d)) => s.reply src ⟨rq.rid, rsFAULT, v, d, 0, s.tick⟩
    | (s, .inr pa) => s.remoteAt src rq pa true

/-- An RREAD with its word found (R89, R279, R284, R324): the committed value, from the posting unit's entry or from
memory; a line in remote repair keeps it waiting. -/
def State.readAt (s : State) (src : Nat) (rq : RReq) (pa : Nat) : State × Option RReply :=
  let rep (st vec det : Nat) (v : Word) : RReply := ⟨rq.rid, st, vec, det, v, s.tick⟩
  match (if s.cachedWord pa then (s, LineRes.good) else s.lineRead pa (.remote src rq.rid)) with
  | (s, .wait) => ({ s with fab := { s.fab with lineWaits := s.fab.lineWaits ++ [(pa / 64, src, rq)] } }, none)
  | (s, .poison) => s.reply src (rep rsFAULT vPOISON (15 + 8 * 16) 0)
  | (s, .good) =>
    let w := s.committed pa
    if w.tag = tPOISON then s.reply src (rep rsFAULT vPOISON (15 + 8 * 16) 0)
    else if w.tag ≠ tPDEC then s.reply src (rep rsFAULT vTAG_MISMATCH (w.tag.toNat + 8 * 16) 0)
    else if (pdecVal w.val).isNone then s.reply src (rep rsFAULT vDECIMAL_DATA 0 0)
    else s.reply src (rep rsDONE 0 0 w.val)

/-- An RREAD at its target (R324, R326): the committed value at the start of the present tick. A request of a
later tick waits for the pulse. -/
def State.targetRead (s : State) (src : Nat) (rq : RReq) : State × Option RReply :=
  match s.remoteGate true with
  | some st => s.reply src ⟨rq.rid, st, 0, 0, 0, s.tick⟩
  | none =>
    if rq.tick > s.tick then ({ s with fab := { s.fab with rdWaits := s.fab.rdWaits ++ [(src, rq)] } }, none)
    else
      match s.remoteCheck src rq true with
      | (s, .inl (v, d)) => s.reply src ⟨rq.rid, rsFAULT, v, d, 0, s.tick⟩
      | (s, .inr pa) => s.readAt src rq pa

/-! Precedence and pinning. -/

/-- A posting log entry of run r in this device's posting units: a local one, or a REMOTE one of a POSTR that names the
device itself (R56, R290, R296). -/
def State.entryOf (s : State) (r : Run) (x : LogE) : Bool :=
  !x.rolled && (if x.kind == .remote then x.owner == s.devId && x.okey == r.okey else x.owner == r.isn)

/-- Run p precedes run q (R322): an earlier posting log entry on a word of q, or an earlier order key of the
same ORDERED queue. -/
def State.precedes (s : State) (p q : Run) : Bool :=
  p.isn != q.isn && ((p.sameQueue q && s.ordered q.queue && p.okey < q.okey) ||
    (List.range 12).any fun u => (s.npu u).log.any fun x => s.entryOf q x &&
      (s.npu u).log.any fun y => s.entryOf p y && y.word == x.word && y.lseq < x.lseq)

/-- The runs of the tick that precede those in A, transitively, in as many rounds as there are runs. -/
def State.before (s : State) : Nat → List Nat → List Nat
  | 0, A => A
  | n + 1, A =>
    let more := (s.runs.filter fun p => p.st.inTick && !A.contains p.isn &&
      s.runs.any fun q => A.contains q.isn && s.precedes p q).map (·.isn)
    s.before n (A ++ more)

/-- The run and every run that precedes it. -/
def State.beforeOf (s : State) (isn : Nat) : List Nat := s.before s.runs.length [isn]

/-- Run isn holds a REMOTE entry at some target in the tick (R322). -/
def State.holdsRemote (s : State) (isn : Nat) : Bool :=
  s.fab.held.any fun h => h.isn == isn && h.tick == s.tick

/-- Run isn has executed YIELD.END. -/
def State.executedRun (s : State) (isn : Nat) : Bool := (s.run isn).any fun r => r.st == .executed

/-- Run isn counts as executed for R322: with a REMOTE entry, its PIN record is acknowledged (R441). -/
def State.pinReady (s : State) (isn : Nat) : Bool :=
  s.executedRun isn && (!s.holdsRemote isn || !s.hasPartner || s.fab.ownPins.any fun p => p.isn == isn && p.tick == s.tick && p.acked)

/-- The RESULT record of a run (R341, R342), with its surviving local POST entries. -/
def State.resultRec (s : State) (r : Run) : JBody :=
  let es := (List.range 12).flatMap fun u =>
    (s.npu u).log.filter fun x => x.kind == .post && !x.rolled && x.owner == r.isn
  .result (r.isn % 2 ^ 64) r.queue r.status r.okey r.result es

/-- Send the PIN records that are due (R441): for each executed run with a REMOTE entry whose predecessors
have all executed. -/
def State.sendPins (s : State) : State :=
  if !s.hasPartner then s
  else (s.runs.filter fun r => s.holdsRemote r.isn && s.executedRun r.isn
      && !s.fab.ownPins.any (fun p => p.isn == r.isn && p.tick == s.tick)).foldl (fun s r =>
    let set := s.beforeOf r.isn
    if set.all s.executedRun then
      let done := (s.fab.ownPins.filter fun p => p.tick == s.tick).flatMap (·.covers)
      let fresh := set.filter fun i => !done.contains i
      let recs := (fresh.filterMap s.run).map fun q => (⟨0, 0, 0, s.resultRec q⟩ : JRec)
      let (s, q) := s.takeSeq 0x12
      let s := s.send s.partnerId false true (.pin q s.tick r.okey recs)
      { s with fab := { s.fab with ownPins := s.fab.ownPins ++ [⟨r.isn, q, false, fresh, s.tick⟩] } }
    else s) s

/-- A rollback notice to a target for a key (R298, R323), as PAIRCAST on both paths (R440). One to the device itself (R56)
takes effect at once, and the partner, which holds the entry, is told. -/
def State.notice (s : State) (dst okey : Nat) : State :=
  let (s, q) := s.takeSeq 9
  if dst = s.devId then
    let s := if s.sched.flipped then s else s.rollRemotes dst fun j => j != okey
    if s.hasPartner then s.send s.partnerId false true (.rollback q false s.tick okey) else s
  else
    (s.send dst true true (.rollback q false s.tick okey)).modFab fun f => { f with notices := f.notices ++ [(q, dst)] }

end Sys2Proof.Machine
end

