-- ==== Sys2Proof/Machine/JournalOps.lean ====
section
/-!
DEFINITION. Journal records in bytes (R290, R340 to R342), writing to the vault and its space (R341, R351), and
the idempotency table (R334 to R337).
-/
namespace Sys2Proof.Machine

/-! Records in bytes. -/

/-- KIND code of a log entry (R290). -/
def LKind.code : LKind → Nat
  | .post => 0 | .refused => 1 | .read => 2 | .remote => 3

/-- The 40 bytes of a posting log entry (R290). -/
def LogE.bytes (e : LogE) : List Byte :=
  toBytes 10 e.okey ++ toBytes 2 e.lseq ++ toBytes 2 e.prev
    ++ toBytes 2 (e.kind.code * 2 ^ 14 + b2n e.rolled * 2 ^ 13 + b2n e.floored * 2 ^ 12)
    ++ toBytes 8 e.word ++ toBytes 8 e.amount.toNat ++ toBytes 8 e.after.toNat

/-- Zero padding of a byte list to n bytes. -/
def padTo (n : Nat) (bs : List Byte) : List Byte := bs ++ List.replicate (n - bs.length) 0

/-- Log entries packed and padded to a multiple of 64 bytes (R341, R342). -/
def entryBytes (es : List LogE) : List Byte := padTo ((40 * es.length + 63) / 64 * 64) (es.flatMap LogE.bytes)

/-- TYPE of a record (R341). -/
def JBody.typ : JBody → Nat
  | .accept .. => 1
  | .result _ _ _ _ _ _ => 2
  | .commit _ _ _ => 3
  | .release _ _ => 4
  | .retire _ _ => 5

/-- The type field at 0x04, the 32 bytes at 0x10, and the body from 0x40 (R342). -/
def JBody.parts : JBody → List Byte × List Byte × List Byte
  | .accept isn idem q p prog plen check payload _ =>
    (toBytes 4 check,
      toBytes 8 isn ++ toBytes 16 idem ++ toBytes 2 q ++ toBytes 2 p ++ toBytes 2 prog ++ toBytes 2 plen,
      padTo 448 payload)
  | .result isn q st ok res es =>
    (toBytes 2 st ++ toBytes 2 es.length, padTo 32 (toBytes 8 isn ++ toBytes 10 ok ++ toBytes 2 q),
      padTo 64 res ++ entryBytes es)
  | .commit t n es => (toBytes 4 es.length, padTo 32 (toBytes 8 t ++ toBytes 4 n), entryBytes es)
  | .release q ok => (toBytes 4 0, padTo 32 (toBytes 2 q ++ toBytes 6 0 ++ toBytes 10 ok), [])
  | .retire q ok => (toBytes 4 0, padTo 32 (toBytes 2 q ++ toBytes 6 0 ++ toBytes 10 ok), [])

/-- The length of a record in bytes (R341). -/
def JBody.len (b : JBody) : Nat := 64 + b.parts.2.2.length

/-- A record in bytes with its TAG taken as zero (R340). -/
def JRec.bytes0 (r : JRec) : List Byte :=
  let p := r.body.parts
  toBytes 1 r.body.typ ++ toBytes 1 r.keyep ++ toBytes 2 r.body.len ++ p.1 ++ toBytes 8 r.rsn ++ p.2.1
    ++ toBytes 16 0 ++ p.2.2

/-- The TAG of a record under a key: the IV is the device ID, RSN, KEYEP and 0x00 (R340). -/
def JRec.tagOf (r : JRec) (key dev : Nat) : Nat :=
  Config.gcmTag key (ofBytes (toBytes 2 dev ++ toBytes 8 r.rsn ++ toBytes 1 r.keyep ++ [0])) (ofBytes r.bytes0)

/-! The vault. -/

/-- The key of an epoch that the vault holds (R340). -/
def Vault.keyOf (v : Vault) (ep : Nat) : Option Nat :=
  match v.key, v.prevKey with
  | some (e, k), p => if e = ep then some k else match p with | some (e', k') => if e' = ep then some k' else none | none => none
  | none, some (e', k') => if e' = ep then some k' else none
  | none, none => none

/-- TAG of a record of device dev verifies (R340, R344). -/
def Vault.verifies (v : Vault) (dev : Nat) (r : JRec) : Bool :=
  match v.keyOf r.keyep with
  | some k => r.tag == r.tagOf k dev
  | none => false

/-- Bytes that records fill. -/
def recBytes (rs : List JRec) : Nat := rs.foldl (fun n r => n + r.body.len) 0

/-- The highest RSN that a journal acknowledgement may name (R343, R344, R351): every ACCEPT record up to it is held, so it
stays below each record whose TAG was wrong and each that was refused. -/
def Vault.ackRsn (v : Vault) : Nat := (v.badRsn ++ v.refused).foldl (fun m b => min m (b - 1)) v.ptnRsn

/-- A record in bytes (R340). -/
def JRec.bytes (r : JRec) : List Byte := r.bytes0.take 48 ++ toBytes 16 r.tag ++ r.bytes0.drop 64

/-- A dump image in bytes before its footer: the header and the records back to back, own half first (R352, R353). -/
def DumpImg.body (d : DumpImg) : List Byte :=
  toBytes 4 0x4A444D50 ++ toBytes 2 d.device ++ toBytes 2 0 ++ toBytes 8 d.seq ++ toBytes 8 d.nextRsn ++ toBytes 8 d.nextIsn
    ++ toBytes 8 d.rtick ++ toBytes 8 d.tick ++ toBytes 4 (recBytes d.own / 64) ++ toBytes 4 (recBytes d.ptn / 64)
    ++ toBytes 8 0 ++ (d.own ++ d.ptn).flatMap JRec.bytes

/-- The whole image: its footer is the digest and a tag over the digest (R353). -/
def DumpImg.bytes (d : DumpImg) : List Byte := d.body ++ toBytes 48 d.digest ++ toBytes 16 d.tag

/-- The footer's tag under a key (R353). -/
def DumpImg.tagOf (d : DumpImg) (key : Nat) : Nat :=
  Config.gcmTag key (ofBytes (toBytes 2 d.device ++ toBytes 8 d.seq ++ toBytes 1 d.keyep ++ [0xFF])) d.digest

/-- The image with its footer. -/
def DumpImg.sealed (d : DumpImg) (key : Nat) : DumpImg :=
  let d := { d with digest := Config.sha384 (ofBytes d.body) }
  { d with tag := d.tagOf key }

/-- The image is valid: its digest and its tag verify (R355). -/
def Vault.dumpOk (v : Vault) (d : DumpImg) : Bool :=
  d.digest == Config.sha384 (ofBytes d.body) && (match v.keyOf d.keyep with | some k => d.tag == d.tagOf k | none => false)

/-- Insert a record in RSN order (R344). -/
def insRsn (r : JRec) : List JRec → List JRec
  | [] => [r]
  | q :: l => if r.rsn < q.rsn then r :: q :: l else q :: insRsn r l

/-- Size of one half of the vault in bytes (R351). -/
def vaultHalf : Nat := 32 * 2 ^ 20

/-- The vault takes records: VLT_STATUS.STATE is NORMAL (R352, R358). -/
def State.vaultOk (s : State) : Bool := s.rf .vltStatus 61 60 == 0

/-- Write a record to the own half with the next RSN, the present epoch and its TAG (R339, R340); a frozen
vault takes none (R352). The RSN is answered. -/
def State.journal (s : State) (b : JBody) : State × JRec :=
  let v := s.vault
  let (ep, k) := v.key.getD (0, 0)
  let r0 : JRec := ⟨v.nextRsn, ep, 0, b⟩
  let r := { r0 with tag := r0.tagOf k s.devId }
  if s.vaultOk then ({ s with vault := { v with own := v.own ++ [r], nextRsn := v.nextRsn + 1 } }, r) else (s, r)

/-- Free own records. -/
def State.freeRecs (s : State) (gone : JBody → Bool) : State :=
  { s with vault := { s.vault with own := s.vault.own.filter fun r => !gone r.body } }

/-- The last RELEASE key of a queue in the partner half (R27). -/
def State.ptnRelease (s : State) (q : Nat) : Nat :=
  s.vault.ptn.foldl (fun m r => match r.body with
    | .release q' k => if q' = q then max m k else m | _ => m) 0

/-- The queue that takes the completions of the partner's queue pq knows what the partner has RELEASED (R32, R357). -/
def State.takeRelease (s : State) (pq q : Nat) : State :=
  let x := sget Queue.cold s.queues q
  if s.ptnRelease pq = 0 then s
  else { s with queues := sset Queue.cold s.queues q { x with relKey := some (max (s.ptnRelease pq) (x.relKey.getD 0)) } }

/-! Conditions of intake. -/

/-- Requests between ACCEPTED and RETIRED (R351, R358). -/
def State.inflight (s : State) : Nat := (s.runs.filter fun r => r.st != .journaled).length

/-- A path to the mirror partner is up (R19, R358). -/
def State.mirrorUp (s : State) : Bool :=
  s.hasPartner && s.entryUp (s.rd (.fabRoute s.partnerId)) && !s.fab.mirrorDown

/-- A function of cluster c has been lost and nothing has taken its place (R18): a slot of the cluster's mode is in triage
or resync, has a vacant position, or is EMPTY or RETIRED; or a comparator copy is lost. -/
def State.clusterLoss (s : State) (c : Nat) : Bool :=
  s.clusterOn c && (bit (s.rd (.chkStatus c)) 8 || bit (s.rd (.chkStatus c)) 9 ||
    (if s.rf (.cluMode c) 0 0 = 0 then [0, 1, 2] else [3, 4]).any fun sl =>
      let st := s.slotState c sl
      st == slTRIAGE || st == slRESYNC || st == slEMPTY || st == slRETIRED
        || (st == slACTIVE && (s.slotCores c sl).length != slotSize sl))

/-- Full protection holds (R18): every function at fault is replaced or remotely repaired, the mirror partner is reachable
and the replica is up to date. -/
def State.protectedNow (s : State) : Bool :=
  s.mirrorUp && !s.fab.custody && s.sched.unsealed.all (· == s.tick)
    && !(List.range 12).any (fun u => (s.npu u).lostNow || s.rf (.npuStatus u) 3 2 == 3 || s.chanState u == 3)
    && !s.lines.any (fun p => p.2 == .fetching || p.2 == .ue)
    && !(List.range 32).any s.clusterLoss

/-- The moment of re-protection (R18). -/
def State.reprotect (s : State) : State :=
  if s.fmu.unprot && s.protectedNow then
    ({ s with fmu := { s.fmu with unprot := false } }).event sgPROTECTION_RESTORED s.locDevice 0
  else s

/-- INT_STATUS (R358). -/
def State.intStatusWord (s : State) : Word :=
  let w := s.rd .intStatus
  let w := setFld w 47 32 (min s.inflight 16384)
  let w := setBit w 7 (s.rf .fmuStatus 61 60 != 0)
  let w := setBit w 6 (decide (s.inflight ≥ 16384))
  let w := setBit w 5 (decide (vaultHalf - recBytes s.vault.own < 2 ^ 21) || s.vault.ptnFull)
  let w := setBit w 3 (!s.mirrorUp)
  let w := setBit w 1 (!bit (s.rd .devId) 16)
  setBit w 0 (fld w 7 1 != 0 || !s.sched.isOpen || s.sched.warm || !s.vaultOk)

/-- The intake engine fetches descriptors (R19, R20, R358). -/
def State.accepting (s : State) : Bool := !bit s.intStatusWord 0

/-- The device is in Fawn mode (R410). -/
def State.fawn (s : State) : Bool := s.rf .fmuStatus 61 60 != 0

/-- Admission limit of a tick (R327): LIMIT times the factor of the thermal step. -/
def State.admitLimit (s : State) : Nat := s.rf .tsqAdmit 15 0 / 2 ^ s.rf .tsqAdmit 17 16

/-! Idempotency. -/

/-- CRC-32C of one byte more. -/
def crcBit (c : Nat) : Nat := if c % 2 = 1 then (c / 2) ^^^ 0x82F63B78 else c / 2

/-- CRC-32C of bytes (R334). -/
def crc32c (bs : List Byte) : Nat :=
  (bs.foldl (fun c b => (List.range 8).foldl (fun c _ => crcBit c) (c ^^^ b.toNat)) 0xFFFFFFFF) ^^^ 0xFFFFFFFF

/-- CHECK of a request (R334). -/
def checkOf (prog plen : Nat) (payload : List Byte) : Nat :=
  crc32c (toBytes 2 prog ++ toBytes 2 plen ++ payload.take plen)

/-- The two candidate buckets of a key in a partition (R335). -/
def idemBuckets (part key : Nat) : List Nat :=
  let h := Config.idemHash (part * 2 ^ 128 + key)
  [h % 2 ^ 23, h / 2 ^ 23 % 2 ^ 23]

/-- The entries of the candidate buckets. -/
def idemPlaces (part key : Nat) : List Nat :=
  (idemBuckets part key).flatMap fun b => (List.range 8).map fun i => 8 * b + i

/-- The places at which a lookup finds an entry: those of the own table, and, after a takeover, those of the partner's table
(R335, R357), which stand behind the 64 Mi of the own one. -/
def idemAll (part key : Nat) : List Nat := idemPlaces part key ++ (idemPlaces part key).map (· + 2 ^ 26)

/-- A DONE entry past its horizon (R336). -/
def State.idemExpired (s : State) (x : Idem) : Bool :=
  x.st == 2 && s.tick ≥ x.okey / 2 ^ 32 + s.rf .intHorizon 31 0

/-- The partition to which a queue is bound (R273). -/
def State.queuePart (s : State) (q : Nat) : Nat := s.rf (.keyQbind q) 9 0

/-- An entry holds the key for a partition (R334): that of its queue, on the device that accepted the request. -/
def State.idemKey (s : State) (part key : Nat) (x : Idem) : Bool :=
  x.st != 0 && !s.idemExpired x && x.key == key && x.bound.getD (s.queuePart x.queue) == part

/-- The place of a matching entry in a table (R334). -/
def State.idemFind (s : State) (t : SMap Idem) (part key check : Nat) : Option Nat :=
  (idemAll part key).find? fun i => s.idemKey part key (sget Idem.free t i) && (sget Idem.free t i).check == check

/-- The first free or expired place (R335). -/
def State.idemRoom (s : State) (t : SMap Idem) (part key : Nat) : Option Nat :=
  (idemPlaces part key).find? fun i =>
    let x := sget Idem.free t i
    x.st == 0 || s.idemExpired x

/-- The present entry of a request becomes DONE (R336). -/
def State.idemDone (s : State) (r : Run) : State :=
  match (idemAll r.part r.idem).find? fun i =>
      let x := sget Idem.free s.idem i
      x.st == 1 && x.key == r.idem && x.isn == r.isn with
  | some i =>
    let x := sget Idem.free s.idem i
    { s with idem := sins s.idem i { x with st := 2, okey := r.okey, result := r.result } }
  | none => s

end Sys2Proof.Machine
end

