-- ==== Sys2Proof/Machine/Ctl.lean ====
section
/-!
DEFINITION. Control space (R49 to R54, R60): reads with RC fields (R8), writes under the access codes
(R7, R9, R10), and the registers whose write acts: KEY_FKSET (R263), CLU_SIGNAL (R194), RST_PART (R508),
RST_CTL (R506), DEV_ID (R48), the CSR windows (R51, R60), DBG_AUTHCMD.CLOSE (R473) and NPU_STATUS.STALLFULL (R301).
-/
namespace Sys2Proof.Machine

/-- The masters of control space by number: 0 to 255 cores, then the management processor and debug. -/
def mMP : Nat := 256
def mDBG : Nat := 257

/-- Healthy units (R407): slots in ACTIVE with every position of their kind filled. -/
def State.healthy (s : State) : Nat :=
  ((List.range 32).filter s.clusterOn).foldl (fun n c =>
    n + ((List.range 5).filter fun sl =>
      s.slotState c sl == slACTIVE && (s.slotCores c sl).length == slotSize sl).length) 0

/-- A core waits in DISPATCH with no level above 0 active (R370, R382, R385). -/
def Core.idle (c : Core) : Bool := c.act == .disp && c.lev == 0 && c.active.toNat / 2 % 2 ^ 16 == 0

/-- The slots of cluster c that hold cores: not EMPTY and not RETIRED. -/
def State.usedSlots (s : State) (c : Nat) : List Nat :=
  (List.range 5).filter fun sl => s.slotState c sl != slEMPTY && s.slotState c sl != slRETIRED

/-- The units of a cluster are drained from the pool (R204): each waits idle, or is HELD. -/
def State.clusterIdle (s : State) (c : Nat) : Bool :=
  (s.usedSlots c).all fun sl => (s.slotCores c sl).all fun e => (s.core e).idle || s.slotState c sl == slHELD

/-- CLU_MODE.DRAINED (R388): delivery is stopped and every slot waits idle. -/
def State.drained (s : State) (c : Nat) : Bool :=
  (s.cluDrain.any fun p => p.1 == c && decide (p.2 ≤ s.tick))
    && s.clusterIdle c

/-- Clusters that have lost both comparator copies (R381, R415). -/
def State.clust2 (s : State) : Nat :=
  ((List.range 32).filter fun c =>
    s.clusterOn c && bit (s.rd (.chkStatus c)) 8 && bit (s.rd (.chkStatus c)) 9).length

/-- A condition of R19 other than ENERGY stops intake (R20): the mirror path, the witness, the vault space, the limit of
R351, or a lease that is lost (R356). -/
def State.stopped19 (s : State) : Bool :=
  let st := s.intStatusWord
  bit st 3 || bit st 4 || bit st 5 || bit st 6 || s.rf .fabLease 63 61 == 4

/-- The causes of R409 that are present, bit i for cause i. -/
def State.causes (s : State) : Nat :=
  let st := s.intStatusWord
  let b (i : Nat) (p : Bool) : Nat := if p then 2 ^ i else 0
  b 0 (decide (s.healthy < s.rf .fmuDegcfg 7 0)) + b 1 (bit s.fmu.causes 1 && bit st 2) + b 2 (bit s.fmu.causes 2)
    + b 3 (decide (s.clust2 > if s.fuses.big then 8 else 6)) + b 4 (decide (s.mp.members.length ≤ 1))
    + b 5 (s.rf .vltStatus 63 62 == 2) + b 6 (bit s.fmu.causes 6 && s.stopped19)
    + b 7 ((List.range 12).any fun ch => s.rf (.npuStatus ch) 3 2 == 3)

/-- The device has been brought up (R272, R510): partition 0 is active. Until then, and in a warm reset, the health summary
of FMU_STATUS reads 0. -/
def State.broughtUp (s : State) : Bool := bit (s.rd (.keyPtctl 0)) 63

/-- What a register reads as, with the fields that show state held elsewhere: NPU_STATUS (R301), FMU_STATUS,
FMU_LOSS and FMU_LOGSTAT (R415). -/
def State.regView (s : State) (r : Reg) : Word :=
  match r with
  | .npuStatus ch =>
    let n := s.npu ch
    let w := setFld (setFld (s.rd r) 47 32 n.log.length) 19 8
      ((n.cache.filter fun x => x.st != .clean).length)
    setBit (setBit w 1 n.test) 0 n.stallFull
  | .fmuLoss => s.fmu.loss
  | .fmuLogstat =>
    let al := (s.fmu.log.filter fun p => p.2.cls == clALARM).length
    setFld (setFld (setFld 0 51 40 ((s.fmu.log.head?.map (·.1)).getD 0)) 26 16 al) 11 0 (s.fmu.log.length - al)
  | .intStatus => s.intStatusWord
  | .fmuStatus =>
    let up := s.broughtUp && !s.sched.warm
    setFld (setFld (setFld (s.rd r) 47 40 (if up then s.causes else 0)) 23 16 (if up then s.healthy else 0)) 15 8
      (if s.broughtUp then s.clust2 else 0)
  | .cluMode c => setBit (s.rd r) 2 (s.drained c)
  | .vltStatus =>
    setFld (setFld (s.rd r) 47 32 ((vaultHalf - recBytes s.vault.own) / 1024)) 31 16
      ((vaultHalf - recBytes s.vault.ptn) / 1024)
  | .tsqStatus => setFld (s.rd r) 15 8 (if s.sched.warm then 0 else min s.sched.unsealed.length 255)
  | .fmuDegcnt =>
    let n (f : Degr → Bool) : Nat := (s.mp.ledger.filter f).length
    setFld (setFld (setFld (setFld (setFld 0 63 48 (n fun d => d.sig == sgCORE_RETIRED || d.sig == sgSELFTEST_FAIL))
      47 32 (n fun d => d.sig == sgSLOT_RETIRED)) 31 16 (n fun d => d.sig == sgMEM_CHANNEL_STATE))
      15 8 (n fun d => d.sig == sgCOMPARATOR_LOST)) 7 0 (n fun d => d.sig == 0)
  | _ => s.rd r

/-- Clear the RC fields of a register after a read (R8). -/
def State.clearRc (s : State) (r : Reg) : State :=
  if r = .fmuLoss then { s with fmu := { s.fmu with loss := 0 } }
  else if r.fields.any (fun f => f.acc == .rc) then
    s.wr r (r.fields.foldl (fun w f => if f.acc == .rc then setFld w f.hi f.lo 0 else w) (s.rd r))
  else s

/-- What a read returns: WO fields and reserved bits read 0 (R7, R10). -/
def readMask (fs : List Fld) (w : Word) : Word :=
  fs.foldl (fun a f => if f.acc == .wo then a else setFld a f.hi f.lo (fld w f.hi f.lo)) 0

/-- Words of a log slot in FMU_LOGREAD (R391, R415). -/
def Rec.word (r : Rec) (i : Nat) : Nat :=
  match i with
  | 0 => (r.cls * 64 + b2n r.close * 32 + b2n r.gap * 16 + r.level) * 2 ^ 56 + r.sig * 2 ^ 32 + r.root
  | 1 => r.first * 2 ^ 32 + r.count
  | 2 => r.time
  | 3 => r.tick
  | 4 => r.bitmap
  | 5 => r.rseq
  | 6 => r.detail / 2 ^ 64
  | _ => r.detail % 2 ^ 64

/-- Cluster c is in cluster reset, so that its window cannot be reached (R54). -/
def State.offline (s : State) (c : Nat) : Bool := s.cluInReset.contains c

/-- The cluster whose window holds an offset of control space (R49, R50). -/
def windowOf (off : Nat) : Option Nat :=
  if 0x1000000 ≤ off ∧ off < 0x3000000 then some ((off - 0x1000000) / 0x100000) else none

/-- The window at an offset that an access cannot reach: of a disabled cluster (R2), of a cluster in cluster reset, or the
CSR window of a retired core (R54). Such an access ends with a bus error; those of R54 are recorded. The spec names no root
locator for CTL_TARGET_OFFLINE: DESIGN CHOICE the core for a CSR window, else the cluster (log 85). -/
def State.winFault (s : State) (m off : Nat) : Option State :=
  match windowOf off with
  | none => none
  | some c =>
    if !s.clusterOn c then some s
    else match CtlAddr.ofOffset m off with
    | .csr e _ =>
      if s.offline c || s.coreState e == csRETIRED then some (s.event sgCTL_TARGET_OFFLINE (s.locCore e) 0) else none
    | _ => if s.offline c then some (s.event sgCTL_TARGET_OFFLINE (s.locCluster c) 0) else none

/-- What a CSR of core e holds, as its window shows it: PERR is the core's own (R51, R229). -/
def State.csrWord (s : State) (e : Nat) (k : Csr) : TWord :=
  match k with
  | .ucstat => ⟨setFld (s.core e).ucstat 23 16 (sget 0 s.mp.perrs e), tRAW⟩
  | k => (s.core e).csrVal (s.locCore e).word (sget Async.cold s.async e).pend k

/-- A control-space read by a master: none is a bus error (R49, R51, R52, R54). -/
def State.ctlRead (s : State) (m off : Nat) : State × Option Word :=
  if off % 8 ≠ 0 then (s, none)
  else match s.winFault m off with
  | some s => (s, none)
  | none => match CtlAddr.ofOffset m off with
    | .unassigned => (s, none)
    | .none => (s, some 0)
    | .log sl wd => (s, some (BitVec.ofNat 64 ((sget Rec.empty s.fmu.slots sl).word wd)))
    | .csr e n =>
      let s := s.leaveC6 e
      match Csr.of n with
      | some k => (s, some (s.csrWord e k).val)
      | none => (s, some 0)
    | .reg r => (s.clearRc r, some (readMask r.fields (s.regView r)))

/-- The new value of a register under its access codes, with its limits (R7, R9, R10, Reg.clamp). -/
def State.regMerge (s : State) (r : Reg) (m : Nat) (v : Word) : Word :=
  r.fields.foldl (fun w f =>
    let nv := Reg.clamp r f.lo (fld v f.hi f.lo)
    match f.acc with
    | .rw => setFld w f.hi f.lo nv
    | .mpo => if m = mMP then setFld w f.hi f.lo nv else w
    | .dbg => if m = mDBG then setFld w f.hi f.lo nv else w
    | .w1c => setFld w f.hi f.lo (fld (s.rd r) f.hi f.lo &&& (2 ^ (f.hi + 1 - f.lo) - 1 - fld v f.hi f.lo))
    | .w1s => setFld w f.hi f.lo (fld w f.hi f.lo ||| fld v f.hi f.lo)
    | _ => w) (s.rd r)

/-- Record CTL_WRITE_DENIED when a write would change a protected field (R9). The spec names no root locator for it: DESIGN
CHOICE the device for a register of control space (log 85). -/
def State.denyCheck (s : State) (r : Reg) (m : Nat) (v : Word) : State :=
  if deniedFields r.fields (m == mMP) (m == mDBG) (s.rd r) v then s.event sgCTL_WRITE_DENIED s.locDevice 0 else s

/-- A plain register write (R7 to R10). -/
def State.regWrite (s : State) (r : Reg) (m : Nat) (v : Word) : State :=
  (s.denyCheck r m v).wr r (s.regMerge r m v)

/-- Remove every cached copy of a frame's key from every core and the fabric endpoint (R266). The
endpoint's cache is the last argument of State.dropTlb. -/
def State.dropTlb (s : State) (keep : TlbItem → Bool) : State :=
  let drop (m : SMap Core) (e : Nat) : SMap Core :=
    let c := sget Core.cold m e
    sset Core.cold m e { c with tlb := c.tlb.filter keep }
  { s with cores := (s.cores.map (·.1)).foldl drop s.cores, fabTlb := s.fabTlb.filter keep }

/-- A KEY_FKSET write (R263, R266): none is a bus error. -/
def State.fkset (s : State) (m : Nat) (v : Word) : State × Bool :=
  let pa := fld v 51 12 * 4096
  let ok := s.area pa = .own || s.area pa = .unmirrored
  if bit v 11 then
    let (k, fp) := s.frameKey pa
    (s.wr (.keyFkres m) (if ok then setFld (setFld (setBit 0 63 true) 8 8 (b2n fp)) 7 0 k else 0), ok)
  else if !ok then (s, false)
  else
    let s := s.setFrameKey pa (fld v 7 0) (bit v 8)
    let s : State := if s.hasPartner && s.area pa == .own then
        s.send s.partnerId false false (.tables ⟨1024, 0, 0, [], [(pa / 4096, fld v 8 0)], []⟩)
      else s
    (if bit v 9 then s.dropTlb (fun t => tlbFrame t != pa / 4096) else s, true)

/-- A KEY_FKSET write with INV = 1 waits until every access that was checked with the frame's old key and waits in a posting
unit has been performed (R266; log 134). -/
def State.ctlHeld (s : State) (off : Nat) (v : Word) : Bool :=
  off == Reg.offset .keyFkset && bit v 9 && !bit v 11 && s.accessQueued (· == fld v 51 12)

/-- A CLU_SIGNAL write (R194): false is a bus error. A write by the debug domain's memory access master reports bit 8 = 0 and
sender number 1, its master number modulo 256 (DESIGN CHOICE, log 120). -/
def State.cluSignal (s : State) (m c k : Nat) (v : Word) : State × Bool :=
  let e := c * 8 + k
  if s.coreState e == csSPARE || s.coreState e == csRETIRED || (s.core e).c6 then
    (s.event sgCTL_TARGET_OFFLINE (s.locCore e) 0, false)
  else if bit v 63 then
    (s.raise 2 (fld v 23 16 * 2 ^ 16 + (if m = mMP then 256 else m % 256)) e, true)
  else (s, true)

/-- A RST_PART write (R508). -/
def State.rstPart (s : State) (m : Nat) (v : Word) : State :=
  let s := s.regWrite .rstPart m v
  if bit v 63 then
    let p := fld v 9 0
    if p = 0 then s.wf .rstPart 62 62 1
    else if s.resets.parts.contains p then s
    else { s with resets := { s.resets with parts := s.resets.parts ++ [p] } }.wf .rstPart 61 61 1
  else s

/-- A RST_CTL write (R506, R507, R509): a cold reset request overrides a pending warm one. The argument of
a pending reset is its bit of RST_CAUSE. -/
def State.rstCtl (s : State) (m : Nat) (v : Word) : State :=
  let s := s.denyCheck .rstCtl m v
  if m ≠ mMP then s
  else if bit v 0 then { s with resets := { s.resets with cold := some 3, warm := none } }
  else if bit v 1 then
    if s.resets.cold.isSome then s
    else { s with resets := { s.resets with warm := some 1, parts := [], due := false, partsDue := [] } }
  else s

/-- A DEV_ID write (R48). -/
def State.devIdWrite (s : State) (m : Nat) (v : Word) : State :=
  let old := s.rd .devId
  if m = mMP && bit old 16 && (fld v 11 0 != fld old 11 0 || !bit v 16) then s.event sgDEVID_LOCKED s.locDevice 0
  else s.regWrite .devId m v

/-- Raise the pending bits that a write to CORE_APEND names, on every core of the unit (R193). -/
def State.apend (s : State) (e : Nat) (v : Word) : State :=
  (List.range 6).foldl (fun s i => if bit v i then s.raise i 0 e else s) s

/-- Core e runs a unit's instruction stream, so that a control-space write to a needs-SYNC register waits for its next
synchronising event (R60). A core in SPARE, RETIRED or C6 and one whose slot is frozen run none; a core that waits in
DISPATCH stands at a synchronising event (R86; DEDUCED, log 86). -/
def State.waitsSync (s : State) (e : Nat) : Bool :=
  let c := s.core e
  (match s.slotOf e with
    | some sl => s.slotState (e / 8) sl == slACTIVE || s.slotState (e / 8) sl == slSPLIT
    | none => true)
    && c.stateCode != csSPARE && c.stateCode != csRETIRED && !c.c6 && c.act != .disp

/-- The stores and decode banks of core e read back as the management processor's copies, and its cluster has passed
Chamois injection (R231). Nothing but a parity error makes a store differ from the copy it was loaded from (log 86). -/
def State.verified (s : State) (e : Nat) : Bool := (s.core e).parity.isEmpty && bit (s.rd (.chkStatus (e / 8))) 0

/-- The vendor words of a release in a core's stores (R203, R204): a word that is written reads without a parity error. -/
def Core.storeVendor (c : Core) (r : VRoll) : Core :=
  { c with
    vmicro := (r.micro.zipIdx).foldl (fun m (p : Nat × Nat) => sset 0 m (p.2 % 16384) (BitVec.ofNat 24 p.1)) []
    vnano := (r.nano.zipIdx).foldl (fun m (p : Nat × Nat) => sset 0 m (p.2 % 2048) (BitVec.ofNat 160 p.1)) []
    parity := c.parity.filter fun p => p.1 != 0x0101 && p.1 != 0x0102 }

/-- The stores of a drained cluster are written; verified under R231, its units return at the next tick boundary (R204).
Else the cluster stays out of the pool. -/
def State.applyRoll (s : State) (r : VRoll) : State :=
  let c := r.cluster
  let s := (List.range 8).foldl (fun (s : State) i => s.modCore (c * 8 + i) fun k => k.storeVendor r) s
  let s := s.modMp fun x => { x with release := sset 0 x.release c r.release }
  if r.ok && (s.usedSlots c).all (fun sl => (s.slotCores c sl).all s.verified) then
    (s.usedSlots c).foldl (fun (s : State) sl => s.modSlotX c sl fun x => { x with poolFrom := s.tick + 1 }) s
  else { s with cluDrain := s.cluDrain ++ [(c, s.tick)] }

/-- Vendor releases whose cluster has drained by this pulse are applied (R204). -/
def State.dueRolls (s : State) : State :=
  let (due, rest) := s.mp.rolls.partition fun r => s.clusterIdle r.cluster
  due.foldl State.applyRoll (s.modMp fun m => { m with rolls := rest })

/-- A write to an extension register of core e through control space (R129, R199): the registers become those of its context
first, and DIRTY is set, as at a first use by the core itself. A core that runs nothing only takes the value (DESIGN CHOICE,
log 119). -/
def State.extWrite (s : State) (e : Nat) (k : Csr) (v : Word) : State :=
  let put (c : Core) : Core := c.csrStore false k ⟨v, tRAW⟩
  if !s.waitsSync e && (s.core e).act != .disp then
    (s.unitCores e).foldl (fun s i => s.modCore i put) s
  else
    let (s, c, _, ok) := s.extOwn (s.core e)
    if ok then s.setCores (s.unitCores e) { put c with xown := setBit c.xown 1 true }
    else s.machineCheck e c 0x0401 1 c.pc

/-- A control-space write to a CSR (R51, R59, R60): on every core of the unit, a needs-SYNC register taking effect at the
next synchronising event. A word of control space has no tag: a value written to CORE_LPC or CORE_RSENT is tagged RAW, where
one written to a register of a bank keeps its tag (DESIGN CHOICE, log 122). The management processor sets SERVICE only after the verification of R231. The spec names no root
locator for CTL_WRITE_DENIED: DESIGN CHOICE the core whose window is written (log 85). -/
def State.csrWrite (s : State) (m e n : Nat) (v : Word) : State :=
  match Csr.of n with
  | none => s
  | some .apend => s.apend e v
  | some k =>
    let fs := match k with
      | .mode => CoreReg.mode.fields | .ucstat => CoreReg.ucstat.fields | _ => []
    let mp := m == mMP
    let s := if deniedFields fs mp (m == mDBG) (s.csrWord e k).val v then
      s.event sgCTL_WRITE_DENIED (s.locCore e) 0 else s
    let s := if k = .ucstat && mp then
        s.modMp fun x => { x with perrs := (s.unitCores e).foldl (fun m i => sset 0 m i (fld v 23 16)) x.perrs }
      else s
    let unverified := (s.unitCores e).any fun i => !s.verified i
    if k = .mode && mp && fld v 2 0 = csSERVICE && unverified then s
    else if k.isExt then s.extWrite e k v
    else
      let waits := s.waitsSync e
      (s.unitCores e).foldl (fun s i => s.modCore i fun c =>
        match k.syncCode c.lev with
        | some code =>
          if waits then { c.csrStoreNow mp k code v with held := c.held ++ [⟨code, mp, v⟩] }
          else c.csrStore mp k ⟨v, tRAW⟩
        | none => c.csrStore mp k ⟨v, tRAW⟩) s

/-- DBG_STATUS.SESS (R470): 0 none, 1 OBSERVE, 2 LAB. -/
def State.session (s : State) : Nat := s.rf .dbgStatus 3 2

/-- Draw a fresh nonce (R471). -/
def State.freshNonce (s : State) : State :=
  let n := Config.nonce s.free
  (List.range 6).foldl (fun (s : State) i => s.wr (.dbgNonce i) (BitVec.ofNat 64 (n / 2 ^ (64 * (5 - i))))) s.takeFree

/-- The session ends (R473). -/
def State.closeSession (s : State) : State :=
  if s.session = 0 then s
  else (((s.wf .dbgStatus 3 2 0).wf .dbgStatus 4 4 0).event sgDBG_SESSION_CLOSE (s.locElement elDBG) 0).freshNonce

/-! Ports. -/

/-- Port p. -/
def State.port (s : State) (p : Nat) : PortX := sget PortX.cold s.fab.ports p

/-- Change port p. -/
def State.modPort (s : State) (p : Nat) (f : PortX → PortX) : State :=
  s.modFab fun x => { x with ports := sset PortX.cold x.ports p (f (sget PortX.cold x.ports p)) }

/-- A valid route has port p as the port of a path, and its other path is up: its frames move there (R427). -/
def State.failsOver (s : State) (p : Nat) : Bool :=
  s.regs.any fun r => match r.1 with
    | .fabRoute _ => (bit r.2 63 && fld r.2 2 0 == p && bit r.2 62 && s.portUp (fld r.2 6 4))
        || (bit r.2 62 && fld r.2 6 4 == p && bit r.2 63 && s.portUp (fld r.2 2 0))
    | _ => false

/-- Port p leaves UP or fails to reach it (R416, R419, R427, R446). -/
def State.linkDown (s : State) (p : Nat) : State :=
  let wasUp := s.portUp p
  let hadMirror := s.mirrorUp
  let s := (s.wf (.fabPstatus p) 2 0 0).modPort p fun x => { x with key := none, rxKey := none, retryTimes := [], beacon := none }
  if !wasUp then s
  else
    let s := s.alarm sgLINK_DOWN (s.locElement (elFP p)) 0
    let s := if s.failsOver p then s.event sgROUTE_FAILOVER (s.locElement (elFP p)) 0 else s
    if hadMirror && !s.mirrorUp then s.unprotect.alarm sgMIRROR_PATH_LOST s.locDevice (detBytes 2 s.partnerId) else s

/-- A FAB_PCTL write (R419, R447): a port that is disabled goes DOWN, one that is enabled starts to train. -/
def State.pctlWrite (s : State) (p m : Nat) (v : Word) : State :=
  let s := s.regWrite (.fabPctl p) m v
  let st := s.rf (.fabPstatus p) 2 0
  if !bit (s.rd (.fabPctl p)) 4 then (if st = 0 then s else s.linkDown p)
  else if st = 0 then s.wf (.fabPstatus p) 2 0 1 else s

/-- A TSQ_PERIOD write (R306): one whose AT is less than TSQ_TICK + 16 is discarded. -/
def State.tsqPeriodWrite (s : State) (m : Nat) (v : Word) : State :=
  if m = mMP && decide (fld v 47 0 < s.tick + 16) then s.event sgTICK_PERIOD_LATE s.locDevice 0
  else s.regWrite .tsqPeriod m v

/-- An INT_QCFG write (R274, R358): REGION stays while a request of the queue lies between ACCEPTED and RETIRED. -/
def State.qcfgWrite (s : State) (q m : Nat) (v : Word) : State :=
  let busy := s.runs.any fun r => r.queue == q && r.adopted.isNone && r.st != .journaled
  s.regWrite (.intQcfg q) m (if busy then setFld v 61 59 (s.rf (.intQcfg q) 61 59) else v)

/-- The offset of CSR n of core e in control space (R51). -/
def csrOffset (e n : Nat) : Nat := 0x1000000 + e / 8 * 0x100000 + 0x80000 + e % 8 * 0x10000 + n * 8

/-- A control-space write by a master: false is a bus error (R49, R51, R52, R54). -/
def State.ctlWrite (s : State) (m off : Nat) (v : Word) : State × Bool :=
  if off % 8 ≠ 0 then (s, false)
  else match s.winFault m off with
  | some s => (s, false)
  | none => match CtlAddr.ofOffset m off with
    | .unassigned => (s, false)
    | .none => (s, true)
    | .log _ _ => (s, true)
    | .csr e n => ((s.leaveC6 e).csrWrite m e n v, true)
    | .reg r => match r with
      | .tsqPeriod => (s.tsqPeriodWrite m v, true)
      | .fabPctl p => (s.pctlWrite p m v, true)
      | .intQcfg q => (s.qcfgWrite q m v, true)
      | .mbxOwner 0 => (s, true)
      | .keyFkset => s.fkset m v
      | .cluSignal c k => s.cluSignal m c k v
      | .rstPart => (s.rstPart m v, true)
      | .rstCtl => (s.rstCtl m v, true)
      | .devId => (s.devIdWrite m v, true)
      | .npuStatus ch =>
        (if bit v 0 then s.setNpu ch { s.npu ch with stallFull := false } else s, true)
      | .fmuLoss => (s, true)
      | .dbgAuthcmd => (if bit v 11 then s.closeSession else s, true)
      | r => (s.regWrite r m v, true)

end Sys2Proof.Machine
end

