-- ==== Sys2Proof/Machine/Operands.lean ====
section
/-!
DEFINITION. Every operand form: the fields of the formats (R74, R145, R146), conditions (R75), address
formation (R77, R78), tagged word accesses (R65, R66, R70, R533), fields and bytes in pieces (R67, R71,
R262), and the course of one instruction from decode to retirement (R76, R150, R176, R247).
-/
namespace Sys2Proof.Machine

/-! Formats. -/

/-- The formats of R145. -/
inductive Fmt where
  | m | a | k | r | c | i | n
  deriving DecidableEq, Repr

/-- Field [hi:lo] of an instruction word. -/
def wf (w hi lo : Nat) : Nat := w / 2 ^ lo % 2 ^ (hi + 1 - lo)

def fCOND (w : Nat) : Nat := wf w 31 28
def fOPC (w : Nat) : Nat := wf w 27 20
def fL (w : Nat) : Bool := wf w 19 19 == 1
def fBASE (w : Nat) : Nat := wf w 18 16
def fIDX (w : Nat) : Nat := wf w 15 14
def fSCL (w : Nat) : Nat := wf w 13 12
def fAM (w : Nat) : Nat := wf w 11 10
def fRD (w : Nat) : Nat := wf w 18 15
def fRS (w : Nat) : Nat := wf w 14 11
def fMASK (w : Nat) : Nat := wf w 9 1
def fCSR (w : Nat) : Nat := wf w 15 0
def fN (w : Nat) : Nat := wf w 7 0

/-- BASE, IDX and AM of the memory-operand format are legal (R74, R78; R146 for format A). -/
def memFieldsOk (pre : Bool) (w : Nat) : Bool :=
  fBASE w < 6 && (fAM w != 3 || (pre && (fBASE w == 1 || fBASE w == 2 || fBASE w == 3)))

/-- The fields that a format reserves hold 0, and L is permitted (R145, R146). -/
def fmtOk (f : Fmt) (w : Nat) : Bool :=
  match f with
  | .m => memFieldsOk true w && (!fL w || wf w 9 0 == 0)
  | .a => memFieldsOk false w && (!fL w || wf w 9 0 == 0)
  | .k => memFieldsOk true w && wf w 0 0 == 0
  | .r => !fL w || wf w 10 0 == 0
  | .c => !fL w && wf w 18 16 == 0
  | .i => !fL w && wf w 18 8 == 0
  | .n => !fL w && wf w 18 0 == 0

/-- Length of an instruction in bytes (R74). -/
def insLen (w : Nat) : Nat := if fL w then 8 else 4

/-- The condition test of R75 on a PSW. -/
def condHolds (cond : Nat) (psw : Word) : Bool :=
  let z := bit psw 0
  let n := bit psw 1
  let cf := bit psw 2
  let v := bit psw 3
  match cond with
  | 0x0 => true
  | 0x1 => z
  | 0x2 => !z
  | 0x3 => n != v
  | 0x4 => n == v
  | 0x5 => !z && n == v
  | 0x6 => z || n != v
  | 0x7 => cf
  | 0x8 => !cf
  | 0x9 => v
  | 0xA => !v
  | 0xB => bit psw 4
  | 0xC => !bit psw 4
  | 0xD => bit psw 6
  | 0xE => bit psw 5
  | _ => false

/-! Address formation (R77, R78). -/

/-- The displacement: 10 bits in the short form, the extension word in the long form (R74). -/
def dispOf (w x : Nat) : Int := if fL w then sext 32 x else sext 10 (wf w 9 0)

/-- The displacement of format K: 0 in the short form (R145). -/
def dispK (w x : Nat) : Int := if fL w then sext 32 x else 0

/-- The low n bits of v in reversed order (R77). -/
def revBits : Nat → Nat → Nat
  | 0, _ => 0
  | n + 1, v => v % 2 * 2 ^ n + revBits n (v / 2)

/-- Scatter: bits n − 1 to 0 reversed, the others unchanged (R77). -/
def scatterIdx (n : Nat) (i : Word) : Word :=
  BitVec.ofNat 64 (i.toNat / 2 ^ n * 2 ^ n + revBits n (i.toNat % 2 ^ n))

/-- The base value of an address (R77). -/
def baseVal (b : Bank) (ia : Word) (w : Nat) : Word :=
  match fBASE w with
  | 1 => b.x1.val | 2 => b.x2.val | 3 => b.sp | 4 => ia | 5 => b.mb | _ => 0

/-- The index value of an address (R77). -/
def idxVal (b : Bank) (w : Nat) : Word :=
  match fIDX w with
  | 1 => b.x1.val | 2 => b.x2.val | 3 => b.cnt | _ => 0

/-- The effective address of R77 for displacement d and access width n; none when ML = 0 in modulo mode. -/
def eaOf (b : Bank) (scatw ia : Word) (w : Nat) (d : Int) (n : Nat) : Option Word :=
  let bv := baseVal b ia w
  let i := idxVal b w
  let s := fSCL w
  match fAM w with
  | 1 =>
    if b.ml = 0 then none
    else
      let off := bv - b.mb + (i <<< s) + ofInt d
      some (b.mb + ofInt (off.toInt % (b.ml.toNat : Int)))
  | 2 => some (bv + (scatterIdx (fld scatw 4 0) i <<< s) + ofInt d)
  | 3 => some (bv - BitVec.ofNat 64 n + (i <<< s) + ofInt d)
  | _ => some (bv + (i <<< s) + ofInt d)

/-- Form the effective address with its checks: the tags of X1 or X2 as BASE and IDX, ML = 0, the limit
2^42 (R65, R77, R535 step 3). -/
def formEa (w : Nat) (d : Int) (n : Nat) (wr : Bool) : Op Nat := do
  let x ← cx
  let b := x.c.cur
  if fBASE w = 1 then needTag b.x1.tag (b.x1.tag == tPTR) 2
  if fBASE w = 2 then needTag b.x2.tag (b.x2.tag == tPTR) 3
  if fIDX w = 1 then needTag b.x1.tag (b.x1.tag == tINT) 2
  if fIDX w = 2 then needTag b.x2.tag (b.x2.tag == tINT) 3
  match eaOf b x.v.scatw x.ia w d n with
  | none => raiseExc ⟨vTRANSLATION, 2, none, wr, false, false⟩
  | some ea =>
    if ea.toNat ≥ 2 ^ 42 then raiseA vTRANSLATION 1 ea.toNat wr false
    else return ea.toNat

/-- The effective address of an A-format instruction and of a customer slot (R147, R205): no check but the limit 2^42.
With ML = 0 in modulo mode the spec gives no modulus and R147 lets no exception be raised: the offset in the buffer is
a free value (log 84). -/
def formA (w : Nat) (d : Int) : Op Nat := do
  let x ← cx
  let ea := (eaOf x.c.cur x.v.scatw x.ia w d 0).getD (x.c.cur.mb + Config.modZero x.s.free)
  if ea.toNat ≥ 2 ^ 42 then raiseA vTRANSLATION 1 ea.toNat false false
  else return ea.toNat

/-- Under pre-decrement the base register of bank b receives its value in b0, where the address was formed, less n, when
the instruction completes (R77, R78). -/
def Bank.basedFrom (w n : Nat) (b0 b : Bank) : Bank :=
  if fAM w ≠ 3 then b
  else match fBASE w with
  | 1 => { b with x1 := ⟨b0.x1.val - BitVec.ofNat 64 n, b.x1.tag⟩ }
  | 2 => { b with x2 := ⟨b0.x2.val - BitVec.ofNat 64 n, b.x2.tag⟩ }
  | 3 => { b with sp := b0.sp - BitVec.ofNat 64 n }
  | _ => b

/-- The update of a base register that the instruction has not changed itself (R78). -/
def Bank.based (w n : Nat) (b : Bank) : Bank := Bank.basedFrom w n b b

/-- The update of the base register of an instruction (R78). -/
def baseUpdate (w n : Nat) : Op Unit := modB (Bank.based w n)

/-- The update of the base register of an instruction that moves its cursors, from the bank b0 at which it formed its
address (R77, R78). -/
def baseUpdateFrom (w n : Nat) (b0 : Bank) : Op Unit := modB (Bank.basedFrom w n b0)

/-! Tagged word accesses. -/

/-- A bus error at an access (R189). -/
def busError {α : Type} (va : Nat) (wr split2 : Bool) : Op α := raiseA vBUS_ERROR 0 va wr split2

/-- The word at a checked target; control space is read as one access and gives RAW (R533). -/
def readTarget (t : Target) (va : Nat) : Op TWord := do
  match t with
  | .ctl off =>
    let x ← cx
    let (s, r) := (x.s.setCores (x.s.unitCores x.e) x.c).ctlRead x.e off
    set { x with s := s, c := s.core x.e }
    match r with
    | some v => return ⟨v, tRAW⟩
    | none => busError va false false
  | t => targetWord t va false

/-- A tagged word load: MISALIGNED, the access checks, then the tag of the word (R65, R66, R70). -/
def loadWord (va : Nat) : Op TWord := do
  needAligned va false
  let t ← access .read va false
  let w ← readTarget t va
  checkReadTag w.tag va
  return w

/-- Tagged word loads of several words: the access checks of all in order, then their values and tags
(R535 steps 4 and 5). ok is the tag check of the use (R65). -/
def loadWords (vas : List Nat) (ok : Tag → Bool) : Op (List TWord) := do
  let ts ← vas.mapM fun va => do
    needAligned va false
    let t ← access .read va false
    return (va, t)
  ts.mapM fun (va, t) => do
    let w ← readTarget t va
    checkReadTag w.tag va
    if ok w.tag then return w else raiseA vTAG_MISMATCH (w.tag.toNat + 8 * 16) va false false

/-- A target that a word store may write: not SEAL (R66). -/
def sealCheck (t : Target) (va : Nat) : Op Unit := do
  let x ← cx
  let tag : Tag := match t with
    | .tcm off => (sget raw0 x.c.tcm (off / 8)).tag
    | .mem pa _ => x.s.tagAt pa
    | .ctl _ => tRAW
  if tag = tSEAL then raiseA vTAG_MISMATCH (tagDetail tag 8) va true false else pure ()

/-- Write a tagged word at a checked target (R64; R533 for control space). -/
def writeTarget (t : Target) (va : Nat) (v : TWord) : Op Unit := do
  match t with
  | .tcm off => modC fun c => { c with tcm := sset raw0 c.tcm (off / 8) v }
  | .mem pa _ => modS fun s => s.storeWord pa v
  | .ctl off =>
    let x ← cx
    if x.s.ctlHeld off v.val then throw (.wait .run)
    let (s, ok) := (x.s.setCores (x.s.unitCores x.e) x.c).ctlWrite x.e off v.val
    set { x with s := s, c := s.core x.e }
    if ok then pure () else busError va true false

/-- The register checks of a word store: no POISON or reserved tag, and no SEAL at P2 (R65, R66, R535). -/
def storeTagCheck (t : Tag) (operand : Nat) : Op Unit := do
  needTag t true operand
  if t = tSEAL && (← privNow) ≥ 2 then privFault else pure ()

/-- A tagged word store to va after the register and address checks (R535 steps 4 and 5, R66). -/
def storeWordAt (va : Nat) (v : TWord) : Op Unit := do
  needAligned va true
  let t ← access .write va false
  sealCheck t va
  writeTarget t va v

/-! Bytes and fields (R67, R71). -/

/-- The pieces of an access of n bytes at va, divided at 8-byte boundaries. fuel bounds their number. -/
def pieces : Nat → Nat → Nat → List (Nat × Nat)
  | 0, _, _ => []
  | fuel + 1, va, n =>
    if n = 0 then []
    else
      let k := min n (8 - va % 8)
      (va, k) :: pieces fuel (va + k) (n - k)

/-- The pieces of a field. -/
def fieldPieces (va n : Nat) : List (Nat × Nat) := pieces (n + 1) va n

/-- Splits of an access: one less than its pieces (R150). -/
def splits (va n : Nat) : Nat := (fieldPieces va n).length - 1

/-- The tag of the word at a target. -/
def targetTag (x : Cx) (t : Target) : Tag :=
  match t with
  | .tcm off => (sget raw0 x.c.tcm (off / 8)).tag
  | .mem pa _ => x.s.tagAt pa
  | .ctl _ => tRAW

/-- The access checks of the pieces of one access, in ascending address order (R71, R535 step 4): a byte access may not
reach control space (R533). -/
def accessPieces (k : AK) : List (Nat × Nat) → Bool → Op (List (Target × Nat × Nat × Bool))
  | [], _ => return []
  | (va, n) :: r, split2 => do
    let t ← access k va split2
    match t with
    | .ctl _ => busError va k.isWrite split2
    | t =>
      let rest ← accessPieces k r true
      return (t, va, n, split2) :: rest

/-- The bytes of one checked piece; a POISON word raises POISON (R66, R67). -/
def pieceBytes (t : Target) (va n : Nat) (split2 : Bool) : Op (List Byte) := do
  let w ← targetWord t va split2
  if w.tag = tPOISON then raiseA vPOISON (tagDetail tPOISON 8) va false split2
  else return ((toBytes 8 w.val.toNat).drop (va % 8)).take n

/-- The bytes of the checked pieces, their tags in ascending address order (R535 step 5). -/
def fetchPieces : List (Target × Nat × Nat × Bool) → Op (List Byte)
  | [] => return []
  | (t, va, n, split2) :: r => do
    let bs ← pieceBytes t va n split2
    let rest ← fetchPieces r
    return bs ++ rest

/-- Check the pieces of an access and read them (R71, R535). -/
def readPieces (ps : List (Nat × Nat)) (split2 : Bool) : Op (List Byte) := do
  let ts ← accessPieces .read ps split2
  fetchPieces ts

/-- Read the pieces of a field, each checked whole before the next: its access, then its tag (R106). -/
def readEach : List (Nat × Nat) → Bool → Op (List Byte)
  | [], _ => return []
  | p :: r, split2 => do
    let bs ← readPieces [p] split2
    let rest ← readEach r true
    return bs ++ rest

/-- Read the n bytes of a decimal field at va (R71, R106). -/
def readField (va n : Nat) : Op (List Byte) := readEach (fieldPieces va n) false

/-- The tags of the words that a store would write: SEAL and POISON (R67). -/
def storeTags : List (Target × Nat × Nat × Bool) → Op Unit
  | [] => pure ()
  | (t, va, _, split2) :: r => do
    let tag := targetTag (← cx) t
    if tag = tSEAL then raiseA vTAG_MISMATCH (tagDetail tag 8) va true split2
    else if tag = tPOISON then raiseA vPOISON (tagDetail tag 8) va true split2
    else storeTags r

/-- Check the pieces of a store: the access checks of all, then SEAL and POISON words (R67, R73, R535). -/
def checkPieces (ps : List (Nat × Nat)) (split2 : Bool) : Op (List (Target × Nat)) := do
  let ts ← accessPieces .write ps split2
  storeTags ts
  return ts.map fun p => (p.1, p.2.2.1)

/-- Put bytes into a TCM word: value bytes replaced, tag RAW (R67). -/
def spliceWord (w : TWord) (o : Nat) (bs : List Byte) : TWord :=
  let old := toBytes 8 w.val.toNat
  ⟨BitVec.ofNat 64 (ofBytes (old.take o ++ bs ++ old.drop (o + bs.length))), tRAW⟩

/-- Write bytes at the checked pieces; each word written is tagged RAW (R67). -/
def writePieces : List (Target × Nat) → List Byte → Op Unit
  | [], _ => pure ()
  | (t, n) :: r, bs => do
    match t with
    | .tcm off =>
      modC fun c =>
        let v := spliceWord (sget raw0 c.tcm (off / 8)) (off % 8) (bs.take n)
        { c with tcm := sset raw0 c.tcm (off / 8) v }
    | .mem pa _ => modS fun s => s.storeBytes pa (bs.take n)
    | .ctl _ => pure ()
    writePieces r (bs.drop n)

/-- Check the pieces of a store to a field, each whole before the next: its access, then its tag (R106). -/
def checkEach : List (Nat × Nat) → Bool → Op (List (Target × Nat))
  | [], _ => return []
  | p :: r, split2 => do
    let t ← checkPieces [p] split2
    let rest ← checkEach r true
    return t ++ rest

/-- Check a store of the n bytes of a decimal field at va, all pieces before any is written (R71, R106). -/
def checkField (va n : Nat) : Op (List (Target × Nat)) := checkEach (fieldPieces va n) false

/-! The course of an instruction. -/

/-- The clocks of the cores of cluster c are stopped (R479). -/
def State.halted (s : State) (c : Nat) : Bool := bit (s.rd .dbgHalt) (32 + c)

/-- A step of core e is under way (R480). -/
def State.stepping (s : State) (e : Nat) : Bool :=
  match s.dbg.step with | some (k, _) => k == e && s.halted (e / 8) | none => false

/-- Core e issues instructions (R230, R249, R373, R389, R479, R480): its cluster is enabled and not in reset or
halted, but for a step, it is not SPARE, RETIRED or in C6, its slot is not frozen, and it waits for nothing. -/
def State.canIssue (s : State) (e : Nat) : Bool :=
  let c := s.core e
  let slotOk := match s.slotOf e with
    | some sl => s.slotState (e / 8) sl == slACTIVE || s.slotState (e / 8) sl == slSPLIT
    | none => true
  s.clusterOn (e / 8) && !s.cluInReset.contains (e / 8)
    && (s.stepping e || (!s.halted (e / 8) && slotOk))
    && c.stateCode != csSPARE && c.stateCode != csRETIRED && !c.c6 && c.act == .run

/-- The budget of the level 0 context of core e has run out, and BUDGET_EXCEEDED is due (R176, R247). -/
def State.budgetDue (s : State) (e : Nat) : Bool :=
  let c := s.core e
  c.lev == 0 && c.ctx.isSome && c.armed && fld c.budget 31 0 == 0 && !c.mid

/-- The step of core e under way lets no request in (R480). -/
def State.stepMasks (s : State) (e : Nat) : Bool :=
  match s.dbg.step with | some (k, int) => k == e && !int && s.halted (e / 8) | none => false

/-- The request that core e would take at this boundary, with its vector entry (R176, R181): none before the first handler
instruction of an entry has retired, and none while a customer instruction is under way (R220). -/
def State.requestDue (s : State) (e : Nat) : Option (Nat × Word) :=
  let c := s.core e
  if c.entering.isSome || c.mid || s.stepMasks e then none
  else s.pick e (effVal s.free 0x14 c.lmask c.delayed) c.lev c.cur.psw c.vbr

/-- Core e issues its next instruction at this boundary: neither BUDGET_EXCEEDED nor a request comes first (R176). -/
def State.issuesNow (s : State) (e : Nat) : Bool := s.canIssue e && !s.budgetDue e && (s.requestDue e).isNone

/-- Retire: the PC moves on, the windows of R85 age, an entry in progress is over, the cost is charged. -/
def Core.retire (c : Core) (npc : Word) (charge : Nat) (ent : Option Entering) : Core :=
  { (c.leaveMid.ageWindow).charge charge with pc := npc, retired := c.retired + 1, entering := ent }

/-- The outcome of an instruction's operation on the unit of core e (R176, R188). -/
def finishOp (e : Nat) (free : Nat) : EStateM.Result Stop Cx Unit → State
  | .ok _ x => x.s.setCores (x.s.unitCores e) (x.c.retire x.npc (x.charged free x.cost) x.ent)
  | .error (.wait a) x => x.s.setCores (x.s.unitCores e) { x.c with act := a, mid := x.path.isSome }
  | .error (.exc q) x =>
    let rpc := if q.after then x.npc else x.ipc
    let c := x.c.leaveMid.charge (x.charged free x.xcost)
    if q.vec = vMACHINE_CHECK then x.s.machineCheck e c (q.detail / 65536) (q.detail % 65536) rpc
    else
      let c := if q.after then { c with entering := none, retired := c.retired + 1 } else c
      x.s.takeExc e c q rpc

/-- The listed cost of an instruction that completes or learns of its exception late (R150): the context
starts with 1 cc. -/
def done (n : Nat) : Op Unit := modify fun x => { x with cost := x.cost + (n - 1), xcost := x.cost + (n - 1) }

/-- The context in which core e starts an instruction with first word w of len bytes. -/
def State.startCx (s : State) (e w len : Nat) : Cx :=
  let c := s.core e
  ⟨s.takeFree, e, c, c.view s.free, w, c.pc, c.pc, c.pc + BitVec.ofNat 64 len, 1, 1, none,
    if s.stepping e then some 1 else none, none, false⟩

/-- At most this many elements are performed before a boundary (R118, R480). -/
def limited (n : Nat) : Op Nat := do
  match (← cx).lim with
  | some k => return min k n
  | none => return n

/-- An interruptible instruction stops at an element boundary (R118): it does not retire, PC still names it and what
it has done is kept; the cycles so far are charged. -/
def pause : Op Unit := do
  let x ← cx
  modC fun c => c.charge (chargeOf x.c x.s.free x.cost)
  throw (.wait .run)

/-! Trace and steps around an instruction. -/

/-- The trace packets of an instruction of core e that pre was the state before (R485, R487). -/
def State.traceIns (s : State) (pre : Core) (e w : Nat) : State :=
  match s.trcKey e with
  | none => s
  | some k =>
    let c := s.core e
    let op := fOPC w
    let taken := condHolds (fCOND w) pre.cur.psw
    if c.act == .c1 then s.trcSleep k 1
    else if c.retired == pre.retired then s
    else if op == 0x02 || op == 0x03 || op == 0x04 then
      if !taken || (op != 0x04 && fBASE w == 4) then s.trcAtom k pre.pc taken
      else s.trcInd k pre.pc c.pc
    else if op == 0x05 && taken && c.act != .disp then
      match c.entering with
      | some q => s.trcEmit k pre.pc (trcPkt 3 [(1, q.vec), (1, c.lev), (5, fld (c.link c.lev).lpc.val 41 2)])
      | none => s.trcInd k pre.pc c.pc
    else s

/-- The instructions that a step does not execute (R480): POST, POSTR, PREAD, RREAD, DISPATCH, YIELD.END, YIELD.SUS. -/
def stepBlocked (w : Nat) : Bool :=
  [0x09, 0x0A, 0x0B, 0x70, 0x71, 0x72, 0x73].contains (fOPC w)

/-- A step ends (R480): DONE, and BLK when it stopped before a blocked instruction. -/
def State.endStep (s : State) (blk : Bool) : State :=
  ((s.wf .dbgStep 9 9 1).wf .dbgStep 10 10 (b2n blk)).modDbg fun d => { d with step := none }

/-- The device with the SYNC that trace puts before an instruction of core e, where one is due (R486). -/
def State.preTrace (s : State) (e : Nat) : State :=
  match s.trcKey e with
  | some k => s.trcBegin k (s.core e).pc
  | none => s

/-- After an instruction of core e, which pre was before it: trace collects it (R483), and a step ends at its
retirement or at an element boundary (R480), where PC still names the instruction and the bank has changed. stepping: a step
of the core was under way. -/
def State.postTrace (s : State) (pre : Core) (e w : Nat) (stepping : Bool) : State :=
  let s2 := s.traceIns pre e w
  let post := s2.core e
  let element := post.lev == pre.lev && post.pc == pre.pc && post.act == .run && post.cur != pre.cur
  if stepping && (post.retired != pre.retired || element) then s2.endStep false else s2

/-- An instruction f of core e with what goes on around it (R480, R483). -/
def State.around (s : State) (e w : Nat) (f : State → State) : State :=
  if s.stepping e && stepBlocked w then s.endStep true
  else (f (s.preTrace e)).postTrace (s.core e) e w (s.stepping e)

/-- One instruction of core e (R76): decode checks, the condition, then its operation. ok is the decode
check of the instruction; a word that fails it raises ILLEGAL_OPCODE. -/
def State.runIns (s : State) (e w : Nat) (ok : Bool) (body : Op Unit) : State :=
  if !s.issuesNow e then s
  else s.around e w fun s =>
    let x := s.startCx e w (insLen w)
    if !ok then finishOp e s.free (illegal x)
    else if fCOND w = 15 then finishOp e s.free (raiseV vILLEGAL_COND w x)
    else if !condHolds (fCOND w) x.c.cur.psw then
      finishOp e s.free (setCost (if fL w then 2 else 1) x)
    else finishOp e s.free (body x)

end Sys2Proof.Machine
end

