-- ==== Sys2Proof/Machine/Flags.lean ====
section
/-!
DEFINITION. Every flag computation on PSW (R121, R122, R123, R138, R158, R159) and the tag rules of
register operands (R65, R68).
-/
namespace Sys2Proof.Machine

/-- Set flag bit i of the current PSW. -/
def setFlag (i : Nat) (b : Bool) : Op Unit := modB fun bk => { bk with psw := setBit bk.psw i b }

/-- The PSW with Z and N (bits 0 and 1) replaced. -/
def pswZN (p : Word) (z n : Bool) : Word := setBit (setBit p 0 z) 1 n

/-- The PSW with Z, N and V replaced; C is kept. -/
def pswZNV (p : Word) (z n v : Bool) : Word := setBit (pswZN p z n) 3 v

/-- The PSW with Z, N, C and V replaced. -/
def pswZNCV (p : Word) (z n c v : Bool) : Word := setBit (pswZNV p z n v) 2 c

/-- Set Z and N. -/
def flagsZN (z n : Bool) : Op Unit := modB fun b => { b with psw := pswZN b.psw z n }
/-- Set Z, N and V. -/
def flagsZNV (z n v : Bool) : Op Unit := modB fun b => { b with psw := pswZNV b.psw z n v }
/-- Set Z, N, C and V. -/
def flagsZNCV (z n c v : Bool) : Op Unit := modB fun b => { b with psw := pswZNCV b.psw z n c v }

/-- Signed overflow of an addition (R121). -/
def addV (a b : Word) : Bool := a.toInt + b.toInt ≠ (a + b).toInt
/-- Carry out of bit 63 of an addition (R121). -/
def addC (a b : Word) : Bool := a.toNat + b.toNat ≥ 2 ^ 64
/-- Signed overflow of a subtraction (R121). -/
def subV (a b : Word) : Bool := a.toInt - b.toInt ≠ (a - b).toInt
/-- C of a subtraction: the first operand is below the second as unsigned (R121). -/
def subC (a b : Word) : Bool := a.toNat < b.toNat

/-- PSW after ADD (R121). -/
def addPsw (p a b : Word) : Word := pswZNCV p (a + b == 0) (bit (a + b) 63) (addC a b) (addV a b)
/-- PSW after SUB or a compare (R121). -/
def subPsw (p a b : Word) : Word := pswZNCV p (a - b == 0) (bit (a - b) 63) (subC a b) (subV a b)

/-- The result tag of the logical row of R65: RAW if either operand is RAW, else INT. -/
def logicTag (a b : Tag) : Tag := if a = tRAW ∨ b = tRAW then tRAW else tINT

/-- May tag old be replaced by new at a privilege (R68)? none: permitted; otherwise the vector raised. -/
def tagChange (priv : Nat) (old new : Tag) : Option Nat :=
  if new = tPOISON || tagReserved new then some vTAG_MISMATCH
  else if old = new then none
  else if priv < 2 then none
  else if old = tRAW && (new = tINT || new = tPDEC || new = tPTR || new = tDESC || new = tTEXT || new = tBFP || new = tDFP)
  then none
  else some vPRIVILEGE

end Sys2Proof.Machine
end

