-- ==== Sys2Proof/Machine/Ext.lean ====
section
/-!
DEFINITION. The extension state (R199, R200) and level 0 contexts: ending, suspending and waiting for one
(R169, R170, R195, R345).
-/
namespace Sys2Proof.Machine

/-- The result type of a meaning. -/
abbrev Out := Host.Outcome State Fault Refusal

/-- A failed save or load of the extension state: MACHINE_CHECK, source 0x0401, restartable (R199, R395). -/
def extFail : Op Unit := raiseV vMACHINE_CHECK 0x04010001

/-- The cost of a load of the extension state, charged to the instruction that makes the first use (R199). -/
def extCost (n : Nat) : Op Unit := modify fun x => { x with cost := x.cost + n, xcost := x.xcost + n }

/-- A use of the extension state by any level (R199); w: the use writes an extension register. -/
def extUse (w : Bool) : Op Unit := do
  let x ← cx
  let (s, c, n, ok) := x.s.extOwn x.c
  set { x with s := s, c := c }
  extCost n
  if !ok then extFail
  if w then modC fun c => { c with xown := setBit c.xown 1 true } else pure ()

/-- Level 0 stands in a DISPATCH of its own: PSW PRIV P1, KEY 0x00, GM 1, every other field 0 but TX, which
follows CORE_MODE (R195, R61). -/
def dispPsw (c : Core) : Word := setBit (setFld (setBit 0 26 true) 39 38 1) 37 c.tx

/-- End the level 0 context and wait in DISPATCH (R170, R195): a synchronising event. -/
def Core.toDispatch (c : Core) : Core :=
  { c.dropCtx.sync with act := .disp, dead0 := true }

/-- Abort the level 0 context of a core (R195): its bank is left undefined, its extension state is
discarded; at level 0 the core performs DISPATCH at once, under a handler the RETL does. -/
def Core.abort0 (c : Core) (free : Nat) : Core :=
  let v (i : Nat) : TWord := ⟨(Config.abortedBank free i).setWidth 64, ((Config.abortedBank free i) >>> 64).setWidth 4⟩
  let b : Bank := ⟨v 0, v 1, v 2, v 3, (v 4).val, (v 5).val, (v 6).val, (v 7).val, dispPsw c⟩
  let c1 := c.dropCtx.setBank 0 b
  if c.lev = 0 then { c1.sync with act := .disp, dead0 := true, aborted0 := false, entering := none }
  else { c1 with dead0 := true, aborted0 := true, act := if c.act == .disp then .run else c.act }

/-- The run is running on one of these cores. -/
def Run.runsOn (r : Run) (es : List Nat) : Bool :=
  match r.st with
  | .running k => es.contains k
  | _ => false

/-- Write level 0 to the context save area (R170, R345): the bank with tags, the PC tagged CODE and
CORE_BUDGET. -/
def State.saveCtx (s : State) (a : Nat) (b : Bank) (pc budget : Word) : State :=
  let s := (List.range 9).foldl (fun s r => s.storeWord (a + 8 * r) (b.reg r)) s
  (s.storeWord (a + 0x48) ⟨pc, tCODE⟩).storeWord (a + 0x50) ⟨budget, tRAW⟩

end Sys2Proof.Machine
end

