-- ==== Sys2Proof/Machine/Accum.lean ====
section
/-!
DEFINITION. Accumulator, index and tag instructions (R121 to R124, R158 to R161) and STM and LDM (R81 to R83).
-/
namespace Sys2Proof.Machine

/-- The word operand of an M-format instruction: address formation and a tagged word load (R158, R535). -/
def memOperand (w x : BitVec 32) : Op TWord := do
  let ea ← formEa w.toNat (dispOf w.toNat x.toNat) 8 false
  let v ← loadWord ea
  return v

/-- The word operand with a required tag (R65): TAG_MISMATCH names the memory word. -/
def memOperandTag (w x : BitVec 32) (ok : Tag → Bool) : Op TWord := do
  let ea ← formEa w.toNat (dispOf w.toNat x.toNat) 8 false
  let v ← loadWord ea
  if ok v.tag then return v else raiseA vTAG_MISMATCH (tagDetail v.tag 8) ea false false

/-- A word load into a register (R158). -/
def loadIns (e : Fin 256) (w x : BitVec 32) (put : Bank → TWord → Bank) (s : State) : State :=
  s.runIns e w.toNat (fmtOk .m w.toNat) do
    let v ← memOperand w x
    baseUpdate w.toNat 8
    modB fun b => put b v
    done 2

/-- A word store of a register (R158, R66). -/
def storeIns (e : Fin 256) (w x : BitVec 32) (r : Nat) (s : State) : State :=
  s.runIns e w.toNat (fmtOk .m w.toNat) do
    let v := (← curB).reg r
    storeTagCheck v.tag r
    let ea ← formEa w.toNat (dispOf w.toNat x.toNat) 8 true
    storeWordAt ea v
    baseUpdate w.toNat 8
    done 2

/-- LD (R158). -/
def execLd (e : Fin 256) (w x : BitVec 32) (s : State) : Out := .next (loadIns e w x (fun b v => { b with acc := v }) s)
/-- LDE (R158). -/
def execLde (e : Fin 256) (w x : BitVec 32) (s : State) : Out := .next (loadIns e w x (fun b v => { b with aex := v }) s)
/-- ST (R158). -/
def execSt (e : Fin 256) (w x : BitVec 32) (s : State) : Out := .next (storeIns e w x 0 s)
/-- STE (R158). -/
def execSte (e : Fin 256) (w x : BitVec 32) (s : State) : Out := .next (storeIns e w x 1 s)

/-- LEA (R158): ACC := ea, tagged PTR. -/
def execLea (e : Fin 256) (w x : BitVec 32) (s : State) : Out :=
  .next (s.runIns e w.toNat (fmtOk .a w.toNat) do
    let ea ← formA w.toNat (dispOf w.toNat x.toNat)
    modB fun b => { b with acc := ⟨BitVec.ofNat 64 ea, tPTR⟩ }
    done 1)

/-- An instruction on ACC and an INT word (R65, R121): f gives the new bank. -/
def intIns (e : Fin 256) (w x : BitVec 32) (n : Nat) (f : Bank → Word → Bank) (s : State) : State :=
  s.runIns e w.toNat (fmtOk .m w.toNat) do
    let a := (← curB).acc
    needTag a.tag (a.tag == tINT) 0
    let v ← memOperandTag w x (· == tINT)
    baseUpdate w.toNat 8
    modB fun b => f b v.val
    done n

/-- ACC + word (R121). -/
def addBank (b : Bank) (v : Word) : Bank := { b with acc := ⟨b.acc.val + v, tINT⟩, psw := addPsw b.psw b.acc.val v }
/-- ACC − word (R121). -/
def subBank (b : Bank) (v : Word) : Bank := { b with acc := ⟨b.acc.val - v, tINT⟩, psw := subPsw b.psw b.acc.val v }

/-- ADD (R121, R158). -/
def execAdd (e : Fin 256) (w x : BitVec 32) (s : State) : Out := .next (intIns e w x 2 addBank s)
/-- SUB (R121, R158). -/
def execSub (e : Fin 256) (w x : BitVec 32) (s : State) : Out := .next (intIns e w x 2 subBank s)

/-- CMP (R121, R158): INT with INT or PTR with PTR. -/
def execCmp (e : Fin 256) (w x : BitVec 32) (s : State) : Out :=
  .next (s.runIns e w.toNat (fmtOk .m w.toNat) do
    let a := (← curB).acc
    needTag a.tag (a.tag == tINT || a.tag == tPTR) 0
    let v ← memOperandTag w x (· == a.tag)
    baseUpdate w.toNat 8
    modB fun b => { b with psw := subPsw b.psw a.val v.val }
    done 2)

/-- Z, N and V of a logical result (R158). -/
def logicPsw (p r : Word) : Word := pswZNV p (r == 0) (bit r 63) false

/-- A logical instruction (R65, R158). -/
def logicIns (e : Fin 256) (w x : BitVec 32) (f : Word → Word → Word) (s : State) : State :=
  s.runIns e w.toNat (fmtOk .m w.toNat) do
    let a := (← curB).acc
    needTag a.tag (a.tag == tRAW || a.tag == tINT) 0
    let v ← memOperandTag w x fun t => t == tRAW || t == tINT
    baseUpdate w.toNat 8
    modB fun b => { b with acc := ⟨f a.val v.val, logicTag a.tag v.tag⟩, psw := logicPsw b.psw (f a.val v.val) }
    done 2

/-- AND (R158). -/
def execAndAcc (e : Fin 256) (w x : BitVec 32) (s : State) : Out := .next (logicIns e w x (· &&& ·) s)
/-- OR (R158). -/
def execOrAcc (e : Fin 256) (w x : BitVec 32) (s : State) : Out := .next (logicIns e w x (· ||| ·) s)
/-- XOR (R158). -/
def execXor (e : Fin 256) (w x : BitVec 32) (s : State) : Out := .next (logicIns e w x (· ^^^ ·) s)

/-- Shifts (R158): k is ea[5:0]; f gives the result and the last bit shifted out for k > 0. -/
def shiftIns (e : Fin 256) (w x : BitVec 32) (f : Word → Nat → Word × Bool) (s : State) : State :=
  s.runIns e w.toNat (fmtOk .a w.toNat) do
    let a := (← curB).acc
    needTag a.tag (a.tag == tRAW || a.tag == tINT) 0
    let ea ← formA w.toNat (dispOf w.toNat x.toNat)
    let k := ea % 64
    let (r, out) := f a.val k
    modB fun b => { b with acc := ⟨r, logicTag a.tag a.tag⟩, psw := pswZNCV b.psw (r == 0) (bit r 63) (k != 0 && out) false }
    done 1

/-- SHL (R158). -/
def execShl (e : Fin 256) (w x : BitVec 32) (s : State) : Out :=
  .next (shiftIns e w x (fun a k => (a <<< k, bit a (64 - k))) s)
/-- SHR (R158). -/
def execShr (e : Fin 256) (w x : BitVec 32) (s : State) : Out :=
  .next (shiftIns e w x (fun a k => (a >>> k, bit a (k - 1))) s)
/-- SAR (R158). -/
def execSar (e : Fin 256) (w x : BitVec 32) (s : State) : Out :=
  .next (shiftIns e w x (fun a k => (a.sshiftRight k, bit a (k - 1))) s)

/-- The bank after a 128-bit product p (R122): high half to AEX, low half to ACC, both INT. -/
def mulBank (b : Bank) (p : Int) (v : Bool) : Bank :=
  let bits := BitVec.ofInt 128 p
  let hi : Word := (bits >>> 64).setWidth 64
  { b with aex := ⟨hi, tINT⟩, acc := ⟨bits.setWidth 64, tINT⟩, psw := pswZNCV b.psw (p == 0) (bit hi 63) v v }

/-- MUL (R122): V when AEX is not the sign extension of ACC. -/
def execMul (e : Fin 256) (w x : BitVec 32) (s : State) : Out :=
  .next (intIns e w x 5 (fun b v =>
    let p := b.acc.val.toInt * v.toInt
    mulBank b p (decide (p < -(2 ^ 63) ∨ p ≥ 2 ^ 63))) s)

/-- MULU (R122): V when AEX ≠ 0. -/
def execMulu (e : Fin 256) (w x : BitVec 32) (s : State) : Out :=
  .next (intIns e w x 5 (fun b v =>
    let p : Int := (b.acc.val.toNat * v.toNat : Nat)
    mulBank b p (decide (p ≥ 2 ^ 64))) s)

/-- The bank after a division with quotient q and remainder r (R123, R124). fits: q fits in 64 bits. -/
def divBank (b : Bank) (q r : Int) (fits : Bool) : Bank :=
  if fits then { b with acc := ⟨ofInt q, tINT⟩, aex := ⟨ofInt r, tINT⟩, psw := pswZNV b.psw (ofInt q == 0) (bit (ofInt q) 63) false }
  else { b with psw := setBit b.psw 3 true }

/-- The dividend AEX:ACC (R123), unsigned. -/
def dividend (b : Bank) : Nat := b.aex.val.toNat * 2 ^ 64 + b.acc.val.toNat

/-- DIV and DIVU (R123, R124): a zero divisor raises DIVIDE_BY_ZERO after the full cost. -/
def divIns (e : Fin 256) (w x : BitVec 32) (f : Bank → Word → Bank) (s : State) : State :=
  s.runIns e w.toNat (fmtOk .m w.toNat) do
    let b ← curB
    needTag b.acc.tag (b.acc.tag == tINT) 0
    needTag b.aex.tag (b.aex.tag == tINT) 1
    let v ← memOperandTag w x (· == tINT)
    done 68
    if v.val = 0 then raiseV vDIVIDE_BY_ZERO 0
    baseUpdate w.toNat 8
    modB fun b => f b v.val

/-- DIV (R123). -/
def execDiv (e : Fin 256) (w x : BitVec 32) (s : State) : Out :=
  .next (divIns e w x (fun b v =>
    let d := sext 128 (dividend b)
    let q := d.tdiv v.toInt
    divBank b q (d.tmod v.toInt) (decide (-(2 ^ 63) ≤ q ∧ q < 2 ^ 63))) s)

/-- DIVU (R123). -/
def execDivu (e : Fin 256) (w x : BitVec 32) (s : State) : Out :=
  .next (divIns e w x (fun b v =>
    let d := dividend b
    divBank b (d / v.toNat : Nat) (d % v.toNat : Nat) (decide (d / v.toNat < 2 ^ 64))) s)

/-! STM and LDM (R81 to R83). -/

/-- The registers of a mask, ascending, with their positions (R81, R82). -/
def maskRegs (mask : Nat) : List (Nat × Nat) :=
  let rs := (List.range 9).filter mask.testBit
  rs.mapIdx fun i r => (r, i)

/-- Mark register r as transferred in PSW.PROG (R61, R82). -/
def setProg (r : Nat) : Op Unit := modB fun b => { b with psw := setBit b.psw (55 + r) true }

/-- The registers before the boundary at which an interrupt is to be taken, for STM and LDM (R82). -/
def setStop (n : Option Nat) : Op Unit := modify fun x => { x with lim := n }

/-- One register more has been transferred: it is in PROG, it costs 1 cc, and a boundary is one nearer (R82). -/
def regDone (r : Nat) : Op Unit := do
  setProg r
  addCost 1
  modify fun x => { x with lim := x.lim.map (· - 1) }

/-- Transfer the registers not yet in PROG (R82), counting them. At the boundary at which an interrupt is to be taken
with a register still to go, the instruction stops. -/
def eachReg (f : Nat → Nat → Op Unit) (ea : Nat) : List (Nat × Nat) → Op Unit
  | [] => pure ()
  | (r, i) :: l => do
    if bit (← curB).psw (55 + r) then eachReg f ea l
    else
      if (← cx).lim = some 0 then pause
      f r (ea + 8 * i)
      regDone r
      eachReg f ea l

/-- Completion of STM and LDM: PROG := 0, the base register under pre-decrement (R82). -/
def endMulti (w n : Nat) : Op Unit := do
  modB fun b => { b with psw := setFld b.psw 63 55 0 }
  baseUpdate w n
  addCost 1

/-- The register checks of STM, before address formation (R535 step 2): those of a word store of each register that is
still to be transferred (R82). -/
def stmCheck : List (Nat × Nat) → Op Unit
  | [] => pure ()
  | (r, _) :: l => do
    let b ← curB
    if bit b.psw (55 + r) then stmCheck l
    else
      storeTagCheck (b.reg r).tag r
      stmCheck l

/-- STM stores register r at a (R81, R83: PROG of the word is 0). -/
def stmElem (r a : Nat) : Op Unit := do
  let v := (← curB).reg r
  storeWordAt a (if r = 8 then ⟨setFld v.val 63 55 0, tRAW⟩ else v)

/-- STM (R81 to R83). With stop, an interrupt is to be taken after that many registers (R82). -/
def execStm (e : Fin 256) (w : BitVec 32) (x : MultiExt) (s : State) : Out :=
  .next (s.runIns e w.toNat (fmtOk .k w.toNat && fMASK w.toNat != 0) do
    setStop x.stop
    let rs := maskRegs (fMASK w.toNat)
    stmCheck rs
    let ea ← formEa w.toNat (dispK w.toNat x.ext.toNat) (8 * rs.length) true
    needAligned ea true
    eachReg stmElem ea rs
    endMulti w.toNat (8 * rs.length))

/-- The mask names the base or index register of the instruction (R81). -/
def maskUses (w : Nat) : Bool :=
  let m := fMASK w
  (fBASE w == 1 && m.testBit 2) || (fBASE w == 2 && m.testBit 3) || (fBASE w == 3 && m.testBit 5)
    || (fBASE w == 5 && m.testBit 6) || (fIDX w == 1 && m.testBit 2) || (fIDX w == 2 && m.testBit 3)
    || (fIDX w == 3 && m.testBit 4)

/-- Load the PSW element of LDM (R62, R83): PROG of the word is ignored. -/
def ldmPsw (v : TWord) : Op Unit := do
  let x ← cx
  let old := x.c.cur.psw
  let nv := setFld v.val 63 55 (fld old 63 55)
  if !pswAllowedLdm (pPRIV old) old nv then privFault
  else
    let code := 0x10000 + x.c.lev
    modC fun c => (c.setCur { c.cur with psw := pswStore old nv }).openWindow code old
where
  /-- R62, as CSRW applies it. -/
  pswAllowedLdm (priv : Nat) (old v : Word) : Bool :=
    let same (hi lo : Nat) : Bool := fld old hi lo == fld v hi lo
    fld v 39 38 != 3 &&
    (priv == 0 || (priv == 1 && (same 39 38 || fld v 39 38 == 1 || fld v 39 38 == 2))
      || (same 47 40 && same 26 26 && same 39 38))

/-- LDM loads register r from a (R81, R83). -/
def ldmElem (r a : Nat) : Op Unit := do
  let v ← loadWord a
  if r < 4 then modB fun b => b.setReg r v
  else
    let want := (Bank.cold.reg r).tag
    if v.tag ≠ want then raiseA vTAG_MISMATCH (tagDetail v.tag 8) a false false
    if r = 8 then ldmPsw v else modB fun b => b.setReg r v

/-- LDM (R81 to R83). With stop, an interrupt is to be taken after that many registers (R82). -/
def execLdm (e : Fin 256) (w : BitVec 32) (x : MultiExt) (s : State) : Out :=
  .next (s.runIns e w.toNat (fmtOk .k w.toNat && fMASK w.toNat != 0 && !maskUses w.toNat) do
    setStop x.stop
    let rs := maskRegs (fMASK w.toNat)
    let ea ← formEa w.toNat (dispK w.toNat x.ext.toNat) (8 * rs.length) false
    needAligned ea false
    eachReg ldmElem ea rs
    endMulti w.toNat (8 * rs.length))

/-! Register instructions (R159, R160). -/

/-- The immediate of format R (R145). -/
def immR (w x : Nat) : Int := if fL w then sext 32 x else sext 11 (wf w 10 0)

/-- Register RS, or 0 for 0xF (R146). -/
def rsVal (b : Bank) (rs : Nat) : Word := if rs = 0xF then 0 else (b.reg rs).val

/-- MOV (R160). -/
def execMov (e : Fin 256) (w _x : BitVec 32) (s : State) : Out :=
  .next (s.runIns e w.toNat (fmtOk .r w.toNat && fRD w.toNat < 8 && fRS w.toNat < 8) do
    modB fun b => b.setReg (fRD w.toNat) (b.reg (fRS w.toNat))
    done 1)

/-- LDI (R159): tag INT if RD is tagged. -/
def execLdi (e : Fin 256) (w x : BitVec 32) (s : State) : Out :=
  .next (s.runIns e w.toNat (fmtOk .r w.toNat && fRD w.toNat < 8 && fRS w.toNat == 0xF) do
    modB fun b => b.setReg (fRD w.toNat) ⟨ofInt (immR w.toNat x.toNat), tINT⟩
    done 1)

/-- XADD and XSUB (R65, R159): RD is X1, X2, CNT or SP. -/
def indexIns (e : Fin 256) (w : BitVec 32) (f : Word → Word → Word) (s : State) : State :=
  let rd := fRD w.toNat
  let rs := fRS w.toNat
  s.runIns e w.toNat (fmtOk .r w.toNat && 2 ≤ rd && rd ≤ 5 && (rs < 8 || rs == 0xF)) do
    let b ← curB
    if rd < 4 then needTag (b.reg rd).tag ((b.reg rd).tag == tPTR || (b.reg rd).tag == tINT) rd
    if rs < 4 then needTag (b.reg rs).tag ((b.reg rs).tag == tINT) rs
    let r := f (b.reg rd).val (rsVal b rs)
    modB fun b => b.setReg rd ⟨r, (b.reg rd).tag⟩
    flagsZN (r == 0) (bit r 63)
    done 1

/-- XADD (R159). -/
def execXadd (e : Fin 256) (w x : BitVec 32) (s : State) : Out :=
  .next (indexIns e w (fun a b => a + b + ofInt (immR w.toNat x.toNat)) s)
/-- XSUB (R159). -/
def execXsub (e : Fin 256) (w x : BitVec 32) (s : State) : Out :=
  .next (indexIns e w (fun a b => a - b - ofInt (immR w.toNat x.toNat)) s)

/-- XCMP (R159): TAG_MISMATCH when both registers are tagged and differ in tag; DETAIL names RS (log 20). -/
def execXcmp (e : Fin 256) (w x : BitVec 32) (s : State) : Out :=
  let rd := fRD w.toNat
  let rs := fRS w.toNat
  .next (s.runIns e w.toNat (fmtOk .r w.toNat && rd < 8 && (rs < 8 || rs == 0xF)) do
    let b ← curB
    if rd < 4 && rs < 4 && (b.reg rd).tag != (b.reg rs).tag then raiseV vTAG_MISMATCH (tagDetail (b.reg rs).tag rs)
    let o := rsVal b rs + ofInt (immR w.toNat x.toNat)
    modB fun b => { b with psw := subPsw b.psw (b.reg rd).val o }
    done 1)

/-! Tag instructions (R68, R161). -/

/-- The immediate of TTST and TAGSET has no bit above bit 3, RD is tagged and RS is 0xF (R161). -/
def tagFormOk (w x : Nat) : Bool :=
  fmtOk .r w && fRD w < 4 && fRS w == 0xF && (if fL w then x / 16 == 0 else wf w 10 4 == 0)

/-- t of TTST and TAGSET (R161). -/
def tagImm (w x : Nat) : Tag := BitVec.ofNat 4 (if fL w then x else w)

/-- TTST (R161). -/
def execTtst (e : Fin 256) (w x : BitVec 32) (s : State) : Out :=
  .next (s.runIns e w.toNat (tagFormOk w.toNat x.toNat) do
    setFlag 6 (((← curB).reg (fRD w.toNat)).tag == tagImm w.toNat x.toNat)
    done 1)

/-- Raise for a tag change that R68 does not permit. -/
def tagChangeCheck (old new : Tag) (operand : Nat) (addr : Option Nat) : Op Unit := do
  match tagChange (← privNow) old new with
  | none => pure ()
  | some v =>
    if v = vPRIVILEGE then privFault
    else raiseExc ⟨v, tagDetail old operand, addr, addr.isSome, false, false⟩

/-- TAGSET (R68, R161). -/
def execTagset (e : Fin 256) (w x : BitVec 32) (s : State) : Out :=
  .next (s.runIns e w.toNat (tagFormOk w.toNat x.toNat) do
    let rd := fRD w.toNat
    let v := (← curB).reg rd
    tagChangeCheck v.tag (tagImm w.toNat x.toNat) rd none
    modB fun b => b.setReg rd ⟨v.val, tagImm w.toNat x.toNat⟩
    done 1)

/-- t of TTSTM and TAGSETM: ACC[3:0], ACC tagged RAW or INT (R161). -/
def accTag : Op Tag := do
  let a := (← curB).acc
  needTag a.tag (a.tag == tRAW || a.tag == tINT) 0
  return a.val.setWidth 4

/-- TTSTM (R161). -/
def execTtstm (e : Fin 256) (w x : BitVec 32) (s : State) : Out :=
  .next (s.runIns e w.toNat (fmtOk .m w.toNat) do
    let t ← accTag
    let v ← memOperand w x
    baseUpdate w.toNat 8
    setFlag 6 (v.tag == t)
    done 2)

/-- TAGSETM (R68, R161, R533): a store for key checking; the value is unchanged. -/
def execTagsetm (e : Fin 256) (w x : BitVec 32) (s : State) : Out :=
  .next (s.runIns e w.toNat (fmtOk .m w.toNat) do
    let t ← accTag
    let ea ← formEa w.toNat (dispOf w.toNat x.toNat) 8 true
    needAligned ea true
    let tg ← access .write ea false
    match tg with
    | .ctl _ => busError ea true false
    | tg =>
      let v ← targetWord tg ea false
      checkReadTag v.tag ea
      tagChangeCheck v.tag t 8 (some ea)
      if v.tag = t then pure () else writeTarget tg ea ⟨v.val, t⟩
      baseUpdate w.toNat 8
      done 2)

end Sys2Proof.Machine
end

