-- ==== Sys2Proof/Machine/Control.lean ====
section
/-!
DEFINITION. Control transfer and system instructions (R151 to R157, R169, R170).
-/
namespace Sys2Proof.Machine

/-- NOP (R151). -/
def execNop (e : Fin 256) (w _x : BitVec 32) (s : State) : Out :=
  .next (s.runIns e w.toNat (fmtOk .n w.toNat) (done 1))

/-- The transfer target has bits 1:0 zero, else MISALIGNED (R70). -/
def needTarget (ea : Nat) : Op Unit := if ea % 4 = 0 then pure () else raiseA vMISALIGNED 0 ea false false

/-- Transfer control. -/
def goTo (pc : Word) : Op Unit := modify fun x => { x with npc := pc }

/-- JMP (R151): PC := ea. -/
def execJmp (e : Fin 256) (w x : BitVec 32) (s : State) : Out :=
  .next (s.runIns e w.toNat (fmtOk .a w.toNat) do
    let ea ← formA w.toNat (dispOf w.toNat x.toNat)
    needTarget ea
    goTo (BitVec.ofNat 64 ea)
    done 2)

/-- The Markhor check is active (R196): the core state is BOOT, TEST or RECOVERY. -/
def markhor (c : Core) : Bool :=
  c.stateCode == csBOOT || c.stateCode == csTEST || c.stateCode == csRECOVERY

/-- TCM word of shadow stack entry i (R197). -/
def shadowWord (c : Core) (i : Nat) : Nat := (fld c.shstk 17 11 * 2048 + 8 * i) / 8 % 32768

/-- Push on the return stack (R80). -/
def Core.push (c : Core) (v : TWord) : Core :=
  let top := fld c.rsctl 12 8
  { c with rstk := sset raw0 c.rstk top v,
           rsctl := setFld (setFld c.rsctl 12 8 ((top + 1) % 32)) 5 0 (min (fld c.rsctl 5 0 + 1) 32) }

/-- The entry that a pop reads, and the core after it (R80). -/
def Core.pop (c : Core) : TWord × Core :=
  let top := (fld c.rsctl 12 8 + 31) % 32
  (sget raw0 c.rstk top,
    { c with rsctl := setFld (setFld c.rsctl 12 8 top) 5 0 (fld c.rsctl 5 0 - 1) })

/-- SHADOW_MISMATCH (R189, R196): DETAIL 0 compare failed, 1 full, 2 empty, with the expected address. -/
def shadowFault (d : Nat) (addr : Word) : Op Unit := raiseA vSHADOW_MISMATCH d addr.toNat false false

/-- The shadow push of CALL (R196, R197). -/
def shadowPush (ra : Word) : Op Unit := do
  let c := (← cx).c
  if !markhor c then pure ()
  else
    let d := fld c.shstk 40 32
    if d ≥ 256 then shadowFault 1 ra
    else modC fun c => { c with tcm := sset raw0 c.tcm (shadowWord c d) ⟨ra, tCODE⟩, shstk := setFld c.shstk 40 32 (d + 1) }

/-- The shadow compare and pop of RET (R196, R197); a POISON entry raises POISON (R245). -/
def shadowPop (ra : Word) : Op Unit := do
  let c := (← cx).c
  if !markhor c then pure ()
  else
    let d := fld c.shstk 40 32
    if d = 0 then shadowFault 2 ra
    else
      let t := sget raw0 c.tcm (shadowWord c (d - 1))
      let va := fld c.tcmwin 41 18 * 2 ^ 18 + 8 * shadowWord c (d - 1)
      if t.tag = tPOISON then raiseA vPOISON (tagDetail tPOISON 8) va false false
      else if t.val ≠ ra then shadowFault 0 t.val
      else modC fun c => { c with shstk := setFld c.shstk 40 32 (d - 1) }

/-- CALL (R152, R80, R196). -/
def execCall (e : Fin 256) (w x : BitVec 32) (s : State) : Out :=
  .next (s.runIns e w.toNat (fmtOk .a w.toNat) do
    let ea ← formA w.toNat (dispOf w.toNat x.toNat)
    needTarget ea
    let k ← cx
    if !k.v.wrap && fld k.c.rsctl 5 0 == 32 then raiseV vRS_OVERFLOW 0
    shadowPush k.npc
    modC fun c => c.push ⟨k.npc, tCODE⟩
    goTo (BitVec.ofNat 64 ea)
    done 3)

/-- RET (R152, R80, R196). -/
def execRet (e : Fin 256) (w _x : BitVec 32) (s : State) : Out :=
  .next (s.runIns e w.toNat (fmtOk .n w.toNat) do
    let k ← cx
    if !k.v.wrap && fld k.c.rsctl 5 0 == 0 then raiseV vRS_UNDERFLOW 0
    let (t, c) := k.c.pop
    needTag t.tag (t.tag == tCODE) 9
    needTarget t.val.toNat
    shadowPop t.val
    modC fun c' => { c' with rsctl := c.rsctl }
    goTo t.val
    done 3)

/-- What RETL does once its checks have passed (R153, R174, R184, R195): chain into the highest pending unmasked level, or
return to lret. A level 0 that stands in a DISPATCH of the hardware waits there again (R169, R170); its PSW is set first
where an abort put it there (R195). An LRET that P0 code has written (R183) is taken as it is, also where that level is not
active or is above 16, and the other active bits stay (DESIGN CHOICE, log 121). -/
def retlBody (x : Cx) : Cx × Nat :=
  let c := x.c
  let l := c.link c.lev
  let lret := fld l.linfo 55 51
  let c := { c.sync with active := setBit c.active c.lev false }
  match x.s.pick x.e c.lmask lret (c.bank lret).psw c.vbr with
  | some (i, w) =>
    let q := x.s.asyncExc x.e i
    let c := c.enter (fld w 63 60) w l.lpc (linfoWord q.vec lret 0 q true 0) none lret q.vec
    ({ x with s := x.s.clearReq i x.e, c := c, npc := c.pc, ent := c.entering }, 3)
  | none =>
    if lret = 0 && c.dead0 then
      let b := c.bank 0
      let c := if c.aborted0 then { c.setBank 0 { b with psw := dispPsw c } with aborted0 := false } else c
      ({ x with c := { c with lev := 0, act := .disp } }, 8)
    else ({ x with c := { c with lev := lret }, npc := l.lpc.val }, 8)

/-- RETL (R153): a return address with bits 1:0 not 0 is a misaligned transfer (R70). -/
def execRetl (e : Fin 256) (w _x : BitVec 32) (s : State) : Out :=
  .next (s.runIns e w.toNat (fmtOk .n w.toNat) do
    let k ← cx
    if k.c.lev = 0 then illegal
    let t := (k.c.link k.c.lev).lpc.tag
    if t ≠ tCODE then raiseV vTAG_MISMATCH (tagDetail t 9)
    modS fun s => s.dropInvalid e
    let (k', n) := retlBody (← cx)
    if n = 8 && k'.c.act != .disp then needTarget k'.npc.toNat
    set k'
    done n)

/-- SVC n (R154, R190): the reported PC is that of the next instruction. -/
def execSvc (e : Fin 256) (w _x : BitVec 32) (s : State) : Out :=
  .next (s.runIns e w.toNat (fmtOk .i w.toNat)
    (raiseExc ⟨vSVC, fN w.toNat, none, false, false, true⟩))

/-- SYNC (R86, R151). -/
def execSync (e : Fin 256) (w _x : BitVec 32) (s : State) : Out :=
  .next (s.runIns e w.toNat (fmtOk .n w.toNat) do
    modC Core.sync
    done 2)

/-- WAIT (R155): ILLEGAL_OPCODE in tick-exact mode is a decode check; a pending unmasked request retires it
at once; else the core enters C1. -/
def execWait (e : Fin 256) (w _x : BitVec 32) (s : State) : Out :=
  .next (s.runIns e w.toNat (fmtOk .n w.toNat && !(s.core e).tx) do
    if (← privNow) ≥ 2 then privFault
    modS fun s => s.dropInvalid e
    let k ← cx
    match k.s.pick k.e k.v.lmask k.c.lev k.c.cur.psw k.c.vbr with
    | some _ => done 1
    | none => throw (.wait .c1))

/-- DISPATCH (R169): waits for a descriptor; DESCRIPTOR_DELIVERY completes it. A synchronising event (R86). -/
def execDispatch (e : Fin 256) (w _x : BitVec 32) (s : State) : Out :=
  .next (s.runIns e w.toNat (fmtOk .n w.toNat) do
    if (← cx).c.lev ≠ 0 then illegal
    if (← privNow) ≥ 2 then privFault
    modC Core.sync
    throw (.wait .disp))

/-- The level 0 context, or ILLEGAL_OPCODE (R170). -/
def needCtx : Op Ctx := do
  let k ← cx
  if k.c.lev ≠ 0 then illegal
  match k.c.ctx with
  | some x => return x
  | none => illegal

/-- The words of the result record at ea (R170). -/
def recordAddrs (ea : Nat) : List Nat := (List.range 8).map fun i => ea + 8 * i

/-- YIELD.END (R170, R247): the run is EXECUTED with its staged record, the context is charged, then the core waits in
DISPATCH. -/
def execYieldEnd (e : Fin 256) (w x : BitVec 32) (s : State) : Out :=
  .next (s.runIns e w.toNat (fmtOk .m w.toNat) do
    let k ← needCtx
    let ea ← formEa w.toNat (dispOf w.toNat x.toNat) 64 false
    let ws ← loadWords (recordAddrs ea) fun _ => true
    let bs := ws.flatMap fun v => toBytes 8 v.val.toNat
    baseUpdate w.toNat 64
    modS fun s => s.modRun k.isn fun r =>
      if r.runsOn (s.unitCores e) then { r with st := .executed, result := bs, status := 0, tick := s.tick } else r
    modS State.sendPins
    done 40
    let x ← cx
    modC fun c => (c.charge (chargeOf x.c (x.s.free - 1) x.cost)).toDispatch)

/-- YIELD.SUS (R170, R199, R247): level 0 goes to the context save area and the run is requeued. -/
def execYieldSus (e : Fin 256) (w _x : BitVec 32) (s : State) : Out :=
  .next (s.runIns e w.toNat (fmtOk .n w.toNat) do
    let k ← needCtx
    let x ← cx
    modS fun s => s.carveout k.save
    if !(x.s.physOk k.save && x.s.physOk (k.save + 0x57)) then busError k.save true false
    done 48
    let x ← cx
    let c := x.c.charge (chargeOf x.c (x.s.free - 1) x.cost)
    let held := bit c.xown 0 && bit c.xown 1
    let f (r : Run) : Run :=
      if r.runsOn (x.s.unitCores e) then { r with st := .suspended (if held then some e.val else none), xsaved := k.xsaved } else r
    modS fun s => (s.saveCtx k.save c.cur x.npc c.budget).modRun k.isn f
    modC fun _ => { c.sync with ctx := none, armed := false, act := .disp, dead0 := true, xown := setBit c.xown 0 false })

/-! CSRR and CSRW. -/

/-- The CSR that an instruction names, or ILLEGAL_OPCODE with the CSR number (R59, R189). -/
def needCsr (n : Nat) : Op Csr :=
  match Csr.of n with
  | some k => return k
  | none => raiseV vILLEGAL_OPCODE n

/-- The PSW of bank b as an instruction reads it: CT and SUB through the window (R84, R85). -/
def pswSeen (x : Cx) (b : Nat) : Word :=
  let w := (x.c.bank b).psw
  setFld w 36 35 (fld (effVal (x.s.free - 1) (0x10000 + b) w x.c.delayed) 36 35)

/-- The value of a CSR as an instruction uses it: a needs-SYNC register through the view (R85). -/
def csrSeen (x : Cx) (k : Csr) : TWord :=
  match k with
  | .tbase => ⟨x.v.tbase, tRAW⟩ | .keyctl => ⟨x.v.keyctl, tRAW⟩
  | .mode => ⟨setBit x.c.mode 7 (bit x.v.mode 7), tRAW⟩
  | .vbr => ⟨effVal (x.s.free - 1) 0x12 x.c.vbr x.c.delayed, tRAW⟩
  | .psw => ⟨pswSeen x x.c.lev, tRAW⟩
  | .bank b 8 => ⟨pswSeen x b, tRAW⟩
  | .scatw => ⟨x.v.scatw, tRAW⟩ | .lmask => ⟨x.v.lmask, tRAW⟩
  | .rsctl => ⟨setBit x.c.rsctl 15 x.v.wrap, tRAW⟩
  | .pc => ⟨x.ipc, tRAW⟩
  | .ucstat => ⟨setFld x.c.ucstat 23 16 (sget 0 x.s.mp.perrs x.e), tRAW⟩
  | k => x.c.csrVal (x.s.locOfExec x.e).word (sget Async.cold x.s.async x.e).pend k

/-- CSRR (R59, R156). -/
def execCsrr (e : Fin 256) (w _x : BitVec 32) (s : State) : Out :=
  .next (s.runIns e w.toNat (fmtOk .c w.toNat) do
    let n := fCSR w.toNat
    let k ← needCsr n
    if (← privNow) > k.readPriv then raiseV vPRIVILEGE n
    if k.isExt then extUse false
    let v := csrSeen (← cx) k
    modB fun b => { b with acc := v }
    done 2)

/-- PSW fields that a write at a privilege may change (R62). -/
def pswAllowed (priv : Nat) (old v : Word) : Bool :=
  let same (hi lo : Nat) : Bool := fld old hi lo == fld v hi lo
  fld v 39 38 != 3 &&
  (priv == 0 ||
    (priv == 1 && (same 39 38 || fld v 39 38 == 1 || fld v 39 38 == 2)) ||
    (same 47 40 && same 26 26 && same 39 38))

/-- The checks of the register's own definition (R59 step 4): R62, R156, R182, R68, R242. -/
def csrwCheck (k : Csr) (n : Nat) (v : TWord) : Op Unit := do
  let x ← cx
  let priv := pPRIV x.c.cur.psw
  match k with
  | .psw => if pswAllowed priv x.c.cur.psw v.val then pure () else raiseV vPRIVILEGE n
  | .rsent _ => if v.tag = tCODE || v.tag = tRAW then pure () else raiseV vTAG_MISMATCH (tagDetail v.tag 0)
  | .lpc _ => if v.tag = tCODE || v.tag = tRAW then pure () else raiseV vTAG_MISMATCH (tagDetail v.tag 0)
  | .lpct b =>
    match tagChange priv (x.c.link b).lpc.tag (v.val.setWidth 4) with
    | some vec => raiseV vec (if vec = vPRIVILEGE then n else tagDetail (v.val.setWidth 4) 9)
    | none => pure ()
  | .bankTag b r =>
    if r < 4 then
      match tagChange priv ((x.c.bank b).reg r).tag (v.val.setWidth 4) with
      | some vec => raiseV vec (if vec = vPRIVILEGE then n else tagDetail (v.val.setWidth 4) r)
      | none => pure ()
    else pure ()
  | .bank _ 8 => if fld v.val 39 38 = 3 then raiseV vPRIVILEGE n else pure ()
  | .tcmwin => if x.c.tx then raiseV vILLEGAL_OPCODE n else pure ()
  | _ => pure ()

/-- Record CTL_WRITE_DENIED when a CSRW would change a protected field (R9, R229). The spec names no root locator for it:
DESIGN CHOICE the unit, or the core in none, that executes the CSRW (log 85). -/
def State.denyCsrw (s : State) (e : Nat) (k : Csr) (v : Word) : State :=
  let fs := match k with
    | .mode => CoreReg.mode.fields | .ucstat => CoreReg.ucstat.fields | _ => []
  if deniedFields fs false false (s.csrWord e k).val v then s.event sgCTL_WRITE_DENIED (s.locOfExec e) 0 else s

/-- The write of a CSRW once its checks have passed (R84, R85, R156, R193). -/
def csrwStore (k : Csr) (v : TWord) : Op Unit := do
  let x ← cx
  match k with
  | .apend => modS fun s => s.apend x.e v.val
  | k =>
    match k.syncCode x.c.lev with
    | some code =>
      modC fun c => (c.csrStore false k v).openWindow code (c.syncVal code)
    | none => modC fun c => c.csrStore false k v
    if k = .mode then modS fun s => s.denyCsrw x.e k v.val else pure ()

/-- CSRW (R59, R156). -/
def execCsrw (e : Fin 256) (w _x : BitVec 32) (s : State) : Out :=
  .next (s.runIns e w.toNat (fmtOk .c w.toNat) do
    let n := fCSR w.toNat
    let k ← needCsr n
    if (← privNow) > k.writePriv then raiseV vPRIVILEGE n
    if k.readOnly then
      if k = .ucstat then
        let v := (← curB).acc.val
        modS fun s => s.denyCsrw e k v
      done 2
    else
      let v := (← curB).acc
      if v.tag = tPOISON || tagReserved v.tag then raiseV vTAG_MISMATCH (tagDetail v.tag 0)
      csrwCheck k n v
      if k.isExt then extUse true
      csrwStore k v
      done 2)

/-! INVT and INVTA (R157, R265). -/

/-- The partition that an invalidation names: the current one at P1, the one in ACC at P0. -/
def invPart : Op Nat := do
  let x ← cx
  if pPRIV x.c.cur.psw = 0 then return x.c.cur.acc.val.toNat else return fld x.v.tbase 63 54

/-- The register checks of INVT and INVTA: PRIVILEGE at P2, the tag of ACC at P0. -/
def invRegs : Op Unit := do
  let b ← curB
  if pPRIV b.psw ≥ 2 then privFault
  if pPRIV b.psw = 0 then needTag b.acc.tag (b.acc.tag == tINT) 0

/-- Remove the items that do not satisfy keep from every core and the fabric endpoint (R265). -/
def invDrop (keep : TlbItem → Bool) : Op Unit := do
  modS fun s => s.dropTlb keep
  modC fun c => { c with tlb := c.tlb.filter keep }

/-- An access that used an item which keep removes waits in a posting unit (R265). -/
def Cx.invHeld (x : Cx) (keep : TlbItem → Bool) : Bool :=
  let items := x.s.cores.flatMap (fun p => p.2.tlb) ++ x.s.fabTlb ++ x.c.tlb
  x.s.accessQueued ((items.filter fun t => !keep t && t.kind == 0).map tlbFrame).contains

/-- The instruction retires only when every such access has been performed: until then it is issued again (R265; log 134). -/
def invWait (keep : TlbItem → Bool) : Op Unit := do
  if (← cx).invHeld keep then throw (.wait .run)

/-- INVT (R157). -/
def execInvt (e : Fin 256) (w x : BitVec 32) (s : State) : Out :=
  .next (s.runIns e w.toNat (fmtOk .a w.toNat) do
    invRegs
    let ea ← formA w.toNat (dispOf w.toNat x.toNat)
    let p ← invPart
    if p > 1023 then raiseV vTRANSLATION 4
    invWait (invtKeeps p ea)
    invDrop (invtKeeps p ea)
    done 1024)

/-- INVTA (R157). -/
def execInvta (e : Fin 256) (w _x : BitVec 32) (s : State) : Out :=
  .next (s.runIns e w.toNat (fmtOk .n w.toNat) do
    invRegs
    let p ← invPart
    if p > 1023 then raiseV vTRANSLATION 4
    invWait fun t => t.part != p
    invDrop fun t => t.part != p
    done 1024)

end Sys2Proof.Machine
end

