-- ==== Sys2Proof/Machine/Posting.lean ====
section
/-!
DEFINITION. POST, PREAD, POSTR and RREAD (R165 to R168, R246, R291): the core's side, and the completion of an
instruction whose reply comes later.
-/
namespace Sys2Proof.Machine

/-- Give back the cores that run any of the runs A: they drop to DISPATCH (R195, R313). Only level 0 goes: a handler that
waits for a remote repair waits on. -/
def State.dropRuns (s : State) (A : List Nat) : State :=
  let es := (s.cores.filter fun p => p.2.ctx.any fun k => A.contains k.isn).map (·.1)
  let (low, high) := es.partition fun e => (s.core e).lev == 0
  let waits := s.repairWait.filter fun p => high.contains p.1
  let s := s.cancelReqs (low ++ high)
  let s : State := { s with repairWait := s.repairWait ++ waits, free := s.free + 1 }
  es.foldl (fun (s : State) e => s.modCore e fun c => c.abort0 (s.free - 1)) s

/-- The held extension state of a suspended context that ends is discarded (R199): the owner's address names no save area
any more. -/
def State.dropExt (s : State) (saves : List Nat) : State :=
  { s with cores := s.cores.map fun p =>
      if !bit p.2.xown 0 && bit p.2.xown 1 && saves.contains (fld p.2.xown 51 6 * 64) then (p.1, { p.2 with xown := 0 }) else p }

/-- Abort runs, with everything the closure draws in (R292, R312), and free the cores that ran them (R195, R199). -/
def State.abortNow (s : State) (A : List Nat) (isOvr : Bool) : State :=
  let held := s.runs.filter fun r => match r.st with | .suspended _ => true | _ => false
  let s := s.abortRuns A isOvr
  let dead := (s.runs.filter fun r => r.st == .aborted).map (·.isn)
  (s.dropExt ((held.filter fun r => dead.contains r.isn).map (·.save))).dropRuns dead

/-- A reply that comes after the listed cost stalls a core in tick-exact mode (R167, R246): the cycles are
charged and counted in CORE_TXSTALL. -/
def lateReply : Op Unit := do
  let x ← cx
  if x.c.tx then
    let n := Config.stallCycles x.s.free
    modS State.takeFree
    modC fun c => { c with txstall := setFld c.txstall 31 0 (satAdd 32 (fld c.txstall 31 0) n) }
    addCost n
    modify fun x => { x with xcost := x.xcost + n }
  else pure ()

/-- Run the rest of an instruction of core e that waited for its reply. -/
def State.resume (s : State) (e w : Nat) (body : Op Unit) : State :=
  let s := s.setCores (s.unitCores e) { s.core e with act := .run }
  finishOp e s.free (body (s.startCx e w (insLen w)))

/-- Core e still waits for a reply. -/
def State.awaits (s : State) (e : Nat) : Bool := (s.core e).act == .reply

/-- ACC takes a value tagged PDEC; Z, N from it, C and V as given (R165). -/
def postResult (v : Word) (c o : Bool) : Op Unit :=
  modB fun b => { b with acc := ⟨v, tPDEC⟩,
                         psw := pswZNCV b.psw (wordVal v == 0) (decide (wordVal v < 0)) c o }

/-- ACC takes a value tagged PDEC; Z and N from it (R167, R168). -/
def readResult (v : Word) : Op Unit :=
  modB fun b => { b with acc := ⟨v, tPDEC⟩, psw := pswZN b.psw (wordVal v == 0) (decide (wordVal v < 0)) }

/-- The end of a POST or PREAD with the posting unit's answer (R165, R168): post tells which. -/
def npuAnswer (post : Bool) (w ea : Nat) (o : PostOut) : Op Unit := do
  match o with
  | .done v c f =>
    if post then postResult v c f else readResult v
    baseUpdate w 8
    done 160
  | .refuse vec tag =>
    done 160
    raiseA vec (if vec = vDECIMAL_DATA then 0 else tagDetail tag 8) ea post false
  | .wait => throw (.wait .reply)
  | .dead => throw (.wait .reply)

/-- ISN, order key and lane of the run that the core executes; 0 where it has no context. -/
def runOf : Op (Nat × Nat × Bool) := do
  let x ← cx
  match x.c.ctx with
  | some k => return (k.isn, k.key, (x.s.run k.isn).any (·.exact))
  | none => return (0, 0, false)

/-- The register checks of POST and POSTR (R165): the amount, and the floor where AEX is PDEC. -/
def postRegs : Op (Word × Option Word) := do
  let b ← curB
  needTag b.acc.tag (b.acc.tag == tPDEC) 0
  needTag b.aex.tag (b.aex.tag == tPDEC || b.aex.tag == tRAW) 1
  if (pdecVal b.acc.val).isNone || (b.aex.tag == tPDEC && (pdecVal b.aex.val).isNone) then raiseV vDECIMAL_DATA 0
  return (b.acc.val, if b.aex.tag == tPDEC then some b.aex.val else none)

/-- The physical address of a balance word after the checks of POST or PREAD (R165, R168): the TCM window, then those of a
tagged word access. -/
def postAccess (k : AK) (ea : Nat) : Op Nat := do
  let x ← cx
  if ea < 2 ^ 42 && inTcm x.c ea then raiseA vKEY_VIOLATION 0x200 ea (k == .post) false
  needAligned ea (k == .post)
  match ← access k ea false with
  | .mem pa _ => return pa
  | _ => busError ea (k == .post) false

/-- POST (R165, R166). -/
def execPost (e : Fin 256) (w x : BitVec 32) (s : State) : Out :=
  .next (s.runIns e w.toNat (fmtOk .m w.toNat) do
    let (amount, floor) ← postRegs
    let ea ← formEa w.toNat (dispOf w.toNat x.toNat) 8 true
    let pa ← postAccess .post ea
    let (isn, key, lane) ← runOf
    let k ← cx
    let (s, o) := if k.s.npuBehind pa lane then (k.s, .wait) else k.s.npuPost isn key pa amount floor
    let s := if o = .wait then s.npuEnqueue (chanOf pa) (.post e w.toNat ea isn key pa amount floor lane) else s
    set { k with s := s }
    npuAnswer true w.toNat ea o)

/-- PREAD (R168). -/
def execPread (e : Fin 256) (w x : BitVec 32) (s : State) : Out :=
  .next (s.runIns e w.toNat (fmtOk .m w.toNat) do
    let ea ← formEa w.toNat (dispOf w.toNat x.toNat) 8 false
    let pa ← postAccess .pread ea
    let (isn, key, lane) ← runOf
    let k ← cx
    let (s, o) := if k.s.npuBehind pa lane then (k.s, .wait) else k.s.npuPread isn key pa
    let s := if o = .wait then s.npuEnqueue (chanOf pa) (.pread e w.toNat ea isn key pa lane) else s
    set { k with s := s }
    npuAnswer false w.toNat ea o)

/-! Remote operations. -/

/-- The end of a POSTR or RREAD with its reply (R167, R439). A refusal that aborts the transaction leaves the
instruction waiting; 4, 5, 6 and 8 abort it without an overrun. -/
def remoteAnswer (isRead : Bool) (ra : Nat) (r : RReply) : Op Unit := do
  let (isn, _, _) ← runOf
  if r.status = rsFAULT then
    done 4096
    raiseA r.vec r.detail ra (!isRead) false
  else if r.status = rsDONE && isRead then
    readResult r.value
    done 4096
  else if r.status = rsDONE || r.status = rsFLOOR || r.status = rsOVERFLOW then
    postResult r.value (r.status != rsDONE) (r.status == rsOVERFLOW)
    let x ← cx
    match x.c.ctx with
    | some k =>
      if r.status = rsDONE then
        modS fun s => { s with fab := { s.fab with held := s.fab.held ++ [⟨k.isn, k.key, raDev ra, s.tick⟩] } }
    | none => pure ()
    done 4096
  else
    if r.status != rsNOT_STAGED then modS fun s => s.modRun isn fun q => { q with noovr := true }
    throw (.wait .reply)

/-- The lowest tag that no outstanding remote operation holds (DESIGN CHOICE, log 10). -/
def freeRid (f : Fab) : Nat := ((List.range 65536).find? fun i => (f.waits.find? (·.1 == i)).isNone).getD 0

/-- Report a target that no route reaches (R439, R446). -/
def State.unreachable (s : State) (d : Nat) : State :=
  s.report sgDEVICE_UNREACHABLE clALARM ⟨d, 1, 0, 0, 0, 0, 0, 0⟩ s.locDevice 0

/-- Issue a remote operation (R56, R305, R438, R439): the issuer's own endpoint answers where it sends none;
an operation on the device itself, or on the partner whose work it has adopted (R435), is decided here; any other is sent and
waits. -/
def issueRemote (e : Nat) (isRead : Bool) (amount : Word) (floor : Option Word) : Op Unit := do
  let b ← curB
  needTag b.x1.tag (b.x1.tag == tPTR) 2
  let ra := b.x1.val.toNat
  let (isn, key, _) ← runOf
  let x ← cx
  let own (st : Nat) : RReply := ⟨0, st, 0, 0, 0, x.s.tick⟩
  let rid := freeRid x.s.fab
  let rq : RReq := ⟨ra, amount, floor, key, fld x.v.tbase 63 54, rid, x.s.tick⟩
  if !bit (x.s.rd .tsqStatus) 4 then remoteAnswer isRead ra (own rsNOT_SYNCED)
  else if !x.s.sched.unsealed.isEmpty then remoteAnswer isRead ra (own rsNOT_SEALED)
  else
    let wait : RWait := ⟨e, isn, raDev ra, ra, isRead, x.s.tick, none⟩
    let s := { x.s with fab := { x.s.fab with waits := sins (sdel x.s.fab.waits rid) rid wait } }
    if raDev ra = x.s.devId || (x.s.fab.custody && raDev ra == x.s.partnerId) then
      let (s, r) := if isRead then s.targetRead x.s.devId rq else s.targetPost x.s.devId rq
      match r with
      | some r =>
        set { x with s := { s with fab := { s.fab with waits := sdel s.fab.waits rid } } }
        remoteAnswer isRead ra r
      | none =>
        set { x with s := s }
        throw (.wait .reply)
    else
      let (s', up) := x.s.reaches (raDev ra)
      if !up then
        set { x with s := s'.unreachable (raDev ra) }
        remoteAnswer isRead ra (own rsLOST)
      else
        let s := { s with fab := { s.fab with routeCache := s'.fab.routeCache } }
        set { x with s := s.send (raDev ra) false false (if isRead then .rread rq else .rpost rq) }
        throw (.wait .reply)

/-- POSTR (R167). -/
def execPostr (e : Fin 256) (w _x : BitVec 32) (s : State) : Out :=
  .next (s.runIns e w.toNat (fmtOk .n w.toNat) do
    let (amount, floor) ← postRegs
    issueRemote e false amount floor)

/-- RREAD (R167). -/
def execRread (e : Fin 256) (w _x : BitVec 32) (s : State) : Out :=
  .next (s.runIns e w.toNat (fmtOk .n w.toNat) (issueRemote e true 0xC none))

/-- A remote POST turns out to be staged after the own remote close (R314, R322): its transaction is not pinned, so it
aborts as an overrun, and the target is told (R323). -/
def State.lateDone (s : State) (q : RWait) : State :=
  match s.run q.isn with
  | some p =>
    let s := { s with fab := { s.fab with held := s.fab.held ++ [(⟨q.isn, p.okey, q.dst, q.tick⟩ : RHeld)] } }
    (s.abortNow [q.isn] true).notice q.dst p.okey
  | none => s

/-- An RREPLY for the tag it carries (R324, R439): a value of a tick not reached yet waits for the pulse, and one for a core
whose clocks are stopped until they run (R479). -/
def State.rreply (s : State) (r : RReply) : State :=
  match s.fab.waits.find? (·.1 == r.rid) with
  | none => s
  | some (_, q) =>
    if (r.tick > s.tick && r.status = rsDONE) || s.halted (q.core / 8) then
      { s with fab := { s.fab with waits := sins s.fab.waits r.rid { q with held := some r } } }
    else
      let s := { s with fab := { s.fab with waits := sdel s.fab.waits r.rid } }
      if r.status = rsDONE && !q.isRead && q.tick == s.tick && s.rf .tsqStatus 2 0 ≥ 1 then s.lateDone q
      else if s.awaits q.core && (s.core q.core).ctx.all (fun k => k.isn == q.isn) then
        s.resume q.core 0 do
          lateReply
          remoteAnswer q.isRead q.ra r
      else s

/-- Deliver an answer that stayed inside the device. -/
def State.selfReply (p : State × Option RReply) : State :=
  match p.2 with
  | some r => p.1.rreply r
  | none => p.1

end Sys2Proof.Machine
end

