-- ==== Sys2Proof/Machine/SchedOps.lean ====
section
/-!
DEFINITION. Shared operations of the scheduler and the intake engine: program table and stage-in lists (R346,
R347), exact lanes (R37, R241, R316 to R319), the batch and its order keys (R307, R310), ending a run, writing
completions (R330 to R333, R337, R349, R452), and sealing a tick (R29, R295).
-/
namespace Sys2Proof.Machine

/-! Program table. -/

/-- The program table entry of a partition, if it lies in memory and is VALID (R331, R346). -/
def State.prog (s : State) (part prog : Nat) : Option Prog :=
  let a := s.rf (.intProgtab part) 51 6 * 64 + 64 * prog
  if prog > 1023 || !(s.area a == .own || s.area a == .unmirrored) then none
  else
    let w (i : Nat) : Word := (s.memWord (a + 8 * i)).val
    if (List.range 8).any (fun i => s.tagAt (a + 8 * i) == tPOISON) || !bit (w 3) 48 then none
    else some ⟨(w 0).toNat, w 1, fld (w 2) 63 32, fld (w 2) 31 0, fld (w 3) 63 56, fld (w 3) 47 32, (w 4).toNat⟩

/-- The stage engine accesses memory in the descriptor's partition as P2 with the run's key (R244). -/
def State.stageWho (s : State) (part key : Nat) : Who :=
  let c := s.rd (.keyPtctl part)
  ⟨part, (s.rd (.keyPtroot part)).toNat / 8192 % 2 ^ 39 * 8192, true, 2, key, fld c 55 48, bit c 47⟩

/-- A checked access of the stage engine: the physical address, or a vector with its DETAIL (R244). -/
def State.stageAccess (s : State) (w : Who) (k : AK) (va : Nat) : State × Sum (Nat × Nat) Nat :=
  if va ≥ 2 ^ 42 then (s, .inl (vTRANSLATION, 1))
  else match s.xlate [] w k va with
  | (s, _, .fail v d _) => (s, .inl (v, d))
  | (s, _, .ok pa _) => (s, .inr pa)

/-- The words of a stage-in list (R346, R347). -/
def State.stageList (s : State) (w : Who) (p : Prog) : State × Sum (Nat × Nat) (List Word) :=
  if p.nstage > 64 then (s, .inl (vTRANSLATION, 0))
  else (List.range p.nstage).foldl (fun (r : State × Sum (Nat × Nat) (List Word)) i =>
    match r with
    | (s, .inl f) => (s, .inl f)
    | (s, .inr ws) =>
      match s.stageAccess w .read (p.stage + 8 * i) with
      | (s, .inl f) => (s, .inl f)
      | (s, .inr pa) =>
        let v := s.memWord pa
        if v.tag = tPOISON then (s, .inl (vPOISON, 15 + 8 * 16)) else (s, .inr (ws ++ [v.val]))) (s, .inr [])

/-- KIND of a stage-in entry, and the block it names (R347). -/
def stKind (w : Word) : Nat := fld w 2 0
def stBlock (w : Word) : Nat := fld w 11 6

/-- The checks of R347 on one entry, against the TCM blocks of the lane's core. -/
def stageCheck (c : Core) (w : Word) : Option (Nat × Nat) :=
  let bad : Bool := match stKind w with
    | 0 => fld w 5 3 != 0
    | 1 => false
    | 2 => fld w 63 12 != 0 || fld w 11 3 ≥ 56
    | 3 => fld w 63 12 != 0 || fld w 5 3 != 0
    | _ => true
  if bad then some (vTRANSLATION, 0)
  else
    let d := sget 0 c.tcmblk (stBlock w)
    if (stKind w = 0 || stKind w = 3) && bit d 63 && bit d 62 then some (vKEY_VIOLATION, fld d 47 40) else none

/-- Stage-in time in cc of a list (R319). -/
def stageTime (ws : List Word) : Nat :=
  ws.foldl (fun n w => n + (if stKind w = 0 ∨ stKind w = 3 then 80 else 16)) 0

/-- The virtual address of the balance word that an entry touches (R347). -/
def touchVa (payload : List Byte) (w : Word) : Option Nat :=
  match stKind w with
  | 1 => some (fld w 63 3 * 8)
  | 2 => some (bytesAt payload (8 * fld w 11 3) 8)
  | _ => none

/-! Exact lanes. -/

/-- The slots of a region's clusters. -/
def regionSlots (g : Nat) : List (Nat × Nat) :=
  (List.range 4).flatMap fun i => (List.range 3).map fun sl => (4 * g + i, sl)

/-- A slot that the region scheduler counts as available: its cluster is not in reset, and it takes part in ticks again
(R36). An outvoted triad runs on its two positions (R379). -/
def State.slotServes (s : State) (c sl : Nat) : Bool :=
  s.clusterOn c && !s.cluInReset.contains c && decide ((s.slotX c sl).poolFrom ≤ s.tick) && s.slotState c sl == slACTIVE

/-- A healthy slot (R407): available, with every position held. -/
def State.slotHealthy (s : State) (c sl : Nat) : Bool :=
  s.slotServes c sl && (s.slotCores c sl).length == slotSize sl

/-- Delivery to cluster c is not stopped (R204, R388). -/
def State.delivers (s : State) (c : Nat) : Bool :=
  !(s.cluDrain.any fun p => p.1 == c && decide (p.2 ≤ s.tick)) && !s.mp.rolls.any fun r => r.cluster == c

/-- The slot that is the region's exact lane: CLU_SLOT.EXACT (R241, R390) of a healthy slot that is not being drained (R388). -/
def State.lane (s : State) (g : Nat) : Option (Nat × Nat) :=
  (regionSlots g).find? fun p => s.slotHealthy p.1 p.2 && s.delivers p.1 && bit (s.rd (.cluSlot p.1 p.2)) 27

/-- The region scheduler writes TXREQ in every core of a slot (R240); it takes it back in full once the slot is in service,
since a resync image may bring it again (R370). -/
def State.setTxreq (s : State) (c sl : Nat) (on : Bool) : State :=
  let s := (s.slotCores c sl).foldl (fun s e => s.modCore e fun k => { k with mode := setBit k.mode 7 on }) s
  s.modSlotX c sl fun x => { x with exact := on || (x.exact && s.slotState c sl != slACTIVE) }

/-- Designate the exact lane of a region, before the pulse at which TX follows TXREQ (R240): the present one while there is
one, else the lowest healthy slot of the lowest-numbered PAIR-mode cluster that is not being drained (R37, R241, R388);
TXREQ is set in its cores, also after a warm reset has cleared it, and taken back from every slot that is the lane no more. -/
def State.designate (s : State) (g : Nat) : State :=
  let next := match s.lane g with
    | some p => some p
    | none => (regionSlots g).find? fun p => s.cluMode p.1 == 0 && s.slotHealthy p.1 p.2 && s.delivers p.1
  let s := (regionSlots g).foldl (fun (s : State) p =>
    if next == some p || !(bit (s.rd (.cluSlot p.1 p.2)) 27 || (s.slotX p.1 p.2).exact) then s
    else (s.wf (.cluSlot p.1 p.2) 27 27 0).setTxreq p.1 p.2 false) s
  match next with
  | none => s
  | some (c, sl) => (s.wf (.cluSlot c sl) 27 27 1).setTxreq c sl true

/-- The regions in which a transaction of region g looks for an exact lane, in order (R37). -/
def laneOrder (g : Nat) : List Nat :=
  g :: (((List.range 4).map (g / 4 * 4 + ·)).filter (· != g) ++ (List.range 4).map ((1 - g / 4) * 4 + ·))

/-- The region whose exact lane runs a transaction of region g (R37). -/
def State.laneOf (s : State) (g : Nat) : Option Nat := (laneOrder g).find? fun r => (s.lane r).isSome

/-- The region whose units run ordinary transactions of region g (R408). -/
def State.unitRegion (s : State) (g : Nat) : Option Nat :=
  (laneOrder g).find? fun r => ((List.range 4).any fun i => (List.range 5).any fun sl => s.slotHealthy (4 * r + i) sl)

/-! Runs. -/

/-- Order key (R307). -/
def orderKey (tick dev region seq : Nat) : Nat := tick * 2 ^ 32 + dev * 2 ^ 20 + region * 2 ^ 17 + seq

/-- A request completes without running on (R244, R317, R331, R346, R347): its result record is staged in this
tick with a STATUS, a vector and a DETAIL. -/
def State.endRun (s : State) (isn status vec detail : Nat) : State :=
  s.modRun isn fun r =>
    { r with st := .executed, status := status, vec := vec, detail := detail, tick := s.tick,
             result := if status = 2 then toBytes 1 0 ++ toBytes 1 vec ++ toBytes 2 0 ++ toBytes 4 detail ++ List.replicate 56 0
                       else List.replicate 64 0 }

/-- Insert a run in order of a key. -/
def insRun (f : Run → Nat) (r : Run) : List Run → List Run
  | [] => [r]
  | q :: l => if f r < f q then r :: q :: l else q :: insRun f r l

/-- Runs in order of a key. -/
def sortRuns (f : Run → Nat) (l : List Run) : List Run := l.foldl (fun a r => insRun f r a) []

/-- A place in the batch of its region (R310, R357): adopted work first, then requeued runs in the order of
their previous keys, then new requests in ISN order. -/
def batchRank (r : Run) : Nat :=
  let cls := match r.adopted.isSome, r.okey != 0 with
    | true, true => 0 | true, false => 1 | false, true => 2 | false, false => 3
  cls * 2 ^ 90 + (if r.okey != 0 then r.okey else r.isn)

/-- A request that the batch of the next tick takes (R310, R318), once it has its frame (R345). -/
def Run.waiting (r : Run) : Bool :=
  (r.st == .accepted && r.frame != noFrame) || r.st == .aborted || r.st == .deferred

/-- A run due on the exact lane (R316). -/
def Run.due (r : Run) : Bool := r.exact || r.ovr ≥ 2 || r.abt ≥ 8

/-- Touch the balance words that an exact-lane run's list names (R288, R318). -/
def State.touchWords (s : State) (r : Run) (w : Who) (ws : List Word) : State :=
  ws.foldl (fun s e =>
    match touchVa (padTo 448 (r.payload.take r.plen)) e with
    | none => s
    | some va =>
      match s.stageAccess w .pread va with
      | (s, .inl _) => s
      | (s, .inr pa) => s.stageTouch r.isn (pa / 8 * 8)) s

/-- The execute window of the present period (R317). -/
def State.exw (s : State) : Nat := (s.period - 2000) * (if s.fuses.big then 32 else 30) / 10

/-- Admit a run to its region's exact lane (R37, R316 to R319, R346). -/
def State.admitExact (s : State) (isn : Nat) : State :=
  match s.run isn with
  | none => s
  | some r =>
    match s.laneOf r.region, s.prog r.part r.prog with
    | none, _ => (s.endRun isn 1 0 0).count .tsqCnt 15 0 1
    | some _, none => s.endRun isn 2 vTRANSLATION 0
    | some g, some p =>
      if p.txbudget = 0 then (s.endRun isn 1 0 0).count .tsqCnt 15 0 1
      else
        let w := s.stageWho r.part p.key
        match s.stageList w p with
        | (s, .inl (v, d)) => s.endRun isn 2 v d
        | (s, .inr ws) =>
          let charge := p.txbudget + 32 + stageTime ws
          let used := sget 0 s.sched.window g
          if charge > s.exw then (s.endRun isn 1 0 0).count .tsqCnt 15 0 1
          else if used + charge > s.exw then s.modRun isn fun r => { r with st := .deferred }
          else
            let s := { s with sched := { s.sched with window := sset 0 s.sched.window g (used + charge) } }
            ((s.modRun isn fun r => { r with st := .staging, xregion := g, exact := true, prg := some p }).count .tsqCnt 31 16 1).touchWords r w ws

/-- The lowest request frame of a partition that no request holds (R345). -/
def State.freeFrame (s : State) (part : Nat) : Option Nat :=
  let base := s.rf (.intRqarea part) 51 16 * 65536
  ((List.range (s.rf (.intRqarea part) 14 0)).map fun i => base + 1024 * i).find? fun a =>
    !s.runs.any fun r => r.frame == a

/-- Requests of a partition that have no frame yet take one (R345). -/
def State.giveFrames (s : State) (p : Nat) : State :=
  (s.runs.filter fun r => r.part == p && r.frame == noFrame && r.st == .accepted).foldl (fun (s : State) r =>
    match s.freeFrame p with
    | some f => s.modRun r.isn fun x => { x with frame := f, save := f + 0x200 }
    | none => s) s

/-- Every partition's requests that have no frame yet: restored or adopted ones (R345, R355, R357). -/
def State.giveAllFrames (s : State) : State :=
  (((s.runs.filter fun r => r.frame == noFrame && r.st == .accepted).map (·.part)).eraseDups).foldl State.giveFrames s

/-- Form the batch of region g (R310): keys are given in order; exact-lane runs are admitted after. -/
def State.batch (s : State) (g : Nat) : State :=
  let rs := sortRuns batchRank (s.runs.filter fun r => r.waiting && r.region == g)
  (rs.zipIdx).foldl (fun s (r, i) =>
    let k := orderKey s.tick s.devId g i
    let s := s.modRun r.isn fun q =>
      { q with okey := k, st := .queued, exact := q.due, noovr := false, pinned := false, result := [], staged := 0,
               xsaved := false, prg := none, pblk := none }
    if r.due then s.admitExact r.isn else s) s

/-! Completions. -/

/-- Entries of a submission and a completion ring (R333, R358: 16 is stored as 0 and 17 as 1). -/
def State.sqSize (s : State) (q : Nat) : Nat :=
  let z := s.rf (.intQcfg q) 55 52
  2 ^ (if z = 0 then 16 else z)
def State.cqSize (s : State) (q : Nat) : Nat :=
  let z := s.rf (.intQcfg q) 51 48
  2 ^ (if z < 2 then z + 16 else z)

/-- Queue q. -/
def State.queue (s : State) (q : Nat) : Queue := sget Queue.cold s.queues q

/-- Replace queue q. -/
def State.setQueue (s : State) (q : Nat) (x : Queue) : State := { s with queues := sset Queue.cold s.queues q x }

/-- The completion ring has no room: one entry stays free so that a full ring differs from an empty one. -/
def State.cqFull (s : State) (q : Nat) : Bool :=
  ((s.queue q).cqTail + 1) % s.cqSize q == (s.queue q).cqHead

/-- Something that the device writes to the host. -/
def State.toHost (s : State) (o : HostOut) : State := { s with hif := { s.hif with out := s.hif.out ++ [o] } }

/-- Function f. -/
def State.fn (s : State) (f : Nat) : Fn := sget Fn.cold s.hif.fns f

/-- The MSI-X entries of a function: the first and how many (R452). Function 0 holds entries 0 to 31. -/
def State.fnVecs (s : State) (f : Nat) : Nat × Nat := if f = 0 then (0, 32) else ((s.fn f).vbase, (s.fn f).nvec)

/-- The function masters the bus and the link is up (R454). -/
def State.fnMaster (s : State) (f : Nat) : Bool := (s.fn f).busMaster && s.rf .hifLink 15 12 == 2

/-- An MSI-X message on a vector of a function; a masked vector sets its pending bit (R452). A function without that entry
sends none (DESIGN CHOICE, log 131). -/
def State.msix (s : State) (f v : Nat) : State :=
  let x := s.fn f
  let e := sget MsixEntry.cold x.table v
  if v ≥ (s.fnVecs f).2 then s
  else if e.masked then
    { s with hif := { s.hif with fns := sset Fn.cold s.hif.fns f { x with pend := v :: x.pend.filter (· != v) } } }
  else s.toHost (.msix f v e.addr e.data)

/-- A completion entry (R330). -/
structure Comp where
  okey : Nat
  status : Nat
  isRepeat : Bool
  srcQueue : Nat
  isn : Nat
  idem : Nat
  sqidx : Nat
  result : List Byte
  deriving DecidableEq, Repr

/-- The 128 bytes of a completion entry (R330): FLAGS holds REPEAT in bit 15. -/
def Comp.bytes (c : Comp) : List Byte :=
  toBytes 10 c.okey ++ toBytes 2 c.status ++ toBytes 2 (b2n c.isRepeat * 2 ^ 15) ++ toBytes 2 c.srcQueue ++ toBytes 8 c.isn
    ++ toBytes 16 c.idem ++ toBytes 4 c.sqidx ++ List.replicate 20 0 ++ padTo 64 c.result

/-- Write a completion entry at the tail of queue q (R330, R333), relaxed where HIF_CTL.RO says so (R453); CQFULL follows. -/
def State.complete (s : State) (q : Nat) (c : Comp) : State :=
  let x := s.queue q
  let s := s.toHost (.completion q x.cqTail c.bytes (bit (s.rd .hifCtl) 0))
  let s := s.setQueue q { x with cqTail := (x.cqTail + 1) % s.cqSize q }
  s.wf (.intQcfg q) 14 14 (b2n (s.cqFull q))

/-- The end of a pass: the tail index, then one message (R333, R452). -/
def State.endPass (s : State) (q : Nat) : State :=
  (s.toHost (.tail (s.rd (.intCqtail q)).toNat (s.queue q).cqTail)).msix (s.rf (.keyQbind q) 55 48) (s.rf (.intQcfg q) 10 0)

/-- The queue's completions can be written (R333, R454). -/
def State.cqOpen (s : State) (q : Nat) : Bool := bit (s.rd (.intQcfg q)) 63 && !(s.queue q).held && !s.cqFull q

/-- The queue in which a run's completions go (R357): an adopted run's by OMI_TAKEOVER_QUEUE_SET. -/
def State.outQueue (s : State) (r : Run) : Option Nat :=
  match r.adopted with
  | none => some r.queue
  | some _ => (s.takeQ.find? (·.1 == r.queue)).map (·.2)

/-- The results of queue q that may be released now, in order-key order (R28, R29, R349). -/
def State.releasable (s : State) (q : Nat) : List Run :=
  sortRuns (·.okey) (s.runs.filter fun r => r.st == .isSealed && s.outQueue r == some q
    && (r.isRepeat || (r.tick ≤ s.rf .tsqSealed 47 0 && r.tick < s.tick)))

/-- A duplicate of request isn that waits has its answer: the original's result completion is written (R337). -/
def AccWait.answered (isn okey : Nat) (res : List Byte) : AccWait → AccWait
  | .duplicate i k n a => if n == isn && a.isNone then .duplicate i k n (some (okey, res)) else .duplicate i k n a
  | a => a

/-- Release the result of one run (R11, R349, R357), and what waits for it (R337). -/
def State.releaseRun (s : State) (q : Nat) (r : Run) : State :=
  let s := s.complete q ⟨r.okey, r.status, r.isRepeat, r.queue, r.isn % 2 ^ 64, r.idem, r.sqidx, padTo 64 r.result⟩
  let s : State := { s with queues := s.queues.map fun (p : Nat × Queue) =>
    (p.1, { p.2 with acc := p.2.acc.map (AccWait.answered r.isn r.okey r.result) }) }
  s.modRun r.isn fun x => { x with st := .released }

/-- The result pass of queue q, with its RELEASE record (R309, R349). -/
def State.releaseQueue (s : State) (q : Nat) : State :=
  let (s', last) := (s.releasable q).foldl (fun (p : State × Option Nat) r =>
    if p.1.cqOpen q then (p.1.releaseRun q r, some r.okey) else p) (s, none)
  match last with
  | none => s'
  | some k =>
    let s1 := s'.freeRecs fun b => match b with | .release q' _ => q' == q | _ => false
    let (s2, rec) := s1.journal (.release q k)
    let s3 := { s2 with vault := { s2.vault with toShip := s2.vault.toShip ++ [rec] } }
    (s3.setQueue q { s3.queue q with relKey := some (max k ((s3.queue q).relKey.getD 0)) }).endPass q

/-- The completion that a waiting acceptance entry gives, if it is due (R331, R332, R337, R343). The ISN of an adopted
request is that of the device that accepted it. -/
def State.accReady (s : State) (q : Nat) : AccWait → Option Comp
  | .refusal i st k => some ⟨0, st, false, q, 0, k, i, List.replicate 64 0⟩
  | .request i isn k =>
    match s.run isn with
    | some r => if r.st == .journaled then none else some ⟨0, 0x0100, false, q, isn, k, i, List.replicate 64 0⟩
    | none => some ⟨0, 0x0100, false, q, isn, k, i, List.replicate 64 0⟩
  | .duplicate i k isn a => a.map fun p => ⟨p.1, 0x0101, false, q, isn % 2 ^ 64, k, i, padTo 64 p.2⟩

/-- The acceptance pass of queue q (R332, R452), for at most n entries. -/
def State.acceptPass (q : Nat) : Nat → State → State × Bool
  | 0, s => (s, false)
  | n + 1, s =>
    match (s.queue q).acc with
    | [] => (s, false)
    | a :: rest =>
      if !s.cqOpen q then (s, false)
      else match s.accReady q a with
      | none => (s, false)
      | some c =>
        let s := (s.setQueue q { s.queue q with acc := rest }).complete q c
        let s := if c.status = 0x0101 then s.count .intIdemcnt 63 32 1 else s
        ((State.acceptPass q n s).1, true)

/-! Sealing. -/

/-- The highest tick that is SEALED with every earlier tick (R328): below the oldest COMMITTED tick that is not, else the
last COMMITTED one. -/
def State.sealPoint (s : State) : State :=
  s.wf .tsqSealed 47 0 (match s.sched.unsealed with | [] => s.sched.lastCommit | t :: _ => t - 1)

/-- Let go of the entries pinned until a tick is SEALED (R284). -/
def Npu.unpin (n : Npu) (t : Nat) : Npu :=
  { n with cache := n.cache.map fun (x : NEntry) => if x.pin == some t then { x with pin := none } else x }

/-- Tick t becomes SEALED (R29, R280, R284, R295): its runs may be released, its image frames get PC, and its pinned
posting-cache entries are let go. -/
def State.sealTick (s : State) (t : Nat) : State :=
  if !s.sched.unsealed.contains t then s
  else
    let rest := s.sched.unsealed.filter (· != t)
    let pcs := s.sched.imaged.filter (·.1 == t)
    let sc : Sched := { s.sched with unsealed := rest, imaged := s.sched.imaged.filter (·.1 != t) }
    let pc := pcs.foldl (fun (m : SMap Bool) (p : Nat × Nat) => sset false m p.2 true) s.postClass
    let rs := s.runs.map fun (r : Run) => if r.st == .committed && r.tick == t then { r with st := .isSealed } else r
    let s : State := { s with sched := sc, postClass := pc, runs := rs,
                              vault := { s.vault with logs := s.vault.logs.filter (·.tick != t) } }
    ((List.range 12).foldl (fun (s : State) u => s.setNpu u ((s.npu u).unpin t)) s).sealPoint

end Sys2Proof.Machine
end

