-- ==== Sys2Proof/Machine/OmiOps.lean ====
section
/-!
DEFINITION. The mailbox protocol (R457 to R463): taking a command, the checks that come before every command, storing
the response, and the commands that stay BUSY until a later event.
-/
namespace Sys2Proof.Machine

/-! STATUS codes (R466). -/

def stOK : Nat := 0
def stUNKNOWN_COMMAND : Nat := 1
def stBAD_PARAM : Nat := 2
def stDENIED : Nat := 3
def stBUSY : Nat := 4
def stBAD_LOCATOR : Nat := 5
def stNOT_FOUND : Nat := 6
def stEXISTS : Nat := 7
def stNO_RESOURCE : Nat := 8
def stAUTH_FAILED : Nat := 9
def stSTATE_ERROR : Nat := 10
def stDMA_ERROR : Nat := 11
def stPARTNER_ERROR : Nat := 12
def stREFUSED : Nat := 13

/-- What a command answers: STATUS, DETAIL and data; none: the mailbox stays BUSY until a later event. -/
structure OmiAns where
  s : State
  res : Option (Nat × Nat × List Byte)

/-- The command is done, with its response data. -/
def State.omiOk (s : State) (data : List Byte) : OmiAns := ⟨s, some (stOK, 0, data)⟩

/-- The command ends with a STATUS and a DETAIL. -/
def State.omiErr (s : State) (status detail : Nat) : OmiAns := ⟨s, some (status, detail, [])⟩

/-- The first n-byte parameter at byte o of the request's parameters (R463). -/
def OmiReq.p (rq : OmiReq) (o n : Nat) : Nat := bytesAt rq.params o n

/-! The mailbox. -/

/-- Mailbox m beside its registers. -/
def State.mbx (s : State) (m : Nat) : Mbx := sget Mbx.cold s.hif.mbx m

/-- Replace mailbox m beside its registers. -/
def State.setMbx (s : State) (m : Nat) (x : Mbx) : State :=
  s.modHif fun h => { h with mbx := sset Mbx.cold h.mbx m x }

/-- The message of mailbox m (R458), on MBX_CTRL.VEC of the owning function. -/
def State.mbxMsg (s : State) (m : Nat) : State :=
  if bit (s.rd (.mbxCtrl m)) 15 then s.msix (s.rf (.mbxOwner m) 7 0) (s.rf (.mbxCtrl m) 10 0) else s

/-- n bytes of the request area of mailbox m, from its byte o (R457). -/
def State.areaBytes (s : State) (m o n : Nat) : List Byte :=
  (List.range n).map fun i => sget 0 (s.mbx m).area (o + i)

/-- The request that stands in the request area of mailbox m (R457): CMD and the rest. The area has room for 1,952 parameter
bytes; a PLEN above that gives no command its total (R463). -/
def State.areaReq (s : State) (m : Nat) : Nat × OmiReq :=
  let f (o n : Nat) : Nat := ofBytes (s.areaBytes m o n)
  (f 0 2, ⟨f 2 2, f 4 4, f 0x10 8, f 0x18 4, s.areaBytes m 0x20 (min (f 8 2) 1952), f 0x0A 6, f 0x1C 4⟩)

/-- Step 4 of R458: the response is stored; STATE := DONE and the message, or the answer to the fabric manager (R461). -/
def State.omiStore (s : State) (src : OmiSrc) (r : OmiResp) : State :=
  match src with
  | .mbx m => ((s.setMbx m { s.mbx m with resp := some r, busy := none }).wf (.mbxStatus m) 1 0 2).mbxMsg m
  | .fm id =>
    (s.modHif fun h => { h with fmMbx := sset FmMbx.cold h.fmMbx id { sget FmMbx.cold h.fmMbx id with resp := some r } }).send
      id false false (.manage (.response r))

/-- Step 2 of R458 for a mailbox: the whole request is copied, LASTSEQ := SEQ and STATE := BUSY; the command waits for those
taken before it (R460). -/
def State.mbxTake (s : State) (m cmd : Nat) (rq : OmiReq) : State :=
  let s := (s.wf (.mbxStatus m) 63 32 rq.seq).wf (.mbxStatus m) 1 0 1
  (s.setMbx m { s.mbx m with busy := some (cmd, rq) }).modHif fun h => { h with taken := h.taken ++ [m] }

/-- A command of the source stays BUSY. -/
def State.omiHeld (s : State) (src : OmiSrc) : Bool := s.mp.busy.any fun b => b.src == src

/-- The command is executed now (R458 to R460), none: not. A mailbox's is the request that its doorbell took, and the first
of those taken; the fabric manager's frame brings it, when none waits. Without firmware there is none (R456), nor
while the device is held in reset for a dump (R502). -/
def State.omiTake (s : State) (src : OmiSrc) (cmd : Nat) (rq : OmiReq) : Option State :=
  if s.mp.fwFail || s.pfail then none
  else match src with
  | .mbx m =>
    if (s.mbx m).busy == some (cmd, rq) && s.hif.taken.head? == some m.val then
      some (s.modHif fun h => { h with taken := h.taken.tail })
    else none
  | .fm id =>
    let x := sget FmMbx.cold s.hif.fmMbx id
    if rq.seq = (x.lastSeq + 1) % 2 ^ 32 && !s.omiHeld src && s.hif.taken.isEmpty then
      some (s.modHif fun h => { h with fmMbx := sset FmMbx.cold h.fmMbx id { x with lastSeq := rq.seq } })
    else none

/-- What a source of a command is (R461). -/
inductive OmiWho where
  | owner | vf | fabric | stranger
  deriving DecidableEq, Repr

/-- The source of a command: a mailbox of function 0 or of another function, or the fabric manager. -/
def State.omiWho (s : State) : OmiSrc → OmiWho
  | .mbx m => if s.rf (.mbxOwner m) 7 0 = 0 then .owner else .vf
  | .fm id => if s.rf .fabRole 59 48 = id then .fabric else .stranger

/-- What R461 to R464 say of a command: CMD, its sources, whether a device in Fawn mode takes it, whether it persists
(P), its PLEN, and its reserved parameters (offset and size). -/
structure OmiCmd where
  cmd : Nat
  who : List OmiWho
  fawn : Bool
  keeps : Bool
  plen : Nat
  rsv : List (Nat × Nat)

/-- PERSIST of OMI_HEALTH_READ (R464). -/
def persistWord (src : OmiSrc) (cmd seq : Nat) : Word :=
  let w := setFld (setFld 0 63 48 cmd) 31 0 seq
  match src with
  | .mbx m => setFld w 44 40 m
  | .fm _ => setBit w 47 true

/-- The command is over: its effect is noted where it persists (R459, R464), and the response stored. -/
def State.omiEnd (s : State) (src : OmiSrc) (cmd seq : Nat) (keeps : Bool) (r : Nat × Nat × List Byte) : State :=
  let s := if keeps && r.1 == stOK then s.modMp fun m => { m with persist := persistWord src cmd seq } else s
  s.omiStore src ⟨cmd, r.1, seq, r.2.1, r.2.2⟩

/-- A parameter, by its offset in the request, is out of range. -/
abbrev OmiRange := List (Nat × Bool)

/-- The range check of the parameter at byte o of the parameters. -/
def prm (o : Nat) (bad : Bool) : Nat × Bool := (0x20 + o, bad)

/-- The offset of the first bad field of a request (R463, R466): PLEN, the reserved fields, and the ranges. -/
def OmiCmd.badAt (c : OmiCmd) (rq : OmiReq) (range : OmiRange) : Option Nat :=
  if rq.params.length ≠ c.plen then some 8
  else
    let l := (0x0A, rq.rsvA != 0) :: (0x1C, rq.rsvB != 0) :: (c.rsv.map (fun p => prm p.1 (bytesAt rq.params p.1 p.2 != 0)) ++ range)
    (l.filter (·.2)).foldl (fun m p => some (match m with | none => p.1 | some k => min k p.1)) none

/-- The first check that fails before a command executes: R461, R462, R463 with R466, R460. -/
def State.omiCheck (s : State) (c : OmiCmd) (src : OmiSrc) (rq : OmiReq) (names : List Nat) (range : OmiRange) :
    Option (Nat × Nat) :=
  if !c.who.contains (s.omiWho src) then some (stDENIED, 0)
  else if s.fawn && !c.fawn then some (stSTATE_ERROR, 0)
  else match c.badAt rq range with
  | some o => some (stBAD_PARAM, o)
  | none => if s.mp.busy.any fun b => names.contains b.obj then some (stBUSY, 0) else none

/-- A command that is not executed (R459, R461). A mailbox's was not taken by its doorbell, or others come first. The fabric
manager that repeats the SEQ of its last one, which is done, gets the stored response again; any SEQ but that and the next
is an error. -/
def State.omiRefuse (s : State) (src : OmiSrc) (seq : Nat) : State :=
  match src with
  | .mbx _ => s
  | .fm id =>
    let x := sget FmMbx.cold s.hif.fmMbx id
    if s.mp.fwFail || s.pfail then s
    else if seq = x.lastSeq then
      match x.resp with
      | some r => if r.seq = seq then s.send id false false (.manage (.response r)) else s
      | none => s
    else if seq = (x.lastSeq + 1) % 2 ^ 32 && !s.omiHeld src then s
    else s.event sgMBX_SEQ_ERROR (s.locElement elMP) (detBytes 2 id)

/-- Run a command (R458 to R463): names are the objects that it names (R460), the first of which a command that stays
BUSY holds; range are the checks of its parameters. -/
def State.omiRun (s : State) (c : OmiCmd) (src : OmiSrc) (rq : OmiReq) (names : List Nat) (range : State → OmiRange)
    (body : State → OmiAns) : State :=
  match s.omiTake src c.cmd rq with
  | none => s.omiRefuse src rq.seq
  | some s =>
    match s.omiCheck c src rq names (range s) with
    | some (st, d) => s.omiEnd src c.cmd rq.seq c.keeps (st, d, [])
    | none =>
      match body s with
      | ⟨s, some r⟩ => s.omiEnd src c.cmd rq.seq c.keeps r
      | ⟨s, none⟩ => s.modMp fun m => { m with busy := m.busy ++ [⟨src, c.cmd, rq.seq, names.headD 0⟩] }

/-- The function with whose requester ID a source's buffer is read and written (R458). -/
def State.srcFn (s : State) : OmiSrc → Nat
  | .mbx m => s.rf (.mbxOwner m) 7 0
  | .fm _ => 0

/-- The buffer of a request is read (R458). -/
def State.readBuffer (s : State) (src : OmiSrc) (rq : OmiReq) : State := s.toHost (.fetch (s.srcFn src) rq.daddr rq.dlen)

/-- A command that stayed BUSY is done (R458, R460): the one with this CMD that holds this object. -/
def State.omiFinish (s : State) (cmd obj status : Nat) : State :=
  match s.mp.busy.find? fun b => b.cmd == cmd && b.obj == obj with
  | none => s
  | some b =>
    (s.modMp fun m => { m with busy := m.busy.filter fun x => x != b }).omiEnd b.src cmd b.seq false (status, 0, [])

/-! Objects of R460. -/

def obPart (p : Nat) : Nat := 0x10000 + p
def obQueue (q : Nat) : Nat := 0x20000 + q
def obFn (f : Nat) : Nat := 0x30000 + f
def obCluster (c : Nat) : Nat := 0x40000 + c
def obSlot (c sl : Nat) : Nat := 0x50000 + c * 8 + sl
def obLayout : Nat := 0x60000
def obStores : Nat := 0x70000
def obPartner : Nat := 0x80000

/-- The objects that a locator names (R460): a cluster; a slot, with its cluster; a core's cluster and slot. -/
def State.obLoc (s : State) (w : Nat) : List Nat :=
  let l := Loc.of w
  match l.depth with
  | 4 => [obCluster l.clusterDw]
  | 5 => [obSlot l.clusterDw l.slot, obCluster l.clusterDw]
  | 6 => obCluster l.clusterDw :: (s.slotOf l.coreDw).toList.map (obSlot l.clusterDw)
  | _ => []

/-- The CMD codes that are assigned (R464). -/
def omiAssigned (cmd : Nat) : Bool :=
  cmd == 1 || cmd == 2 || (0x10 ≤ cmd && cmd ≤ 0x1B) || (0x20 ≤ cmd && cmd ≤ 0x28) || (0x30 ≤ cmd && cmd ≤ 0x34)

/-! Custody that comes back (R436). -/

/-- Where the partner's ledger area stands in the replica area, in frames. -/
def State.replicaFrame (s : State) : Nat := (s.layout.m + s.layout.u) / 4096

/-- A translation entry of the promoted replica, with the address it names as on the device that gets it back. -/
def unrelocEntry (base : Nat) (w : Word) : Word :=
  if bit w 63 then setFld w 51 12 (fld w 51 12 - base / 4096) else w

/-- A frame of the promoted replica as it goes back; table says that it holds translation tables. -/
def State.backImage (s : State) (table : Bool) (f : Nat) : FrameImg :=
  let b := s.layout.m + s.layout.u
  let pa := b + 4096 * f
  let ws := (List.range 512).map fun i => (s.memWord (pa + 8 * i)).val
  ⟨f, ws.flatMap fun w => toBytes 8 (if table then unrelocEntry b w else w).toNat,
    (List.range 512).map fun i => s.tagAt (pa + 8 * i)⟩

/-- A frame of the own ledger area, for the partner's replica. -/
def State.ownImage (s : State) (f : Nat) : FrameImg :=
  ⟨f, ((List.range 512).map fun i => (s.memWord (4096 * f + 8 * i)).val).flatMap fun w => toBytes 8 w.toNat,
    (List.range 512).map fun i => s.tagAt (4096 * f + 8 * i)⟩

/-- The frames of the promoted replica that hold anything, numbered as on the partner. -/
def State.backFrames (s : State) : List Nat :=
  let b := s.replicaFrame
  ((s.mem.map fun c => c.1 / 4096).filter fun f => b ≤ f && f < b + s.layout.p / 4096).eraseDups.map (· - b)

/-- The own ledger area for the partner's replica (R355, R436). -/
def State.ownArea (s : State) : Tables :=
  ⟨1025, 0, 0, [], [], (((s.mem.map fun c => c.1 / 4096).filter fun f => f < s.layout.m / 4096).eraseDups).map s.ownImage⟩

/-- The records of the adopted work (R436): the ACCEPT and RESULT records of the partner half, the results of the runs
that this device has made of it, and the last key that each of the partner's queues has RELEASED. -/
def State.backRecs (s : State) : List JRec :=
  let mine := s.runs.filter fun r => r.adopted.isSome
  let keys := (mine.filter fun r => r.st == .committed || r.st == .isSealed || r.st == .released).map (·.okey)
  let out := mine.filter fun r => r.st == .released
  let rel := ((out.map (·.queue)).eraseDups).map fun q =>
    JBody.release q ((out.filter fun r => r.queue == q).foldl (fun m r => max m r.okey) 0)
  (s.vault.ptn.filter fun r => match r.body with | .accept .. => true | .result .. => true | _ => false)
    ++ (s.vault.own.filter fun r => match r.body with
      | .result _ _ _ ok .. => keys.contains ok && !s.vault.ptn.any fun q => q.body == r.body
      | _ => false)
    ++ rel.map fun b => ⟨0, 0, 0, b⟩

/-- The idempotency entries of the adopted work, at their places in the partner's table (R335). -/
def State.backIdem (s : State) : List (Nat × Idem) :=
  s.idemPtn.map fun p => match s.idem.find? fun x => x.2.bound.isSome && x.2.key == p.2.key && x.2.isn == p.2.isn + 2 ^ 64 with
    | some x => (p.1, { x.2 with isn := p.2.isn })
    | none => p

/-- The custodian ships everything back (R355, R436): the partner's area with its journal, the own area for the partner's
replica, then each partition with its registers, the keys of its frames as they are now, and its tables. -/
def State.shipBack (s : State) : State :=
  let tab := s.fab.tables.flatMap fun t => t.frames.map (·.frame)
  let area : Tables := ⟨1024, 0, 0, [], [], (s.backFrames.filter fun f => !tab.contains f).map (s.backImage false)⟩
  let s1 := s.send s.partnerId false false (.restore area s.backRecs s.backIdem)
  let s1 := s1.send s.partnerId false false (.restore s.ownArea [] [])
  let b := s.layout.m + s.layout.u
  s.fab.tables.foldl (fun (s1 : State) t =>
    let t1 := { t with
      keys := t.keys.map (fun k => let v := s.frameKey (4096 * k.1 + b); (k.1, v.1 + 256 * b2n v.2))
      frames := t.frames.map fun f => s.backImage true f.frame }
    s1.send s.partnerId false false (.restore t1 [] [])) s1

/-- A duplicate that waits for a request which has gone back is refused: the original's result is the partner's to write
(R337, log 133). -/
def AccWait.gone (isns : List Nat) : AccWait → AccWait
  | .duplicate i k n none => if isns.contains n then .refusal i 0x0102 k else .duplicate i k n none
  | a => a

/-- What remains at the custodian once everything has gone back (R436): no partition and no run of the partner. Its
journal half is empty until the partner ships its records again. -/
def State.dropCustody (s : State) : State :=
  let ps := (s.fab.tables.map (·.part)).filter (· < 1024)
  let keys := (s.runs.filter fun (r : Run) => r.adopted.isSome).map (·.okey)
  let isns := (s.runs.filter fun (r : Run) => r.adopted.isSome).map (·.isn)
  let idemPtn := s.backIdem
  let s := ps.foldl (fun (k : State) p => (k.wr (.keyPtctl p) 0).wr (.keyPtroot p) 0) s
  let s := s.modVault fun v => { v with ptn := [], ptnRsn := 0, badRsn := [], early := [], refused := [],
                                        own := v.own.filter fun r => match r.body with
                                          | .result _ _ _ ok .. => !keys.contains ok | _ => true }
  { s with runs := s.runs.filter fun (r : Run) => r.adopted.isNone,
           queues := s.queues.map fun (p : Nat × Queue) => (p.1, { p.2 with acc := p.2.acc.map (AccWait.gone isns) }),
           idemPtn := idemPtn, idem := s.idem.filter fun p => p.2.bound.isNone }

/-- The pulse named in OMI_PARTNER_RESTORE (R436): the custodian gives the partitions and the work back, and the pair is
PAIRED. -/
def State.restorePulse (s : State) : State :=
  match s.fab.restoreAt with
  | none => s
  | some t =>
    if s.tick < t then s
    else
      let s1 : State := if s.fab.custody then
          (s.shipBack.dropCustody.modFab fun f => { f with custody := false, granted := none, asked := false }).wf .fabLease 63 61 1
        else s
      (s1.modFab fun f => { f with restoreAt := none }).omiFinish 0x31 obPartner stOK

end Sys2Proof.Machine
end

