-- ==== Sys2Proof/Machine/HostIf.lean ====
section
/-!
DEFINITION. What the PCI Express side does to functions and queues (R448, R454, R468), and its accesses to BAR0 and BAR2
(R449 to R452, R457, R467).
-/
namespace Sys2Proof.Machine

/-- Hold the queues of the functions in a set (R454). -/
def State.holdQueues (s : State) (of : Nat → Bool) : State :=
  let qs := s.regs.filterMap fun r => match r.1 with
    | .keyQbind q => if bit r.2 63 && of (fld r.2 55 48) then some q else none
    | _ => none
  qs.foldl (fun (s : State) q => s.setQueue q { s.queue q with held := true }) s

/-- Change function f. -/
def State.modFn (s : State) (f : Nat) (g : Fn → Fn) : State :=
  s.modHif fun h => { h with fns := sset Fn.cold h.fns f (g (sget Fn.cold h.fns f)) }

/-- FLR (R448, R454, R459): mailbox state is kept; the MSI-X table is as after reset (PRESUMED, log 131). -/
def execFlr (f : Fin 256) (s : State) : Out :=
  .next ((s.modFn f fun x => { x with busMaster := false, table := [], pend := [] }).holdQueues (· == f.val))

/-- BUS_MASTER_DISABLE (R454): the bus master enable is cleared, or D3hot. -/
def execBusMasterDisable (f : Fin 256) (s : State) : Out :=
  .next ((s.modFn f fun x => { x with busMaster := false }).holdQueues (· == f.val))

/-- BUS_MASTER_ENABLE (R454). -/
def execBusMasterEnable (f : Fin 256) (s : State) : Out := .next (s.modFn f fun x => { x with busMaster := true })

/-- HIF_LINK takes a value; a change of STATE is recorded (R467, R468). -/
def State.setLink (s : State) (st width speed flit : Nat) : State :=
  let old := s.rf .hifLink 15 12
  let s := (((s.wf .hifLink 15 12 st).wf .hifLink 7 3 width).wf .hifLink 2 0 speed).wf .hifLink 8 8 flit
  if old = st then s else s.event sgHOST_LINK_STATE (s.locElement elHIF) 0

/-- HOST_LINK_DOWN (R454, R468): down, or in hot reset. -/
def execHostLinkDown (hot : Bool) (s : State) : Out :=
  let s := (s.setLink (if hot then 4 else 0) 0 0 0).holdQueues fun _ => true
  .next (if hot then
    s.modHif fun h => { h with fns := h.fns.map fun p => (p.1, { p.2 with busMaster := false, table := [], pend := [] }) }
  else s)

/-- The width at which a link with these lanes runs (R448): x16, x8, or none. -/
def linkWidth (lanes : Nat) : Nat := if lanes = 16 then 16 else if lanes ≥ 8 then 8 else 0

/-- HOST_LINK_UP (R448): trained with these lanes; a link narrower than x8 is not used. FLIT mode goes with 64 GT/s, the
fourth rate, and a link at none of the four rates is still TRAINING. -/
def execHostLinkUp (width : Fin 17) (speed : Fin 5) (flit : Bool) (s : State) : Out :=
  let w := linkWidth width
  .next (if speed.val = 0 || flit != (speed.val == 4) then s.setLink 1 0 0 0
  else s.setLink (if w = 0 then 3 else 2) w speed (b2n flit))

/-- IDE_FAULT (R468): the stream is closed. -/
def execIdeFault (stream : Fin 8) (s : State) : Out :=
  .next ((s.alarm sgIDE_FAULT (s.locElement elHIF) (detBytes 1 stream)).modHif fun h =>
    { h with ide := h.ide.filter (· != stream.val) })

/-! Accesses to BAR0 and BAR2 (R449). -/

/-- Byte i of a register, the most significant first (R69). -/
def wordByte (w : Word) (i : Nat) : Byte := BitVec.ofNat 8 (w.toNat / 2 ^ (8 * (7 - i)))

/-- A response as it stands in the response area (R457). -/
def OmiResp.bytes (r : OmiResp) : List Byte :=
  toBytes 2 r.cmd ++ toBytes 2 r.status ++ toBytes 4 r.seq ++ toBytes 4 r.detail ++ toBytes 2 r.data.length ++ toBytes 2 0 ++ r.data

/-- Byte i of mailbox page m (R457, R467). -/
def State.mbxByte (s : State) (m i : Nat) : Byte :=
  if 0x08 ≤ i ∧ i < 0x10 then wordByte (s.regView (.mbxStatus m)) (i - 0x08)
  else if 0x10 ≤ i ∧ i < 0x18 then wordByte (s.regView (.mbxCtrl m)) (i - 0x10)
  else if 0x40 ≤ i ∧ i < 0x800 then sget 0 (s.mbx m).area (i - 0x40)
  else if 0x800 ≤ i then (((s.mbx m).resp.map OmiResp.bytes).getD []).getD (i - 0x800) 0
  else 0

/-- The 16 bytes of an MSI-X table entry as a number, the byte at the lowest address least significant: address, data, vector
control with the mask in bit 0 (PRESUMED, the PCI Express standard, log 131). -/
def MsixEntry.num (e : MsixEntry) : Nat := e.addr + e.data * 2 ^ 64 + b2n e.masked * 2 ^ 96
def MsixEntry.ofNum (n : Nat) : MsixEntry := ⟨n % 2 ^ 64, n / 2 ^ 64 % 2 ^ 32, n / 2 ^ 96 % 2 == 1⟩

/-- A number with its bits from lo, len of them, replaced. -/
def putBits (n lo len v : Nat) : Nat := n - n / 2 ^ lo % 2 ^ len * 2 ^ lo + v % 2 ^ len * 2 ^ lo

/-- Byte o of function f's BAR0 (R449, R450, R452). -/
def State.bar0Byte (s : State) (f o : Nat) : Byte :=
  if o < 0x20000 then (if s.rf (.mbxOwner (o / 0x1000)) 7 0 = f then s.mbxByte (o / 0x1000) (o % 0x1000) else 0)
  else if o < 0x21000 then wordByte (sget 0 s.hif.page (o % 0x1000 / 8 * 8)) (o % 8)
  else if 0x80000 ≤ o ∧ o < 0x80000 + 16 * (s.fnVecs f).2 then
    BitVec.ofNat 8 ((sget MsixEntry.cold (s.fn f).table ((o - 0x80000) / 16)).num / 2 ^ (8 * (o % 16)))
  else if 0x90000 ≤ o ∧ o < 0x90100 then
    BitVec.ofNat 8 (((s.fn f).pend.filter (fun v => v / 8 == o - 0x90000)).foldl (fun n v => n + 2 ^ (v % 8)) 0)
  else 0

/-- A read of BAR0 by function f. -/
def State.bar0Read (s : State) (f : Fin 256) (size o : Nat) : State :=
  s.toHost (.answer f ((List.range size).map fun i => s.bar0Byte f (o + i)))

/-- A write of size bytes at byte i of mailbox page m (R457, R467). The doorbell has a row of its own. -/
def State.mbxWrite (s : State) (m i size : Nat) (v : Word) : State :=
  let low (o : Nat) : Bool := i == o && size == 8 || i == o + 4 && size == 4
  let v' := setFld 0 (8 * size - 1) 0 v.toNat
  if low 0x08 then s.regWrite (.mbxStatus m) 258 v'
  else if low 0x10 then s.regWrite (.mbxCtrl m) 258 v'
  else if 0x40 ≤ i ∧ i + size ≤ 0x800 then
    let x := s.mbx m
    s.setMbx m { x with area := ((toBytes size v.toNat).zipIdx).foldl (fun a p => sset 0 a (i - 0x40 + p.2) p.1) x.area }
  else s

/-- A write in an MSI-X table entry of function f: a pending vector that is unmasked is sent (R452). -/
def State.msixWrite (s : State) (f k lo size : Nat) (v : Word) : State :=
  let e := MsixEntry.ofNum (putBits (sget MsixEntry.cold (s.fn f).table k).num (8 * lo) (8 * size) v.toNat)
  let s := s.modFn f fun x => { x with table := sset MsixEntry.cold x.table k e }
  if !e.masked && (s.fn f).pend.contains k then
    (s.modFn f fun x => { x with pend := x.pend.filter (· != k) }).msix f k
  else s

/-- A write of function f to BAR0; one that is not 4 or 8 bytes, naturally aligned, is discarded. -/
def State.bar0Write (s : State) (f : Fin 256) (size o : Nat) (v : Word) : State :=
  if !(size == 4 || size == 8) || o % size ≠ 0 then s
  else if o < 0x20000 then
    if s.rf (.mbxOwner (o / 0x1000)) 7 0 = f then s.mbxWrite (o / 0x1000) (o % 0x1000) size v else s
  else if 0x80000 ≤ o ∧ o < 0x80000 + 16 * (s.fnVecs f).2 then s.msixWrite f ((o - 0x80000) / 16) (o % 16) size v
  else s

/-- QSTAT of queue q (R451). -/
def State.qstat (s : State) (q : Nat) : Word :=
  setFld (setBit (setBit (setBit 0 0 (bit (s.rd (.intQcfg q)) 63)) 1 (s.cqFull q)) 2 (s.queue q).held) 31 16 (s.queue q).fetch

/-- An access to queue page q of function f's BAR2: one to a queue of another function is recorded (R274). -/
def State.queuePage (s : State) (f q : Nat) (act : State → State) (other : State → State) : State :=
  let b := s.rd (.keyQbind q)
  if bit b 63 && fld b 55 48 == f then act s
  else other (s.event sgQUEUE_NOT_BOUND (s.locElement elINT) (detBytes 2 q))

/-- A write of function f to BAR2 that is no doorbell: discarded (R451). -/
def State.bar2Write (s : State) (f : Fin 256) (size o : Nat) : State :=
  if !(size == 4 || size == 8) || o % size ≠ 0 || o ≥ 2 ^ 24 then s
  else s.queuePage f (o / 0x1000) id id

/-- A read of BAR2 by function f: all but QSTAT reads 0 (R451). -/
def State.bar2Read (s : State) (f : Fin 256) (size o : Nat) : State :=
  let w (i : Nat) : Byte := if 0x20 ≤ i ∧ i < 0x28 then wordByte (s.qstat (o / 0x1000)) (i - 0x20) else 0
  if o ≥ 2 ^ 24 then s
  else s.queuePage f (o / 0x1000) (·.toHost (.answer f ((List.range size).map fun i => w (o % 0x1000 + i))))
    (·.toHost (.answer f (toBytes size 0)))

end Sys2Proof.Machine
end

