-- ==== Sys2Proof/Machine/Levels.lean ====
section
/-!
DEFINITION. Entry to a level at a boundary (R176, R180, R185, R191), BUDGET_EXCEEDED (R247), the end of WAIT
(R155), and the messages of the scheduler and the management processor (R191).
-/
namespace Sys2Proof.Machine

/-- Core e stands at a retired-instruction boundary at which it can enter a level: it could issue, or waits in
DISPATCH (R169, R176). -/
def State.atBoundary (s : State) (e : Nat) : Bool :=
  (s.setCore e { s.core e with act := .run }).canIssue e && ((s.core e).act == .run || (s.core e).act == .disp) && !(s.core e).mid

/-- The restart bit of a machine check source (R395). -/
def restartBit (src : Nat) : Nat := if src = 0x0301 ∨ src = 0x0501 then 0 else 1

/-- The fetch of one instruction word (R77, R149, R258): its checks, the tag of its memory word, its value. -/
def fetchWord (va : Nat) : Op Nat := do
  let t ← access .fetch va false
  match t with
  | .ctl _ => busError va false false
  | t =>
    let w ← targetWord t va false
    if w.tag = tPOISON then raiseA vPOISON (tagDetail tPOISON 8) va false false
    else return ofBytes (((toBytes 8 w.val.toNat).drop (va % 8)).take 4)

/-- The fetch of the instruction's own words (R74, R115, R149): the word at PC, its extension word, and under REP the words
of the repeated instruction. -/
def fetchOp : Op Unit := do
  let pc := (← cx).c.pc.toNat
  let w ← fetchWord pc
  if fOPC w = 0x0C then
    let v ← fetchWord (pc + 4)
    if fL v then discard (fetchWord (pc + 8))
  else if fL w then discard (fetchWord (pc + 4))

/-- An operation that ends without the instruction having executed. -/
def State.probe (s : State) (e : Nat) (op : Op Unit) : State :=
  match op (s.startCx e 0 4) with
  | .ok _ x => { x.s.setCores (x.s.unitCores e) { s.core e with tlb := x.c.tlb } with free := s.free + 1 }
  | .error r x => finishOp e s.free (.error r x)

/-- An uncorrectable error in a cache (R238, R33): every affected word of working storage is POISON, and the FMU records it.
The spec gives the record no signature of its own: DESIGN CHOICE MEM_UE with the core that the cache serves as its root
(log 96). -/
def State.cacheUe (s : State) (e : Nat) (words : List Nat) : State :=
  let ws := words.filter fun pa => match s.area pa with | .own => true | .unmirrored => true | _ => false
  if ws.isEmpty then s
  else (ws.foldl (fun (s : State) pa => s.poisonWords (pa / 8) 1) s).alarm sgMEM_UE (s.locCore e) 0

/-- An uncorrectable error in TCM marks the word POISON (R245), on every core of the unit, which the model runs as one stream
(log 96). -/
def State.tcmUe (s : State) (e word : Nat) : State :=
  if word < 32768 then
    (s.unitCores e).foldl (fun (s : State) i => s.modCore i fun c =>
      { c with tcm := sset raw0 c.tcm word { sget raw0 c.tcm word with tag := tPOISON } }) s
  else s

/-- LEVEL_ENTRY (R176, R180, R181, R185, R395): in the order of R176, a machine check, a request unless BUDGET_EXCEEDED comes
first, and the exceptions of the next instruction. -/
def execLevelEntry (e : Fin 256) (cause : EntryCause) (s : State) : Out :=
  .next (match cause with
  | .request =>
    if !s.atBoundary e || s.budgetDue e then s
    else
      let s := s.dropInvalid e
      let c := s.core e
      match s.requestDue e with
      | some (i, w) => s.takeAsync e c i w c.pc c.lev none
      | none => s
  | .machineCheck src addr =>
    if !s.checkable e then s
    else
    let s := if 0x0101 ≤ src ∧ src ≤ 0x0104 then s.noteParity e src addr else s
    s.machineCheck e { s.core e with act := .run } src (restartBit src) (s.core e).pc
  | .unassigned w => s.runIns e w.toNat false (pure ())
  | .fetch => if s.issuesNow e then s.probe e fetchOp else s
  | .cacheError words => s.cacheUe e words
  | .tcmError word => s.tcmUe e word)

/-- BUDGET_EXCEEDED (R176, R189, R247): at the first boundary at level 0 with REMAIN 0, once per context. -/
def execBudgetExceeded (e : Fin 256) (s : State) : Out :=
  let c := s.core e
  .next (if s.canIssue e && s.budgetDue e then
    s.takeExc e { c with armed := false }
      ⟨vBUDGET_EXCEEDED, fld c.budget 63 32, none, false, false, false⟩ c.pc
  else s)

/-- WAIT_WAKEUP (R155): a core in C1 with an unmasked request pending, or with a tick pulse since, retires WAIT, which ends
a step of it (R480). -/
def execWaitWakeup (e : Fin 256) (s : State) : Out :=
  let u := s.dropInvalid e
  let c := u.core e
  let req := (u.pick e (effVal s.free 0x14 c.lmask c.delayed) c.lev c.cur.psw c.vbr).isSome
  let halt := s.halted (e / 8) && !s.stepping e
  .next (if !halt && (c.act == .c1p || (c.act == .c1 && req)) then
    let s' := u.resume e 0 (done 1)
    let s' := s'.trcWake ((s.unitCores e).headD e) (s'.core e).pc
    if s.stepping e then s'.endStep false else s'
  else s)

/-- The core takes requests: it is enabled and not SPARE, RETIRED, in C6 or in cluster reset (R54, R194). -/
def State.listens (s : State) (e : Nat) : Bool :=
  s.clusterOn (e / 8) && !s.cluInReset.contains (e / 8) && s.coreState e != csSPARE
    && s.coreState e != csRETIRED && !(s.core e).c6

/-- SCHED_MESSAGE (R191). -/
def execSchedMessage (e : Fin 256) (code : BitVec 32) (s : State) : Out :=
  .next (if s.listens e then s.raise 1 code.toNat e else s)

/-- MP_NOTIFY (R191). -/
def execMpNotify (e : Fin 256) (code : BitVec 32) (s : State) : Out :=
  .next (if s.listens e then s.raise 3 code.toNat e else s)

end Sys2Proof.Machine
end

