-- ==== Sys2Proof/Machine/Fawn.lean ====
section
/-!
DEFINITION. Fawn mode (R409 to R413), the conditions of intake that stop it (R19, R20), the status registers and
the status page that follow each pulse (R415, R450), and the heartbeats and handover requests that go with it
(R432, R436).
-/
namespace Sys2Proof.Machine

/-- The timers of ENERGY and INTAKE start again once the condition has gone (R409). -/
def State.restCauses (s : State) : State :=
  let low := bit s.intStatusWord 2
  let stop := s.stopped19
  s.modFmu fun f => { f with causes := setBit (setBit f.causes 1 (bit f.causes 1 && low)) 6 (bit f.causes 6 && stop) }

/-- FMU_STATUS (R415): COND, HEALTHY and CLUST2, and CAUSE while in Fawn mode. -/
def State.refreshStatus (s : State) : State :=
  let s := s.restCauses
  let s := ((s.wf .fmuStatus 47 40 s.causes).wf .fmuStatus 23 16 s.healthy).wf .fmuStatus 15 8 s.clust2
  if s.fawn then s.wf .fmuStatus 55 48 (s.rf .fmuStatus 55 48 ||| s.causes) else s

/-- The status page copies (R450): none before firmware runs. -/
def State.refreshPage (s : State) : State :=
  if s.mp.fwFail then s
  else
  let w (o : Nat) (r : Reg) (m : SMap Word) : SMap Word := sset 0 m o (s.regView r)
  let pg := w 0x28 .hifLink (w 0x20 .devId (w 0x18 .tsqSealed (w 0x10 .tsqTick (w 0x08 .fmuStatus
    (w 0 .intStatus s.hif.page)))))
  s.modHif fun h => { h with page := pg }

/-- The runs that belong to the tick in progress. -/
def State.inTickRuns (s : State) : List Nat := (s.runs.filter fun r => r.st.inTick).map (·.isn)

/-- Mode HANDOVER (R411): delivery stops and the current tick aborts. -/
def State.startHandover (s : State) : State := (s.wf .fmuStatus 61 60 2).abortNow s.inTickRuns false

/-- A core enters C6 (R249). -/
def State.enterC6 (s : State) (e : Nat) : State := (s.modCore e fun c => { c with c6 := true }).trcSleep e 6

/-- The cores that R249 and R250 let enter C6: spares, and the cores of split slots that wait in DISPATCH. -/
def State.mayC6 (s : State) (e : Nat) : Bool :=
  let split := (s.slotOf e).any fun sl => s.slotState (e / 8) sl == slSPLIT
  s.clusterOn (e / 8) && !(s.core e).c6 && (s.coreState e == csSPARE || (split && (s.core e).idle))

/-- Cores that are not needed for DRAIN are placed in C6 (R413): those that may enter it (log 111). -/
def State.restCores (s : State) : State := ((List.range 256).filter s.mayC6).foldl State.enterC6 s

/-- Fawn mode is entered, or DRAIN turns into HANDOVER (R409 to R411). Causes 1, 2, 4, 5 and 7 are those of
HANDOVER. -/
def State.enterFawn (s : State) : State :=
  let c := s.causes
  let hand := c &&& 0xB6 != 0 || s.healthy == 0
  if c = 0 then s
  else match s.rf .fmuStatus 61 60 with
  | 0 =>
    let s := (s.wf .fmuStatus 61 60 1).refreshStatus.alarm sgFAWN_ENTER s.locDevice (detBytes 1 c)
    let s := s.modSched fun k => { k with drainSince := s.tick }
    (if hand then s.startHandover else s).restCores
  | 1 => if hand then s.startHandover.refreshStatus else s.refreshStatus
  | _ => s.refreshStatus

/-! Heartbeats and handover. -/

/-- Send a heartbeat to the partner, on both paths (R422, R432, R437); none after a takeover request (R434). -/
def State.heartbeat (s : State) : State :=
  if !s.hasPartner || s.quiet then s
  else
    let (s, q) := s.takeSeq 5
    s.send s.partnerId false true (.heartbeat q s.sched.warm s.fawn s.tick s.now (s.rf .tsqSealed 47 0))

/-- A heartbeat instant (R432): whether the partner's heartbeat came since the last one, then the own one. -/
def State.hbInstant (s : State) : State :=
  let s : State := if s.rf .fabLease 63 61 != 1 then s
    else if s.fab.hbSeen then s.modFab fun f => { f with hbMiss := 0, hbSeen := false }
    else (s.modFab fun f => { f with hbMiss := f.hbMiss + 1 }).event sgHEARTBEAT_MISSED s.locDevice (detBytes 2 s.partnerId)
  s.heartbeat

/-- RENEW to the witness at the admit, and the count of ticks without an answer (R432). -/
def State.leaseRenew (s : State) : State :=
  let s := s.wf .fabLease 59 56 (if s.fab.okSeen then 0 else min 15 (s.rf .fabLease 59 56 + 1))
  let s := s.modFab fun f => { f with okSeen := false }
  if !s.hasPartner then s
  else
    let (s, q) := s.takeSeq 6
    s.send s.witnessId false true (.lease q .renew s.tick s.devId 0)

/-- Ask the partner to take custody (R411, R412, R436): once every COMMITTED tick is SEALED; a partner that no
path reaches leaves the device in HELD. -/
def State.handoverReq (s : State) : State :=
  if s.rf .fmuStatus 61 60 < 2 || !s.sched.unsealed.isEmpty || s.fab.handAck then s
  else if !s.mirrorUp then s.wf .fmuStatus 61 60 3
  else
    let (s, q) := s.takeSeq 7
    let n := (s.runs.filter fun r => r.st != .journaled && r.st != .released).length
    ((s.send s.partnerId false true (.handover q .req s.tick (s.rf .tsqSealed 47 0) n 0)).modFab
      fun f => { f with handSent := true }).wf .fabLease 63 61 5

end Sys2Proof.Machine
end

