-- ==== Sys2Proof/Machine/Tick.lean ====
section
/-!
DEFINITION. The phases of a tick (R302): the pulse (R294, R304, R310, R324), remote close (R322, R323, R442), stage
close (R313, R442), the flip (R280, R294, R295, R341) and the seal deadline (R29), and what happens at pulses by
rows of its own: the half-tick heartbeat, the staleness sweep (R267), the period change (R306), the expiry of
idempotency entries (R336) and of counted transients (R375).
-/
namespace Sys2Proof.Machine

/-- Global time goes to an instant of the tick; it never goes back. -/
def State.atTime (s : State) (t : Nat) : State :=
  if s.now < t then s.wr .fabTime (BitVec.ofNat 64 t) else s

/-! The pulse. -/

/-- A posting-cache entry at the pulse (R285, R294): CLEAN, with the flipped value if it was flipped. -/
def NEntry.pulse (x : NEntry) : NEntry :=
  let c := if x.st == .flipped then x.r else x.c
  { x with c := c, r := c, last := 0xFFFF, st := .clean, holders := [], fresh := false }

/-- A posting unit at the pulse (R290, R294). -/
def Npu.pulse (n : Npu) : Npu :=
  { n with cache := n.cache.map NEntry.pulse, log := [], queue := [], fullSeen := false, lostNow := false }

/-- A core that takes tick pulses: not in reset, SPARE, RETIRED or C6, and not in resync (R36). -/
def State.hearsTick (s : State) (e : Nat) : Bool :=
  s.clusterOn (e / 8) && !s.cluInReset.contains (e / 8) && s.coreState e != csSPARE && s.coreState e != csRETIRED
    && !(s.core e).c6 && !s.halted (e / 8) && (match s.slotOf e with
      | some sl => s.slotState (e / 8) sl != slRESYNC | none => true)

/-- Tick-exact mode follows TXREQ at the pulse, and PSW.TX of every bank matches it (R240), not in a split core (R385). -/
def Core.txPulse (c : Core) (free : Nat) : Core :=
  let t := bit (effVal free 0x38 c.mode c.delayed) 7
  if (!t && !c.tx && c.banks.all fun p => !bit p.2.psw 37) || c.ctx.isSome || c.lev != 0 || c.active.toNat / 2 % 2 ^ 16 != 0 then c
  else
    (List.range 17).foldl (fun c b => c.setBank b { c.bank b with psw := setBit (c.bank b).psw 37 t })
      { c with mode := setBit c.mode 6 t }

/-- Core e, without a context, waits for a posting unit's reply that cannot come any more: the request was discarded
(R166, R195). -/
def State.orphan (s : State) (e : Nat) : Bool :=
  let c := s.core e
  let es := s.unitCores e
  c.ctx.isNone && c.act == .reply && !s.repairWait.any (fun p => es.contains p.1) && !s.fab.waits.any fun p => es.contains p.2.core

/-- The pulse at core e (R155, R191, R240): TX, the end of C1, and vector 0x20 with the low 32 bits of the tick. A handler
without a context whose POST was discarded after stage close issues it again in the new tick (DESIGN CHOICE, log 91). -/
def State.corePulse (s : State) (e : Nat) : State :=
  if !s.hearsTick e then s
  else
    let unit := (s.unitOf e).isSome || (s.slotOf e).isNone
    let lone := s.orphan e
    let s := s.modCore e fun c =>
      let c := if unit then c.txPulse s.free else c
      if c.act == .c1 then { c with act := .c1p } else if lone then { c with act := .run } else c
    (s.raiseOne 0 (s.tick % 2 ^ 32) e).trcTick e

/-- The period of TSQ_PERIOD.NEXT takes effect at the boundary of tick AT (R306), and EXW follows (R317); the change goes
into the period history (R429). t: the tick whose boundary has come. -/
def State.periodAt (s : State) (t : Nat) : State :=
  let at_ := s.rf .tsqPeriod 47 0
  let next := s.rf .tsqPeriod 55 48
  if at_ ≤ t then
    let s := if next = s.rf .tsqPeriod 63 56 then s
      else s.modSched fun k => { k with history := k.history ++ [(at_, next)] }
    let s := s.wf .tsqPeriod 63 56 next
    s.wf .tsqExw 31 0 s.exw
  else s
def State.periodChange (s : State) : State := s.periodAt s.tick

/-- Route updates whose tick has come: EPOCH (R428). -/
def State.routeEpoch (s : State) : State :=
  let (now, later) := s.fab.routeNext.partition fun u => decide (u.2.1 ≤ s.tick)
  now.foldl (fun (s : State) u => s.wf .fabRtctl 47 32 u.1) (s.modFab fun f => { f with routeNext := later })

/-- Remote POSTs and remote reads of this tick that came before its pulse, and replies that waited for it (R321, R324). -/
def State.heldRemotes (s : State) : State :=
  let posts := s.fab.postWaits.filter fun p => p.2.tick ≤ s.tick
  let s := s.modFab fun f => { f with postWaits := f.postWaits.filter fun p => p.2.tick > s.tick }
  let s := posts.foldl (fun s p => State.selfReply (s.targetPost p.1 p.2)) s
  let now := s.fab.rdWaits.filter fun p => p.2.tick ≤ s.tick
  let s := s.modFab fun f => { f with rdWaits := f.rdWaits.filter fun p => p.2.tick > s.tick }
  let s := now.foldl (fun s p => State.selfReply (s.targetRead p.1 p.2)) s
  (s.fab.waits.filterMap fun p => p.2.held).foldl (fun s r => s.rreply r) s

/-- SYNC follows the limit of R305 at the pulse; when it returns, so does the mirror link. -/
def State.syncBack (s : State) : State :=
  let back := s.fab.syncOk && !bit (s.rd .tsqStatus) 4
  let s := s.wf .tsqStatus 4 4 (b2n s.fab.syncOk)
  if back then s.modFab fun f => { f with mirrorDown := false } else s

/-- The clusters whose reset is over ignore the pulse of tick t; they take part from the next (R36, R505). -/
def State.leaveReset (s : State) (t : Nat) : State :=
  s.cluInReset.foldl (fun (s : State) c => (List.range 5).foldl (fun (s : State) sl =>
    s.modSlotX c sl fun x => { x with poolFrom := max x.poolFrom (t + 1) }) s) s

/-- Tick t starts (R302, R310, R324): its effects in the order of the text. -/
def State.pulse (s : State) (t : Nat) : State :=
  let start := s.sched.start + s.period
  let left := s.inTickRuns
  let s := s.dropRuns left
  let rs := s.runs.map fun (r : Run) => if r.st.inTick then { r with st := .aborted, result := [] } else r
  let s : State := { s with runs := rs }
  let s := (List.range 12).foldl (fun (s : State) u => s.setNpu u (s.npu u).pulse) s
  let sc : Sched := { s.sched with start := start, admitted := 0, window := [], idemFull := false, flipped := false, missed := 0 }
  let s : State := { s with sched := sc }
  let s := (s.atTime start).wf .tsqTick 47 0 t
  let s := (s.periodChange.wf .tsqStatus 2 0 0).syncBack.dueRolls
  let s := s.leaveReset t
  let s := (List.range 256).foldl State.corePulse ((List.range 8).foldl State.designate s)
  let s := (List.range 4096).foldl (fun (s : State) q =>
    if bit (s.rd (.intQcfg q)) 15 then s.wf (.intQcfg q) 15 15 0 else s) s
  let s : State := { s with cluInReset := [], lineDead := [] }
  let s := s.restorePulse.modSched fun k => { k with isOpen := k.isOpen || k.opening, opening := false }
  let none_ := (List.range 8).filter fun g => !(regionSlots g ++ (List.range 4).flatMap fun i =>
    [3, 4].map fun sl => (4 * g + i, sl)).any fun p => s.slotHealthy p.1 p.2
  let s := (none_.filter fun g => !s.sched.noUnit.contains g).foldl
    (fun (s : State) g => s.alarm sgREGION_NO_UNIT (s.locRegion g) 0) s
  let s := s.modSched fun k => { k with noUnit := none_ }
  let inv := s.resets.inv
  let s := if inv.isEmpty then s else s.dropTlb fun t => !inv.contains t.part
  let s : State := { s with resets := { s.resets with inv := [] } }
  let s := s.routeEpoch.hbInstant.leaseRenew
  let s : State := if s.rf .fmuStatus 61 60 = 3 then s.handoverReq else s
  let s : State := if s.rf .fmuStatus 61 60 ≥ 2 || s.rf .fabLease 63 61 = 4 || !s.sched.isOpen then s
    else (List.range 8).foldl State.batch s.giveAllFrames
  s.heldRemotes.reprotect.refreshStatus.refreshPage

/-- TICK_PULSE (R302). None comes during the power-fail sequence (R502). In a warm reset no
tick runs (R437, R507): the endpoint keeps time and sends heartbeats, and the boundaries pass, also one at which the period
changes (R306). -/
def execTickPulse (s : State) : Out :=
  .next (if bit (s.rd .hupStatus) 0 then s
  else if s.sched.warm then
    let t := s.sched.start + s.period
    let n := s.sched.missed + 1
    (((s.modSched fun k => { k with start := t, missed := n }).atTime t).periodAt (s.tick + n)).hbInstant
  else s.pulse ((s.tick + 1) % 2 ^ 48))

/-- HEARTBEAT_HALF_TICK (R432). -/
def execHeartbeatHalfTick (s : State) : Out := .next (s.atTime (s.sched.start + s.period / 2)).hbInstant

/-! Remote close. -/

/-- Transactions that are pinned at remote close (R322, R441): those with a REMOTE entry for which they and all
before them have executed, and all before them. -/
def State.pinSet (s : State) : List Nat :=
  ((s.runs.filter fun r => r.st.inTick && s.holdsRemote r.isn).map (·.isn)).flatMap fun i =>
    let set := s.beforeOf i
    if set.all s.pinReady then set else []

/-- The remote POSTs that wait in the unit's queue are answered NOT_STAGED (R321). -/
def State.closeRemote (s : State) (u : Nat) : State :=
  let n := s.npu u
  let (rem, rest) := n.queue.partition fun q => match q with | .remote .. => true | _ => false
  rem.foldl (fun (s : State) q =>
    match q with
    | .remote src rid _ _ _ _ _ => State.selfReply (s.reply src ⟨rid, rsNOT_STAGED, 0, 0, 0, s.tick⟩)
    | _ => s) (s.setNpu u { n with queue := rest })

/-- Notices for every REMOTE entry of the tick whose run is not pinned. -/
def State.notices (s : State) : State :=
  let lost := (s.fab.held.filter fun h => h.tick == s.tick && !(s.run h.isn).any (fun r => r.pinned)).map
    fun h => (h.dst, h.okey)
  lost.eraseDups.foldl (fun s p => s.notice p.1 p.2) s

/-- The vault copies of remote close (R322, R443): the entries of pinned transactions and every REMOTE entry. -/
def State.remoteCopy (s : State) : State :=
  let es := (List.range 12).flatMap fun u =>
    ((s.npu u).log.filter fun x => !x.rolled && (x.kind == .remote ||
      (x.kind == .post && (s.run x.owner).any fun r => r.pinned))).map fun x => (u, x)
  s.modVault fun v => { v with npuCopy := es }

/-- REMOTE_CLOSE to the partner, then to every holder of a REMOTE entry (R442): also to a target that may have staged one
whose reply is still out. What the device itself holds as target it closes at once (R56, R426). -/
def State.sendRemoteClose (s : State) : State :=
  let mine := s.fab.held.filter fun h => h.tick == s.tick
  let keys := ((mine.filter fun h => (s.run h.isn).any fun r => r.pinned).map (·.okey)).eraseDups
  let out := (s.fab.waits.filter fun p => p.2.tick == s.tick && !p.2.isRead).map (·.2.dst)
  let all := (mine.map (·.dst) ++ out).eraseDups
  let dsts := all.filter (· != s.devId)
  let s := if all.contains s.devId then s.rollRemotes s.devId keys.contains else s
  let (s, q) := s.takeSeq 8
  let m : Msg := .remoteClose q s.tick s.devId keys
  let s : State := if s.hasPartner && !s.quiet then s.send s.partnerId false true m else s
  dsts.foldl (fun s d => s.send d true true m) s

/-- REMOTE_CLOSE (R302, R321 to R323, R442). -/
def execRemoteClose (s : State) : Out :=
  if s.rf .tsqStatus 2 0 ≠ 0 || s.sched.warm then .next s
  else
    let s := (s.atTime (s.sched.start + s.period - 3500)).wf .tsqStatus 2 0 1
    let s := (List.range 12).foldl State.closeRemote s
    let pins := s.pinSet
    let rs := s.runs.map fun (r : Run) => if pins.contains r.isn then { r with pinned := true } else r
    let s : State := { s with runs := rs }
    let out := (s.runs.filter fun r => r.st.inTick && s.holdsRemote r.isn && !r.pinned).map (·.isn)
    .next (((s.abortNow out true).remoteCopy.notices).sendRemoteClose)

/-! Stage close. -/

/-- Issuers of surviving REMOTE entries of the tick, without a REMOTE_CLOSE (R442). -/
def State.noClose (s : State) : List Nat :=
  (((List.range 12).flatMap fun u => ((s.npu u).log.filter fun x => x.kind == .remote && !x.rolled).map (·.owner)).filter
    fun d => d != s.devId && !s.fab.closes.any fun c => c.issuer == d && c.tick == s.tick).eraseDups

/-- The locator of a whole device (R40). -/
def devLoc (d : Nat) : Loc := ⟨d, 1, 0, 0, 0, 0, 0, 0⟩

/-- Waits for an earlier run of its ORDERED queue that has not executed (R311). -/
def State.follows (s : State) (r : Run) : Bool :=
  s.ordered r.queue && s.runs.any fun p => p.sameQueue r && p.okey < r.okey && (p.st.live || p.st == .deferred)

/-- An earlier run of its ORDERED queue aborts at stage close, and this one with it (R312). A deferred run does not
(R318): what it holds up is not EXECUTED at stage close for that reason alone (R313). -/
def State.cascades (s : State) (r : Run) : Bool :=
  s.ordered r.queue && s.runs.any fun p => p.sameQueue r && p.okey < r.okey && p.st.live

/-- The transactions that have not executed abort (R313, R314): an overrun, but for those with a cause of their
own that is none; the followers in ORDERED queues are cascades (R312). -/
def State.stageAborts (s : State) : State :=
  let first := (s.runs.filter fun r => r.st.live).filter fun r => !s.cascades r
  let s := s.abortNow ((first.filter fun r => !r.noovr).map (·.isn)) true
  s.abortNow ((first.filter fun r => r.noovr).map (·.isn)) false

/-- The runs of the tick, of some partitions (R508). -/
def State.runsOfParts (s : State) (ps : List Nat) : List Nat :=
  (s.runs.filter fun r => r.st.inTick && ps.contains r.part).map (·.isn)

/-- STAGE_CLOSE (R302, R313, R323, R442). A device with a partner keeps the remote closes of a tick until the partner's
posting log of it has come: it may have to apply them at takeover (R444, R445). With a warm reset requested every run of the tick aborts without an overrun
(R507), as do the runs of a partition that is being reset (R508). -/
def execStageClose (s : State) : Out :=
  if s.rf .tsqStatus 2 0 ≥ 2 || s.sched.warm then .next s
  else
    let s := (s.atTime (s.sched.start + s.period - 1500)).wf .tsqStatus 2 0 2
    let s := s.noClose.foldl (fun (s : State) d =>
      (s.report sgREMOTE_CLOSE_MISSING clALARM (devLoc d) s.locDevice 0).rollRemotes d fun _ => false) s
    let s := if s.resets.warm.isSome then s.abortNow s.inTickRuns false
      else (s.abortNow (s.runsOfParts s.resets.parts) false).stageAborts
    let s := s.fab.notices.foldl (fun (s : State) p =>
      s.report sgREMOTE_NOTICE_LOST clALARM (devLoc p.2) s.locDevice 0) s
    let s := s.modFab fun f => { f with
      notices := [], waits := f.waits.filter fun p => (s.run p.2.isn).isNone,
      closes := f.closes.filter fun c => c.tick + 2 > s.tick || s.hasPartner && !s.fab.custody,
      ownPins := f.ownPins.filter fun p => p.tick == s.tick }
    let s := (List.range 12).foldl (fun (s : State) u => s.setNpu u { s.npu u with queue := [] }) s
    .next { s with slots := s.slots.map fun (p : Nat × SlotX) => (p.1, { p.2 with captured := false }),
                   resets := { s.resets with due := s.resets.warm.isSome, partsDue := s.resets.parts } }

/-! The flip. -/

/-- The sum of the surviving REMOTE amounts of a word up to an entry (R294). -/
def remoteSum (log : List LogE) (pa q : Nat) : Int :=
  ((survivors log pa).filter fun x => x.kind == .remote && x.lseq ≤ q).foldl (fun a x => a + wordVal x.amount) 0

/-- The running value of a word in a posting unit. -/
def Npu.rOf (n : Npu) (pa : Nat) : Int := match n.find pa with | some x => wordVal x.r.val | none => 0

/-- The flip of a posting unit (R294): AFTER of the REMOTE entries, and every STAGED entry FLIPPED with c′ as its
running value. -/
def Npu.flip (n : Npu) : Npu :=
  { n with
    log := n.log.map fun x =>
      if x.kind == .remote && !x.rolled then { x with after := pdecOf (n.rOf x.word + remoteSum n.log x.word x.lseq) } else x
    cache := n.cache.map fun x =>
      if x.st == .staged then
        { x with st := .flipped, r := ⟨pdecOf (wordVal x.r.val + remoteSum n.log x.addr 4096), tPDEC⟩ }
      else x }

/-- The words that a posting unit has flipped. -/
def Npu.flipped (n : Npu) : List NEntry := n.cache.filter fun x => x.st == .flipped

/-- Write a flipped word to DRAM (R294); on a LOST channel the entry is pinned instead (R284). -/
def State.flipWord (s : State) (u : Nat) (x : NEntry) : State :=
  if s.chanState (chanOf x.addr) == 3 then
    s.setNpu u ((fun (n : Npu) => { n with cache := n.cache.map fun (y : NEntry) =>
      if y.addr == x.addr then { y with pin := some s.tick } else y }) (s.npu u))
  else s.putWord x.addr x.r

/-- The image of a frame with its tags (R280). -/
def State.frameImage (s : State) (f : Nat) : FrameImg :=
  ⟨f, Memory.readBytes s.mem (4096 * f) 4096, (List.range 512).map fun i => sget tRAW s.tags (512 * f + i)⟩

/-- The frames whose images ship with this tick, at most 64 from each posting unit, waiting frames first, and
those that wait on (R280). fs: frames of the own ledger area with PC = 0 flipped in the tick. -/
def State.shipFrames (s : State) (fs : List Nat) : List Nat × List Nat :=
  let all := s.shipWait ++ fs.filter fun f => !s.shipWait.contains f
  (List.range 12).foldl (fun (p : List Nat × List Nat) u =>
    let mine := all.filter fun f => s.serving (f % 12) == some u
    (p.1 ++ mine.take 64, p.2.filter fun f => !(mine.take 64).contains f)) ([], all)

/-- The surviving POST and REMOTE entries of every posting unit in LSEQ order (R295). -/
def State.logEntries (s : State) : List LogE :=
  (List.range 12).flatMap fun u => (s.npu u).log.filter fun x => !x.rolled && (x.kind == .post || x.kind == .remote)

/-- A device whose ticks are SEALED at the flip: it has no mirror partner that acknowledges (R29; log 31). -/
def State.sealsAlone (s : State) : Bool := !s.hasPartner || s.fab.custody

/-- Ship the posting log of the tick, with its records (R295, R349, R350); it is kept until the tick is SEALED (R29,
R356). -/
def State.shipLog (s : State) (images : List FrameImg) (recs : List JRec) : State :=
  if s.sealsAlone then (s.modVault fun v => { v with toShip := [] }).sealTick s.tick
  else
    let p : PostLog := ⟨s.tick, s.logEntries, images, s.vault.toShip ++ recs⟩
    let s := s.modVault fun v => { v with toShip := [], logs := v.logs ++ [p] }
    if s.quiet then s else s.send s.partnerId false false (.postlog p)

/-- FLIP (R280, R294, R295, R336, R341): a frozen vault takes no commit record, and the tick is discarded with it
(R352). -/
def execFlip (s : State) : Out :=
  if s.rf .tsqStatus 2 0 ≠ 2 || !s.vaultOk || s.sched.flipped then .next s
  else
    let s := s.atTime (s.sched.start + s.period - 1100)
    let s := (List.range 12).foldl (fun (s : State) u => s.setNpu u (s.npu u).flip) s
    let s := (List.range 12).foldl (fun (s : State) u => (s.npu u).flipped.foldl (fun s x => s.flipWord u x) s) s
    let words := (List.range 12).flatMap fun u => (s.npu u).flipped.map (·.addr)
    let fs := ((words.map (· / 4096)).filter fun f => s.area (4096 * f) == .own && !s.pcBit (4096 * f)).eraseDups
    let (ship, wait) := if s.sealsAlone then ([], []) else s.shipFrames fs
    let images := ship.map s.frameImage
    let sc : Sched := { s.sched with imaged := s.sched.imaged ++ ship.map fun f => (s.tick, f) }
    let s : State := { s with shipWait := wait, sched := sc }
    let copies := (List.range 12).flatMap fun u =>
      ((s.npu u).log.filter fun x => !x.rolled && (x.kind == .post || x.kind == .remote)).map fun x => (u, x)
    let s := s.modVault fun v => { v with npuCopy := copies, imgCopy := images }
    let done := sortRuns (·.okey) (s.runs.filter fun r => r.st == .executed)
    let (s, recs) := done.foldl (fun (p : State × List JRec) r =>
      let (s, rec) := (p.1.idemDone r).journal (p.1.resultRec r)
      (s.modRun r.isn fun r => { r with st := .committed }, p.2 ++ [rec])) (s, [])
    let rem := s.logEntries.filter fun x => x.kind == .remote
    let (s, c) := s.journal (.commit s.tick done.length rem)
    let sc : Sched := { s.sched with unsealed := s.sched.unsealed ++ [s.tick], flipped := true, lastCommit := s.tick }
    .next ({ s with sched := sc }.shipLog images (recs ++ [c]))

/-- Ship the posting log of a tick again, over the other path (R29, R344, R356): a mirror-link fault (R17). -/
def State.reship (s : State) (t : Nat) : State :=
  match s.vault.logs.find? fun p => p.tick == t with
  | some p => if s.quiet then s else s.unprotect.sendAlt s.partnerId (.postlog p)
  | none => s

/-- SEAL_DEADLINE (R29, R302): the guard phase; a tick without its acknowledgement stays COMMITTED and is shipped
again. -/
def execSealDeadline (s : State) : Out :=
  if s.rf .tsqStatus 2 0 ≠ 2 then .next s
  else
    let s := (s.atTime (s.sched.start + s.period - 400)).wf .tsqStatus 2 0 3
    .next (s.sched.unsealed.foldl State.reship s)

/-! At pulses. -/

/-- STALENESS_SWEEP (R267): items filled 65 or more ticks before the present one are discarded. -/
def execStalenessSweep (s : State) : Out := .next (s.dropTlb fun t => decide (s.tick < t.tick + 65))

/-- TICK_PERIOD_CHANGE (R306). -/
def execTickPeriodChange (s : State) : Out := .next s.periodChange

/-- IDEM_ENTRY_EXPIRY (R336): DONE entries past their horizon become FREE. -/
def execIdemEntryExpiry (s : State) : Out :=
  .next { s with idem := s.idem.filter fun (p : Nat × Idem) => !s.idemExpired p.2,
                 idemPtn := s.idemPtn.filter fun (p : Nat × Idem) => !s.idemExpired p.2 }

/-- TRANSIENT_EXPIRY (R375): a transient of tick N counts until the pulse that starts tick N + 1,024. -/
def execTransientExpiry (s : State) : Out :=
  let old (t : Nat) : Bool := decide (s.tick < t + 1024)
  let s1 : State := { s with slots := s.slots.map fun (p : Nat × SlotX) => (p.1, { p.2 with trans := p.2.trans.filter old }) }
  .next ((List.range 32).foldl (fun s c => (List.range 5).foldl (fun (s : State) sl =>
    let n := (s.slotX c sl).trans.length
    if s.rf (.cluSlot c sl) 9 8 = n then s else s.wf (.cluSlot c sl) 9 8 n) s) s1)

end Sys2Proof.Machine
end

