-- ==== Sys2Proof/Machine/Intake.lean ====
section
/-!
DEFINITION. The intake engine and the region schedulers: stopping and Fawn mode (R20, R409 to R411), release and
acceptance passes (R349, R452), doorbells (R350, R451), the fetch of a descriptor (R331 to R338, R343), stage-in
(R244, R347) and delivery (R169, R198, R311, R345 to R348).
-/
namespace Sys2Proof.Machine

/-! Timeouts and Fawn mode. -/

/-- INTAKE_STOP_TIMEOUT (R20, R356, R409): a condition of R19 other than ENERGY has stopped intake for longer than 1 s. -/
def execIntakeStopTimeout (s : State) : Out :=
  .next (if s.stopped19 then
    (s.modFmu fun f => { f with causes := setBit f.causes 6 true }).refreshStatus else s)

/-- ENERGY_LOW_TIMEOUT (R409): the estimate has been below 1.2 J for longer than 1 s. -/
def execEnergyLowTimeout (s : State) : Out :=
  .next (if bit s.intStatusWord 2 then (s.modFmu fun f => { f with causes := setBit f.causes 1 true }).refreshStatus
    else s)

/-- FAWN_ENTER (R409 to R411). -/
def execFawnEnter (s : State) : Out := .next s.enterFawn

/-- A request between ACCEPTED and RELEASED. -/
def Run.unreleased (r : Run) : Bool := r.st != .journaled && r.st != .released

/-- FAWN_DRAIN_TIMEOUT (R411): DRAIN has not finished within FMU_DEGCFG.DRAIN ticks. -/
def execFawnDrainTimeout (s : State) : Out :=
  .next (if s.rf .fmuStatus 61 60 = 1 && decide (s.sched.drainSince + s.rf .fmuDegcfg 31 16 ≤ s.tick)
      && s.runs.any Run.unreleased then s.startHandover else s)

/-! Release and acceptance. -/

/-- The device releases results (R352, R411, R435). -/
def State.releases (s : State) : Bool := s.vaultOk && !s.fab.handAck && s.rf .fabLease 63 61 != 4

/-- Insert a number in rising order, once. -/
def insNat : List Nat → Nat → List Nat
  | [], n => [n]
  | m :: l, n => if n < m then n :: m :: l else if n = m then m :: l else m :: insNat l n

/-- RESULT_RELEASE (R28, R29, R309, R349): each queue with results in turn. -/
def execResultRelease (s : State) : Out :=
  .next (if s.releases then
    (s.runs.filterMap s.outQueue).foldl insNat [] |>.foldl State.releaseQueue s else s)

/-- ACCEPTANCE_PASS (R332, R337, R452): what may be written of the queue's acceptance and refusal completions. -/
def execAcceptancePass (q : Fin 4096) (s : State) : Out :=
  .next (if !s.vaultOk then s
  else match State.acceptPass q (s.queue q).acc.length s with
  | (s', true) => s'.endPass q
  | (_, false) => s)

/-! Doorbells. -/

/-- A doorbell of queue q from function f: none if it is discarded (R274, R451). -/
def State.doorbell (s : State) (f q : Nat) (ok : Bool) (act : State → State) : State :=
  let b := s.rd (.keyQbind q)
  if !(bit b 63 && fld b 55 48 == f) then s.event sgQUEUE_NOT_BOUND (s.locElement elINT) (detBytes 2 q)
  else if !bit (s.rd (.intQcfg q)) 63 || !ok then s.event sgDOORBELL_INVALID (s.locElement elINT) (detBytes 2 q)
  else act s

/-- SQ_TAIL_DOORBELL (R449, R451). -/
def execSqTailDoorbell (f : Fin 256) (q : Fin 4096) (v : HostWord) (s : State) : Out :=
  let x := s.queue q
  let n := s.sqSize q
  let t := v.val.toNat % 65536
  let d (i : Nat) : Nat := (i + n - x.fetch) % n
  .next (if !v.fits then s else s.doorbell f q (decide (t < n) && decide (d t ≥ d x.sqTail)) fun s => s.setQueue q { x with sqTail := t })

/-- CQ_HEAD_DOORBELL (R333, R449, R451, R454): slots become free; a held queue resumes. -/
def execCqHeadDoorbell (f : Fin 256) (q : Fin 4096) (v : HostWord) (s : State) : Out :=
  let x := s.queue q
  let n := s.cqSize q
  let h := v.val.toNat % 131072
  let d (i : Nat) : Nat := (i + n - x.cqHead) % n
  .next (if !v.fits then s else s.doorbell f q (decide (h < n) && decide (d h ≤ d x.cqTail)) fun s =>
    let resume := x.held && s.fnMaster f
    let s := s.setQueue q { x with cqHead := h, held := x.held && !s.fnMaster f }
    let s := s.wf (.intQcfg q) 14 14 (b2n (s.cqFull q))
    if resume then
      let s := if s.releases then s.releaseQueue q else s
      match State.acceptPass q (s.queue q).acc.length s with
      | (s', true) => s'.endPass q
      | (_, false) => s
    else s)

/-- The runs that a confirmation of queue q with key k retires (R32, R350). -/
def State.retiring (s : State) (q k : Nat) : List Run :=
  s.runs.filter fun r => s.outQueue r == some q && r.st == .released && r.okey ≤ k

/-- A RELEASE record of which every result it covers is RETIRED (R341). -/
def State.releaseDone (s : State) : JBody → Bool
  | .release q k => !s.runs.any fun r => s.outQueue r == some q && r.st == .released && r.okey ≤ k
  | _ => false

/-- Free records of the partner half: those of adopted requests, whose ACCEPT records lie there under the other device's
ISN (R350, R357). Once custody is taken the half takes no other record. -/
def State.freePtn (s : State) (gone : JBody → Bool) : State :=
  if s.fab.custody then s.modVault fun v => { v with ptn := v.ptn.filter fun r => !gone r.body } else s

/-- RETIRE_DOORBELL (R32, R350): whole says that the write is one of 16 bytes at the doorbell's address. A key not
yet RELEASED is ignored. -/
def execRetireDoorbell (f : Fin 256) (q : Fin 4096) (whole : Bool) (key : BitVec 80) (s : State) : Out :=
  let k := key.toNat
  .next (s.doorbell f q whole fun s =>
    if s.runs.any (fun r => s.outQueue r == some q.val && r.okey ≤ k && (r.st == .committed || r.st == .isSealed))
        || decide ((s.queue q).relKey.getD 0 < k) then
      s.event sgRETIRE_EARLY (s.locElement elINT) (detBytes 10 k)
    else
      let rs := s.retiring q k
      if rs.isEmpty || !s.vaultOk then s
      else
        let isns := rs.map fun r => r.isn
        let keys := rs.map fun r => r.okey
        let s := s.freeRecs fun b => match b with
          | .accept i .. => isns.contains i
          | .result _ _ _ ok .. => keys.contains ok
          | _ => false
        let s := s.freePtn fun b => match b with
          | .accept i .. => isns.contains (i + 2 ^ 64)
          | .result _ _ _ ok .. => keys.contains ok
          | _ => false
        let top := rs.foldl (fun m r => max m r.tick) (s.rf .vltRtick 47 0)
        let s := (s.wf .vltRtick 47 0 top).freeRecs fun b => match b with | .commit t _ _ => decide (t ≤ top) | _ => false
        let s : State := { s with runs := s.runs.filter fun r => !isns.contains r.isn }
        let s := s.freeRecs s.releaseDone
        let s := s.freePtn fun b => match b with
          | .release q' k' => !s.runs.any fun r => r.adopted.isSome && r.queue == q' && r.okey ≤ k'
          | .commit t _ _ => decide (t ≤ top)
          | _ => false
        let (s, rec) := s.journal (.retire q k)
        s.modVault fun v => { v with toShip := v.toShip ++ [rec] })

/-! Descriptors. -/

/-- The descriptor's fields (R329). -/
structure Desc where
  idem : Nat
  prog : Nat
  plen : Nat
  payload : List Byte
  reserved : Bool
  deriving DecidableEq, Repr

/-- Read the 512 bytes of a descriptor (R329). -/
def Desc.of (bs : List Byte) : Desc :=
  ⟨bytesAt bs 0 16, bytesAt bs 16 2, bytesAt bs 18 2, (bs.drop 0x40).take 448,
    ((bs.drop 0x14).take 44).any fun b => b != 0⟩

/-- The checks of R331. -/
def State.descOk (s : State) (part : Nat) (d : Desc) : Bool :=
  !d.reserved && decide (d.plen ≤ 448) && d.idem != 0 && (s.prog part d.prog).isSome

/-- The engine fetches from queue q now (R19, R20, R327, R332, R333, R345, R351, R410, R454). Of the 16,384 requests that a
device holds (R310), those that wait for the partner's acknowledgement count. -/
def State.fetches (s : State) (q : Nat) : Bool :=
  let x := s.queue q
  let open_ := if s.fawn then s.sched.isOpen && s.vaultOk && !s.sched.warm
    else s.accepting && decide (s.sched.admitted < s.admitLimit) && (s.freeFrame (s.queuePart q)).isSome
      && s.rf .fabLease 63 61 != 4 && decide (s.runs.length < 16384)
  open_ && bit (s.rd (.keyQbind q)) 63 && bit (s.rd (.intQcfg q)) 63
    && !bit (s.rd (.intQcfg q)) 15 && !x.held && !s.cqFull q && x.fetch != x.sqTail

/-- An acceptance entry for the fetched slot; the fetch pointer moves on. -/
def State.pushAcc (s : State) (q : Nat) (a : AccWait) : State :=
  let x := s.queue q
  s.setQueue q { x with acc := x.acc ++ [a], fetch := (x.fetch + 1) % s.sqSize q }

/-- A request is accepted as new (R339, R341, R343 to R345): its ISN, its ACCEPT record, its idempotency entry at a
place, its frame; a request of a mirrored partition waits for the partner's acknowledgement, one of an unmirrored
partition is ACCEPTED at once (R23). -/
def State.accept (s : State) (q part frame place : Nat) (d : Desc) (check : Nat) : State :=
  let isn := (s.rd .intNextisn).toNat
  let s := s.wr .intNextisn (BitVec.ofNat 64 (isn + 1))
  let mirrored := bit (s.rd (.keyPtctl part)) 62
  let sqidx := (s.queue q).fetch
  let (s, rec) := s.journal (.accept isn d.idem q part d.prog d.plen check (padTo 448 (d.payload.take d.plen)) sqidx)
  let s : State := { s with idem := sins s.idem place ⟨d.idem, check, 1, q, 0, isn, [], none⟩ }
  let reg := s.rf (.intQcfg q) 61 59
  let st : RunSt := if mirrored then .journaled else .accepted
  let r : Run := ⟨isn, q, part, reg, d.prog, d.plen, d.payload.take d.plen, d.idem, sqidx, frame, frame + 0x200, false,
    0, st, 0, 0, false, 0, 0, 0, [], 0, 0, 0, none, check, false, false, false, none, none⟩
  let sc : Sched := { s.sched with admitted := s.sched.admitted + 1 }
  let s : State := { s with runs := s.runs ++ [r], sched := sc }
  let s : State := if mirrored then
      (s.send s.partnerId false false (.journal rec)).modVault fun v => { v with unacked := v.unacked ++ [(rec.rsn, 0)] }
    else s
  s.pushAcc q (.request sqidx isn d.idem)

/-- A request that misses although its key alone agrees within its partition (R334); told once, when it is settled. -/
def State.keyReused (s : State) (q part idem : Nat) : State :=
  if (idemAll part idem).any fun p => s.idemKey part idem (sget Idem.free s.idem p) then
    (s.count .intIdemcnt 15 0 1).event sgIDEM_KEY_REUSED (s.locElement elINT) (detBytes 2 q)
  else s

/-- What becomes of a fetched descriptor (R331, R334 to R338, R343, R410). -/
def State.intake (s : State) (q : Nat) (d : Desc) : State :=
  let part := s.queuePart q
  let i := (s.queue q).fetch
  let check := checkOf d.prog d.plen d.payload
  let hit := s.idemFind s.idem part d.idem check
  let dup (p : Nat) : State :=
    let x := sget Idem.free s.idem p
    s.pushAcc q (.duplicate i d.idem x.isn (if x.st == 2 then some (x.okey, x.result) else none))
  if s.fawn then match hit with
    | some p => dup p
    | none => (s.keyReused q part d.idem).pushAcc q (.refusal i 0x0102 d.idem)
  else if !s.descOk part d then s.pushAcc q (.refusal i 0x0103 d.idem)
  else match hit with
  | some p => dup p
  | none =>
    match s.idemRoom s.idem part d.idem, s.freeFrame part with
    | none, _ =>
      let s := s.wf (.intQcfg q) 15 15 1
      if s.sched.idemFull then s
      else ((s.modSched fun k => { k with idemFull := true }).count .intIdemcnt 31 16 1).event sgIDEM_FULL
        (s.locElement elINT) (detBytes 2 q)
    | some place, some frame => (s.keyReused q part d.idem).accept q part frame place d check
    | some _, none => s

/-- The read of the next descriptor of queue q, with the requester ID of the queue's function (R329, R453). -/
def State.readDesc (s : State) (q : Nat) : State :=
  s.toHost (.fetch (s.rf (.keyQbind q) 55 48) ((s.rd (.intSqbase q)).toNat + 512 * (s.queue q).fetch) 512)

/-- DESCRIPTOR_FETCH (R332, R343, R453): ok says that the read completed without error with these bytes. -/
def execDescriptorFetch (q : Fin 4096) (ok : Bool) (bytes : List Byte) (s : State) : Out :=
  .next (if !s.fetches q then s
  else
    let s := s.readDesc q
    if !ok || bytes.length ≠ 512 then s.event sgHOST_DMA_FAULT (s.locElement elHIF) (detBytes 2 q)
    else s.intake q (Desc.of bytes))

/-! Stage-in and delivery. -/

/-- The payload is written afresh from the ACCEPT record, its words tagged RAW (R345). -/
def State.freshPayload (s : State) (r : Run) : State :=
  let bs := padTo 448 (r.payload.take r.plen)
  (List.range 56).foldl (fun s i => s.storeWord (r.frame + 8 * i) ⟨BitVec.ofNat 64 (bytesAt bs (8 * i) 8), tRAW⟩) s

/-- Write a TCM data block of every core of the lane's unit: 512 words, and PART, KEY and FP (R243, R244). -/
def State.stageBlock (s : State) (es : List Nat) (b part key : Nat) (fp : Bool) (ws : List TWord) : State :=
  let d := setFld (setFld (setFld (setBit 0 63 true) 57 48 part) 47 40 key) 39 39 (b2n fp)
  es.foldl (fun s e => s.modCore e fun c =>
    let tcm := (ws.zipIdx).foldl (fun m (p : TWord × Nat) => sset raw0 m (512 * b + p.2) p.1) c.tcm
    { c with tcm := tcm, tcmblk := sset 0 c.tcmblk b d }) s

/-- The words of the block that an entry copies, with the frame's key and FP, or a fault (R244, R347). -/
def State.stageSource (s : State) (r : Run) (w : Who) (x : Word) :
    State × Sum (Nat × Nat) (List TWord × Nat × Bool) :=
  if stKind x = 3 then
    let ws := (List.range 512).map fun i => if i < 56 then s.memWord (r.frame + 8 * i) else raw0
    (s, .inr (ws, s.frameKey r.frame))
  else match s.stageAccess w .read (fld x 63 12 * 4096) with
  | (s, .inl f) => (s, .inl f)
  | (s, .inr pa) => (s, .inr ((List.range 512).map fun i => s.memWord (pa + 8 * i), s.frameKey pa))

/-- A touch of the run still waits in a posting unit's queue (R288). -/
def State.touching (s : State) (isn : Nat) : Bool :=
  (List.range 12).any fun u => (s.npu u).queue.any fun q => match q with | .touch i _ => i == isn | _ => false

/-- Stage a run into the lane's unit (R244, R347): checks of the whole list first, then the copies. -/
def State.stageIn (s : State) (es : List Nat) (r : Run) : State :=
  match r.prg with
  | none => s.endRun r.isn 2 vTRANSLATION 0
  | some p =>
    let w := s.stageWho r.part p.key
    let s := s.freshPayload r
    match s.stageList w p with
    | (s, .inl (v, d)) => s.endRun r.isn 2 v d
    | (s, .inr ws) =>
      match ws.findSome? (stageCheck (s.core (es.headD 0))) with
      | some (v, d) => s.endRun r.isn 2 v d
      | none =>
        let copies := ws.filter fun x => stKind x == 0 || stKind x == 3
        let (s, bad) := copies.foldl (fun (a : State × Option (Nat × Nat)) x =>
          match a with
          | (s, some f) => (s, some f)
          | (s, none) =>
            match s.stageSource r w x with
            | (s, .inl f) => (s, some f)
            | (s, .inr (bs, k, fp)) => (s.stageBlock es (stBlock x) r.part k fp bs, none)) (s, none)
        match bad with
        | some (v, d) => s.endRun r.isn 2 v d
        | none =>
          let blk := (ws.find? fun x => stKind x == 3).map stBlock
          s.modRun r.isn fun r => { r with st := .ready, staged := copies.length, pblk := blk }

/-- A run that occupies the exact lane of region g: staged in or running there (R318). -/
def Run.onLane (g : Nat) (r : Run) : Bool :=
  r.exact && r.xregion == g && (match r.st with | .ready => true | .running _ => true | .suspended _ => true | _ => false)

/-- STAGE_IN (R244, R318, R347): the next run of region g's exact lane, in order-key order, once its touches are
made and the lane is free. -/
def execStageIn (g : Fin 8) (s : State) : Out :=
  .next (match s.lane g with
  | none => s
  | some (c, sl) =>
    if s.runs.any (Run.onLane g) || s.rf .tsqStatus 2 0 ≥ 2 then s
    else match sortRuns (·.okey) (s.runs.filter fun r => r.st == .staging && r.xregion == g.val) with
    | [] => s
    | r :: _ => if s.touching r.isn then s else s.stageIn (s.slotCores c sl) r)

/-- The unit of core e takes descriptors of ordinary or exact-lane runs of region g in partition part (R231, R241,
R385, R408). -/
def State.takesRun (s : State) (e : Nat) (r : Run) : Bool :=
  let c := e / 8
  let sl := (s.slotOf e).getD 5
  let split := s.slotState c sl == slSPLIT
  let lane := s.lane (c / 4) == some (c, sl)
  sl < 5 && s.delivers c && (s.unitCores e).all (fun k => s.coreState k == csSERVICE) && s.atBoundary e && (s.core e).act == .disp
    && (s.core e).lev == 0 && (split && bit (s.rd (.keyPtctl r.part)) 61 || !split && s.slotServes c sl)
    && (if r.exact then lane && r.xregion == c / 4 && (s.core e).tx
        else s.unitRegion r.region == some (c / 4) &&
          !(lane && s.runs.any fun q => q.exact && q.xregion == c / 4 && q.st.live))

/-- The program table entry of a run: the one it has read, or for a run not dispatched yet the table's (R346). -/
def State.progOf (s : State) (r : Run) : Option Prog :=
  match r.prg with
  | some p => some p
  | none => s.prog r.part r.prog

/-- The run stands ready for delivery at core e (R169, R201, R244, R310, R311). -/
def State.deliverable (s : State) (e : Nat) (r : Run) : Bool :=
  (match r.st with
    | .queued => !r.exact
    | .ready => true
    | .suspended none => true
    | .suspended (some k) => (s.unitCores e).contains k
    | _ => false) && !s.follows r && decide (s.rf .tsqStatus 2 0 < 2) && decide (s.rf .fmuStatus 61 60 < 2)
    && s.rf .fabLease 63 61 != 4

/-- The run would overtake an earlier one of the batch that this unit could take: the transactions of UNORDERED queues are
dispatched in batch order (R311). -/
def State.overtakes (s : State) (e : Nat) (r : Run) : Bool :=
  r.st == .queued && !s.ordered r.queue && s.runs.any fun p =>
    p.st == .queued && !s.ordered p.queue && p.region == r.region && p.okey < r.okey && s.deliverable e p && s.takesRun e p

/-- The fault with which the scheduler completes a run before delivery (R169, R253, R331, R346). -/
def State.deliveryFault (s : State) (r : Run) : Option (Nat × Nat) :=
  if !bit (s.rd (.keyPtctl r.part)) 63 then some (vTRANSLATION, 4)
  else match s.progOf r with
  | none => some (vTRANSLATION, 0)
  | some p => if p.entry % 4 ≠ 0 then some (vMISALIGNED, 0) else none

/-- The payload address that X1 receives (R348): the window address of a KIND 0b011 block of an exact-lane run. -/
def payloadVa (c : Core) (r : Run) : Nat :=
  match r.pblk with
  | some b => fld c.tcmwin 41 18 * 2 ^ 18 + 4096 * b
  | none => r.frame

/-- The level 0 bank of a new context (R169, R348). -/
def newBank (c : Core) (r : Run) (p : Prog) : Bank :=
  { acc := ⟨BitVec.ofNat 64 r.okey, tINT⟩, aex := raw0, x1 := ⟨BitVec.ofNat 64 (payloadVa c r), tPTR⟩,
    x2 := ⟨p.xtwo, tPTR⟩, cnt := 0, sp := BitVec.ofNat 64 (r.frame + 0x400), mb := 0, ml := 0,
    psw := setBit (setFld (setFld 0 39 38 2) 47 40 p.key) 37 c.tx }

/-- The level 0 bank, PC and CORE_BUDGET of a suspended context (R169, R345). -/
def State.savedBank (s : State) (c : Core) (a : Nat) : Bank × Word × Word :=
  let b := (List.range 9).foldl (fun (b : Bank) i => b.setReg i (s.memWord (a + 8 * i))) Bank.cold
  ({ b with psw := setBit b.psw 37 c.tx }, (s.memWord (a + 0x48)).val, (s.memWord (a + 0x50)).val)

/-- The context save area of a suspended run is reachable (R46, R345). -/
def State.saveReachable (s : State) (r : Run) : Bool :=
  match r.st with
  | .suspended _ => s.physOk r.save && s.physOk (r.save + 0x57)
  | _ => true

/-- A core after DISPATCH has taken the run (R79, R98, R169, R197, R199, R201, R246, R247, R255, R261). -/
def Core.dispatched (c : Core) (s : State) (r : Run) (p : Prog) : Core :=
  let susp : Bool := match r.st with | .suspended _ => true | _ => false
  let mine := susp && fld c.xown 51 6 * 64 == r.save && bit c.xown 1
  let ptc := s.rd (.keyPtctl r.part)
  let (b, pc, bud) := if susp then s.savedBank c r.save
    else (newBank c r p, BitVec.ofNat 64 p.entry, setFld 0 31 0 (if r.exact then p.txbudget else p.budget))
  let tb := setBit (setFld (setFld 0 63 54 r.part) 51 13 (s.rf (.keyPtroot r.part) 51 13)) 0 true
  let kc := setFld (setFld 0 15 8 (fld ptc 55 48)) 1 1 (b2n (bit ptc 47))
  let c := (c.setBank 0 b).sync
  { c with pc := pc, budget := bud, armed := fld bud 31 0 != 0, txstall := 0, tbase := tb, keyctl := kc, decctl := 0,
           rsctl := setFld (setFld c.rsctl 12 8 0) 5 0 0, rstk := [], shstk := setFld c.shstk 40 32 0,
           xown := setBit c.xown 0 mine, ctx := some ⟨r.isn, r.okey, r.save, r.xsaved⟩, dead0 := false,
           aborted0 := false, act := .run, retired := c.retired + 1 }

/-- DESCRIPTOR_DELIVERY (R169, R198, R311, R345 to R348): a request of the tick to the waiting DISPATCH of core e's
unit. A run that cannot be delivered completes with its fault. A suspended run whose save area lies outside the working
storage completes with FAULT, BUS_ERROR (DESIGN CHOICE, log entry 88: the spec gives the delivery no vector for it), and
an access to a carve-out is recorded (R46). -/
def execDescriptorDelivery (e : Fin 256) (isn : BitVec 64) (s : State) : Out :=
  .next (match (s.runs.find? fun r => r.isn % 2 ^ 64 == isn.toNat && s.deliverable e r) with
  | none => s
  | some r =>
    if !s.takesRun e r || s.overtakes e r then s
    else match s.deliveryFault r, s.progOf r with
    | some (v, d), _ => s.endRun r.isn 2 v d
    | none, none => s
    | none, some p =>
      if !s.saveReachable r then (s.carveout r.save).endRun r.isn 2 vBUS_ERROR 0
      else
        let s := match r.st with | .queued => s.freshPayload r | _ => s
        let at_ := (s.core e).pc
        let s := s.setCores (s.unitCores e) ((s.core e).dispatched s r p)
        let s := s.trcDispatch e at_ (s.core e).pc
        s.modRun r.isn fun r => { r with st := .running e, prg := some p })

end Sys2Proof.Machine
end

