-- ==== Sys2Proof/Machine/NpuCmd.lean ====
section
/-!
DEFINITION. What the posting units do by themselves: serving waiting requests (R287, R289, R291), touches (R288),
fills (R279, R287), rollbacks (R293), the loss of a unit (R299, R443, R539, R540) and its self-test (R402 to R405).
-/
namespace Sys2Proof.Machine

/-- Take the request at place i out of a unit's queue. -/
def Npu.pull (n : Npu) (i : Nat) : Npu := { n with queue := n.queue.eraseIdx i }

/-- The run of a request's core is still the one that issued it. -/
def State.sameRun (s : State) (e isn : Nat) : Bool :=
  s.awaits e && (match (s.core e).ctx with | some k => k.isn == isn | none => isn == 0)

/-- Put the queue of unit u back as it stood. -/
def State.requeue (s : State) (u : Nat) (l : List NReq) : State := s.setNpu u { s.npu u with queue := l }

/-- Serve a request that waits at place i of unit u's queue (R287 to R289), and whether it is served: one that waits on
leaves what it started, a fill or STALLFULL. -/
def State.serveAt (s : State) (u i : Nat) (q : NReq) : State × Bool :=
  let l := (s.npu u).queue
  let s0 := s.setNpu u ((s.npu u).pull i)
  match q with
  | .post e w ea isn okey word a f _ =>
    match s0.npuPost isn okey word a f with
    | (s1, .wait) => (s1.requeue u l, false)
    | (s1, o) => (if s1.sameRun e isn then s1.resume e w (do lateReply; npuAnswer true w ea o) else s1, true)
  | .pread e w ea isn okey word _ =>
    match s0.npuPread isn okey word with
    | (s1, .wait) => (s1.requeue u l, false)
    | (s1, o) => (if s1.sameRun e isn then s1.resume e w (do lateReply; npuAnswer false w ea o) else s1, true)
  | .remote src rid okey tick word a f =>
    match s0.npuRemote src okey word a f with
    | (s1, none) => (s1.requeue u l, false)
    | (_, some _) => (State.selfReply (s0.remoteAt src ⟨0, a, f, okey, 0, rid, tick⟩ word false), true)
  | .touch isn word =>
    match s0.npuTouch isn word with
    | (s1, .wait) => (s1.requeue u l, false)
    | (s1, _) => (s1, true)

/-- Serve the first request of a kind from place i on that can be served; a request waits behind an earlier one for its
word (R287). -/
def State.serveFrom (u : Nat) (want : NReq → Bool) : Nat → Nat → State → State
  | 0, _, s => s
  | n + 1, i, s =>
    let l := (s.npu u).queue
    match l[i]? with
    | none => s
    | some q =>
      if want q && !(l.take i).any (fun r => r.word == q.word) then
        match s.serveAt u i q with
        | (s, true) => s
        | (s, false) => State.serveFrom u want n (i + 1) s
      else State.serveFrom u want n (i + 1) s

/-- Serve the first request of a kind that can be served. -/
def State.serveFirst (s : State) (u : Nat) (want : NReq → Bool) : State :=
  State.serveFrom u want (s.npu u).queue.length 0 s

/-- NPU_POST_APPLY (R165, R287, R296): the next POST or remote POST that waits and can be applied. -/
def execNpuPostApply (u : Fin 12) (s : State) : Out :=
  .next (s.serveFirst u fun q => match q with | .post .. => true | .remote .. => true | _ => false)

/-- NPU_PREAD (R168). -/
def execNpuPread (u : Fin 12) (s : State) : Out :=
  .next (s.serveFirst u fun q => match q with | .pread .. => true | _ => false)

/-- NPU_TOUCH (R288). -/
def execNpuTouch (u : Fin 12) (s : State) : Out :=
  .next (s.serveFirst u fun q => match q with | .touch .. => true | _ => false)

/-- The fill of a word's entry (R279, R284, R287): from DRAM, or by remote repair first. -/
def State.fill (s : State) (u pa : Nat) : State :=
  match s.lineRead pa (.fill pa) with
  | (s, .wait) => s
  | (s, .poison) => s.setNpu u ((s.npu u).fillEntry pa ⟨0, tPOISON⟩)
  | (s, .good) => s.setNpu u ((s.npu u).fillEntry pa (s.memWord pa))

/-- NPU_FILL (R287): a fill under way in unit u for the word at a physical address. -/
def execNpuFill (u : Fin 12) (pa : BitVec 52) (s : State) : Out :=
  .next (if (s.npu u).fills.contains pa.toNat then s.fill u pa.toNat else s)

/-- NPU_ROLLBACK (R292, R293): the entries of aborted transactions that still survive in unit u, and what the
closure draws in, are rolled back; their waiting requests are discarded. -/
def execNpuRollback (u : Fin 12) (s : State) : Out :=
  let dead := (s.runs.filter fun r => r.st == .aborted).map (·.isn)
  let hit := s.closure (s.runs.length + 1) dead
  let more := hit.filter fun i => !dead.contains i && (s.npu u).log.any fun x => rolledBy (s.npu u).log hit x && x.owner == i
  let s := s.abortNow more false
  let (n, k) := (s.npu u).rollback dead
  let gone (q : NReq) : Bool := match q with
    | .post _ _ _ i _ _ _ _ _ => dead.contains i | .pread _ _ _ i _ _ _ => dead.contains i
    | .touch i _ => dead.contains i | .remote .. => false
  .next ((s.setNpu u { n with queue := n.queue.filter fun q => !gone q }).count (.npuCnt u) 15 0 k)

/-! Loss of a posting unit. -/

/-- The channels that unit u serves. -/
def State.served (s : State) (u : Nat) : List Nat := (List.range 12).filter fun ch => s.serving ch == some u

/-- The issuers of a unit's REMOTE entries are told (R443). -/
def State.sendRemoteLost (s : State) (u : Nat) : State :=
  let es := (s.npu u).log.filter fun x => x.kind == .remote && !x.rolled
  ((es.map fun x => (x.owner, x.okey)).eraseDups).foldl (fun (s : State) p =>
    let n := (es.filter fun x => x.owner == p.1 && x.okey == p.2).length
    if p.1 = s.devId then
      s.abortNow ((s.runs.filter fun r => r.okey == p.2).map (·.isn)) false
    else
      let (s, q) := s.takeSeq 10
      s.send p.1 false true (.remoteLost q s.tick p.2 n)) s

/-- Put an entry of the vault copy into the log of the unit that takes over (R299, R322, R443). -/
def State.restoreEntry (s : State) (b : Nat) (x : LogE) : State :=
  let n := s.npu b
  let w := match n.find x.word with
    | some e => e
    | none => let v := s.memWord x.word; ⟨x.word, v, v, 0xFFFF, .staged, [], none, true⟩
  let log := n.log ++ [{ x with lseq := n.log.length, prev := w.last }]
  let r := runningVal (wordVal w.c.val) log x.word
  s.setNpu b { (n.use { w with r := ⟨pdecOf r, tPDEC⟩, last := n.log.length, st := .staged }) with log := log }

/-- What remote close copied of unit u's log, as it stands now: entries that were rolled back since stay out (R322,
R443). -/
def State.copiedLog (s : State) (u : Nat) : List LogE :=
  let log := (s.npu u).log
  (s.vault.npuCopy.filter fun p => p.1 == u && log.any fun x => x.lseq == p.2.lseq && !x.rolled).map (·.2)

/-- The loss of posting unit u (R166, R299, R539, R540): before the flip its transactions abort without an overrun,
but those that are pinned (R322); its queue is answered or left; the buddy takes what remote close copied, or after the
flip the FLIPPED entries, and what is pinned until its tick is SEALED; MODE changes, also that of a channel which this unit was
to serve from the next tick for a buddy lost in the same one (R540). -/
def State.npuLose (s : State) (u : Nat) : State :=
  let chs := s.served u
  if chs.isEmpty then s
  else
    let n := s.npu u
    let b := (u + 6) % 12
    let s := s.unprotect
    let waiting := n.queue.filterMap fun q => match q with
      | .post _ _ _ i _ _ _ _ _ => some i | .pread _ _ _ i _ _ _ => some i | .touch i _ => some i | .remote .. => none
    let rs := s.runs.map fun (r : Run) => if waiting.contains r.isn then { r with noovr := true } else r
    let s : State := { s with runs := rs }
    let owners := ((n.log.filter fun x => x.kind != .remote && !x.rolled).map (·.owner)).eraseDups
    let phase := s.rf .tsqStatus 2 0
    let s := if phase = 0 then s.sendRemoteLost u else s
    let s := if s.sched.flipped then s else s.abortNow owners false
    let s := n.queue.foldl (fun (s : State) q => match q with
      | .remote src rid _ _ _ _ _ => State.selfReply (s.reply src ⟨rid, rsLOST, 0, 0, 0, s.tick⟩)
      | _ => s) s
    let kept := (s.npu u).cache.filter fun x => x.st == .flipped || x.pin.isSome
    let copies := if phase = 0 || s.sched.flipped then [] else s.copiedLog u
    let s := chs.foldl (fun (s : State) ch => s.setNpu ch { Npu.cold with lostNow := true }) s
    let s := s.setNpu u { Npu.cold with lostNow := true }
    if chs.length > 1 || s.rf (.npuStatus b) 3 2 ≥ 2 then
      (if s.rf (.npuStatus b) 3 2 = 2 then b :: chs else chs).foldl (fun (s : State) ch => s.wf (.npuStatus ch) 3 2 3) s
    else
      let s := (s.wf (.npuStatus u) 3 2 2).wf (.npuStatus b) 3 2 1
      let s := kept.foldl (fun (s : State) x => s.setNpu b ((s.npu b).use x)) s
      copies.foldl (fun (s : State) x => s.restoreEntry b x) s

/-- NPU_LOST (R299). -/
def execNpuLost (u : Fin 12) (s : State) : Out := .next (s.npuLose u).refreshStatus

/-- NPU_BIST_SLICE (R300, R402 to R405): a slice of unit u's test starts while its queue is empty, and the next such
command ends it: preempted says that it was aborted, fail that it found a fault. While it runs requests wait. In Fawn
mode no slice starts (R413). -/
def execNpuBistSlice (u : Fin 12) (preempted fail : Bool) (s : State) : Out :=
  let n := s.npu u
  .next (if n.test then
    if preempted then s.testAbort u
    else
      let s := s.setNpu u { n with test := false, starved := 0, slice := (n.slice + 1) % 4096 }
      if fail then ((s.alarm sgSELFTEST_FAIL (s.locElement (elMC u)) 0).npuLose u).refreshStatus else s
  else if !bit (s.rd .fmuStctl) 0 || s.fawn || (s.served u).isEmpty || !n.queue.isEmpty then s
  else s.setNpu u { n with test := true })

end Sys2Proof.Machine
end

