-- ==== Sys2Proof/Machine/MemCtl.lean ====
section
/-!
DEFINITION. The memory controllers: errors that reads find (R278, R279, R281), failed devices, soft repair, and the
state of a channel (R278, R282, R283), and remote repair at both ends (R279, R284).
-/
namespace Sys2Proof.Machine

/-- MCU_STATUS.STATE changes (R283, R406): an ALARM, and a ledger entry when it becomes DEGRADED or LOST. LOST is
left only by cold reset. -/
def State.setChanState (s : State) (ch v : Nat) : State :=
  let old := s.chanState ch
  if old = v || old = 3 then s
  else
    let s := (s.wf (.mcuStatus ch) 2 0 v).alarm sgMEM_CHANNEL_STATE (s.locElement (elMC ch)) 0
    let s := if v = 3 then s.unprotect else s
    if v ≥ 2 then s.degrade (s.locElement (elMC ch)) sgMEM_CHANNEL_STATE else s

/-- A device of a rank is marked failed (R278, R283): the channel is LOST with two in one rank. -/
def State.markDevice (s : State) (ch rank dev : Nat) : State :=
  let c := s.chan ch
  if c.failed.contains (rank, dev) then s
  else
    let s := (s.setChan ch { c with failed := c.failed ++ [(rank, dev)] }).wf (.mcuStatus ch) 47 40 dev
    if c.failed.any (fun p => p.1 == rank) then s.setChanState ch 3 else s

/-- The corrected errors within a time of now, as distinct lines, of those records that p selects. -/
def Chan.linesOf (c : Chan) (now span : Nat) (p : CeRec → Bool) : Nat :=
  (((c.ce.filter fun r => p r && decide (now < r.time + span)).map (·.line)).eraseDups).length

/-- The symbols in error outside the devices of a rank that are marked failed, whose 8 symbols each are erasures
(R278). -/
def Chan.errors (c : Chan) (e : Ecc) : List (Nat × Nat) :=
  e.errs.filter fun p => p.2 != 0 && !c.failed.contains (e.rank, p.1)

/-- The code corrects the line (R278): 16 check symbols correct every error of at most 8 symbols, so all of one device,
and beside one device decoded as erasures 4 further ones (DEDUCED, log 92). -/
def Chan.corrects (c : Chan) (e : Ecc) : Bool :=
  let n := ((c.errors e).map (·.2)).foldl (· + ·) 0
  decide (n ≤ if c.failed.any (fun p => p.1 == e.rank) then 4 else 8)

/-- A corrected error is counted by device and row (R278, R282); one device with 64 distinct lines within 1 s is marked
failed. -/
def State.corrected (s : State) (ch line rank row dev : Nat) : State :=
  let c := s.chan ch
  let keep := c.ce.filter fun r => decide (s.now < r.time + 86400000000000)
  let c : Chan := { c with ce := keep ++ [⟨rank, dev, row, line, s.now⟩] }
  let s := s.setChan ch c
  if c.linesOf s.now 1000000000 (fun r => r.rank == rank && r.dev == dev) ≥ 64 then s.markDevice ch rank dev else s

/-- A read finds an error in a line (R278, R279): a correction is counted and may mark the device failed; an
uncorrectable line is handled by the table of R279. -/
def State.readLine (s : State) (ch line : Nat) (e : Ecc) : State :=
  let c := s.chan ch
  let devs := e.errs.filter fun p => p.2 != 0
  if devs.isEmpty then s
  else if c.corrects e then
    (c.errors e).foldl (fun (s : State) p => s.corrected ch line e.rank e.row p.1) (s.count (.mcuEcccnt ch) 63 32 1)
  else
    let pa := 64 * line
    let bad := (c.errors e).map fun p => (e.rank, p.1, e.row)
    let s := s.setChan ch { c with ueRows := bad ++ c.ueRows.filter fun k => !bad.contains k }
    if s.area pa == .own && s.pcBit pa then (if s.line pa == .fetching then s else s.askRepair pa false)
    else
      let s := (s.memUe pa).loseLine pa
      if s.line pa == .stale then s.modFmu fun f => { f with ptnUnprot := true } else s

/-- Lines of a channel (R44, R301: CAPGB). -/
def State.chanLines (s : State) (ch : Nat) : Nat := s.rf (.mcuStatus ch) 31 16 * 2 ^ 24

/-- The line address of a channel's i-th line (R44). -/
def chanLine (ch i : Nat) : Nat := (ch + 12 * (i / 64)) * 64 + i % 64

/-- PATROL_SCRUB (R281): the next line of channel ch, with what its read finds. -/
def execPatrolScrub (ch : Fin 12) (e : Ecc) (s : State) : Out :=
  let n := s.chanLines ch
  .next (if n = 0 || s.chanState ch == 3 then s
  else
    let c := s.chan ch
    let i := c.patrol % n
    let s := s.setChan ch { c with patrol := (i + 1) % n }
    let s := s.wf (.mcuScrub ch) 31 16 ((i + 1) % n * 65536 / n)
    let s := if i + 1 = n then s.count (.mcuScrub ch) 63 32 1 else s
    s.readLine ch (chanLine ch i) e)

/-- SOFT_PPR (R282): a row of a device of a rank that qualifies is repaired; with no resource left the channel becomes
DEGRADED. -/
def execSoftPpr (ch : Fin 12) (dev : DramDevice) (row : BitVec 32) (s : State) : Out :=
  let c := s.chan ch
  let k := (dev.rank.toNat, dev.pos.toNat, row.toNat)
  let of (r : CeRec) : Bool := (r.rank, r.dev, r.row) == k
  let due := c.ueRows.contains k || decide (c.linesOf s.now 86400000000000 of ≥ 4)
  .next (if !due then s
  else if s.rf (.mcuPpr ch) 31 16 = 0 then s.setChanState ch 2
  else
    let s := s.setChan ch { c with ce := c.ce.filter (fun r => !of r),
                                   ueRows := c.ueRows.filter (· != k), soft := c.soft ++ [k] }
    (s.wf (.mcuPpr ch) 31 16 (s.rf (.mcuPpr ch) 31 16 - 1)).count (.mcuPpr ch) 15 0 1)

/-- MEMORY_CHANNEL_RETRAIN (R283): cleared says whether retraining cleared the error. -/
def execMemoryChannelRetrain (ch : Fin 12) (cleared : Bool) (s : State) : Out :=
  .next (if cleared || s.chanState ch == 0 then s else s.setChanState ch 3)

/-- DIMM_DEVICE_FAULT (R278, R283). -/
def execDimmDeviceFault (ch : Fin 12) (rank dev : BitVec 8) (s : State) : Out :=
  .next (s.markDevice ch rank.toNat dev.toNat)

/-! Remote repair. -/

/-- The loads that wait for a line can be tried again, and the remote reads are (R279). -/
def State.wakeLine (s : State) (line : Nat) : State :=
  let es := (s.repairWait.filter fun p => p.2 == line).map (·.1)
  let s : State := { s with repairWait := s.repairWait.filter fun (p : Nat × Nat) => p.2 != line }
  let s := es.foldl (fun (s : State) e => if s.awaits e then s.setCores (s.unitCores e) { s.core e with act := .run } else s) s
  let rs := s.fab.lineWaits.filter fun p => p.1 == line
  let s := s.modFab fun f => { f with lineWaits := f.lineWaits.filter fun p => p.1 != line }
  rs.foldl (fun (s : State) p => State.selfReply (s.targetRead p.2.1 p.2.2)) s

/-- The accesses that wait for a line: loads, fills and remote operations. -/
def State.lineReaders (s : State) (line : Nat) : List Reader :=
  (s.repairWait.filter fun p => p.2 == line).map (fun p => .core p.1) ++
    ((List.range 12).flatMap fun u => (s.npu u).fills.filter (· / 64 == line)).map (fun w => .fill w) ++
    (s.fab.lineWaits.filter fun p => p.1 == line).map fun p => .remote p.2.1 p.2.2.rid

/-- REMOTE_REPAIR_TIMEOUT (R279): every access that waits completes as though the line were POISON; the next one tries remote
repair again. -/
def execRemoteRepairTimeout (line : BitVec 46) (s : State) : Out :=
  let pa := 64 * line.toNat
  let dead := (s.lineReaders line.toNat).map fun r => (line.toNat, r)
  .next (if s.line pa == .fetching then
    ({ (s.setLine pa .ue) with lineDead := s.lineDead ++ dead }).wakeLine line.toNat else s)

/-- The replica of a line of the partner's own ledger area (R45, R276). -/
def State.replicaLine (s : State) (line : Nat) : Nat := s.layout.m + s.layout.u + 64 * line

/-- REPAIR (R279): the partner's request for the replica of a line. -/
def execRepair (src : Fin 4096) (line : BitVec 46) (s : State) : Out :=
  let pa := s.replicaLine line.toNat
  .next (if s.hasPartner && src.val == s.partnerId && s.area pa == .replica && s.line pa == .ok then
    s.send src false false (.repairReply line.toNat ((List.range 8).map fun i => s.memWord (pa + 8 * i)))
  else s)

/-- Write a line back as the controller does: PC is kept (R279). -/
def State.putLine (s : State) (pa : Nat) (ws : List TWord) : State :=
  (ws.zipIdx).foldl (fun (s : State) (p : TWord × Nat) => s.putWord (pa + 8 * p.2) p.1) s

/-- The frame of a stale line has its present contents again (R279): ws is the frame, or the line alone. -/
def State.freshen (s : State) (pa : Nat) (ws : List TWord) : State :=
  let base := if ws.length = 512 then pa / 4096 * 4096 else pa
  let s := if s.area pa == .replica then s.putLine base ws else s
  { s with lines := s.lines.filter fun p => !(p.2 == .stale && decide (base ≤ 64 * p.1) && decide (64 * p.1 < base + 8 * ws.length)) }

/-- REPAIR_COMPLETE (R279, R284): the line is written back and the accesses go on. On a LOST channel the data serve
one access. For a stale line of the replica, or of the partner's copy of the idempotency table, what comes is the frame's
present contents, or those of the line; once no line is stale the partner's protection is full again (R18). -/
def execRepairComplete (line : BitVec 46) (ws : List TWord) (s : State) : Out :=
  let pa := 64 * line.toNat
  let lost := s.chanState (chanOf pa) == 3
  .next (if s.line pa == .fetching && ws.length == 8 then
    (((((s.putLine pa ws).setLine pa (if lost then .served else .ok)).count (.mcuEcccnt (chanOf pa)) 15 0 1)).wakeLine
      line.toNat).reprotect
  else if s.line pa == .stale && (ws.length == 8 || ws.length == 512) then
    let s := s.freshen pa ws
    if s.fmu.ptnUnprot && !s.lines.any (fun p => p.2 == .stale) then
      (s.modFmu fun f => { f with ptnUnprot := false }).event sgPROTECTION_RESTORED (s.locElement (elMC (chanOf pa))) 0
    else s
  else s)

end Sys2Proof.Machine
end

