-- ==== Sys2Proof/Machine/Takeover.lean ====
section
/-!
DEFINITION. Taking over the mirror partner's work (R276, R357, R411, R435, R436, R444, R445): the replica becomes
ledger, the shipped partitions are installed, and the records of the partner half are completed or run again.
-/
namespace Sys2Proof.Machine

/-- Internal number of an adopted request: its ISN of the other device beside the own ones. -/
def adoptIsn (isn : Nat) : Nat := isn + 2 ^ 64

/-- Where the partner's ledger area stands in the replica area (R45, R357). -/
def State.replicaBase (s : State) : Nat := s.layout.m + s.layout.u

/-- Write a frame image with tags at a physical address. -/
def State.putImage (s : State) (pa : Nat) (im : FrameImg) : State :=
  (List.range 512).foldl (fun (s : State) i =>
    s.putWord (pa + 8 * i) ⟨BitVec.ofNat 64 (bytesAt im.bytes (8 * i) 8), im.tags.getD i tRAW⟩) s

/-- A translation entry of the lost device, with the address it names moved into the promoted replica (R257). -/
def relocEntry (base : Nat) (w : Word) : Word :=
  if bit w 63 then setFld w 51 12 (fld w 51 12 + base / 4096) else w

/-- The partner's shipped partition is installed (R276): its registers, grants, keys and table frames. -/
def State.installTables (s : State) (t : Tables) : State :=
  let b := s.replicaBase
  let s := if t.part > 1023 then s else s.wr (.keyPtctl t.part) t.ptctl
  let s := if t.part > 1023 then s else s.wr (.keyPtroot t.part) (setFld 0 51 13 (fld t.ptroot 51 13 + b / 8192))
  let s := t.grants.foldl (fun (s : State) g => s.wr (.keyGrant g.1) g.2) s
  let s := t.keys.foldl (fun (s : State) k => s.setFrameKey (4096 * k.1 + b) (k.2 % 256) (k.2 / 256 == 1)) s
  t.frames.foldl (fun (s : State) im =>
    let s := s.putImage (4096 * im.frame + b) im
    (List.range 512).foldl (fun (s : State) i =>
      let v := s.memWord (4096 * im.frame + b + 8 * i)
      s.putWord (4096 * im.frame + b + 8 * i) ⟨relocEntry b v.val, v.tag⟩) s) s

/-- A word of the replica takes a value, if it lies there; an entry for a LOST channel is dropped, and the partner's
protection is not full then (R284, R295). -/
def State.putReplica (s : State) (word : Nat) (v : Word) : State :=
  let pa := s.replicaBase + word
  if word ≥ s.layout.p then s
  else if s.chanState (chanOf pa) == 3 then s.modFmu fun f => { f with ptnUnprot := true }
  else s.putWord pa ⟨v, tPDEC⟩

/-- The keys that the held REMOTE_CLOSE of an issuer names for a tick, if one is held (R442). -/
def State.closeKeys (s : State) (issuer tick : Nat) : Option (List Nat) :=
  (s.fab.closes.find? fun c => c.issuer == issuer && c.tick == tick).map (·.keys)

/-- The PIN records of a lost issuer that its REMOTE_CLOSE names (R444). -/
def State.pinned (s : State) : List PinRec :=
  s.fab.pins.filter fun p => ((s.closeKeys s.partnerId p.tick).getD []).contains p.trigger

/-- The entries of a lost target that this device holds and that the closes of their issuers name (R445): added to
the replica. -/
def State.addRemote (s : State) : State :=
  s.fab.ptnRemote.foldl (fun (s : State) x =>
    if ((s.closeKeys x.owner (x.okey / 2 ^ 32)).getD []).contains x.okey then
      s.putReplica x.word (pdecOf (wordVal (s.memWord (s.replicaBase + x.word)).val + wordVal x.amount))
    else s) (s.modFab fun f => { f with ptnRemote := [] })

/-- The RESULT record of a request among records. -/
def resultOf (rs : List JRec) (isn : Nat) : Option JBody :=
  (rs.find? fun r => match r.body with | .result i .. => i == isn | _ => false).map (·.body)

/-- A run for an ACCEPT record of the partner half (R345, R357): a sealed result with REPEAT, one of a named PIN record
without it, or a request that runs again, with its previous order key where a PIN record that no close names holds it (void);
one that finds no free frame gets it later. The order keys of earlier runs are
not in the records. R276 ships neither INT_PROGTAB nor INT_RQAREA: an adopted request uses this device's own program table
and request area of the partition number that its ACCEPT record holds, and the region of this device's queue of the number
that the record holds (DESIGN CHOICE, log entry 93: the spec says neither). -/
def State.adoptRun (s : State) (pins void : List PinRec) : JBody → State
  | .accept isn idem q part prog plen check payload sqidx =>
    let reg := s.rf (.intQcfg q) 61 59
    let mk (st : RunSt) (ok stt : Nat) (res : List Byte) (rep : Bool) : Run :=
      ⟨adoptIsn isn, q, part, reg, prog, plen, payload.take plen, idem, sqidx, noFrame, noFrame, false, ok, st, 0, 0,
        false, stt, 0, 0, res, 0, 0, ok / 2 ^ 32, some s.partnerId, check, false, false, rep, none, none⟩
    let r : Run := match resultOf s.vault.ptn isn, resultOf (pins.flatMap (·.recs)) isn, resultOf (void.flatMap (·.recs)) isn with
      | some (.result _ _ stt ok res _), _, _ =>
        mk (if ok ≤ s.ptnRelease q then .released else .isSealed) ok stt res true
      | _, some (.result _ _ stt ok res _), _ => mk .isSealed ok stt res false
      | _, _, some (.result _ _ _ ok _ _) => mk .accepted ok 0 [] false
      | _, _, _ => mk .accepted 0 0 [] false
    let s : State := if r.st == .accepted then s else s.idemDone r
    { s with runs := s.runs ++ [r] }
  | _ => s

/-- The partner's idempotency entries serve duplicates from now on, at their places behind the own table (R335, R357). -/
def State.adoptIdem (s : State) : State :=
  { s with idem := s.idemPtn.foldl (fun m p => sins m (p.1 + 2 ^ 26) { p.2 with isn := adoptIsn p.2.isn }) s.idem }

/-- The device takes custody of its partner's work (R357, R411); lost says that the partner is lost (R444, R445). From
now on the pair is not fully protected (R18). -/
def State.adopt (s : State) (lost : Bool) : State :=
  let pins := if lost then s.pinned else []
  let void := s.fab.pins
  let s := s.unprotect.modFab fun f => { f with custody := true, pins := [], handTaken := false }
  let s := s.wf .fabLease 63 61 3
  let s := s.fab.tables.foldl State.installTables s
  let s := pins.foldl (fun (s : State) p => p.recs.foldl (fun (s : State) r => match r.body with
    | .result _ _ _ _ _ es => es.foldl (fun (s : State) x => s.putReplica x.word x.after) s
    | _ => s) s) s
  let s := if lost then s.addRemote else s
  let s := s.adoptIdem
  let s := (s.vault.ptn.map (·.body)).foldl (fun s b => s.adoptRun pins void b) s
  let s := s.takeQ.foldl (fun (s : State) p => s.takeRelease p.1 p.2) s
  (s.sched.unsealed.foldl State.sealTick s).giveAllFrames

/-- TAKEOVER (R357, R435): the holder of the grant, at the first admit at or after h + 3.5T, which the command
asserts. -/
def execTakeover (s : State) : Out :=
  .next (if s.fab.granted == some true && s.rf .fabLease 63 61 = 2 then
    (s.alarm sgTAKEOVER s.locDevice (detBytes 2 s.partnerId)).adopt true
  else s)

/-- HANDOVER_ADOPTION (R411): at the first admit after this device has acknowledged the handover. -/
def execHandoverAdoption (s : State) : Out := .next (if s.fab.handTaken && !s.fab.custody then s.adopt false else s)

end Sys2Proof.Machine
end

