-- ==== Sys2Proof/Machine/Lockstep.lean ====
section
/-!
DEFINITION. Paired and triple execution (chapter 14): divergence and votes (R368, R369, R372, R373, R378, R380), triage
and spares (R374 to R376), the resync image and cold resync (R370, R371), Chamois injection (R382 to R384), comparator
loss (R381), split and rejoin (R385 to R387), cluster reset (R388), C6 (R249), the in-service tests of spares (R402 to
R405), the activation of customer microcode (R225) and of code blocks (R465), and the vendor release (R204).
-/
namespace Sys2Proof.Machine

/-! Positions and spares. -/

/-- Put core number k of the cluster into position p of a slot, or make the position vacant (R390). -/
def State.setPos (s : State) (c sl p : Nat) (k : Option Nat) : State :=
  match k with
  | none => s.wf (.cluSlot c sl) (15 + 4 * p) (15 + 4 * p) 0
  | some i => (s.wf (.cluSlot c sl) (14 + 4 * p) (12 + 4 * p) i).wf (.cluSlot c sl) (15 + 4 * p) (15 + 4 * p) 1

/-- The core in position p of a slot, if it is valid. -/
def State.posCore (s : State) (c sl p : Nat) : Option Nat :=
  if bit (s.rd (.cluSlot c sl)) (15 + 4 * p) then some (c * 8 + s.rf (.cluSlot c sl) (14 + 4 * p) (12 + 4 * p)) else none

/-- The core that position p of a slot holds, or held last: CLU_SLOT keeps the number of a vacated position. -/
def State.lastCore (s : State) (c sl p : Nat) : Nat := c * 8 + s.rf (.cluSlot c sl) (14 + 4 * p) (12 + 4 * p)

/-- The positions of a slot that core e holds. -/
def State.posOf (s : State) (c sl e : Nat) : List Nat :=
  (List.range (slotSize sl)).filter fun p => s.posCore c sl p == some e

/-- CHK_STATUS.DIVERSITY_REDUCED of a slot (R361), recomputed. -/
def State.diversity (s : State) (c sl : Nat) : State :=
  let es := s.slotCores c sl
  let same := es.length == slotSize sl && (es.map (· % 2)).eraseDups.length == 1
  s.wf (.chkStatus c) (24 + sl) (24 + sl) (b2n same)

/-- A core becomes a spare of its cluster (R359, R375). -/
def State.toSpare (s : State) (e : Nat) : State :=
  if s.coreState e == csRETIRED then s
  else s.modCore e fun c => { c.dropCtx.setStateCode csSPARE with act := .run }

/-- A test of a block was aborted or abandoned (R404): the sixty-fourth in a row is recorded. -/
def State.starve (s : State) (key : Nat) (l : Loc) : State :=
  let n := sget 0 s.fmu.starved key + 1
  let s := s.modFmu fun f => { f with starved := sset 0 f.starved key n }
  if n = 64 then s.event sgSELFTEST_STARVED l 0 else s

/-- Promote a spare into position p of a slot in place of core old (R376); false when there is none. -/
def State.promote (s : State) (c sl p old : Nat) : State × Bool :=
  match s.pickSpare old with
  | none => (s, false)
  | some k =>
    let s := if s.spareTest k then s.starve k (s.locCore k) else s
    let s := (s.leaveC6 k).modCore k fun x => x.setStateCode csRECOVERY
    let s := (s.setPos c sl p (some (k % 8))).event sgSPARE_PROMOTED (s.locUnit c sl) 0
    (s.diversity c sl, true)

/-- A slot leaves service for good (R375, R376): its cores that are not RETIRED become spares. -/
def State.dissolve (s : State) (c sl v : Nat) : State :=
  let es := s.slotCores c sl
  let s := es.foldl (fun (s : State) e => s.toSpare e) s
  let s := (List.range 3).foldl (fun (s : State) p => s.setPos c sl p none) s
  ((s.setSlotState c sl v).wf (.cluSlot c sl) 27 27 0).diversity c sl

/-- The runs on a slot abort as unit lost (R373). -/
def State.loseRuns (s : State) (c sl : Nat) : State :=
  s.abortNow ((s.slotCores c sl).filterMap fun e => (s.core e).ctx.map (·.isn)).eraseDups false

/-- A slot is RETIRED (R375, R384), with its ledger entry (R406). -/
def State.retireSlot (s : State) (c sl : Nat) : State :=
  let s := s.loseRuns c sl
  ((s.alarm sgSLOT_RETIRED (s.locUnit c sl) 0).degrade (s.locUnit c sl) sgSLOT_RETIRED).dissolve c sl slRETIRED

/-! Chamois injection. -/

/-- Copy k of the comparator (0 X, 1 Y) of a cluster is lost (R390). -/
def State.copyLost (s : State) (c k : Nat) : Bool := bit (s.rd (.chkStatus c)) (8 + k)

/-- Copy k is lost (R381, R406); with both lost, every slot of the cluster becomes HELD. -/
def State.loseCopy (s : State) (c k : Nat) : State :=
  if s.copyLost c k then s
  else
    let s := (s.unprotect.wf (.chkStatus c) (8 + k) (8 + k) 1).alarm sgCOMPARATOR_LOST (s.locCluster c) 0
    let known := s.mp.ledger.any fun d => d.loc == (s.locCluster c).word && d.sig == sgCOMPARATOR_LOST && d.copy == k
    let s := if known then s else s.degradeCopy (s.locCluster c) sgCOMPARATOR_LOST k
    if s.copyLost c 0 && s.copyLost c 1 then
      (s.usedSlots c).foldl (fun (s : State) sl => ((s.loseRuns c sl).setSlotState c sl slHELD).wf (.cluSlot c sl) 27 27 0) s
    else s

/-- The 48-bit mask of the groups among failed checks (R383). -/
def groupMask (l : List Nat) : Nat := ((l.filter fun k => 1 ≤ k && k ≤ 48).eraseDups).foldl (fun m k => m + 2 ^ (k - 1)) 0

/-- A finding of a pass on one slot (R384), and CHK_STATUS.INJOK. -/
def State.chamois (s : State) (c sl : Nat) (r : Chamois) : State :=
  let fx := !r.x.isEmpty && !s.copyLost c 0
  let fy := !r.y.isEmpty && !s.copyLost c 1
  let s1 : State := if fx || fy then
      (s.latchEvent c sl 7 0 (groupMask r.x) (groupMask r.y)).alarm sgCHAMOIS_FAIL (s.locCluster c) 0
    else s
  let s2 := if fx && fy && r.x.any r.y.contains then s1.retireSlot c sl
    else
      let s2 := if fx then s1.loseCopy c 0 else s1
      if fy then s2.loseCopy c 1 else s2
  let gx (k : Nat) : Bool := !s2.copyLost c 0 && !r.x.contains k
  let gy (k : Nat) : Bool := !s2.copyLost c 1 && !r.y.contains k
  let ok := s2.slotState c sl == slRETIRED
    || (!(s2.copyLost c 0 && s2.copyLost c 1) && (r.x ++ r.y).all fun k => gx k || gy k)
  s2.wf (.chkStatus c) 0 0 (b2n ok)

/-- A pass on every slot of a cluster that holds cores (R382): a slot not listed has no finding. INJOK says whether
each passed. -/
def State.chamoisAll (s : State) (c : Nat) (rs : List SlotPass) : State :=
  let (s, ok) := (s.usedSlots c).foldl (fun (a : State × Bool) sl =>
    let r : Chamois := match rs.find? fun p => p.slot == sl with
      | some p => p.res | none => ⟨[], []⟩
    let s := a.1.chamois c sl r
    (s, a.2 && bit (s.rd (.chkStatus c)) 0)) (s, true)
  s.wf (.chkStatus c) 0 0 (b2n ok)

/-! Divergence. -/

/-- Requests and runs of a core that leaves its unit go on under another core of it (R378). -/
def State.moveCore (s : State) (e k : Nat) : State :=
  let rs := s.runs.map fun (r : Run) => match r.st with
    | .running i => if i = e then { r with st := .running k } else r
    | .suspended (some i) => if i = e then { r with st := .suspended (some k) } else r
    | _ => r
  let q (x : NReq) : NReq := match x with
    | .post i w ea isn okey word amount floor ex => .post (if i = e then k else i) w ea isn okey word amount floor ex
    | .pread i w ea isn okey word ex => .pread (if i = e then k else i) w ea isn okey word ex
    | x => x
  let s : State := { s with runs := rs, repairWait := s.repairWait.map fun (p : Nat × Nat) => (if p.1 = e then k else p.1, p.2) }
  let s : State := { s with lineDead := s.lineDead.map fun (p : Nat × Reader) => (p.1, if p.2 = .core e then .core k else p.2) }
  let s := s.modFab fun f => { f with waits := f.waits.map fun (p : Nat × RWait) =>
    (p.1, if p.2.core = e then { p.2 with core := k } else p.2) }
  (List.range 12).foldl (fun (s : State) u => s.setNpu u { s.npu u with queue := (s.npu u).queue.map q }) s

/-- A triad's minority core is retired and the majority goes on (R378, R379). -/
def State.outvote (s : State) (c sl p gx gy : Nat) : State :=
  match s.posCore c sl p with
  | none => s
  | some e =>
    let s := (s.latchEvent c sl 4 p gx gy).alarm sgCORE_OUTVOTED (s.locCore e) 0
    let rest := (s.slotCores c sl).filter (· != e)
    let s := (s.unprotect.moveCore e (rest.headD e)).setPos c sl p none
    (s.powerOff e).diversity c sl

/-- CHECKER_FAULT (R380): the unit freezes as under R373 and its slot is retired; its cores go through triage. -/
def State.checkerFault (s : State) (c sl gx gy : Nat) : State :=
  let es := s.slotCores c sl
  let s := (s.latchEvent c sl 3 0 gx gy).alarm sgCHECKER_FAULT (s.locCluster c) (gx * 2 ^ 64 + gy)
  let s := (s.freezeCores es).setSlotState c sl slRETIRED
  (s.wf (.cluSlot c sl) 27 27 0).modSlotX c sl fun x => { x with evt := 3 }

/-- The checker compares the slot: a unit in service or in resync (R377). -/
def State.compared (s : State) (c sl : Nat) : Bool :=
  s.clusterOn c && (s.slotState c sl == slACTIVE || s.slotState c sl == slRESYNC)

/-- LOCKSTEP_MISMATCH (R368, R372, R378, R380, R381): the masks of copies X and Y in one cycle; odd is the position of a
triad that differs from two that agree. -/
def execLockstepMismatch (c : Fin 32) (sl : Fin 5) (gx gy : BitVec 48) (odd : Option Nat) (s : State) : Out :=
  let x := if s.copyLost c 0 then gy.toNat else gx.toNat
  let y := if s.copyLost c 1 then gx.toNat else gy.toNat
  let es := s.slotCores c sl
  .next (if !s.compared c sl || (s.copyLost c 0 && s.copyLost c 1) || (x == 0 && y == 0) then s
  else if x ≠ y then s.checkerFault c sl gx.toNat gy.toNat
  else match (if es.length = 3 then odd else none) with
  | some p => s.outvote c sl p gx.toNat gy.toNat
  | none => s.stopUnit (es.headD 0) 1 sgLOCKSTEP_MISMATCH gx.toNat gy.toNat)

/-- SAMPLE_DISAGREE (R369, R372, R378). -/
def execSampleDisagree (c : Fin 32) (sl : Fin 5) (odd : Option Nat) (s : State) : Out :=
  let es := s.slotCores c sl
  .next (if !s.compared c sl then s
  else match (if es.length = 3 then odd else none) with
  | some p => s.outvote c sl p 0 0
  | none => s.stopUnit (es.headD 0) 2 sgSAMPLE_DISAGREE 0 0)

/-! Triage. -/

/-- The slot goes on to resync (R374): its cores enter RECOVERY and wait for the state copy. -/
def State.toResync (s : State) (c sl : Nat) : State :=
  let s := (s.slotCores c sl).foldl (fun (s : State) e => s.modCore e fun k =>
    if k.stateCode = csRETIRED then k else k.setStateCode csRECOVERY) s
  (s.setSlotState c sl slRESYNC).modSlotX c sl fun x => { x with evt := 0, copied := false }

/-- A transient is counted (R374, R375): the third retires the slot. -/
def State.transient (s : State) (c sl : Nat) : State :=
  let s := (s.event sgLOCKSTEP_TRANSIENT (s.locUnit c sl) 0).count (.chkCnt c) 47 32 1
  let tr := (s.slotX c sl).trans.filter fun t => decide (s.tick < t + 1024)
  if tr.length ≥ 2 then s.retireSlot c sl
  else
    let s := s.modSlotX c sl fun x => { x with trans := tr ++ [s.tick] }
    (s.wf (.cluSlot c sl) 9 8 (tr.length + 1)).toResync c sl

/-- The words of cores es that read with a parity error are rewritten from the retained copy, with an EVENT each (R228);
the cores of which one word has done so for the second time within 1,024 tk. -/
def State.rewriteStores (s : State) (c sl : Nat) (es : List Nat) : State × List Nat :=
  let ps := (s.slotX c sl).parity.filter fun p => es.contains p.1
  let (s, bad) := ps.foldl (fun (a : State × List Nat) p =>
    let again := a.1.mp.perr.any fun q => q.1 == p.1 && q.2.1 == p.2.1 && q.2.2.1 == p.2.2.1
      && decide (p.2.2.2 < q.2.2.2 + 1024)
    (a.1.modMp fun m => { m with perr := p :: m.perr }, if again then p.1 :: a.2 else a.2)) (s, [])
  let s := ((ps.map fun p => (p.1, p.2.1, p.2.2.1)).eraseDups).foldl
    (fun (s : State) p => s.event sgCSTORE_PARITY (s.locCore p.1) 0) s
  let s := es.foldl (fun (s : State) e => s.modCore e fun k => { k with parity := [] }) s
  (s.modSlotX c sl fun x => { x with parity := x.parity.filter fun p => !es.contains p.1 }, bad.eraseDups)

/-- Cores of a unit fail triage (R374, R376): each is RETIRED and a spare takes its position; without a spare the slot
becomes EMPTY. -/
def State.replaceCores (s : State) (c sl : Nat) (bad : List Nat) : State :=
  let s := bad.foldl (fun (s : State) e => s.retireCore e) s
  let ps := (List.range (slotSize sl)).filter fun p => (s.posCore c sl p).any bad.contains
  let (s, ok) := ps.foldl (fun (a : State × Bool) p =>
    let old := (a.1.posCore c sl p).getD 0
    let (s, done) := (a.1.setPos c sl p none).promote c sl p old
    (s, a.2 && done)) (s, true)
  if ok then s.toResync c sl else s.dissolve c sl slEMPTY

/-- TRIAGE_COMPLETE (R374 to R376, R386): the positions whose cores fail. -/
def execTriageComplete (c : Fin 32) (sl : Fin 5) (failed : List Nat) (s : State) : Out :=
  let bad := failed.filterMap (s.posCore c sl)
  let st := s.slotState c sl
  .next (if st = slTRIAGE then
    let evt := (s.slotX c sl).evt
    let (s, twice) := s.rewriteStores c sl (s.slotCores c sl)
    let bad := (bad ++ twice).eraseDups
    if !bad.isEmpty then s.replaceCores c sl bad
    else if evt = 5 then (s.event sgLOCKSTEP_TRANSIENT (s.locUnit c sl) 0).toResync c sl
    else s.transient c sl
  else if st = slSPLIT then
    let es := (s.slotCores c sl).filter fun e => s.coreState e == csTEST
    let (s, twice) := s.rewriteStores c sl es
    es.foldl (fun (s : State) e =>
      if bad.contains e || twice.contains e then s.retireCore e
      else
        let s := s.modCore e fun k => { k with lev := 0, active := 1, entering := none }.abort0 s.free
        if s.verified e then s.modCore e fun k => k.setStateCode csSERVICE else s) s.takeFree
  else if st = slRETIRED && (s.slotX c sl).evt = 3 then
    let (s, twice) := s.rewriteStores c sl (s.slotCores c sl)
    let s := ((bad ++ twice).eraseDups).foldl (fun (s : State) e => s.retireCore e) s
    (s.dissolve c sl slRETIRED).modSlotX c sl fun x => { x with evt := 0 }
  else s)

/-! Resync. -/

/-- The resync image of a core (R370). -/
def Core.image (c : Core) : Image :=
  { banks := c.banks.filter fun p => p.1 != 0, vbr := c.vbr, gsp := c.gsp, lmask := c.lmask, wrap := bit c.rsctl 15,
    scatw := c.scatw, tcmwin := c.tcmwin, shstkBase := fld c.shstk 17 11, txreq := bit c.mode 7,
    code := c.tcmblk.filter fun p => bit p.2 62 }

/-- A core after cold resync (R371): the image; every other shared register at its warm-reset value; level 0 at
DISPATCH; the code blocks of TCM from the retained copy; VALID of every data block clear, its other fields kept (R243); the
control stores from the retained copy, so that every word reads without a parity error (R226). -/
def Core.resync (c : Core) (im : Image) (code : List (Nat × Word × List TWord × Nat)) (free : Nat) : Core :=
  let words := code.flatMap fun b =>
    if im.code.any (fun p => p.1 == b.1) then (b.2.2.1.zipIdx).map fun (p : TWord × Nat) => (512 * b.1 + p.2, p.1) else []
  let tcm := words.foldl (fun m p => sset raw0 m p.1 p.2) []
  let k : Core := { Core.cold with
    banks := im.banks, vbr := im.vbr, gsp := im.gsp, lmask := im.lmask, rsctl := setBit 0 15 im.wrap, scatw := im.scatw,
    tcmwin := im.tcmwin, shstk := setFld 0 17 11 im.shstkBase, mode := setBit (setFld 0 2 0 c.stateCode) 7 im.txreq,
    tcmblk := im.code.foldl (fun m p => sset 0 m p.1 p.2)
      ((c.tcmblk.map fun (p : Nat × Word) => (p.1, setBit p.2 63 false)).filter fun p => p.2 != 0), tcm := tcm, ucstat := c.ucstat, vmicro := c.vmicro, vnano := c.vnano, cstore := c.cstore,
    dectab := c.dectab }
  k.abort0 free

/-- RESYNC_IMAGE_CAPTURE (R370): once after each stage close, while the unit waits in DISPATCH. The first one after an
outvote lets a spare be promoted into the vacant position; without one the triad stays on two positions (R379). -/
def execResyncImageCapture (c : Fin 32) (sl : Fin 5) (s : State) : Out :=
  let es := s.slotCores c sl
  let k := s.core (es.headD 0)
  .next (if s.slotState c sl ≠ slACTIVE || (s.slotX c sl).captured || !k.idle || s.rf .tsqStatus 2 0 < 2 || es.isEmpty then s
  else
    let s := s.modSlotX c sl fun x => { x with image := some k.image, captured := true }
    match (List.range (slotSize sl)).find? fun p => (s.posCore c sl p).isNone && !(s.slotX c sl).lone with
    | none => s
    | some p =>
      match s.promote c sl p (s.lastCore c sl p) with
      | (s, true) => s.toResync c sl
      | (_, false) => s.modSlotX c sl fun x => { x with lone := true })

/-- STATE_COPY_COMPLETE (R374). -/
def execStateCopyComplete (c : Fin 32) (sl : Fin 5) (s : State) : Out :=
  .next (if s.slotState c sl = slRESYNC then s.modSlotX c sl fun x => { x with copied := true } else s)

/-- The requests that a unit delivers after its cold resync (R371): those held from its freeze and those raised since, but
TICK_PULSE. -/
def State.heldReqs (s : State) (c sl : Nat) : Async :=
  let all := (s.slotCores c sl).map fun e => sget Async.cold s.async e
  let one (a b : Async) : Async := (List.range 6).foldl (fun (a : Async) i =>
    if bit b.pend i then ⟨setBit a.pend i true, sset 0 a.detail i (sget 0 b.detail i)⟩ else a) a
  let a := all.foldl one (s.slotX c sl).reqs
  ⟨setBit a.pend 0 false, sset 0 a.detail 0 0⟩

/-- COLD_RESYNC (R231, R371, R384): of a slot whose state copy is complete, with what its Chamois pass finds. The unit joins
the pool at the next pulse (R36); without the verification of R231 its cores do not reach SERVICE. -/
def execColdResync (c : Fin 32) (sl : Fin 5) (r : Chamois) (s : State) : Out :=
  .next (if s.slotState c sl ≠ slRESYNC || !(s.slotX c sl).copied then s
  else
    let im := (s.slotX c sl).image.getD Core.cold.image
    let es := s.slotCores c sl
    let f := s.free
    let s := es.foldl (fun (s : State) e => s.modCore e fun k => k.resync im s.mp.code f) s.takeFree
    let s := s.chamois c sl r
    if s.slotState c sl ≠ slRESYNC || !es.all s.verified then s
    else
      let a := s.heldReqs c sl
      let s := es.foldl (fun (s : State) e =>
        let s1 := s.modCore e fun k => k.setStateCode csSERVICE
        { s1 with async := sset Async.cold s1.async e a }) s
      ((s.setSlotState c sl slACTIVE).modSlotX c sl fun x =>
        { x with copied := false, poolFrom := s.tick + 1, reqs := Async.cold }).reprotect)

/-- CHAMOIS_REINJECTION (R382, R384, R402 to R405): in service, or as the cluster checker self-test of R380 and R381
with window; preempted: a delivery or another reason ended the pass before its verdict. In Fawn
mode the in-service pass does not run (R413). -/
def execChamoisReinjection (c : Fin 32) (sl : Fin 5) (r : Chamois) (window preempted : Bool) (s : State) : Out :=
  let key := 1000 + c.val * 8 + sl.val
  let due := window || (bit (s.rd .fmuStctl) 0 && s.rf .fmuStctl 23 16 != 0 && !s.fawn)
  let free := (s.slotCores c sl).all fun e => (s.core e).idle || s.coreState e != csSERVICE
  .next (if !due || !(s.usedSlots c).contains sl.val || !free then s
  else if preempted then s.starve key (s.locUnit c sl)
  else
    let s := s.modFmu fun f => { f with starved := sset 0 f.starved key 0 }
    let s := if window || (r.x.isEmpty && r.y.isEmpty) then s
      else s.alarm sgSELFTEST_FAIL (s.locUnit c sl) (detBytes 1 2)
    s.chamois c sl r)

/-! Tests of spares, and C6. -/

/-- SPARE_SELF_TEST (R402): the management processor moves a spare to TEST; not in Fawn mode (R413). -/
def execSpareSelfTest (e : Fin 256) (s : State) : Out :=
  .next (if s.coreState e = csSPARE && s.clusterOn (e / 8) && bit (s.rd .fmuStctl) 0 && s.rf .fmuStctl 15 8 != 0 && !s.fawn then
    (s.leaveC6 e).modCore e fun c => c.setStateCode csTEST
  else s)

/-- SPARE_SELF_TEST_COMPLETE (R377, R405, R406). -/
def execSpareSelfTestComplete (e : Fin 256) (fail : Bool) (s : State) : Out :=
  .next (if !s.spareTest e then s
  else
    let s := s.modFmu fun f => { f with starved := sset 0 f.starved e 0 }
    if fail then
      ((s.powerOff e).alarm sgSELFTEST_FAIL (s.locCore e) (detBytes 1 3)).degrade (s.locCore e) sgSELFTEST_FAIL
    else s.modCore e fun c => c.setStateCode csSPARE)

/-- C6_ENTRY (R249, R385): a spare, or a core of a split slot that waits in DISPATCH. -/
def execC6Entry (e : Fin 256) (s : State) : Out :=
  .next (if s.mayC6 e then s.enterC6 e else s)

/-- C6_EXIT (R249, R487). -/
def execC6Exit (e : Fin 256) (s : State) : Out :=
  .next (s.leaveC6 e)

/-! Split and rejoin. -/

/-- UNIT_SPLIT_HANDOVER (R385): at the first pulse from the requested tick at which the unit waits in DISPATCH. -/
def execUnitSplitHandover (c : Fin 32) (sl : Fin 5) (s : State) : Out :=
  .next (match (s.slotX c sl).splitAt with
  | none => s
  | some t =>
    let st := s.slotState c sl
    if s.tick < t then s
    else if st = slRETIRED || st = slEMPTY || st = slHELD then
      (s.modSlotX c sl fun x => { x with splitAt := none }).omiFinish 0x20 (obSlot c sl) stSTATE_ERROR
    else if st ≠ slACTIVE || !(s.slotCores c sl).all (fun e => (s.core e).idle) then s
    else ((s.setSlotState c sl slSPLIT).modSlotX c sl fun x => { x with splitAt := none }).omiFinish 0x20 (obSlot c sl) stOK)

/-- UNIT_REJOIN_HANDOVER (R387, R389): of a split slot, or of one that debug has left HELD. A RETIRED core is replaced
by a spare; without one nothing happens. A triad that stays on two positions comes back on them (R379). -/
def execUnitRejoinHandover (c : Fin 32) (sl : Fin 5) (s : State) : Out :=
  .next (match (s.slotX c sl).rejoinAt with
  | none => s
  | some t =>
    let st := s.slotState c sl
    let ready := (st == slHELD && !s.halted c) || (st == slSPLIT && (s.slotCores c sl).all fun e =>
      (s.core e).idle || s.coreState e == csRETIRED)
    if s.tick < t || !ready then s
    else
      let s := s.modSlotX c sl fun x => { x with rejoinAt := none }
      let ps := (List.range (slotSize sl)).filter fun p => match s.posCore c sl p with
        | some e => s.coreState e == csRETIRED
        | none => !(s.slotX c sl).lone
      let (s1, ok) := ps.foldl (fun (a : State × Bool) p =>
        let (s, done) := a.1.promote c sl p (a.1.lastCore c sl p)
        (s, a.2 && done)) (s, true)
      if !ok then s.omiFinish 0x20 (obSlot c sl) stNO_RESOURCE
      else (((s1.slotCores c sl).foldl State.leaveC6 s1).toResync c sl).omiFinish 0x20 (obSlot c sl) stOK)

/-! Cluster reset. -/

/-- A core after a reset that keeps the control stores (R226, R506): level 0, BOOT. Warm keeps what the Warm column
keeps: CORE_VBR, CORE_TCMWIN and the descriptors of TCM but for VALID, and TCM itself. -/
def Core.boot (c : Core) (warm : Bool) : Core :=
  let k : Core := { Core.cold with ucstat := c.ucstat, vmicro := c.vmicro, vnano := c.vnano, cstore := c.cstore, dectab := c.dectab }
  if warm then
    { k with vbr := c.vbr, tcmwin := c.tcmwin, tcm := c.tcm,
             tcmblk := (c.tcmblk.map fun (p : Nat × Word) => (p.1, setBit p.2 63 false)).filter fun p => p.2 != 0 }
  else k

/-- The cores of a cluster run BOOT (R230, R359, R377): those that fail are RETIRED; a RETIRED core stays so. -/
def State.bootCores (s : State) (c : Nat) (warm : Bool) (fail : List Nat) : State :=
  (List.range 8).foldl (fun (s : State) i =>
    let e := c * 8 + i
    if s.coreState e == csRETIRED then s
    else
      let s := s.setCore e ((s.core e).boot warm)
      let s : State := { s with async := sset Async.cold s.async e Async.cold }
      if fail.contains e then s.retireCore e else s) s

/-- Spares take the places of the RETIRED cores of a slot and run BOOT (R359, R376); with none left the slot is EMPTY. -/
def State.fillSlot (s : State) (c sl : Nat) : State :=
  let ps := (List.range (slotSize sl)).filter fun p => (s.posCore c sl p).any fun e => s.coreState e == csRETIRED
  let (s, ok) := ps.foldl (fun (a : State × Bool) p =>
    let (s, done) := (a.1.setPos c sl p none).promote c sl p (a.1.lastCore c sl p)
    ((s.slotCores c sl).foldl (fun (s : State) e =>
      if s.coreState e == csRETIRED then s else s.modCore e fun k => k.setStateCode csBOOT) s, a.2 && done)) (s, true)
  (if ok then s else s.dissolve c sl slEMPTY).diversity c sl

/-- The slots of the cluster's mode take their home cores, and spares the places of RETIRED ones (R359, R376); every
other core is a spare. -/
def State.assign (s : State) (c mode : Nat) : State :=
  let used := (List.range 5).filter fun sl => if sl < 3 then mode == 0 else mode == 1
  let homes := used.flatMap fun sl => (List.range (slotSize sl)).map (homeCore sl)
  let s := (List.range 5).foldl (fun (s : State) sl => s.wr (.cluSlot c sl) (homeSlotWord mode sl)) s
  let s := (List.range 8).foldl (fun (s : State) i => if homes.contains i then s else s.toSpare (c * 8 + i)) s
  used.foldl (fun (s : State) sl => s.fillSlot c sl) s

/-- CLUSTER_RESET (R36, R359, R375, R388, R506): of a drained cluster, with the cores that fail BOOT self-test and what
the Chamois pass finds. The cluster stays in reset until the next pulse. -/
def execClusterReset (c : Fin 32) (fail : List Nat) (rs : List SlotPass) (s : State) : Out :=
  .next (if !s.clusterOn c || !s.drained c then s
  else
    let s := s.bootCores c false fail
    let m := s.rf (.cluMode c) 1 1
    let s := (s.wf (.cluMode c) 0 0 m).wr (.chkStatus c) 0
    let s := (s.wf .dbgHalt c c 0).wf .dbgHalt (32 + c) (32 + c) 0
    let s := (List.range 5).foldl (fun (s : State) sl => s.modSlotX c sl fun _ => SlotX.cold) s
    let s := ((s.assign c m).chamoisAll c rs).omiFinish 0x21 (obCluster c) stOK
    { s with cluInReset := s.cluInReset ++ [c.val], cluDrain := s.cluDrain.filter fun p => p.1 != c.val })

/-! Microcode and code blocks. -/

/-- MICROCODE_ACTIVATION (R224, R225): after the pulse of the activation tick; same says whether the mirror partner and
every device whose replica this device holds have sealed the same image for the same tick. A core in the middle of a customer
instruction completes it with the old bank. -/
def execMicrocodeActivation (same : Bool) (s : State) : Out :=
  .next (match s.mp.image with
  | none => s
  | some (t, bs) =>
    if s.tick < t then s
    else
      let id := bytesAt bs 4 4
      let f (c : Core) : Core :=
        let a := fld c.ucstat 8 8
        let next := setFld (setFld (setFld c.ucstat a a 0) 8 8 (1 - a)) 63 32 (if (List.range 64).any fun i =>
          bit (sget 0 c.dectab (64 * (1 - a) + i)) 63 then id else 0)
        if !same then { c with ucstat := setFld c.ucstat (1 - a) (1 - a) 0 }
        else if c.mid then { c with ucNext := some next }
        else { c with ucstat := next }
      let s := ((List.range 256).filter fun e => s.clusterOn (e / 8)).foldl (fun (s : State) e => s.modCore e f) s
      let s := s.modMp fun m => { m with image := none, ucode := if same then m.ucodeNext else m.ucode, ucodeNext := (0, 0) }
      let s := if same then s else s.event sgUCODE_PARTNER_MISMATCH s.locDevice 0
      s.omiFinish 0x22 obStores (if same then stOK else stPARTNER_ERROR))

/-- TCM_CODE_INSTALL (R465): a core in its first wait in DISPATCH after the next pulse takes the blocks due. -/
def execTcmCodeInstall (e : Fin 256) (s : State) : Out :=
  let due := s.mp.code.filter fun b => s.mp.codeDue.contains (e.val, b.1) && decide (b.2.2.2 ≤ s.tick)
  .next (if (s.core e).act ≠ .disp || due.isEmpty then s
  else
    let s := due.foldl (fun (s : State) b => s.modCore e fun c =>
      { c with tcmblk := sset 0 c.tcmblk b.1 b.2.1,
               tcm := (b.2.2.1.zipIdx).foldl (fun m (p : TWord × Nat) => sset raw0 m (512 * b.1 + p.2) p.1) c.tcm }) s
    s.modMp fun m => { m with codeDue := m.codeDue.filter fun p => !(p.1 == e.val && due.any fun b => b.1 == p.2) })

/-- VENDOR_RELEASE_ROLL (R204, R231): delivery to the cluster stops, and its stores are written once its units are drained:
now, or at a later pulse. -/
def execVendorReleaseRoll (c : Fin 32) (release : BitVec 32) (micro nano : List Nat) (ok : Bool) (s : State) : Out :=
  let r : VRoll := ⟨c, release.toNat, micro, nano, ok⟩
  .next (if !s.clusterOn c then s
  else if s.clusterIdle c then s.applyRoll r
  else s.modMp fun m => { m with rolls := m.rolls.filter (fun q => q.cluster != c.val) ++ [r] })

end Sys2Proof.Machine
end

