-- ==== Sys2Proof/Machine/Fabric.lean ====
section
/-!
DEFINITION. The fabric: links (R416 to R419), beacons, elections and device IDs (R423 to R425), routes (R427, R428),
time (R429, R430), heartbeat, lease and handover (R432 to R436).
-/
namespace Sys2Proof.Machine

/-! Ports. -/

/-- The ports that carry traffic. -/
def State.upPorts (s : State) : List Nat := (List.range 8).filter s.portUp

/-- The best manager candidate that this device knows (R424): the highest priority, then the lower serial; pri gives
the priority of a beacon. The own priority is own. -/
def State.bestCand (s : State) (own : Nat) (pri : Beacon → Nat) : Nat :=
  let me := (own, s.fuses.serial.toNat)
  let cs := s.upPorts.filterMap fun p => (s.port p).beacon.map fun b => (pri b, b.serial)
  let best := cs.foldl (fun (a : Nat × Nat) c => if c.1 > a.1 || (c.1 == a.1 && c.2 < a.2) then c else a) me
  if best.1 = 0 then 0 else best.2

/-- The candidate that ranks next after the best one that this device knows (R424); 0: none. -/
def State.nextCand (s : State) (own : Nat) (pri : Beacon → Nat) : Nat :=
  let best := s.bestCand own pri
  let cs := (own, s.fuses.serial.toNat) :: s.upPorts.filterMap fun p => (s.port p).beacon.map fun b => (pri b, b.serial)
  let next := (cs.filter fun c => c.2 != best).foldl (fun (a : Nat × Nat) c =>
    if c.1 > a.1 || (c.1 == a.1 && c.2 < a.2) then c else a) (0, 0)
  next.2

/-- MPRI and TPRI of a beacon (R423). -/
def Beacon.mpri (b : Beacon) : Nat := b.pri / 256
def Beacon.tpri (b : Beacon) : Nat := b.pri % 256

/-- The beacon that this device sends on a port (R423). -/
def State.beaconOf (s : State) (p : Nat) : Beacon :=
  let m := s.rf .fabRole 31 24
  let t := s.rf .fabRole 23 16
  let roles := b2n (m != 0) + 2 * b2n (t != 0) + 4 * b2n (bit (s.rd .fabRole) 63) + 8 * b2n (bit (s.rd .fabRole) 62)
  ⟨s.fuses.serial.toNat, s.fab.sysid, b2n (bit (s.rd .devId) 16) * 2 ^ 15 + s.devId, p, roles, m * 256 + t,
    s.rf .fabRtctl 47 32 % 65536, s.bestCand m Beacon.mpri⟩

/-- The beacon goes out on a port (R423). -/
def State.sendBeacon (s : State) (p : Nat) : State :=
  s.send (s.rf (.fabPstatus p) 43 32) false false (.beacon (s.beaconOf p))

/-- Announcements of the fabric manager (R424): to every neighbour and to every device that has an ID. -/
def State.announce (s : State) : State :=
  let ds := (s.upPorts.map (fun p => s.rf (.fabPstatus p) 43 32) ++ s.fab.ids.map (·.2)).eraseDups.filter (· != s.devId)
  ds.foldl (fun (s : State) d => s.send d false false (.manage (.announce (s.rf .fabRole 59 48) (s.rf .fabRole 47 36)))) s

/-- BEACON_SEND (R423, R424): a beacon on each port that is UP, and, of the fabric manager, the announcements that go out
every 1 ms as the beacons do. -/
def execBeaconSend (s : State) : Out :=
  let s := s.upPorts.foldl State.sendBeacon s
  .next (if bit (s.rd .fabRole) 63 then s.announce else s)

/-- The fabric manager binds a serial to an ID (R425): its bound one, else the lowest that is free; its own serial to the ID
that it holds. -/
def State.bindId (s : State) (serial : Nat) : State × Nat :=
  match s.fab.ids.find? fun p => p.1 == serial with
  | some p => (s, p.2)
  | none =>
    let n := if serial = s.fuses.serial.toNat && bit (s.rd .devId) 16 then s.devId else ((List.range 4096).find? fun i => i != s.devId && !s.fab.ids.any fun p => p.2 == i).getD 0
    (s.modFab fun f => { f with ids := f.ids ++ [(serial, n)] }, n)

/-- The neighbours that are manager candidates and have a device ID: each keeps a copy of the system ID table (R425). -/
def State.candidates (s : State) : List Nat :=
  (s.upPorts.filterMap fun p => (s.port p).beacon).filterMap fun b =>
    if b.roles.testBit 0 && decide (b.devid ≥ 2 ^ 15) then some (b.devid % 4096) else none

/-- The fabric manager copies the whole ID table to device d (R425). -/
def State.copyIds (s : State) (d : Nat) : State :=
  s.fab.ids.foldl (fun (s : State) p => s.send d false false (.manage (.assign p.1 p.2 s.fab.sysid))) s

/-- The fabric manager names the time master of which a beacon tells it in its announcements (R424). -/
def State.hearTm (s : State) (b : Beacon) : State :=
  let t := b.devid % 4096
  if bit (s.rd .fabRole) 63 && b.roles.testBit 3 && decide (b.devid ≥ 2 ^ 15) && s.rf .fabRole 47 36 != t then
    (s.wf .fabRole 47 36 t).event sgTIME_MASTER_CHANGE s.locDevice (detBytes 2 t)
  else s

/-- BEACON (R423 to R425): what the neighbour on port p says. A manager candidate that the manager hears for the first time
gets a copy of the ID table; a device whose ID clashes with another one gets no ID from it any more. -/
def execBeacon (p : Fin 8) (b : Beacon) (s : State) : Out :=
  let others := (s.upPorts.filter (· != p.val)).filterMap fun q => (s.port q).beacon
  let clash := b.devid ≥ 2 ^ 15 && ((bit (s.rd .devId) 16 && b.devid % 4096 == s.devId) ||
    others.any fun o => o.devid == b.devid && o.serial != b.serial)
  .next (if !s.portUp p then s
  else
    let old := (s.port p).beacon
    let known := old.any fun o => o.roles.testBit 0 && o.serial == b.serial && decide (o.devid ≥ 2 ^ 15)
    let s := (s.modPort p fun x => { x with beacon := some b }).wf (.fabPstatus p) 43 32 (b.devid % 4096)
    let s := s.modFab fun f => { f with fmBest := s.bestCand (s.rf .fabRole 31 24) Beacon.mpri,
                                        tmBest := s.bestCand (s.rf .fabRole 23 16) Beacon.tpri,
                                        fmStandby := s.nextCand (s.rf .fabRole 31 24) Beacon.mpri,
                                        tmStandby := s.nextCand (s.rf .fabRole 23 16) Beacon.tpri }
    let s := s.hearTm b
    if clash then
      (s.modFab fun f => { f with withheld := b.serial :: f.withheld.filter (· != b.serial) }).alarm sgDEVID_CONFLICT
        (devLoc (b.devid % 4096)) 0
    else if !bit (s.rd .fabRole) 63 || s.fab.withheld.contains b.serial then s
    else if b.devid < 2 ^ 15 then
      let (s, id) := s.bindId b.serial
      (id :: s.candidates).foldl (fun (s : State) d => s.send d false false (.manage (.assign b.serial id s.fab.sysid))) s
    else if b.roles.testBit 0 && !known then s.copyIds (b.devid % 4096)
    else s)

/-! Roles. -/

/-- This device becomes fabric manager, or time master (R424, R446). The first manager of a system gives it its SYSID
(R423; log 130). -/
def State.becomeFm (s : State) : State :=
  if bit (s.rd .fabRole) 63 then s
  else
    let s := ((s.wf .fabRole 63 63 1).wf .fabRole 59 48 s.devId).event sgMANAGER_CHANGE s.locDevice (detBytes 2 s.devId)
    let id := if s.fab.sysid = 0 then Config.systemId s.free % 2 ^ 64 else s.fab.sysid
    ((s.takeFree.modFab fun f => { f with fmSerial := s.fuses.serial.toNat, sysid := id }).bindId s.fuses.serial.toNat).1.announce
def State.becomeTm (s : State) : State :=
  if bit (s.rd .fabRole) 62 then s
  else
    let s := ((s.wf .fabRole 62 62 1).wf .fabRole 47 36 s.devId).event sgTIME_MASTER_CHANGE s.locDevice (detBytes 2 s.devId)
    s.modFab fun f => { f with tmSerial := s.fuses.serial.toNat }

/-- ELECTION_SETTLE (R424): the beacons have named this device for 3 ms, as the command asserts; manager or time
master. -/
def execElectionSettle (manager : Bool) (s : State) : Out :=
  let me := s.fuses.serial.toNat
  let bs := s.upPorts.filterMap fun p => (s.port p).beacon
  .next (if manager then
    if s.rf .fabRole 31 24 != 0 && s.bestCand (s.rf .fabRole 31 24) Beacon.mpri == me && bs.all (fun b => b.best == me)
    then s.becomeFm else s
  else if s.rf .fabRole 23 16 != 0 && s.bestCand (s.rf .fabRole 23 16) Beacon.tpri == me then s.becomeTm else s)

/-- This device ranks next after the present holder of a role, whose beacon has bit i of ROLES (R424). -/
def State.isStandby (s : State) (own i : Nat) (pri : Beacon → Nat) : Bool :=
  own != 0 && (s.upPorts.filterMap fun p => (s.port p).beacon).all fun b =>
    b.roles.testBit i || pri b < own || (pri b == own && s.fuses.serial.toNat ≤ b.serial)

/-- MANAGER_FAILOVER (R424): the standby has received no MANAGE for 3 ms. -/
def execManagerFailover (s : State) : Out :=
  .next (if s.isStandby (s.rf .fabRole 31 24) 2 Beacon.mpri then s.becomeFm else s)

/-- TIME_MASTER_FAILOVER (R424, R430). -/
def execTimeMasterFailover (s : State) : Out :=
  .next (if s.isStandby (s.rf .fabRole 23 16) 3 Beacon.tpri then s.becomeTm else s)

/-- MANAGE (R424, R425, R428), from the device src. -/
def execManage (src : Fin 4096) (m : Manage) (s : State) : Out :=
  .next (match m with
  | .announce f t =>
    let s1 := if s.rf .fabRole 59 48 = f then s
      else (s.wf .fabRole 59 48 f).event sgMANAGER_CHANGE s.locDevice (detBytes 2 f)
    let s2 := if s1.rf .fabRole 47 36 = t then s1
      else (s1.wf .fabRole 47 36 t).event sgTIME_MASTER_CHANGE s1.locDevice (detBytes 2 t)
    (s2.wf .fabRole 63 63 (b2n (f == s.devId))).wf .fabRole 62 62 (b2n (t == s.devId))
  | .assign serial id sysid =>
    let s := if s.rf .fabRole 31 24 = 0 then s
      else s.modFab fun f => { f with ids := f.ids.filter (fun p => p.1 != serial) ++ [(serial, id)] }
    if serial = s.fuses.serial.toNat then
      (s.modFab fun f => { f with sysid := sysid }).devIdWrite mMP (setBit (setFld 0 11 0 id) 16 true)
    else s
  | .unbind serial => s.modFab fun f => { f with ids := f.ids.filter fun p => p.1 != serial }
  | .routes ep t es =>
    if src.val ≠ s.rf .fabRole 59 48 then s
    else
      let s := es.foldl (fun (s : State) u => s.wr (.fabRoute u.dst) (s.regMerge (.fabRoute u.dst) mMP u.val)) s
      s.modFab fun f => { f with routeNext := f.routeNext ++ [(ep, t, es)] }
  | .record r => if bit (s.rd .fabRole) 63 then s.sysAccept r else s
  | .response _ => s)

/-! Frames and links. -/

/-- The message kinds that R420 defines. -/
def typeKnown (t : Nat) : Bool := (1 ≤ t && t ≤ 0x0A) || (0x10 ≤ t && t ≤ 0x13) || (0x20 ≤ t && t ≤ 0x22) || (0x30 ≤ t && t ≤ 0x32)

/-- The endpoint takes the frames for a device ID itself: its own one, and that of a partner whose work it has adopted
(R426, R435). -/
def State.isMine (s : State) (d : Nat) : Bool := d == s.devId || (s.fab.custody && d == s.partnerId)

/-- FRAME_FORWARD (R419, R420, R423, R427): a frame that arrives on port p, which carries traffic in UP alone. Beacons and
probes stay on their link. -/
def execFrameForward (p : Fin 8) (fr : Transit) (s : State) : Out :=
  .next (if !s.portUp p then s
  else if !typeKnown fr.typ.toNat then s.count (.fabPcnt p) 15 0 1
  else if s.isMine fr.dst || fr.typ.toNat == 1 || fr.typ.toNat == 3 then s
  else if fr.hops.val = 0 then s.count .fabRtctl 15 0 1
  else
    let (s, w) := s.routeOf fr.dst
    let prim := (bit w 63 && s.portUp (fld w 2 0), fld w 2 0)
    let alt := (bit w 62 && s.portUp (fld w 6 4), fld w 6 4)
    let (first, second) := if fr.path then (alt, prim) else (prim, alt)
    let out (path : Bool) (q : Nat) (s : State) : State :=
      s.modFab fun f => { f with fwd := f.fwd ++ [(q, { fr with path := path, hops := fr.hops - 1 })] }
    if first.1 then out fr.path first.2 s
    else if second.1 then out (!fr.path) second.2 s
    else s.unreachable fr.dst)

/-- LINK_RETRY_REQUEST (R419): the neighbour on port p asks for a frame again; the sixteenth request for one frame
within 1 ms takes the link DOWN. -/
def execLinkRetryRequest (p : Fin 8) (fseq : BitVec 32) (s : State) : Out :=
  .next (if !s.portUp p then s
  else
    let x := s.port p
    let ts := (if x.retryFrame = fseq.toNat then x.retryTimes.filter fun t => decide (s.now < t + 1000000) else []) ++ [s.now]
    let s := (s.count (.fabPcnt p) 31 16 1).modPort p fun x => { x with retryFrame := fseq.toNat, retryTimes := ts }
    if ts.length ≥ 16 then s.linkDown p else s)

/-- The lanes that a port uses of those that work (R416): four, two or one; of three the two lowest (DESIGN CHOICE, log
128). -/
def usedLanes (m : Nat) : Nat := if m = 7 || m = 11 then 3 else if m = 13 then 5 else if m = 14 then 6 else m

/-- LINK_TRAINING_COMPLETE (R416, R419): a link that was DOWN or in TRAIN goes on to KEY with these lanes. -/
def execLinkTrainingComplete (p : Fin 8) (lanes : BitVec 4) (s : State) : Out :=
  .next (if s.rf (.fabPstatus p) 2 0 ≥ 2 || !bit (s.rd (.fabPctl p)) 4 || lanes = 0 then s
  else (s.wf (.fabPstatus p) 11 8 (usedLanes lanes.toNat)).wf (.fabPstatus p) 2 0 2)

/-- Keys and salts of both directions of port p are agreed (R418). -/
def State.newKeys (s : State) (p : Nat) : State :=
  let n := s.free
  ((s.modPort p fun x => { x with key := some (Config.linkKey n), rxKey := some (Config.linkKey (n + 1)), counter := 0,
                                  salt := Config.linkSalt n, rxSalt := Config.linkSalt (n + 1) }).takeFree).takeFree

/-- LINK_KEY_AGREEMENT (R418, R423): ok says that both signatures verify. -/
def execLinkKeyAgreement (p : Fin 8) (ok : Bool) (s : State) : Out :=
  .next (if s.rf (.fabPstatus p) 2 0 ≠ 2 then s
  else if !ok then s.alarm sgLINK_AUTH (s.locElement (elFP p)) 0
  else
    ((s.wf (.fabPstatus p) 2 0 3).newKeys p).sendBeacon p)

/-- LINK_REKEY (R418): a new key at a frame boundary. -/
def execLinkRekey (p : Fin 8) (s : State) : Out :=
  .next (if !s.portUp p then s else s.newKeys p)

/-- LINK_NARROWED (R416): the lanes that are still in use. -/
def execLinkNarrowed (p : Fin 8) (lanes : BitVec 4) (s : State) : Out :=
  .next (if !s.portUp p then s
  else
    let s := s.wf (.fabPstatus p) 11 8 (usedLanes lanes.toNat)
    if lanes = 0 then s.linkDown p
    else s.event sgLINK_NARROWED (s.locElement (elFP p)) (detBytes 1 (usedLanes lanes.toNat)))

/-! Time. -/

/-- TIME_PROBE_SEND (R429). -/
def execTimeProbeSend (s : State) : Out :=
  .next (s.upPorts.foldl (fun (s : State) p => s.send (s.rf (.fabPstatus p) 43 32) false false (.timeProbe s.now)) s)

/-- TIME_PROBE (R429): the one-way delay that port p computes. -/
def execTimeProbe (p : Fin 8) (delay : BitVec 16) (s : State) : Out :=
  .next (if s.portUp p then s.wf (.fabPdelay p) 15 0 delay.toNat else s)

/-- TIME_SYNC_SEND (R429). -/
def execTimeSyncSend (s : State) : Out :=
  .next (if bit (s.rd .fabRole) 62 then
    s.upPorts.foldl (fun (s : State) p => s.send (s.rf (.fabPstatus p) 43 32) false false (.timeSync s.now s.tick s.sched.history)) s
  else s)

/-- The limit of R305 is lost (R430): a mirror-link fault for a device that has a partner. -/
def State.syncLost (s : State) : State :=
  let was := bit (s.rd .tsqStatus) 4
  let s := (s.modFab fun f => { f with syncOk := false }).wf .tsqStatus 4 4 0
  if was then (s.unprotect.modFab fun f => { f with mirrorDown := true }).alarm sgTICK_SYNC_LOST s.locDevice 0 else s

/-- No tick has started on this device yet. -/
def State.neverTicked (s : State) : Bool := s.tick == 0 && s.sched.start == 0 && s.fab.lastSync == 0

/-- The boundary of tick n: the sum of the periods of the ticks before it (R429), from tick pos with a period of cur µs and
the changes that follow. -/
def boundaryFrom : List (Nat × Nat) → Nat → Nat → Nat → Nat
  | [], pos, cur, n => (n - pos) * cur * 1000
  | (t, c) :: l, pos, cur, n =>
    if n ≤ t then (n - pos) * cur * 1000 else (t - pos) * cur * 1000 + boundaryFrom l t c n

/-- The boundary of tick n under a period history: the period of tick 0 is the cold value of TSQ_PERIOD.CUR, 10 µs (R328). -/
def boundaryOf (history : List (Nat × Nat)) (n : Nat) : Nat := boundaryFrom history 0 10 n

/-- A joining device takes time, tick number and period history of the time master (R430). -/
def State.joinTime (s : State) (time : Word) (tick : Nat) (history : List (Nat × Nat)) : State :=
  let s := s.modSched fun k => { k with start := boundaryOf history tick, history := history }
  let s := (s.wr .fabTime time).wf .tsqTick 47 0 tick
  match history.getLast? with
  | none => s
  | some (at_, n) =>
    let cur := ((history.filter fun p => p.1 ≤ tick).getLast?.map (·.2)).getD 10
    let s := ((s.wf .tsqPeriod 63 56 cur).wf .tsqPeriod 55 48 n).wf .tsqPeriod 47 0 at_
    s.wf .tsqExw 31 0 s.exw

/-- TIME_SYNC (R304, R305, R429, R430): the offset that this device measures, in ns. A device that has not had a pulse takes
time, tick and period history, which the model carries in this message (DESIGN CHOICE, log 94). -/
def execTimeSync (time : BitVec 64) (tick : BitVec 48) (d : SyncData) (s : State) : Out :=
  let s0 : State := if s.neverTicked then s.joinTime time tick.toNat d.history else s
  let s1 := (s0.wf .fabRole 15 0 d.offset.toNat).modFab fun f => { f with lastSync := s0.now }
  .next (if d.offset.toInt.natAbs ≤ 50 then s1.modFab fun f => { f with syncOk := true } else s1.syncLost)

/-- TIME_SYNC_TIMEOUT (R430). -/
def execTimeSyncTimeout (s : State) : Out := .next s.syncLost

/-! Heartbeat and lease. -/

/-- HEARTBEAT (R432, R435, R437): from the device src. -/
def execHeartbeat (src : Fin 4096) (mseq : BitVec 32) (fawn : Bool) (s : State) : Out :=
  .next (if !s.hasPartner || src.val ≠ s.partnerId then s
  else
    let (s, first) := s.firstCopy src 5 mseq.toNat
    if !first then s
    else (s.wf .fabLease 47 0 s.now).modFab fun f => { f with hbSeen := true, hbMiss := 0, ptnFawn := fawn })

/-- HEARTBEAT_MISSED (R434): the second in a row; the device asks the witness for a takeover. -/
def execHeartbeatMissed (s : State) : Out :=
  .next (if s.fab.hbMiss < 2 || s.fab.asked || s.rf .fabLease 63 61 ≠ 1 then s
  else
    let (s, q) := s.takeSeq 6
    ((s.send s.witnessId false true (.lease q .takeoverReq s.tick s.partnerId (s.rf .fabLease 47 0))).modFab
      fun f => { f with asked := true }).wf .fabLease 63 61 2)

/-- The first copy of a LEASE, or of a HANDOVER message (R422, R427). -/
def State.leaseCopy (s : State) (m : Sender) : State × Bool := s.firstCopy m.src 6 m.mseq.toNat
def State.handCopy (s : State) (m : Sender) : State × Bool := s.firstCopy m.src 7 m.mseq.toNat

/-- What a witness has granted for a device, if its partner holds the grant (R434). -/
def State.deposed (s : State) (d : Nat) : Bool := s.fab.wit.any fun w => w.b == d && w.granted == some w.a

/-- LEASE_RENEW at the witness (R432, R434, R436): paired says that the witness has recorded the pair as PAIRED again
after OMI_PARTNER_RESTORE. -/
def execLeaseRenew (m : Sender) (paired : Bool) (s : State) : Out :=
  let src := m.src
  let (s, first) := s.leaseCopy m
  let s := if paired then
      s.modFab fun f => { f with wit := f.wit.filter fun (w : WitPair) => w.a != src.val && w.b != src.val }
    else s
  let (s1, q) := s.takeSeq 6
  .next (if first then s1.send src false true (.lease q (if s.deposed src then .denied else .ok) s.tick src 0) else s)

/-- LEASE_TAKEOVER_REQ at the witness (R434): src asks to take over subject; rival says that the subject's own request
arrives within 1 µs. -/
def execLeaseTakeoverReq (m : Sender) (subject : Fin 4096) (lasthb : BitVec 64) (rival : Bool) (s : State) : Out :=
  let src := m.src
  let (s, first) := s.leaseCopy m
  let held := s.deposed src
  let grant := !held && (!rival || decide (src.val < subject.val))
  let (s1, q) := s.takeSeq 6
  let s2 := s1.send src false true (.lease q (if grant then .grant else .denied) s.tick subject lasthb.toNat)
  .next (if !first then s
  else if grant && !s.deposed subject then
    s2.modFab fun f => { f with wit := f.wit ++ [⟨src, subject, some src, s.now⟩] } else s2)

/-- LEASE_OK (R432). -/
def execLeaseOk (m : Sender) (s : State) : Out :=
  let (u, first) := s.leaseCopy m
  .next (if s.hasPartner && m.src.val == s.witnessId && first then
    ((u.modFab fun f => { f with okSeen := true }).wf .fabLease 59 56 0).wf .intStatus 4 4 0 else s)

/-- WITNESS_TIMEOUT (R432). -/
def execWitnessTimeout (s : State) : Out :=
  .next (if s.rf .fabLease 59 56 ≥ 3 then s.wf .intStatus 4 4 1 else s)

/-- LEASE_GRANT (R434). -/
def execLeaseGrant (m : Sender) (s : State) : Out :=
  let (u, first) := s.leaseCopy m
  .next (if s.hasPartner && m.src.val == s.witnessId && s.fab.asked && first then u.modFab fun f => { f with granted := some true } else s)

/-- LEASE_DENIED (R434, R435). -/
def execLeaseDenied (m : Sender) (s : State) : Out :=
  let (u, first) := s.leaseCopy m
  .next (if s.hasPartner && m.src.val == s.witnessId && s.fab.granted != some true && first then
    (u.modFab fun f => { f with granted := some false }).alarm sgLEASE_DENIED s.locDevice (detBytes 2 s.partnerId) else s)

/-- LEASE_EXPIRY (R356, R435): at h + 3T without the lease: accepting and releasing stop, and the runs abort. -/
def execLeaseExpiry (s : State) : Out :=
  .next (if s.fab.granted == some false || (s.fab.asked && s.fab.granted == none) then
    (s.wf .fabLease 63 61 4).abortNow s.inTickRuns false else s)

/-! Handover. -/

/-- HANDOVER_REQ at the partner (R436). -/
def execHandoverReq (src : Fin 4096) (mseq : BitVec 32) (s : State) : Out :=
  .next (if !s.hasPartner || src.val ≠ s.partnerId then s
  else
    let (s, first) := s.firstCopy src 7 mseq.toNat
    if !first then s
    else
      let no := if s.fawn then 1 else if s.fab.asked then 2 else 0
      let (s, q) := s.takeSeq 7
      let s := s.send src false true (.handover q (if no = 0 then .ack else .refused) s.tick (s.rf .tsqSealed 47 0) 0 no)
      if no = 0 then s.modFab fun f => { f with handTaken := true } else s)

/-- HANDOVER_SEND (R411, R436). -/
def execHandoverSend (s : State) : Out := .next (if s.rf .fmuStatus 61 60 = 2 then s.handoverReq else s)

/-- HANDOVER_ACK (R411, R412): the partner has custody. -/
def execHandoverAck (m : Sender) (s : State) : Out :=
  let (u, first) := s.handCopy m
  .next (if s.fab.handSent && m.src.val == s.partnerId && first then
    (u.modFab fun f => { f with handAck := true, handSent := false }).wf .fmuStatus 61 60 2 else s)

/-- HANDOVER_REFUSED (R412): custody has not passed, so the pair is PAIRED as before (R414). -/
def execHandoverRefused (m : Sender) (s : State) : Out :=
  let (u, first) := s.handCopy m
  .next (if s.fab.handSent && m.src.val == s.partnerId && first then
    ((u.modFab fun f => { f with handSent := false }).wf .fmuStatus 61 60 3).wf .fabLease 63 61 1 else s)

end Sys2Proof.Machine
end

