-- ==== Sys2Proof/Machine/RegCmd.lean ====
section
/-!
DEFINITION. The rows that write or read control space (R7 to R10, R48, R51, R60, R194, R263, R306, R506 to R508).
-/
namespace Sys2Proof.Machine

/-- The number of a master of control space. A host function is none of them: its pages hold mailbox registers only
(R449). -/
def Master.num : Master → Nat
  | .core e => e
  | .mp => mMP
  | .dbg => mDBG
  | .host .. => 258

/-- An access to control space by a store or load of core e, for which the row stands (R53, R176, R239, R533): only from P0
in partition 0, and not in tick-exact mode; elsewhere it raises TRANSLATION, and a bus error raises BUS_ERROR. The row names
no virtual address: CORE_LADDR takes a free one (log 87). The instruction's own row retires it. -/
def State.coreAccess (s : State) (e : Nat) (wr : Bool) (f : State → State × Bool) : State :=
  if !s.issuesNow e then s
  else
    let c := s.core e
    let fault (s : State) (c : Core) (vec detail : Nat) : State :=
      s.takeFree.takeExc e c ⟨vec, detail, some (Config.ctlVa s.free).toNat, wr, false, false⟩ c.pc
    if c.tx then fault s c vTRANSLATION 0
    else if fld (c.view s.free).tbase 63 54 ≠ 0 ∨ pPRIV c.cur.psw ≠ 0 then fault s c vTRANSLATION 3
    else
      let (s, ok) := f s
      if ok then s else fault s (s.core e) vBUS_ERROR 0

/-- A write by a master that reaches control space (R53): no host function does; debug only in a LAB session. One
that waits (R266) has no effect yet: its sender makes it again (log 134). -/
def State.mWrite (s : State) (m : Master) (off : Nat) (v : Word) : State :=
  if s.ctlHeld off v then s
  else match m with
  | .host .. => s
  | .dbg => if s.rf .dbgStatus 3 2 = 2 then (s.ctlWrite mDBG off v).1 else s
  | .core e => s.coreAccess e true fun s => s.ctlWrite e off v
  | .mp => (s.ctlWrite mMP off v).1

/-- DEV_ID_WRITE (R48): the management processor writes IDVALID and DEVID. -/
def execDevIdWrite (v : BitVec 64) (s : State) : Out := .next (s.ctlWrite mMP (Reg.offset .devId) v).1

/-- CSR_CONTROL_WRITE (R51, R54, R59, R60): CSR n of core e, and of every core of its unit. Control space holds the CSR
numbers below 0x2000. -/
def execCsrControlWrite (m : Master) (e : Fin 256) (n : BitVec 16) (v : BitVec 64) (s : State) : Out :=
  .next (if n.toNat < 0x2000 then s.mWrite m (csrOffset e n.toNat) v else s)

/-- CLU_SIGNAL_WRITE (R194): with GO = 1, for core k of cluster c. -/
def execCluSignalWrite (m : Master) (c : Fin 32) (k : Fin 8) (code : BitVec 8) (s : State) : Out :=
  .next (s.mWrite m (Reg.offset (.cluSignal c k)) (setFld (setBit 0 63 true) 23 16 code.toNat))

/-- The value of a KEY_FKSET write (R263). -/
def fksetWord (frame : Nat) (query inv fp : Bool) (key : Nat) : Word :=
  setFld (setFld (setFld (setFld (setFld 0 51 12 frame) 11 11 (b2n query)) 9 9 (b2n inv)) 8 8 (b2n fp)) 7 0 key

/-- KEY_FKSET_SET (R263): QUERY 0 and INV 0. -/
def execKeyFksetSet (m : Master) (frame : BitVec 40) (fp : Bool) (key : BitVec 8) (s : State) : Out :=
  .next (s.mWrite m (Reg.offset .keyFkset) (fksetWord frame.toNat false false fp key.toNat))

/-- KEY_FKSET_QUERY (R263). -/
def execKeyFksetQuery (m : Master) (frame : BitVec 40) (s : State) : Out :=
  .next (s.mWrite m (Reg.offset .keyFkset) (fksetWord frame.toNat true false false 0))

/-- KEY_FKSET_INVALIDATE (R263, R266): INV 1. -/
def execKeyFksetInvalidate (m : Master) (frame : BitVec 40) (fp : Bool) (key : BitVec 8) (s : State) : Out :=
  .next (s.mWrite m (Reg.offset .keyFkset) (fksetWord frame.toNat false true fp key.toNat))

/-- TSQ_PERIOD_WRITE (R306): the management processor writes NEXT and AT. -/
def execTsqPeriodWrite (nxt : BitVec 8) (tick : BitVec 48) (s : State) : Out :=
  .next (s.ctlWrite mMP (Reg.offset .tsqPeriod) (setFld (setFld 0 55 48 nxt.toNat) 47 0 tick.toNat)).1

/-- RST_CTL_COLD (R506). -/
def execRstCtlCold (s : State) : Out := .next (s.ctlWrite mMP (Reg.offset .rstCtl) 1).1

/-- RST_CTL_WARM (R506, R509). -/
def execRstCtlWarm (s : State) : Out := .next (s.ctlWrite mMP (Reg.offset .rstCtl) 2).1

/-- RST_PART_GO (R508). -/
def execRstPartGo (m : Master) (part : Fin 1024) (s : State) : Out :=
  .next (s.mWrite m (Reg.offset .rstPart) (setFld (setBit 0 63 true) 9 0 part))

end Sys2Proof.Machine
end

