-- ==== Sys2Proof/Machine/Debug.lean ====
section
/-!
DEFINITION. The debug domain (chapter 18): sessions (R469 to R473), the TAP (R474, R475), the debug window (R476), run
control (R477 to R481), the memory access master (R482), and the reads of the trace buffer (R488).
-/
namespace Sys2Proof.Machine

/-! Sessions. -/

/-- The number that the words of DBG_SIG spell: r, then s (R471). -/
def State.sigNumber (s : State) : Nat := (List.range 12).foldl (fun a i => a * 2 ^ 64 + (s.rd (.dbgSig i)).toNat) 0

/-- The 59 bytes that the debugger signs, as a number (R471). -/
def State.challenge (s : State) (level index bar4 : Nat) : Nat :=
  let n := (List.range 6).foldl (fun a i => a * 2 ^ 64 + (s.rd (.dbgNonce i)).toNat) 0
  ((((n * 2 ^ 64 + s.fuses.serial.toNat) * 256 + level) * 256 + index) * 256 + bar4)

/-- A GO (R470 to R472): the signature verifies against an enrolled credential of a KIND that LEVEL takes. -/
def State.authGo (s : State) (level index : Nat) (bar4 : Bool) : State :=
  if bit (s.rd .dbgStatus) 6 || !s.dbg.powered then s
  else
    let ks := (s.dbg.creds.getD []).filter fun c => c.index == index && (c.kind == 4 || (c.kind == 3 && level == 1))
    let ok := (level == 1 || level == 2) && index < 4 &&
      ks.any fun c => Config.ecdsaVerify c.key (s.challenge level index (b2n bar4)) s.sigNumber
    let s1 : State := if ok then
        ((((s.wf .dbgStatus 3 2 level).wf .dbgStatus 4 4 (b2n bar4)).wf .dbgStatus 5 5 0).wf .dbgStatus 1 0 0).alarm
          sgDBG_SESSION_OPEN (s.locElement elDBG) (detBytes 2 (level * 256 + index))
      else
        let n := satAdd 2 (s.rf .dbgStatus 1 0) 1
        (((s.wf .dbgStatus 5 5 1).wf .dbgStatus 1 0 n).wf .dbgStatus 6 6 (b2n (n == 3))).alarm
          sgDBG_AUTH_FAIL (s.locElement elDBG) 0
    s1.freshNonce

/-- DBG_AUTHCMD_GO (R471, R472), through the TAP. -/
def execDbgAuthcmdGo (level : Fin 4) (index : Fin 64) (bar4 : Bool) (s : State) : Out := .next (s.authGo level index bar4)

/-- DBG_AUTHCMD_CLOSE (R473). -/
def execDbgAuthcmdClose (s : State) : Out := .next s.closeSession

/-- DBG_SESSION_TIMEOUT (R473): 600 s without an access, as the command asserts. -/
def execDbgSessionTimeout (s : State) : Out := .next s.closeSession

/-- DBG_LOCK_EXPIRY (R472): the 60 s have passed, as the command asserts. -/
def execDbgLockExpiry (s : State) : Out := .next (s.wf .dbgStatus 6 6 0)

/-! Run control. -/

/-- Halt cluster c (R389, R479, R481). What its cores wait for in posting units is cancelled, and a core without a context
issues the instruction again when its clocks run; a reply from another device waits until then (DESIGN CHOICE, log 126). -/
def State.haltSet (s : State) (c : Nat) : State :=
  if !s.clusterOn c || s.cluInReset.contains c || s.halted c then s.wf .dbgStatus 7 7 1
  else
    let sls := s.usedSlots c
    let s := (List.range 8).foldl (fun (s : State) i => s.trcSleep (c * 8 + i) 0x0F) s
    let s := sls.foldl (fun (s : State) sl =>
      ((s.loseRuns c sl).setSlotState c sl slHELD).wf (.chkStatus c) (32 + sl) (32 + sl) 1) s
    let es := (List.range 8).map (c * 8 + ·)
    let s := es.foldl (fun (s : State) e => if (s.core e).act == .reply && !s.fab.waits.any (fun p => p.2.core == e)
      then s.modCore e fun k => { k with act := .run } else s) (s.cancelReqs es)
    let s := (s.wf .dbgHalt c c 1).wf .dbgHalt (32 + c) (32 + c) 1
    (s.alarm sgDBG_HALT (s.locCluster c) 0).refreshStatus

/-- Restart the clocks of cluster c (R479, R487). -/
def State.haltRelease (s : State) (c : Nat) : State :=
  if !s.halted c then s.wf .dbgHalt c c 0
  else
    let s := (s.wf .dbgHalt c c 0).wf .dbgHalt (32 + c) (32 + c) 0
    let s := s.modDbg fun d => { d with step := d.step.filter fun p => p.1 / 8 != c }
    let s := (List.range 8).foldl (fun (s : State) i => s.trcWake (c * 8 + i) (s.core (c * 8 + i)).pc) s
    (s.fab.waits.filterMap fun p => if p.2.core / 8 = c then p.2.held else none).foldl State.rreply s

/-- DBG_HALT_SET (R470, R479): a LAB write; any other leaves the DBG field alone (R9). -/
def execDbgHaltSet (c : Fin 32) (s : State) : Out :=
  .next (if s.session = 2 then s.haltSet c else s.regWrite .dbgHalt mMP (setBit (s.rd .dbgHalt) c true))

/-- DBG_HALT_RELEASE (R479). -/
def execDbgHaltRelease (c : Fin 32) (s : State) : Out :=
  .next (if s.session = 2 then s.haltRelease c else s.regWrite .dbgHalt mMP (setBit (s.rd .dbgHalt) c false))

/-- A write of DBG_STEP with GO (R480): the core's next instruction runs, and it stops. -/
def State.stepGo (s : State) (e : Nat) (int : Bool) : State :=
  let s := s.wr .dbgStep (setBit (setFld 0 7 0 e) 8 int)
  let st := s.coreState e
  if !s.clusterOn (e / 8) || st == csRETIRED || st == csSPARE then s.wf .dbgStep 11 11 1
  else if !s.halted (e / 8) then s
  else if (s.core e).act == .disp then s.endStep true
  else s.modDbg fun d => { d with step := some (e, int) }

/-- DBG_STEP_GO (R470, R480). -/
def execDbgStepGo (e : Fin 256) (int : Bool) (s : State) : Out :=
  .next (if s.session = 2 then s.stepGo e int else s.regWrite .dbgStep mMP (setBit (setFld 0 7 0 e) 8 int))

/-- A write of DBG_REQ (R477, R478, R490): DEBUG_REQUEST on the unit that holds the core of LOC. -/
def State.reqWrite (s : State) (loc code : Nat) : State :=
  if bit (s.rd .dbgReq) 63 then s
  else
    let s := (s.wf .dbgReq 39 8 loc).wf .dbgReq 7 0 code
    let l := Loc.of loc
    let e := l.coreDw
    let st := s.coreState e
    if l.depth ≠ 6 || !s.locValid loc || l.dev != s.devId || st == csRETIRED || st == csSPARE || (s.core e).c6 then
      s.wf .dbgReq 62 62 1
    else ((s.wf .dbgReq 63 63 1).modDbg fun d => { d with req := some e }).raise 5 code e

/-- DBG_REQ_WRITE (R470, R477, R478). -/
def execDbgReqWrite (loc : BitVec 32) (code : BitVec 8) (s : State) : Out :=
  .next (if s.session = 2 then s.reqWrite loc.toNat code.toNat
  else s.regWrite .dbgReq mMP (setFld (setFld 0 39 8 loc.toNat) 7 0 code.toNat))

/-! The memory access master. -/

/-- Bytes of the idempotency tables (R45, R335): the own table, then the replica of the partner's. -/
def State.idemBytes (s : State) (o : Nat) : List Byte :=
  let n := o / 32 % 2 ^ 26
  let x := sget Idem.free (if o < 2 ^ 31 then s.idem else s.idemPtn) n
  toBytes 16 x.key ++ toBytes 4 x.check ++ toBytes 2 (x.st * 2 ^ 14 + x.queue % 4096) ++ toBytes 10 x.okey

/-- A word that the memory access master reads (R482); none is a bus error. -/
def State.maWord (s : State) (pa : Nat) : State × Option TWord :=
  match s.area pa with
  | .control =>
    match s.ctlRead mDBG (pa % 2 ^ 48) with
    | (s, some w) => (s, some ⟨w, tRAW⟩)
    | (s, none) => (s, none)
  | .nowhere => (s, none)
  | .carveout =>
    let o := pa - s.layout.d
    if o < 2 ^ 32 then (s, some ⟨BitVec.ofNat 64 (bytesAt (s.idemBytes o) (o % 32) 8), tRAW⟩)
    else (s.takeFree, some ⟨Config.shadowRead s.free pa, tRAW⟩)
  | _ => (s, some (s.committed pa))

/-- A read by the memory access master (R482): DONE, with the data and its tag, or ERR. -/
def State.maRead (s : State) (pa : Nat) : State :=
  let s := (s.wr .dbgMaaddr (BitVec.ofNat 64 pa)).wr .dbgMactl 0
  match s.maWord pa with
  | (s, some v) => ((s.wr .dbgMadata v.val).wf .dbgMactl 61 61 1).wf .dbgMactl 3 0 v.tag.toNat
  | (s, none) => s.wf .dbgMactl 60 60 1

/-- A write by the memory access master (R482). -/
def State.maWrite (s : State) (pa : Nat) (v : TWord) (ctl : State → Nat → Word → State × Bool) : State :=
  let s := ((s.wr .dbgMaaddr (BitVec.ofNat 64 pa)).wr .dbgMadata v.val).wr .dbgMactl (setBit (setFld 0 3 0 v.tag.toNat) 62 true)
  match s.area pa with
  | .control =>
    match ctl s (pa % 2 ^ 48) v.val with
    | (s, true) => (s.wf .dbgMactl 61 61 1).event sgDBG_MEM_WRITE (s.locElement elDBG) 0
    | (s, false) => s.wf .dbgMactl 60 60 1
  | .own =>
    if s.pcBit pa then s.wf .dbgMactl 60 60 1
    else ((s.storeWord pa v).wf .dbgMactl 61 61 1).event sgDBG_MEM_WRITE (s.locElement elDBG) 0
  | .unmirrored => ((s.storeWord pa v).wf .dbgMactl 61 61 1).event sgDBG_MEM_WRITE (s.locElement elDBG) 0
  | _ => s.wf .dbgMactl 60 60 1

/-- DBG_MA_READ (R470, R482): word address of the access. Without a session the writes of DBG_MAADDR and DBG_MACTL leave
their DBG fields alone (R9). -/
def execDbgMaRead (word : BitVec 49) (s : State) : Out :=
  .next (if s.session ≥ 1 then s.maRead (word.toNat * 8)
  else (s.regWrite .dbgMaaddr mMP (BitVec.ofNat 64 (word.toNat * 8))).regWrite .dbgMactl mMP 0)

/-! The debug window. -/

/-- Tracing stops in clusters whose EN bit is 0: a source starts again with a SYNC (R486). -/
def State.trcStopOff (s : State) : State :=
  { s with trc := { s.trc with srcs := s.trc.srcs.filter fun p => bit (s.rd .trcCtl) (p.1 / 8) } }

/-- A write to a register of the DBG and TRC block by the debug domain (R9, R470, R471, R490); tap: through the TAP. In an
OBSERVE session, which may read through the memory access master, a write of DBG_MAADDR and one of DBG_MACTL with WR = 0
take effect and are not recorded, GO or not (DESIGN CHOICE, log 50). -/
def State.dbgWrite (tap : Bool) (s : State) (r : Reg) (v : Word) : State :=
  let lab := s.session == 2
  let obs := s.session ≥ 1
  match r with
  | .dbgAuthcmd =>
    if !tap && !obs then s
    else
      let s := if bit v 11 then s.closeSession else s
      if bit v 10 && tap then s.authGo (fld v 1 0) (fld v 7 2) (bit v 9) else s
  | .dbgSig i => if tap then s.wr (.dbgSig i) v else s
  | .trcCtl => if obs then (s.regWrite .trcCtl mDBG v).trcStopOff else s.regWrite .trcCtl mMP v
  | .dbgMaaddr => s.regWrite .dbgMaaddr (if obs then mDBG else mMP) v
  | .dbgMactl =>
    if !(lab || (obs && !bit v 62)) then s.regWrite .dbgMactl mMP v
    else if !bit v 63 then s.regWrite .dbgMactl mDBG v
    else if bit v 62 then
      s.maWrite (fld (s.rd .dbgMaaddr) 51 3 * 8) ⟨s.rd .dbgMadata, BitVec.ofNat 4 (fld v 3 0)⟩ fun s o w => s.ctlWrite mDBG o w
    else s.maRead (fld (s.rd .dbgMaaddr) 51 3 * 8)
  | r =>
    if !lab then s.regWrite r mMP v
    else match r with
    | .dbgHalt =>
      (List.range 32).foldl (fun (s : State) c =>
        let old := bit (s.rd .dbgHalt) c
        if bit v c then s.haltSet c else if old then s.haltRelease c else s) s
    | .dbgStep => if bit v 63 then s.stepGo (fld v 7 0) (bit v 8) else s.regWrite .dbgStep mDBG v
    | .dbgReq => (if bit v 62 then s.wf .dbgReq 62 62 0 else s).reqWrite (fld v 39 8) (fld v 7 0)
    | r => s.regWrite r mDBG v

/-- A write of the memory access master to control space (R482): the DBG and TRC block as through the window. -/
def State.maCtl (s : State) (off : Nat) (v : Word) : State × Bool :=
  if 0x700000 ≤ off ∧ off < 0x800000 ∧ off % 8 = 0 then
    match CtlAddr.ofOffset mDBG off with
    | .reg r => (if r = .dbgMactl then s else s.dbgWrite false r v, true)
    | _ => (s, true)
  else s.ctlWrite mDBG off v

/-- DBG_MA_WRITE (R470, R482): word address, data and tag. Below LAB its writes of DBG_MAADDR, DBG_MADATA and DBG_MACTL do
what the session permits (R9). -/
def execDbgMaWrite (word : BitVec 49) (v : BitVec 64) (tag : BitVec 4) (s : State) : Out :=
  .next (if s.session = 2 then s.maWrite (word.toNat * 8) ⟨v, tag⟩ State.maCtl
  else ((s.dbgWrite false .dbgMaaddr (BitVec.ofNat 64 (word.toNat * 8))).dbgWrite false .dbgMadata v).dbgWrite false .dbgMactl
    (setBit (setBit (setFld 0 3 0 tag.toNat) 62 true) 63 true))

/-- A write at an offset of the debug window (R476). -/
def State.windowWrite (tap : Bool) (s : State) (off : Nat) (v : Word) : State :=
  if off ≥ 0x100000 then s
  else match CtlAddr.ofOffset mDBG (0x700000 + off) with
  | .reg r => s.dbgWrite tap r v
  | _ => s

/-- The authentication registers that the TAP reaches without a session (R470, R471). -/
def authReg : Reg → Bool
  | .dbgStatus => true
  | .dbgNonce _ => true
  | .dbgAuthcmd => true
  | .dbgSig _ => true
  | _ => false

/-- The offset names an authentication register. -/
def authOffset (o : Nat) : Bool :=
  o < 0x100000 && (match CtlAddr.ofOffset mDBG (0x700000 + o) with | .reg r => authReg r | _ => false)

/-- A read at an offset of the debug window (R470, R476, R488): the data, and whether it is permitted. -/
def State.windowRead (s : State) (off : Nat) : State × Word × Bool :=
  if 0x100000 ≤ off ∧ off < 0x900000 then
    if s.session ≥ 1 then (s.trcFree (off - 0x100000), s.trcWord (off - 0x100000), true) else (s, 0, false)
  else if off ≥ 0x900000 then (s, 0, s.session ≥ 1)
  else match CtlAddr.ofOffset mDBG (0x700000 + off) with
  | .reg r =>
    if s.session ≥ 1 || authReg r then
      match s.ctlRead mDBG (0x700000 + off) with
      | (s, some w) => (s, w, true)
      | (s, none) => (s, 0, false)
    else (s, 0, false)
  | _ => (s, 0, s.session ≥ 1)

/-- DBGACC (R474, R475): Update-DR of the DBGACC register. Without a session only the authentication registers answer;
any other access captures ERR (log 33). -/
def execDbgacc (go wr : Bool) (off : BitVec 24) (v : BitVec 64) (s : State) : Out :=
  let o := off.toNat
  .next (if !go || s.dbg.ir ≠ 0x10 || !s.dbg.powered then s
  else if o % 8 ≠ 0 then s.modDbg fun d => { d with done := true, err := true, data := 0 }
  else if wr then
    let ok := s.session ≥ 1 || authOffset o
    (if ok then s.windowWrite true o v else s).modDbg fun d => { d with done := true, err := !ok, data := 0 }
  else
    let (s, w, ok) := s.windowRead o
    s.modDbg fun d => { d with done := true, err := !ok, data := w })

/-- The condition of EXTEST, CLAMP and HIGHZ (R474). -/
def State.extestOk (s : State) : Bool :=
  s.session == 2 && fld s.intStatusWord 47 32 == 0 && bit s.intStatusWord 0

/-- The instruction that a code selects at Update-IR (R474): any code not listed, or one whose condition fails, is
BYPASS. -/
def State.tapCode (s : State) (code : Nat) : Nat :=
  if code = 1 ∨ code = 2 ∨ code = 0x10 then code
  else if code = 0 ∨ code = 3 ∨ code = 4 then (if s.extestOk then code else 0xFF)
  else 0xFF

/-- What the next Capture-DR reads where the spec gives it (R474, R475): IDCODE of the part, DONE, ERR and the data of
DBGACC, 0 of the bypass register. The boundary-scan register holds the pins, of which the spec gives no order. -/
def State.captureDr (s : State) : Option Nat :=
  match s.dbg.ir with
  | 0 | 2 => none
  | 1 => some (if s.fuses.big then 0x0960056B else 0x0940056B)
  | 0x10 => some (b2n s.dbg.done * 2 ^ 89 + b2n s.dbg.err * 2 ^ 88 + s.dbg.data.toNat)
  | _ => some 0

/-- TAP_UPDATE_IR (R474). -/
def execTapUpdateIr (code : BitVec 8) (s : State) : Out :=
  .next (if s.dbg.powered then s.modDbg fun d => { d with ir := s.tapCode code.toNat } else s)

/-- TRACE_BUFFER_READ (R476, R488): 8 bytes at an offset. -/
def execTraceBufferRead (off : BitVec 20) (s : State) : Out :=
  .next (if s.session ≥ 1 then s.trcFree (off.toNat * 8) else s)

/-! The domain's own reset. -/

/-- Every register of the debug domain at its cold value (R469, R490). -/
def State.dbgRegs (s : State) : State :=
  { s with regs := s.regs.filter fun p => match p.1 with
      | .dbgStatus | .dbgAuthcmd | .dbgHalt | .dbgStep | .dbgReq | .dbgMactl | .dbgMaaddr | .dbgMadata
      | .dbgNonce _ | .dbgSig _ | .dbgTomon _ | .dbgFrommon _ | .trcCtl | .trcStatus | .trcRdptr => false
      | _ => true }

/-- The session ends, halts are released and the trace buffer is cleared (R469, R479). -/
def State.dbgClear (s : State) : State :=
  let s := (List.range 32).foldl (fun (s : State) c => if s.halted c then s.haltRelease c else s) s.closeSession
  { s.dbgRegs with trc := Trc.cold }

/-- DEBUG_DOMAIN_RESET (R469): DBG_RST_N, or power-up of VDD_DBG. -/
def execDebugDomainReset (s : State) : Out :=
  .next ((s.dbgClear.modDbg fun _ => { Dbg.cold with powered := true }).freshNonce)

/-- VDD_DBG_LOSS (R469). -/
def execVddDbgLoss (s : State) : Out := .next (s.dbgClear.modDbg fun _ => Dbg.cold)

/-! Other registers. -/

/-- REGISTER_WRITE (R7 to R10, R53, R449, R467, R476): at a control-space offset, for a host function at an offset of the
BAR; the debug domain writes its window through BAR4. -/
def execRegisterWrite (m : Master) (off : BitVec 48) (v : BitVec 64) (s : State) : Out :=
  let o := off.toNat
  .next (match m with
  | .host f .bar0 size => s.bar0Write f size o v
  | .host f .bar2 size => s.bar2Write f size o
  | .host f .bar4 size => if f = 0 && size == 8 && o % 8 == 0 && bit (s.rd .dbgStatus) 4 then s.windowWrite false o v else s
  | .dbg =>
    if 0x700000 ≤ o ∧ o < 0x800000 ∧ o % 8 = 0 && bit (s.rd .dbgStatus) 4 then s.windowWrite false (o - 0x700000) v else s
  | m => s.mWrite m o v)

/-- REGISTER_READ_CLEAR (R8): a read at a control-space offset, or of a host function at an offset of the BAR (R449, R450, R451,
R476); the RC fields of the register are cleared. -/
def execRegisterReadClear (m : Master) (off : BitVec 48) (s : State) : Out :=
  let o := off.toNat
  .next (match m with
  | .host f .bar0 size => s.bar0Read f size o
  | .host f .bar2 size => s.bar2Read f size o
  | .host f .bar4 size =>
    if f = 0 && o % 8 == 0 && o < 2 ^ 24 && bit (s.rd .dbgStatus) 4 then
      let (s, w, _) := s.windowRead o
      s.toHost (.answer f ((toBytes 8 w.toNat).take size))
    else s.toHost (.answer f (toBytes size 0))
  | .dbg => if 0x700000 ≤ o ∧ o < 0x800000 && bit (s.rd .dbgStatus) 4 then (s.windowRead (o - 0x700000)).1 else s
  | .core e => s.coreAccess e false fun s => let (s, r) := s.ctlRead e o; (s, r.isSome)
  | .mp => (s.ctlRead mMP o).1)

end Sys2Proof.Machine
end

