-- ==== Sys2Proof/Machine/Decimal.lean ====
section
/-!
DEFINITION. Decimal field instructions (R92 to R106, R162) and their repetition (R116).
-/
namespace Sys2Proof.Machine

/-! Descriptors (R64, R92, R93). -/

/-- A field: its kind, its address and its length in bytes. -/
structure FDesc where
  kind : Nat
  addr : Nat
  len : Nat
  deriving DecidableEq, Repr

def kPACKED : Nat := 1
def kZONED : Nat := 2
def kCHAR : Nat := 3
def kTABLE : Nat := 4

/-- The field that a DESC word names (R64, R92). -/
def descOf (w : Word) : FDesc :=
  let kind := fld w 3 0
  ⟨kind, fld w 63 12, if kind = kTABLE then 256 else fld w 11 6 + 1⟩

/-- The bytes of a field from its address lie below 2^42 (R93). The exception names the first byte at or above 2^42, WR and
SPLIT2 being 0 (DESIGN CHOICE, log 104). -/
def needLimit (addr len : Nat) : Op Unit :=
  if addr + len > 2 ^ 42 then raiseA vTRANSLATION 1 (max addr (2 ^ 42)) false false else pure ()

/-- The kind, the reserved bits and the length of a DESC word, of the kinds that ok accepts (R93): operand is its code of
R189, at its address when it is a memory word. -/
def needKind (w : Word) (ok : Nat → Bool) (operand : Nat) (at_ : Option Nat) : Op FDesc := do
  let d := descOf w
  if !ok d.kind || fld w 5 4 != 0 || (d.kind != kTABLE && d.len > 32) then
    raiseExc ⟨vTAG_MISMATCH, tagDetail tDESC operand, at_, false, false, false⟩
  return d

/-- The checks of R93 on a DESC word. -/
def needDesc (w : Word) (ok : Nat → Bool) (operand : Nat) (at_ : Option Nat) : Op FDesc := do
  let d ← needKind w ok operand at_
  needLimit d.addr d.len
  return d

/-- The descriptor word at the effective address: steps 2 to 4 of R106. -/
def descAt (w x : Nat) : Op (Nat × Word) := do
  let ea ← formEa w (dispOf w x) 8 false
  let t ← loadWord ea
  if t.tag ≠ tDESC then raiseA vTAG_MISMATCH (tagDetail t.tag 8) ea false false
  return (ea, t.val)

/-- Steps 2 to 5 of R106 for the descriptor word at the effective address. -/
def descWord (w x : Nat) (ok : Nat → Bool) : Op FDesc := do
  let (ea, v) ← descAt w x
  needDesc v ok 8 (some ea)

/-! Values of fields. -/

/-- The byte of a field holds an invalid digit or sign (R94 to R96). -/
def badByte (kind len i : Nat) (b : Byte) : Bool :=
  let hi := b.toNat / 16
  let lo := b.toNat % 16
  if kind = kZONED then lo > 9 || (i + 1 == len && (signZoned hi).isNone)
  else hi > 9 || (if i + 1 = len then (signPacked lo).isNone else lo > 9)

/-- The first invalid byte of a field. -/
def badIndex (kind : Nat) (bs : List Byte) : Option Nat :=
  (List.range bs.length).find? fun i => badByte kind bs.length i (bs.getD i 0)

/-- The value of a valid field. -/
def fieldVal (kind : Nat) (bs : List Byte) : Int :=
  ((if kind = kZONED then zonedVal bs else packedVal bs)).getD 0

/-- The digit positions of a field (R94, R95). -/
def FDesc.digits (d : FDesc) : Nat := if d.kind = kZONED then d.len else 2 * d.len - 1

/-- A value in a field's preferred form, cut to its digit positions, with the sign of v (R97, R100). -/
def FDesc.encode (d : FDesc) (decctl : Word) (v : Int) : List Byte :=
  let plus := bit decctl 2
  if d.kind = kZONED then zonedOf plus d.len (decide (v < 0)) v.natAbs
  else packedOf plus d.len (decide (v < 0)) v.natAbs

/-- v fits the field (R102). -/
def FDesc.fits (d : FDesc) (v : Int) : Bool := v.natAbs < 10 ^ d.digits

/-- Splits of a field access (R150). -/
def FDesc.splits (d : FDesc) : Nat := Sys2Proof.Machine.splits d.addr d.len

/-! Checks 8 to 10 of R106. -/

/-- DECIMAL_DATA, or with DDM = 1 only PSW.DI := 1 (R99). The failing piece is that of byte i of the field
(R189, R262). -/
def badData (addr i : Nat) : Op Unit := do
  if bit (← cx).c.decctl 0 then setFlag 4 true
  else
    let p := max addr ((addr + i) / 8 * 8)
    raiseExc ⟨vDECIMAL_DATA, 0, some p, false, decide (p ≠ addr), false⟩

/-- Step 8 for fields in checking order: true when all are valid; false after a masked failure. -/
def validFields : List (FDesc × List Byte) → Op Bool
  | [] => return true
  | (d, bs) :: r => do
    match badIndex d.kind bs with
    | some i => badData d.addr i; return false
    | none => validFields r

/-- A result that does not fit: DECIMAL_OVERFLOW unless DOM = 1 (R100). -/
def overflow : Op Unit := do
  if bit (← cx).c.decctl 1 then pure () else raiseV vDECIMAL_OVERFLOW 0

/-- Write the result v to its checked destination, with the flags of R100 and R102. -/
def putResult (d : FDesc) (tg : List (Target × Nat)) (v : Int) : Op Unit := do
  if d.fits v then
    writePieces tg (d.encode (← cx).c.decctl v)
    flagsZNV (v == 0) (decide (v < 0)) false
  else
    overflow
    writePieces tg (d.encode (← cx).c.decctl v)
    flagsZNV (v.natAbs % 10 ^ d.digits == 0) (decide (v < 0)) true

/-! The instructions. -/

/-- The descriptors of an instruction with a field in ACC and a descriptor word: steps 1 to 5 of R106. -/
def twoDescs (w x k1 k2 : Nat) : Op (FDesc × FDesc) := do
  let a := (← curB).acc
  needTag a.tag (a.tag == tDESC) 0
  let d2 ← descWord w x (· == k2)
  let d1 ← needDesc a.val (· == k1) 0 none
  return (d1, d2)

/-- An instruction op1 := f op1 op2 on PACKED fields (R101, R106). -/
def decBinary (w x : Nat) (f : Int → Int → Int) (cost : Nat → Nat → Nat) : Op Unit := do
  let (d1, d2) ← twoDescs w x kPACKED kPACKED
  let b2 ← readField d2.addr d2.len
  let b1 ← readField d1.addr d1.len
  let tg ← checkField d1.addr d1.len
  if ← validFields [(d2, b2), (d1, b1)] then
    putResult d1 tg (f (fieldVal d1.kind b1) (fieldVal d2.kind b2))
  baseUpdate w 8
  done (cost d1.len d2.len + d2.splits + 2 * d1.splits)

/-- 6 + L1 + L2 (R162). -/
def costAdd (l1 l2 : Nat) : Nat := 6 + l1 + l2

/-- DADD (R101). -/
def execDadd (e : Fin 256) (w x : BitVec 32) (s : State) : Out :=
  .next (s.runIns e w.toNat (fmtOk .m w.toNat) (decBinary w.toNat x.toNat (· + ·) costAdd))

/-- DSUB (R101). -/
def execDsub (e : Fin 256) (w x : BitVec 32) (s : State) : Out :=
  .next (s.runIns e w.toNat (fmtOk .m w.toNat) (decBinary w.toNat x.toNat (· - ·) costAdd))

/-- DMUL (R101). -/
def execDmul (e : Fin 256) (w x : BitVec 32) (s : State) : Out :=
  .next (s.runIns e w.toNat (fmtOk .m w.toNat)
    (decBinary w.toNat x.toNat (· * ·) fun l1 l2 => 8 + 2 * l1 * l2))

/-- The quotient and remainder fields of DDIV, or its overflow (R100, R103). -/
def divResult (d1 d2 : FDesc) (tg : List (Target × Nat)) (v1 v2 : Int) : Op Unit := do
  let q := v1.tdiv v2
  let dq : FDesc := ⟨kPACKED, d1.addr, d1.len - d2.len⟩
  if d2.len < d1.len && dq.fits q then
    let ctl := (← cx).c.decctl
    writePieces tg (dq.encode ctl q ++ d2.encode ctl (v1.tmod v2))
    flagsZNV (q == 0) (decide (q < 0)) false
  else
    overflow
    setFlag 3 true

/-- DDIV (R101, R103). -/
def execDdiv (e : Fin 256) (w x : BitVec 32) (s : State) : Out :=
  .next (s.runIns e w.toNat (fmtOk .m w.toNat) do
    let (d1, d2) ← twoDescs w.toNat x.toNat kPACKED kPACKED
    let b2 ← readField d2.addr d2.len
    let b1 ← readField d1.addr d1.len
    let tg ← checkField d1.addr d1.len
    if ← validFields [(d2, b2), (d1, b1)] then
      let v2 := fieldVal d2.kind b2
      if v2 = 0 then raiseV vDIVIDE_BY_ZERO 0
      divResult d1 d2 tg (fieldVal d1.kind b1) v2
    baseUpdate w.toNat 8
    done (10 + 2 * d1.len * d2.len + 4 * d1.len + d2.splits + 2 * d1.splits))

/-- DCMP (R101, R102). -/
def execDcmp (e : Fin 256) (w x : BitVec 32) (s : State) : Out :=
  .next (s.runIns e w.toNat (fmtOk .m w.toNat) do
    let (d1, d2) ← twoDescs w.toNat x.toNat kPACKED kPACKED
    let b2 ← readField d2.addr d2.len
    let b1 ← readField d1.addr d1.len
    if ← validFields [(d2, b2), (d1, b1)] then
      let v1 := fieldVal d1.kind b1
      let v2 := fieldVal d2.kind b2
      flagsZNV (v1 == v2) (decide (v1 < v2)) false
    baseUpdate w.toNat 8
    done (costAdd d1.len d2.len + d2.splits + d1.splits))

/-- op1 := value of op2 (DSET, PACK, UNPK of R101). -/
def decCopy (w x k1 k2 : Nat) : Op Unit := do
  let (d1, d2) ← twoDescs w x k1 k2
  let b2 ← readField d2.addr d2.len
  let tg ← checkField d1.addr d1.len
  if ← validFields [(d2, b2)] then putResult d1 tg (fieldVal d2.kind b2)
  baseUpdate w 8
  done (costAdd d1.len d2.len + d2.splits + d1.splits)

/-- DSET (R101). -/
def execDset (e : Fin 256) (w x : BitVec 32) (s : State) : Out :=
  .next (s.runIns e w.toNat (fmtOk .m w.toNat) (decCopy w.toNat x.toNat kPACKED kPACKED))

/-- PACK (R101). -/
def execPack (e : Fin 256) (w x : BitVec 32) (s : State) : Out :=
  .next (s.runIns e w.toNat (fmtOk .m w.toNat) (decCopy w.toNat x.toNat kPACKED kZONED))

/-- UNPK (R101). -/
def execUnpk (e : Fin 256) (w x : BitVec 32) (s : State) : Out :=
  .next (s.runIns e w.toNat (fmtOk .m w.toNat) (decCopy w.toNat x.toNat kZONED kPACKED))

/-- The value that DSRP gives for the effective address ea (R104). -/
def srpVal (v : Int) (ea : Nat) : Int :=
  let s := sext 6 ea
  let r := ea / 256 % 16
  let m := v.natAbs
  let n := s.natAbs
  let m' := if s > 0 then m * 10 ^ n else if s < 0 then (m + r * 10 ^ (n - 1)) / 10 ^ n else m
  if v < 0 then -(m' : Int) else m'

/-- The rounding digit of DSRP fails the validity check (R104, R189, R99). -/
def badRounding : Op Unit := do
  if bit (← cx).c.decctl 0 then setFlag 4 true else raiseV vDECIMAL_DATA 1

/-- DSRP (R101, R104). An A-format instruction, it checks of its address the limit 2^42 alone (R147), where step 2 of R106
lists the tags of X1 and X2 and ML = 0 for every decimal field instruction (DESIGN CHOICE, log 117). -/
def execDsrp (e : Fin 256) (w x : BitVec 32) (s : State) : Out :=
  .next (s.runIns e w.toNat (fmtOk .a w.toNat) do
    let a := (← curB).acc
    needTag a.tag (a.tag == tDESC) 0
    let ea ← formA w.toNat (dispOf w.toNat x.toNat)
    let d ← needDesc a.val (· == kPACKED) 0 none
    let bs ← readField d.addr d.len
    let tg ← checkField d.addr d.len
    if ← validFields [(d, bs)] then
      if ea / 256 % 16 > 9 then badRounding else putResult d tg (srpVal (fieldVal d.kind bs) ea)
    done (6 + 2 * d.len + 2 * d.splits))

/-- DADJ (R101): op1 in preferred form. -/
def execDadj (e : Fin 256) (w _x : BitVec 32) (s : State) : Out :=
  .next (s.runIns e w.toNat (fmtOk .n w.toNat) do
    let a := (← curB).acc
    needTag a.tag (a.tag == tDESC) 0
    let d ← needDesc a.val (fun k => k == kPACKED || k == kZONED) 0 none
    let bs ← readField d.addr d.len
    let tg ← checkField d.addr d.len
    if ← validFields [(d, bs)] then putResult d tg (fieldVal d.kind bs)
    done (4 + d.len + 2 * d.splits))

/-- DCVB (R101, R105). -/
def execDcvb (e : Fin 256) (w x : BitVec 32) (s : State) : Out :=
  .next (s.runIns e w.toNat (fmtOk .m w.toNat) do
    let d ← descWord w.toNat x.toNat (· == kPACKED)
    let bs ← readField d.addr d.len
    if ← validFields [(d, bs)] then
      let v := fieldVal d.kind bs
      if -(2 ^ 127) ≤ v ∧ v < 2 ^ 127 then
        let p := BitVec.ofInt 128 v
        modB fun b => { b with aex := ⟨(p >>> 64).setWidth 64, tINT⟩, acc := ⟨p.setWidth 64, tINT⟩ }
        flagsZNV (v == 0) (decide (v < 0)) false
      else
        overflow
        setFlag 3 true
    baseUpdate w.toNat 8
    done (8 + 2 * d.len + d.splits))

/-- DCVD (R101, R105). -/
def execDcvd (e : Fin 256) (w x : BitVec 32) (s : State) : Out :=
  .next (s.runIns e w.toNat (fmtOk .m w.toNat) do
    let b ← curB
    needTag b.acc.tag (b.acc.tag == tINT) 0
    needTag b.aex.tag (b.aex.tag == tINT) 1
    let d ← descWord w.toNat x.toNat (· == kPACKED)
    let tg ← checkField d.addr d.len
    putResult d tg (sext 128 (b.aex.val.toNat * 2 ^ 64 + b.acc.val.toNat))
    baseUpdate w.toNat 8
    done (8 + 2 * d.len + d.splits))

/-! REP DADD and REP DSUB (R116). -/

/-- Steps 1 to 5 of R106 for one element of REP DADD or REP DSUB: the descriptors of op1 in ACC and of op2, whose address
is ignored (R116). The tag of ACC is checked before that of X1 (DESIGN CHOICE, log 105). -/
def repDescs (w x : Nat) : Op (FDesc × FDesc) := do
  let b ← curB
  needTag b.acc.tag (b.acc.tag == tDESC) 0
  needTag b.x1.tag (b.x1.tag == tPTR) 2
  let (ea, v) ← descAt w x
  let d2 ← needKind v (· == kPACKED) 8 (some ea)
  let d1 ← needDesc b.acc.val (· == kPACKED) 0 none
  return (d1, d2)

/-- One element of REP DADD or REP DSUB: a whole decimal operation on op1 and the field at X1 (R116). -/
def repDecElem (d1 d2 : FDesc) (isSub : Bool) : Op Unit := do
  let d : FDesc := ⟨d2.kind, (← curB).x1.val.toNat, d2.len⟩
  needLimit d.addr d.len
  let b2 ← readField d.addr d.len
  let b1 ← readField d1.addr d1.len
  let tg ← checkField d1.addr d1.len
  if ← validFields [(d, b2), (d1, b1)] then
    let v1 := fieldVal d1.kind b1
    let v2 := fieldVal d.kind b2
    let v := if isSub then v1 - v2 else v1 + v2
    if d1.fits v then writePieces tg (d1.encode (← cx).c.decctl v)
    else
      overflow
      writePieces tg (d1.encode (← cx).c.decctl v)
      setFlag 3 true
  addCost (costAdd d1.len d2.len + d.splits + 2 * d1.splits)
  modB fun b => { b with x1 := ⟨b.x1.val + BitVec.ofNat 64 d2.len, b.x1.tag⟩, cnt := b.cnt - 1 }

/-- n elements of REP DADD and REP DSUB, the first with the descriptors d1 and d2, every further one with those that its
own checks give (R106, R116). -/
def repDecLoop (w x : Nat) (isSub : Bool) : Nat → FDesc → FDesc → Op Unit
  | 0, _, _ => pure ()
  | n + 1, d1, d2 => do
    repDecElem d1 d2 isSub
    if n = 0 then pure ()
    else
      let (d1, d2) ← repDescs w x
      repDecLoop w x isSub n d1 d2

/-- Z and N from op1 at completion (R116); an op1 with an invalid digit or sign gives them free values. -/
def repDecFlags (d1 : FDesc) : Op Unit := do
  let bs ← readField d1.addr d1.len
  match badIndex d1.kind bs with
  | none => let v := fieldVal d1.kind bs; flagsZN (v == 0) (decide (v < 0))
  | some _ =>
    let f := Config.repFlags (← cx).s.free
    flagsZN (f.getLsbD 0) (f.getLsbD 1)

/-- REP DADD and REP DSUB (R115, R116, R162): the prefixed instruction w with extension x. With CNT = 0 no
element is performed, no field is accessed and the flags keep their values (R110). A base register that is also X1
receives its value at the start, less 8, at completion (R77). -/
def repDecimal (w x : Nat) (isSub : Bool) : Op Unit := do
  let b0 ← curB
  let (d1, d2) ← repDescs w x
  let n := b0.cnt.toNat
  let k ← limited n
  repDecLoop w x isSub k d1 d2
  if k < n then pause
  if n ≠ 0 then repDecFlags d1
  baseUpdateFrom w 8 b0
  done 4

end Sys2Proof.Machine
end

