-- ==== Sys2Proof/Machine/FloatVal.lean ====
section
/-!
DEFINITION. Floating-point values: the four formats and their encodings (R125, R126, R136, R137), exact
rounding (R128, R131) and the exact results of the operations (R127, R136, R137).
-/
namespace Sys2Proof.Machine

/-- A floating-point value: c × radix^q for a number (c = 0: a zero, with its exponent in the decimal formats). -/
inductive FV where
  | nan (neg sig : Bool) (payload : Nat)
  | inf (neg : Bool)
  | num (neg : Bool) (c : Nat) (q : Int)
  deriving DecidableEq, Repr

/-- A format (R125): radix, precision and exponent range. -/
structure FFmt where
  radix : Nat
  p : Nat
  emin : Int
  emax : Int
  deriving DecidableEq, Repr

/-- The exponent of the smallest subnormal. -/
def FFmt.qmin (F : FFmt) : Int := F.emin - (F.p - 1 : Nat)
/-- The largest exponent of a p-digit coefficient (R126). -/
def FFmt.qmax (F : FFmt) : Int := F.emax - (F.p - 1 : Nat)

/-- The format of code f of R171: .B32, .B64, .D64, .D128. -/
def FFmt.of (f : Nat) : FFmt :=
  match f with
  | 0 => ⟨2, 24, -126, 127⟩
  | 1 => ⟨2, 53, -1022, 1023⟩
  | 2 => ⟨10, 16, -383, 384⟩
  | _ => ⟨10, 34, -6143, 6144⟩

/-- The format is binary. -/
def isBin (f : Nat) : Bool := f < 2

/-! Encodings. -/

/-- The value of a binary encoding with ew exponent bits and sw fraction bits. -/
def binDecode (ew sw : Nat) (F : FFmt) (v : Nat) : FV :=
  let neg := v / 2 ^ (ew + sw) % 2 == 1
  let ex := v / 2 ^ sw % 2 ^ ew
  let fr := v % 2 ^ sw
  if ex = 2 ^ ew - 1 then
    if fr = 0 then .inf neg else .nan neg (fr / 2 ^ (sw - 1) == 0) (fr % 2 ^ (sw - 1))
  else if ex = 0 then .num neg fr F.qmin
  else .num neg (2 ^ sw + fr) (F.qmin + (ex - 1 : Nat))

/-- The binary encoding of a value whose coefficient has p bits or whose exponent is qmin. -/
def binEncode (ew sw : Nat) (F : FFmt) (v : FV) : Nat :=
  let s (neg : Bool) : Nat := b2n neg * 2 ^ (ew + sw)
  match v with
  | .inf neg => s neg + (2 ^ ew - 1) * 2 ^ sw
  | .nan neg sig pay => s neg + (2 ^ ew - 1) * 2 ^ sw + b2n (!sig) * 2 ^ (sw - 1) + pay % 2 ^ (sw - 1)
  | .num neg c q => if c < 2 ^ sw then s neg + c else s neg + ((q - F.qmin).toNat + 1) * 2 ^ sw + (c - 2 ^ sw)

/-- The value of a BID encoding of w bits with xw exponent bits (R125, R126): a coefficient above 10^p − 1
reads as zero, a payload that is not canonical as 0. -/
def bidDecode (w xw : Nat) (F : FFmt) (v : Nat) : FV :=
  let neg := v / 2 ^ (w - 1) % 2 == 1
  let top := v / 2 ^ (w - 6) % 32
  let cw := w - 1 - xw
  if top = 31 then
    let pay := v % 2 ^ (cw - 3)
    .nan neg (v / 2 ^ (w - 7) % 2 == 1) (if pay < 10 ^ (F.p - 1) then pay else 0)
  else if top = 30 then .inf neg
  else
    let (ex, c) := if top / 8 = 3 then (v / 2 ^ (cw - 2) % 2 ^ xw, 2 ^ cw + v % 2 ^ (cw - 2))
      else (v / 2 ^ cw % 2 ^ xw, v % 2 ^ cw)
    .num neg (if c < 10 ^ F.p then c else 0) (F.qmin + (ex : Nat))

/-- The canonical BID encoding (R126). -/
def bidEncode (w xw : Nat) (F : FFmt) (v : FV) : Nat :=
  let s (neg : Bool) : Nat := b2n neg * 2 ^ (w - 1)
  let cw := w - 1 - xw
  match v with
  | .inf neg => s neg + 30 * 2 ^ (w - 6)
  | .nan neg sig pay => s neg + 31 * 2 ^ (w - 6) + b2n sig * 2 ^ (w - 7) + pay % 2 ^ (cw - 3)
  | .num neg c q =>
    let ex := (q - F.qmin).toNat
    if c < 2 ^ cw then s neg + ex * 2 ^ cw + c
    else s neg + 3 * 2 ^ (w - 3) + ex * 2 ^ (cw - 2) + (c - 2 ^ cw)

/-- The value that a word of format f spells. -/
def fpDecode (f v : Nat) : FV :=
  match f with
  | 0 => binDecode 8 23 (FFmt.of 0) (v % 2 ^ 32)
  | 1 => binDecode 11 52 (FFmt.of 1) v
  | 2 => bidDecode 64 10 (FFmt.of 2) v
  | _ => bidDecode 128 14 (FFmt.of 3) v

/-- The encoding of a value in format f. -/
def fpEncode (f : Nat) (v : FV) : Nat :=
  match f with
  | 0 => binEncode 8 23 (FFmt.of 0) v
  | 1 => binEncode 11 52 (FFmt.of 1) v
  | 2 => bidEncode 64 10 (FFmt.of 2) v
  | _ => bidEncode 128 14 (FFmt.of 3) v

/-- The value is a NaN. -/
def FV.isNan : FV → Bool | .nan _ _ _ => true | _ => false
/-- The value is a signalling NaN. -/
def FV.isSig : FV → Bool | .nan _ s _ => s | _ => false
/-- The value is a subnormal number of format F: below the smallest normal number. -/
def FV.isSub (F : FFmt) : FV → Bool
  | .num _ c q => c != 0 && q == F.qmin && c < F.radix ^ (F.p - 1)
  | _ => false
/-- The sign. -/
def FV.neg : FV → Bool | .nan n _ _ => n | .inf n => n | .num n _ _ => n
/-- The value is a zero. -/
def FV.isZero : FV → Bool | .num _ c _ => c == 0 | _ => false

/-- The default NaN (R137). -/
def FV.default : FV := .nan false false 0

/-! Rounding (R128). -/

/-- Digits of n in radix r, in at most fuel rounds. -/
def ndigitsAux (r : Nat) : Nat → Nat → Nat
  | 0, _ => 0
  | f + 1, n => if n = 0 then 0 else 1 + ndigitsAux r f (n / r)

/-- The number of digits of n in radix r (0 for 0). -/
def ndigits (r n : Nat) : Nat := ndigitsAux r (n.log2 + 1) n

/-- N / D × r^E in units of r^q, as a fraction. -/
def scaled (r N D : Nat) (E q : Int) : Nat × Nat :=
  if E ≥ q then (N * r ^ (E - q).toNat, D) else (N, D * r ^ (q - E).toNat)

/-- Round a fraction n / d of the given sign to an integer under RM; whether it was inexact (R128). -/
def roundFrac (rm : Nat) (neg : Bool) (n d : Nat) : Nat × Bool :=
  let fl := n / d
  let r := n % d
  let up := match rm with
    | 0 => decide (2 * r > d) || (2 * r == d && fl % 2 == 1)
    | 1 => false
    | 2 => !neg && r != 0
    | 3 => neg && r != 0
    | _ => decide (2 * r ≥ d)
  (fl + b2n (up && r != 0), r != 0)

/-- Round N / D × r^E to a coefficient in units of r^q. -/
def roundAt (r rm : Nat) (neg : Bool) (N D : Nat) (E q : Int) : Nat × Bool :=
  let (n, d) := scaled r N D E q
  roundFrac rm neg n d

/-- The least exponent at which N / D × r^E has at most p integer digits. -/
def leastExp (r p N D : Nat) (E : Int) : Int :=
  let q := (ndigits r N : Int) - (ndigits r D : Int) + E - (p : Int)
  let (n, d) := scaled r N D E q
  if n / d ≥ r ^ p then q + 1 else q

/-- Bring a coefficient of r^p back to p digits. -/
def carryFix (r p c : Nat) (q : Int) : Nat × Int := if c ≥ r ^ p then (c / r, q + 1) else (c, q)

/-- Raise the exponent of an exact decimal result towards the preferred one (R126). -/
def towards (ideal : Int) : Nat → Nat → Int → Nat × Int
  | 0, c, q => (c, q)
  | n + 1, c, q => if q < ideal ∧ c % 10 = 0 then towards ideal n (c / 10) (q + 1) else (c, q)

/-- A rounded result and the conditions of R131: overflow, tiny, inexact. -/
structure Rounded where
  v : FV
  ovf : Bool
  tiny : Bool
  inexact : Bool
  deriving DecidableEq, Repr

/-- The result of an overflow under RM (R139, R141). -/
def overflowVal (F : FFmt) (rm : Nat) (neg : Bool) : FV :=
  let toInf := match rm with | 1 => false | 2 => !neg | 3 => neg | _ => true
  if toInf then .inf neg else .num neg (F.radix ^ F.p - 1) F.qmax

/-- Round the exact non-zero value N / D × radix^E into format F (R126, R128, R131): tininess after rounding
for the binary formats and before rounding for the decimal ones. -/
def roundVal (F : FFmt) (rm : Nat) (neg : Bool) (N D : Nat) (E ideal : Int) : Rounded :=
  let r := F.radix
  let qu := leastExp r F.p N D E
  let (cu, _) := roundAt r rm neg N D E qu
  let (_, qr) := carryFix r F.p cu qu
  if qr > F.qmax then ⟨overflowVal F rm neg, true, false, true⟩
  else
    let tiny := if r = 2 then decide (qr < F.qmin) else decide (qu < F.qmin)
    let q := max qu F.qmin
    let (c, ix) := roundAt r rm neg N D E q
    let (c, q) := carryFix r F.p c q
    if r = 10 && !ix then
      let (c, q) := towards (min ideal F.qmax) F.p c q
      ⟨.num neg c q, false, tiny, false⟩
    else ⟨.num neg c q, false, tiny, ix⟩

/-! Exact results. -/

/-- What an operation gives before rounding. -/
inductive Exact where
  /-- A value that needs no rounding, with an invalid operation or a division by zero. -/
  | special (v : FV) (inv dz : Bool)
  /-- A zero with its preferred exponent. -/
  | zero (neg : Bool) (ideal : Int)
  /-- N / D × radix^E with its preferred exponent. -/
  | rat (neg : Bool) (N D : Nat) (E ideal : Int)
  deriving DecidableEq, Repr

/-- An invalid operation with no NaN operand (R137). -/
def Exact.invalid : Exact := .special FV.default true false

/-- The first NaN of the operands, made quiet (R136). -/
def firstNan : List FV → Option FV
  | [] => none
  | .nan n _ p :: _ => some (.nan n false p)
  | _ :: r => firstNan r

/-- c × r^q with sign, as an integer in units of r^u. -/
def inUnits (r : Nat) (neg : Bool) (c : Nat) (q u : Int) : Int :=
  let m : Int := (c * r ^ (q - u).toNat : Nat)
  if neg then -m else m

/-- The sum of two numbers; an exact zero sum is +0, but −0 for operands of opposite sign under RDN (R128). -/
def sumNum (r rm : Nat) (n1 : Bool) (c1 : Nat) (q1 : Int) (n2 : Bool) (c2 : Nat) (q2 : Int) : Exact :=
  let u := min q1 q2
  let t := inUnits r n1 c1 q1 u + inUnits r n2 c2 q2 u
  if t = 0 then .zero (n1 != n2 && rm == 3) u
  else .rat (decide (t < 0)) t.natAbs 1 u u

/-- Addition (R127). -/
def fAdd (r rm : Nat) (a b : FV) : Exact :=
  match a, b with
  | .inf x, .inf y => if x = y then .special (.inf x) false false else .invalid
  | .inf x, _ => .special (.inf x) false false
  | _, .inf y => .special (.inf y) false false
  | .num n1 c1 q1, .num n2 c2 q2 => sumNum r rm n1 c1 q1 n2 c2 q2
  | _, _ => .invalid

/-- Change the sign. -/
def FV.negate : FV → FV
  | .nan n s p => .nan (!n) s p
  | .inf n => .inf (!n)
  | .num n c q => .num (!n) c q

/-- The exact product of FMUL and FMAD (R127), a zero with the sign that FMAD's addition sees. The sign of an infinite product
is that of the arithmetic, and not what R142 says of negated operands (DEDUCED, log 97). -/
def fProd (a b : FV) : Exact :=
  match a, b with
  | .inf x, .inf y => .special (.inf (x != y)) false false
  | .inf x, .num y c _ => if c = 0 then .invalid else .special (.inf (x != y)) false false
  | .num x c _, .inf y => if c = 0 then .invalid else .special (.inf (x != y)) false false
  | .num n1 c1 q1, .num n2 c2 q2 =>
    if c1 * c2 = 0 then .zero (n1 != n2) (q1 + q2) else .rat (n1 != n2) (c1 * c2) 1 (q1 + q2) (q1 + q2)
  | _, _ => .invalid

/-- Multiplication (R127); an exact zero is +0 (R128). -/
def fMul (a b : FV) : Exact :=
  match fProd a b with
  | .zero _ q => .zero false q
  | r => r

/-- Division (R127); an exact zero is +0 (R128), from a division by infinity with the lowest exponent qmin. -/
def fDiv (qmin : Int) (a b : FV) : Exact :=
  match a, b with
  | .inf _, .inf _ => .invalid
  | .inf x, .num y _ _ => .special (.inf (x != y)) false false
  | .num _ _ _, .inf _ => .zero false qmin
  | .num n1 c1 q1, .num n2 c2 q2 =>
    if c2 = 0 then (if c1 = 0 then .invalid else .special (.inf (n1 != n2)) false true)
    else if c1 = 0 then .zero false (q1 - q2)
    else .rat (n1 != n2) c1 c2 (q1 - q2) (q1 - q2)
  | _, _ => .invalid

/-- first × second + third, rounded once (R127). -/
def fMad (r rm : Nat) (a b c : FV) : Exact :=
  match fProd a b with
  | .special (.inf x) false _ =>
    (match c with
    | .inf y => if x = y then .special (.inf x) false false else .invalid
    | _ => .special (.inf x) false false)
  | .zero n q => (match c with
    | .inf y => .special (.inf y) false false
    | .num n3 c3 q3 => sumNum r rm n 0 q n3 c3 q3
    | _ => .invalid)
  | .rat n N _ q _ => (match c with
    | .inf y => .special (.inf y) false false
    | .num n3 c3 q3 => sumNum r rm n N q n3 c3 q3
    | _ => .invalid)
  | _ => .invalid

/-- The integer square root, bit by bit. -/
def isqrtAux (n : Nat) : Nat → Nat → Nat
  | 0, r => r
  | i + 1, r => isqrtAux n i (if (r + 2 ^ i) * (r + 2 ^ i) ≤ n then r + 2 ^ i else r)

/-- The integer square root. -/
def isqrt (n : Nat) : Nat := isqrtAux n (n.log2 / 2 + 1) 0

/-- Square root (R127): an inexact root carries half a unit beyond p + 2 digits, which rounds as the root does. -/
def fSqrt (F : FFmt) (a : FV) : Exact :=
  match a with
  | .inf n => if n then .invalid else .special (.inf false) false false
  | .num n c q =>
    if c = 0 then .zero false (q.fdiv 2)
    else if n then .invalid
    else
      let (c', q') := if q % 2 = 0 then (c, q) else (c * F.radix, q - 1)
      let k := F.p + 2
      let m := c' * F.radix ^ (2 * k)
      let t := isqrt m
      .rat false (2 * t + b2n (t * t != m)) 2 (q' / 2 - (k : Int)) (q.fdiv 2)
  | _ => .invalid

/-- Conversion of a number to another format of the radix (R127); an exact zero is +0 (R128). -/
def fConv (a : FV) : Exact :=
  match a with
  | .num n c q => if c = 0 then .zero false q else .rat n c 1 q q
  | v => .special v false false

/-- The relation of two values (R138). -/
inductive FRel where
  | eq | lt | gt | un
  deriving DecidableEq, Repr

/-- Compare: +0 and −0 are equal (R138). -/
def fCmp (r : Nat) (a b : FV) : FRel :=
  let key (v : FV) (u : Int) : Int := match v with
    | .num n c q => inUnits r n c q u
    | _ => 0
  match a, b with
  | .nan _ _ _, _ => .un
  | _, .nan _ _ _ => .un
  | .inf x, .inf y => if x = y then .eq else if x then .lt else .gt
  | .inf x, _ => if x then .lt else .gt
  | _, .inf y => if y then .gt else .lt
  | .num _ _ q1, .num _ _ q2 =>
    let u := min q1 q2
    let p := key a u
    let q := key b u
    if p = q then .eq else if p < q then .lt else .gt

/-- The zero of a sign with the preferred exponent, cut to the format's range (R126). -/
def zeroOf (F : FFmt) (neg : Bool) (ideal : Int) : FV :=
  .num neg 0 (if F.radix = 2 then F.qmin else max F.qmin (min ideal F.qmax))

end Sys2Proof.Machine
end

