-- ==== Sys2Proof/Machine/Float.lean ====
section
/-!
DEFINITION. Floating-point instructions (R127 to R138, R171): operands, the condition order of R130 and the
results.
-/
namespace Sys2Proof.Machine

/-! CORE_FPSR (R129). -/

def fsIV : Nat := 4
def fsDZ : Nat := 3
def fsOF : Nat := 2
def fsUF : Nat := 1
def fsNX : Nat := 0
def fsSBI : Nat := 5

/-- The flags of R130 and R134 that an instruction ORs into CORE_FPSR, by bit number. -/
abbrev FFlags := List Nat

/-- Write CORE_FPSR: the extension state becomes dirty (R199). -/
def setFpsr (f : Word → Word) : Op Unit :=
  modC fun c => { c with fpsr := f c.fpsr, xown := setBit c.xown 1 true }

/-- A floating-point trap: CORE_FPSR.CAUSE alone is written (R130, R189). -/
def fpTrap (vec cause : Nat) : Op Unit := do
  setFpsr fun w => setFld w 19 16 cause
  raiseV vec cause

/-- OR flags into CORE_FPSR; no write when there are none. -/
def fpFlags (fl : FFlags) : Op Unit :=
  if fl.isEmpty then pure () else setFpsr fun w => fl.foldl (fun w i => setBit w i true) w

/-- Trap enable bit i of PSW.FE (R61). -/
def feBit (i : Nat) : Op Bool := do return bit (← curB).psw i

/-- PSW.RM. -/
def rmNow : Op Nat := do return fld (← curB).psw 34 32

/-- A reserved RM raises ILLEGAL_OPCODE (R63). -/
def rmCheck : Op Unit := do if (← rmNow) > 4 then illegal

/-! Operands (R127, R130 order 1). -/

/-- The tag of a format (R65). -/
def fpTag (f : Nat) : Tag := if isBin f then tBFP else tDFP

/-- The tag checks on the first operand (R65). -/
def fpFirstTags (f : Nat) : Op Unit := do
  let b ← curB
  needTag b.acc.tag (b.acc.tag == fpTag f) 0
  if f = 3 then needTag b.aex.tag (b.aex.tag == tDFP) 1

/-- The bits of the first operand. -/
def fpFirstBits (f : Nat) (b : Bank) : Nat :=
  if f = 3 then b.aex.val.toNat * 2 ^ 64 + b.acc.val.toNat else b.acc.val.toNat

/-- Operand width in bytes (R127). -/
def fpWidth (f : Nat) : Nat := if f = 3 then 16 else 8

/-- The n memory operands of an instruction (R125, R127): checks, then values. -/
def fpMem (w x f n : Nat) : Op (List FV) := do
  let ea ← formEa w (dispOf w x) (fpWidth f) false
  let words := n * (fpWidth f / 8)
  let vs ← loadWords ((List.range words).map fun i => ea + 8 * i) (· == fpTag f)
  let bits := vs.map fun v => v.val.toNat
  return (List.range n).map fun i =>
    if f = 3 then fpDecode 3 (bits.getD (2 * i) 0 * 2 ^ 64 + bits.getD (2 * i + 1) 0)
    else fpDecode f (bits.getD i 0)

/-- Write the first operand (R125, R127). -/
def fpPut (f : Nat) (v : FV) : Op Unit :=
  let n := fpEncode f v
  modB fun b =>
    if f = 3 then { b with aex := ⟨BitVec.ofNat 64 (n / 2 ^ 64), tDFP⟩, acc := ⟨BitVec.ofNat 64 n, tDFP⟩ }
    else { b with acc := ⟨BitVec.ofNat 64 n, fpTag f⟩ }

/-! The conditions of R130. -/

/-- Orders 2 and 3, and the operands under FLUSH (R133, R134). anyNan: FCMPS, for which every NaN signals. -/
def fpOperands (f : Nat) (vs : List FV) (anyNan : Bool) : Op (List FV × FFlags) := do
  let F := FFmt.of f
  let nan := vs.any (·.isNan)
  let inv := vs.any (·.isSig) || (anyNan && nan)
  if inv && (← feBit 31) then fpTrap vFP_INVALID 1
  let isSub := isBin f && vs.any (·.isSub F)
  let flush := (← cx).v.sub
  if isSub && !nan && !flush then fpTrap vSUBNORMAL 6
  let fl : FFlags := if inv then [fsIV] else []
  if isSub && flush then
    return (vs.map fun v => if v.isSub F then .num v.neg 0 F.qmin else v, fl ++ [fsSBI])
  else return (vs, fl)

/-- Orders 4 to 9 for the exact result ex in format f: the value to write and its flags. -/
def fpRound (f : Nat) (ex : Exact) : Op (FV × FFlags) := do
  let F := FFmt.of f
  match ex with
  | .special v inv dz =>
    if inv && (← feBit 31) then fpTrap vFP_INVALID 1
    if dz && (← feBit 30) then fpTrap vFP_DIVIDE_BY_ZERO 2
    return (v, (if inv then [fsIV] else []) ++ if dz then [fsDZ] else [])
  | .zero n q => return (zeroOf F n q, [])
  | .rat n N D E ideal =>
    let r := roundVal F (← rmNow) n N D E ideal
    let flush := (← cx).v.sub
    if r.ovf && (← feBit 29) then fpTrap vFP_OVERFLOW 3
    if r.tiny && isBin f && !flush then fpTrap vSUBNORMAL 7
    if r.tiny && (← feBit 28) then fpTrap vFP_UNDERFLOW 4
    let flushed := r.tiny && isBin f && flush
    let ix := r.inexact || flushed
    if ix && (← feBit 27) then fpTrap vFP_INEXACT 5
    let fl : FFlags := (if r.ovf then [fsOF] else []) ++ (if r.tiny && ix then [fsUF] else [])
      ++ if ix then [fsNX] else []
    return (if flushed then .num n 0 F.qmin else r.v, fl)

/-- The cost of format f in a row of R171. -/
def fpCost (row : List Nat) (f : Nat) : Nat := row.getD f 1

/-- An arithmetic instruction: its operands, then the result of op on them in format f (R127, R136). -/
def fpArith (w x f n : Nat) (op : Nat → List FV → Exact) (row : List Nat) : Op Unit := do
  rmCheck
  fpFirstTags f
  let ms ← if n = 0 then pure [] else fpMem w x f n
  extUse false
  let a := fpDecode f (fpFirstBits f (← curB))
  let (vs, fl) ← fpOperands f (a :: ms) false
  let rm ← rmNow
  let ex := match firstNan vs with
    | some v => .special v false false
    | none => op rm vs
  let (v, fl2) ← fpRound f ex
  fpFlags (fl ++ fl2)
  fpPut f v
  if n ≠ 0 then baseUpdate w (fpWidth f)
  done (fpCost row f)

/-- Format code of a floating-point opcode (R171). -/
def fpF (w : Nat) : Nat := fOPC w % 4

/-- An operand of a list. -/
def opd (vs : List FV) (i : Nat) : FV := vs.getD i FV.default

/-- FADD (R127). -/
def execFadd (e : Fin 256) (w x : BitVec 32) (s : State) : Out :=
  let f := fpF w.toNat
  .next (s.runIns e w.toNat (fmtOk .m w.toNat)
    (fpArith w.toNat x.toNat f 1 (fun rm vs => fAdd (FFmt.of f).radix rm (opd vs 0) (opd vs 1)) [5, 5, 11, 17]))

/-- FSUB (R127). -/
def execFsub (e : Fin 256) (w x : BitVec 32) (s : State) : Out :=
  let f := fpF w.toNat
  .next (s.runIns e w.toNat (fmtOk .m w.toNat)
    (fpArith w.toNat x.toNat f 1 (fun rm vs => fAdd (FFmt.of f).radix rm (opd vs 0) (opd vs 1).negate)
      [5, 5, 11, 17]))

/-- FMUL (R127). -/
def execFmul (e : Fin 256) (w x : BitVec 32) (s : State) : Out :=
  .next (s.runIns e w.toNat (fmtOk .m w.toNat)
    (fpArith w.toNat x.toNat (fpF w.toNat) 1 (fun _ vs => fMul (opd vs 0) (opd vs 1)) [5, 5, 15, 27]))

/-- FDIV (R127). -/
def execFdiv (e : Fin 256) (w x : BitVec 32) (s : State) : Out :=
  let f := fpF w.toNat
  .next (s.runIns e w.toNat (fmtOk .m w.toNat)
    (fpArith w.toNat x.toNat f 1 (fun _ vs => fDiv (FFmt.of f).qmin (opd vs 0) (opd vs 1)) [13, 21, 41, 83]))

/-- FMAD (R127). -/
def execFmad (e : Fin 256) (w x : BitVec 32) (s : State) : Out :=
  let f := fpF w.toNat
  .next (s.runIns e w.toNat (fmtOk .m w.toNat)
    (fpArith w.toNat x.toNat f 2 (fun rm vs => fMad (FFmt.of f).radix rm (opd vs 0) (opd vs 1) (opd vs 2))
      [6, 6, 19, 31]))

/-- FSQRT (R127). -/
def execFsqrt (e : Fin 256) (w x : BitVec 32) (s : State) : Out :=
  let f := fpF w.toNat
  .next (s.runIns e w.toNat (fmtOk .n w.toNat)
    (fpArith w.toNat x.toNat f 0 (fun _ vs => fSqrt (FFmt.of f) (opd vs 0)) [15, 25, 45, 91]))

/-- The flags of a comparison (R138). -/
def relFlags : FRel → Op Unit
  | .eq => flags true false false false
  | .lt => flags false true false false
  | .gt => flags false false true false
  | .un => flags false false false true
where
  flags (z n c v : Bool) : Op Unit := modB fun b =>
    { b with psw := setBit (setBit (setBit (setBit b.psw 0 z) 1 n) 2 c) 3 v }

/-- FCMP and FCMPS (R127, R138). -/
def fpCompare (w x : Nat) (anyNan : Bool) : Op Unit := do
  let f := fpF w
  rmCheck
  fpFirstTags f
  let ms ← fpMem w x f 1
  extUse false
  let a := fpDecode f (fpFirstBits f (← curB))
  let (vs, fl) ← fpOperands f (a :: ms) anyNan
  fpFlags fl
  relFlags (fCmp (FFmt.of f).radix (opd vs 0) (opd vs 1))
  baseUpdate w (fpWidth f)
  done (fpCost [5, 5, 11, 17] f)

/-- FCMP (R138). -/
def execFcmp (e : Fin 256) (w x : BitVec 32) (s : State) : Out :=
  .next (s.runIns e w.toNat (fmtOk .m w.toNat) (fpCompare w.toNat x.toNat false))

/-- FCMPS (R138). -/
def execFcmps (e : Fin 256) (w x : BitVec 32) (s : State) : Out :=
  .next (s.runIns e w.toNat (fmtOk .m w.toNat) (fpCompare w.toNat x.toNat true))

/-- The NaN payload that a conversion into format f gives (R137). -/
def convPayload (f pay : Nat) : Nat :=
  match f with
  | 0 => pay / 2 ^ 29
  | 1 => pay * 2 ^ 29
  | 2 => if pay < 10 ^ 15 then pay else 0
  | _ => pay

/-- The source format of FCVT into f: the other width of the radix (R127, R171). -/
def convSource (f : Nat) : Nat := if f % 2 = 0 then f + 1 else f - 1

/-- FCVT (R127, R137). -/
def execFcvt (e : Fin 256) (w _x : BitVec 32) (s : State) : Out :=
  let f := fpF w.toNat
  let g := convSource f
  .next (s.runIns e w.toNat (fmtOk .n w.toNat) do
    rmCheck
    fpFirstTags g
    extUse false
    let a := fpDecode g (fpFirstBits g (← curB))
    let (vs, fl) ← fpOperands g [a] false
    let ex := match opd vs 0 with
      | .nan n _ p => .special (.nan n false (convPayload f p)) false false
      | v => fConv v
    let (v, fl2) ← fpRound f ex
    fpFlags (fl ++ fl2)
    fpPut f v
    done (fpCost [5, 5, 13, 13] f))

/-- The integer of FCVTI, whether it is an invalid operation, and whether it is inexact (R127, R137). -/
def toInteger (r rm : Nat) (v : FV) : Word × Bool × Bool :=
  let top : Word := 0x7FFFFFFFFFFFFFFF
  let bot : Word := 0x8000000000000000
  match v with
  | .nan _ _ _ => (0, true, false)
  | .inf n => (if n then bot else top, true, false)
  | .num n c q =>
    if q > 64 ∧ c ≠ 0 then (if n then bot else top, true, false)
    else
      let (m, ix) := roundAt r rm n c 1 q 0
      if n then (if m > 2 ^ 63 then (bot, true, false) else (ofInt (-(m : Int)), false, ix))
      else if m ≥ 2 ^ 63 then (top, true, false) else (BitVec.ofNat 64 m, false, ix)

/-- FCVTI (R127, R137). -/
def execFcvti (e : Fin 256) (w _x : BitVec 32) (s : State) : Out :=
  let f := fpF w.toNat
  .next (s.runIns e w.toNat (fmtOk .n w.toNat) do
    rmCheck
    fpFirstTags f
    extUse false
    let a := fpDecode f (fpFirstBits f (← curB))
    let (vs, fl) ← fpOperands f [a] false
    let (v, inv, ix) := toInteger (FFmt.of f).radix (← rmNow) (opd vs 0)
    if inv && (← feBit 31) then fpTrap vFP_INVALID 1
    if ix && (← feBit 27) then fpTrap vFP_INEXACT 5
    fpFlags (fl ++ (if inv then [fsIV] else []) ++ if ix then [fsNX] else [])
    modB fun b => { b with acc := ⟨v, tINT⟩ }
    done (fpCost [5, 5, 13, 13] f))

/-- FCVTF (R127): ACC is an INT. -/
def execFcvtf (e : Fin 256) (w _x : BitVec 32) (s : State) : Out :=
  let f := fpF w.toNat
  .next (s.runIns e w.toNat (fmtOk .n w.toNat) do
    rmCheck
    let b ← curB
    needTag b.acc.tag (b.acc.tag == tINT) 0
    extUse false
    let i := b.acc.val.toInt
    let ex : Exact := if i = 0 then .zero false 0 else .rat (decide (i < 0)) i.natAbs 1 0 0
    let (v, fl) ← fpRound f ex
    fpFlags fl
    fpPut f v
    done (fpCost [5, 5, 13, 13] f))

/-- Change the sign bit of the first operand (R127): g gives the new sign from the old. -/
def fpSign (w : Nat) (g : Bool → Bool) : Op Unit := do
  let f := fpF w
  rmCheck
  fpFirstTags f
  extUse false
  modB fun b =>
    match f with
    | 0 => { b with acc := ⟨setBit (setFld b.acc.val 63 32 0) 31 (g (bit b.acc.val 31)), tBFP⟩ }
    | 3 => { b with aex := ⟨setBit b.aex.val 63 (g (bit b.aex.val 63)), tDFP⟩ }
    | _ => { b with acc := ⟨setBit b.acc.val 63 (g (bit b.acc.val 63)), b.acc.tag⟩ }
  done 1

/-- FNEG (R127). -/
def execFneg (e : Fin 256) (w _x : BitVec 32) (s : State) : Out :=
  .next (s.runIns e w.toNat (fmtOk .n w.toNat) (fpSign w.toNat not))

/-- FABS (R127). -/
def execFabs (e : Fin 256) (w _x : BitVec 32) (s : State) : Out :=
  .next (s.runIns e w.toNat (fmtOk .n w.toNat) (fpSign w.toNat fun _ => false))

end Sys2Proof.Machine
end

