-- ==== Sys2Proof/Machine/Microcode.lean ====
section
/-!
DEFINITION. Customer instructions (R172, R205 to R221): the decode checks and the microsequencer with its
exposed pipeline.
-/
namespace Sys2Proof.Machine

/-! Fields of a micro-operation (R208). -/

def uEND (m : BitVec 32) : Bool := m.getLsbD 31
def uOP (m : BitVec 32) : Nat := wf m.toNat 30 26
def uD (m : BitVec 32) : Nat := wf m.toNat 25 21
def uA (m : BitVec 32) : Nat := wf m.toNat 20 16
def uB (m : BitVec 32) : Nat := wf m.toNat 15 11
def uK (m : BitVec 32) : Nat := wf m.toNat 10 0

/-- A result that a later word sees (R216). -/
inductive Late where
  | opd (code : Nat) (v : TWord)
  | dec (inv ovf : Bool)
  | loop (n : Nat)
  deriving DecidableEq, Repr

/-- A store held until END (R214). -/
inductive HeldSt where
  | word (va : Nat) (t : Target) (v : TWord)
  | byte (va : Nat) (t : Target) (b : Byte)
  deriving DecidableEq, Repr

/-- The microsequencer during one instruction (R209, R210, R214 to R216): the values that the next word reads,
results still under way with the words left, the latches, the loop counter, PSW and held stores. -/
structure Mseq where
  vals : SMap TWord
  late : List (Nat × Late)
  carry : Bool
  ovf : Bool
  dinv : Bool
  dovf : Bool
  lc : Nat
  psw : Word
  held : List HeldSt
  xs : Bool
  deriving DecidableEq, Repr

/-- The value of an operand (R209). -/
def Mseq.rd (m : Mseq) (code : Nat) : TWord := if code = 9 then raw0 else sget raw0 m.vals code

/-- The tag that an untagged register gives (R57, R209). -/
def untagged (code : Nat) : Option Tag :=
  match code with
  | 4 => some tINT | 5 => some tPTR | 6 => some tPTR | 7 => some tINT | _ => none

/-- Write an operand: EA and ZERO take nothing, XS0 to XS3 are RAW, CNT to ML take the value only (R209). -/
def Mseq.put (m : Mseq) (code : Nat) (v : TWord) : Mseq :=
  if code = 8 ∨ code = 9 ∨ code = 14 ∨ code = 15 then m
  else
    let v := if 10 ≤ code ∧ code ≤ 13 then ⟨v.val, tRAW⟩
      else match untagged code with | some t => ⟨v.val, t⟩ | none => v
    { m with vals := sset raw0 m.vals code v, xs := m.xs || (10 ≤ code && code ≤ 13) }

/-- A result arrives. -/
def Mseq.arrive (m : Mseq) : Late → Mseq
  | .opd c v => m.put c v
  | .dec i o => { m with dinv := m.dinv || i, dovf := m.dovf || o }
  | .loop n => { m with lc := n }

/-- One word has executed: results whose distance is reached arrive (R216, R218). -/
def Mseq.tickLate (m : Mseq) : Mseq :=
  let m' := m.late.foldl (fun m p => if p.1 = 0 then m.arrive p.2 else m) m
  { m' with late := (m.late.filter fun p => p.1 != 0).map fun p => (p.1 - 1, p.2) }

/-- A result that is visible at a distance of d words (R216). -/
def Mseq.later (m : Mseq) (d : Nat) (l : Late) : Mseq := { m with late := m.late ++ [(d - 1, l)] }

/-- The operand code of R189 for a microcode operand; a temporary has the code of R221. -/
def uOperand (code : Nat) : Nat := if code ≤ 4 then code else 0xC

/-- Read an operand with the checks of R66 and R211. -/
def uRead (m : Mseq) (code : Nat) : Op TWord := do
  let v := m.rd code
  needTag v.tag true (uOperand code)
  return v

/-- The tag of an ALU result (R211). -/
def aluTag (t : Tag) : Tag := if t = tCODE ∨ t = tSEAL then tRAW else t

/-- A micro-condition (R213) on operand value a. -/
def uCond (m : Mseq) (code : Nat) (a : Word) : Bool :=
  match code with
  | 0 => true | 1 => a == 0 | 2 => a != 0 | 3 => bit a 63 | 4 => !bit a 63
  | 5 => m.carry | 6 => m.ovf | 7 => m.dinv | 8 => m.dovf
  | 9 => fld a 3 0 == 0xB || fld a 3 0 == 0xD
  | _ => false

/-- PSW after UFLG (R212). -/
def uFlags (m : Mseq) (k : Nat) (a : Word) : Word :=
  let dec := k.testBit 6
  let zero := if dec then fld a 63 4 == 0 else a == 0
  let neg := if dec then (fld a 3 0 == 0xB || fld a 3 0 == 0xD) && fld a 63 4 != 0 else bit a 63
  let p := m.psw
  let p := if k.testBit 0 then setBit p 0 zero else p
  let p := if k.testBit 1 then setBit p 1 neg else p
  let p := if k.testBit 2 then setBit p 2 m.carry else p
  let p := if k.testBit 3 then setBit p 3 (if dec then m.dovf else m.ovf) else p
  if k.testBit 5 && m.dinv then setBit p 4 true else p

/-- The word in which a target lies. -/
def Target.word : Target → Target
  | .tcm off => .tcm (off / 8 * 8)
  | .mem pa _ => .mem (pa / 8 * 8) false
  | .ctl off => .ctl off

/-- Apply a held store to a word read at a target (R214): one that goes to the same word, whatever address it used. -/
def forward (t : Target) (w : TWord) : HeldSt → TWord
  | .word _ a v => if a.word = t.word then v else w
  | .byte va a b => if a.word = t.word then spliceWord w (va % 8) [b] else w

/-- A held store writes the byte at va of a target: every byte of its word, or that byte (R214). -/
def HeldSt.covers (t : Target) (va : Nat) : HeldSt → Bool
  | .word _ a _ => a.word == t.word
  | .byte v a _ => a.word == t.word && v % 8 == va % 8

/-- ULDW (R211, R214). In control space it is one access to the register, tagged RAW (R533), and no held store is
forwarded (DEDUCED, log 99). -/
def uLoadWord (m : Mseq) (va : Nat) : Op TWord := do
  needAligned va false
  let t ← access .read va false
  match t with
  | .ctl _ => readTarget t va
  | t =>
    let covered (i : Nat) : Bool := m.held.any fun h => h.covers t i
    let w ← if (List.range 8).all covered then pure raw0 else readTarget t va
    if w.tag = tPOISON then checkReadTag w.tag va
    let w := m.held.foldl (forward t) w
    checkReadTag w.tag va
    return w

/-- ULDB (R211, R214). -/
def uLoadByte (m : Mseq) (va : Nat) : Op TWord := do
  let t ← access .read va false
  match t with
  | .ctl _ => busError va false false
  | t =>
    let w ← if m.held.any (·.covers t va) then pure raw0 else targetWord t va false
    if w.tag = tPOISON then raiseA vPOISON (tagDetail tPOISON 8) va false false
    let w := m.held.foldl (forward t) w
    return ⟨BitVec.ofNat 64 (((toBytes 8 w.val.toNat).getD (va % 8) 0).toNat), tRAW⟩

/-- UDEC (R211): the result, if its operands are valid, and whether it overflows. -/
def uDecimal (plus : Bool) (k : Nat) (a b : Word) : Option (Word × Bool) :=
  match pdecVal a, (if k % 4 = 2 then some 0 else pdecVal b) with
  | some x, some y =>
    let r := if k % 4 = 1 then x - y else x + y
    some (BitVec.ofNat 64 (ofBytes (packedOf plus 8 (decide (r < 0)) r.natAbs)), over15 r)
  | _, _ => none

/-- The micro-conditions that test A (R213). -/
def uCondReads (code : Nat) : Bool := (1 ≤ code && code ≤ 4) || code == 9

/-- The operand that a micro-condition tests, read with its checks (R211, R213); 0 where it tests none. -/
def uCondArg (m : Mseq) (w : BitVec 32) : Op Word :=
  if uCondReads (uD w) then do return (← uRead m (uA w)).val else return 0

/-- A micro-operation's effect on the sequencer (R210 to R214), but for branches. -/
def uExec (m : Mseq) (w : BitVec 32) : Op Mseq := do
  let k := uK w
  let alu (f : Word → Word → Word) : Op Mseq := do
    let a ← uRead m (uA w)
    let b ← uRead m (uB w)
    return m.later 1 (.opd (uD w) ⟨f a.val b.val, aluTag a.tag⟩)
  let shift (f : Word → Nat → Word) : Op Mseq := do
    let a ← uRead m (uA w)
    return m.later 1 (.opd (uD w) ⟨f a.val (k % 64), aluTag a.tag⟩)
  match uOP w with
  | 0x01 =>
    let m' ← alu (· + ·)
    return { m' with carry := addC (m.rd (uA w)).val (m.rd (uB w)).val, ovf := addV (m.rd (uA w)).val (m.rd (uB w)).val }
  | 0x02 =>
    let m' ← alu (· - ·)
    return { m' with carry := subC (m.rd (uA w)).val (m.rd (uB w)).val, ovf := subV (m.rd (uA w)).val (m.rd (uB w)).val }
  | 0x03 => alu (· &&& ·)
  | 0x04 => alu (· ||| ·)
  | 0x05 => alu (· ^^^ ·)
  | 0x06 => shift (· <<< ·)
  | 0x07 => shift (· >>> ·)
  | 0x08 => shift BitVec.sshiftRight
  | 0x09 => return m.later 1 (.opd (uD w) ⟨ofInt (sext 11 k), tINT⟩)
  | 0x0A =>
    let a ← uRead m (uA w)
    return m.later 1 (.opd (uD w) ⟨(a.val <<< 11) ||| BitVec.ofNat 64 k, aluTag a.tag⟩)
  | 0x0B =>
    let a ← uRead m (uA w)
    let b ← uRead m (uB w)
    return m.later 4 (.opd (uD w) ⟨a.val * b.val, tINT⟩)
  | 0x0C =>
    let a ← uRead m (uA w)
    let b ← if k % 4 = 2 then pure a else uRead m (uB w)
    match uDecimal (bit (← cx).c.decctl 2) k a.val b.val with
    | none => return m.later 3 (.dec true false)
    | some (v, o) => return (m.later 3 (.opd (uD w) ⟨v, tPDEC⟩)).later 3 (.dec false o)
  | 0x0D =>
    let a ← uRead m (uA w)
    let v ← uLoadWord m (a.val + ofInt (sext 11 k)).toNat
    return m.later 2 (.opd (uD w) v)
  | 0x0E =>
    let a ← uRead m (uA w)
    let b := m.rd (uB w)
    storeTagCheck b.tag (uOperand (uB w))
    let va := (a.val + ofInt (sext 11 k)).toNat
    needAligned va true
    let t ← access .write va false
    sealCheck t va
    return { m with held := m.held ++ [.word va t b] }
  | 0x0F =>
    let a ← uRead m (uA w)
    let v ← uLoadByte m (a.val + ofInt (sext 11 k)).toNat
    return m.later 2 (.opd (uD w) v)
  | 0x10 =>
    let a ← uRead m (uA w)
    let b ← uRead m (uB w)
    let va := (a.val + ofInt (sext 11 k)).toNat
    match ← checkField va 1 with
    | (t, _) :: _ => return { m with held := m.held ++ [.byte va t (b.val.setWidth 8)] }
    | [] => return m
  | 0x11 =>
    let a ← uRead m (uA w)
    let t : Tag := BitVec.ofNat 4 k
    tagChangeCheck a.tag t (uOperand (uA w)) none
    return m.later 1 (.opd (uD w) ⟨a.val, t⟩)
  | 0x12 =>
    let a ← uRead m (uA w)
    if k.testBit a.tag.toNat then return m else raiseV vTAG_MISMATCH (a.tag.toNat + 16 * 0xC)
  | 0x13 =>
    let a ← uRead m (uA w)
    return { m with psw := uFlags m k a.val }
  | 0x14 =>
    discard (uCondArg m w)
    return m
  | 0x15 => return m.later 2 (.loop k)
  | 0x17 =>
    let a ← uCondArg m w
    if uCond m (uD w) a then raiseV (k % 256) 0 else return m
  | _ => return m

/-- The word that follows the delay slot, if this word branches (R210, R217), and the sequencer after it. -/
def uBranch (m : Mseq) (w : BitVec 32) (pc : Nat) : Mseq × Option Nat :=
  if uOP w = 0x14 then (m, if uCond m (uD w) (m.rd (uA w)).val then some (pc + uK w) else none)
  else if uOP w = 0x16 then
    let n := (m.lc + 2047) % 2048
    ({ m with lc := n }, if n ≠ 0 then some (pc + 4096 - uK w) else none)
  else (m, none)

/-- A word of a control store reads with a parity error (R227, R228). -/
def parityError (src addr : Nat) : Op Unit := do
  let x ← cx
  modS fun s => s.noteParity x.e src addr
  raiseV vMACHINE_CHECK (src * 65536 + 1)

/-- A memory micro-operation: ULDW, USTW, ULDB or USTB (R210). -/
def uTouches (w : BitVec 32) : Bool := decide (0x0D ≤ uOP w) && decide (uOP w ≤ 0x10)

/-- The words of an instruction from pc, the next being npc, up to its END (R208, R217). A sealed image reaches
END within the fuel, which exceeds the longest declared COST (R219, R223). -/
def uRun : Nat → Mseq → Nat → Nat → Op Mseq
  | 0, m, _, _ => return m
  | fuel + 1, m, pc, npc => do
    let x ← cx
    if x.c.parity.contains (0x0103, pc % 4096) then parityError 0x0103 (pc % 4096)
    let w := sget 0 x.c.cstore (pc % 4096)
    set { x with path := x.path.map (· + 1), stall := x.stall || uTouches w }
    let m ← uExec m w
    let (m, t) := uBranch m w pc
    let m := m.tickLate
    if uEND w then return m else uRun fuel m npc (t.getD (npc + 1))

/-- The store of a held entry, at END (R214). -/
def HeldSt.store : HeldSt → Op Unit
  | .word va t v => writeTarget t va v
  | .byte _ t b => writePieces [(t, 1)] [b]

/-- The held stores, all or none (R214): one to control space that ends with a bus error discards every other, and leaves
only what the device records of it. -/
def storeHeld (hs : List HeldSt) : Op Unit := do
  let x ← cx
  hs.forM fun h => match h with
    | .word va (.ctl off) v => do
      if x.s.ctlHeld off v.val then throw (.wait .run)
      let (s, ok) := (x.s.setCores (x.s.unitCores x.e) x.c).ctlWrite x.e off v.val
      if ok then pure () else do
        set { x with s := s }
        busError va true false
    | _ => pure ()
  try hs.forM HeldSt.store
  catch q => do
    set x
    throw q

/-- The effects at END (R214): the held stores in program order, registers, flags; its retirement is 1 cc of the path
(R219). -/
def uRetire (m : Mseq) : Op Unit := do
  storeHeld m.held
  modify fun x => { x with path := x.path.map (· + 1) }
  let m := m.late.foldl (fun m p => m.arrive p.2) m
  modB fun b => { (List.range 8).foldl (fun b r => b.setReg r (m.rd r)) b with psw := m.psw }
  if m.xs then
    modC fun c => { c with xscr := (List.range 4).foldl (fun x i => sset 0 x i (m.rd (10 + i)).val) c.xscr,
                           xown := setBit c.xown 1 true }

/-- The decode entry that an instruction selects (R205). -/
def decEntry (c : Core) (w : Nat) : Word :=
  sget 0 c.dectab ((if bit c.ucstat 8 then 64 else 0) + 4 * (fOPC w % 16) + w % 4)

/-- The decode checks 1 to 3 of R206. -/
def customerOk (c : Core) (w : Nat) : Bool :=
  let d := decEntry c w
  bit d 63 && bit c.ucstat (if bit c.ucstat 8 then 1 else 0)
    && (if bit d 60 then wf w 18 2 == 0 && !fL w else memFieldsOk false w && (!fL w || wf w 9 2 == 0))
    && (!c.tx || bit d 62)

/-- The displacement of a customer instruction (R205). -/
def dispU (w x : Nat) : Int := if fL w then sext 32 x else sext 10 (wf w 9 2 * 4)

/-- The sequencer at START (R209, R210): the registers, EA, the extension registers, undefined temporaries,
cleared latches. -/
def mseqStart (c : Core) (free ea : Nat) : Mseq :=
  let b := c.cur
  let m : Mseq := ⟨[], [], false, false, false, false, 0, b.psw, [], false⟩
  let m := (List.range 8).foldl (fun m r => { m with vals := sset raw0 m.vals r (b.reg r) }) m
  let m := { m with vals := sset raw0 m.vals 8 ⟨BitVec.ofNat 64 ea, tPTR⟩ }
  let m := (List.range 4).foldl (fun m i => { m with vals := sset raw0 m.vals (10 + i) ⟨sget 0 c.xscr i, tRAW⟩ }) m
  (List.range 16).foldl (fun m i =>
    let t := Config.microTemp free i
    { m with vals := sins m.vals (16 + i) ⟨t.setWidth 64, (t >>> 64).setWidth 4⟩ }) m

/-- The address of the decode entry that an instruction selects (R205). -/
def decAddr (c : Core) (w : Nat) : Nat := (if bit c.ucstat 8 then 64 else 0) + 4 * (fOPC w % 16) + w % 4

/-- A customer instruction (R172, R205 to R221): its declared cost in tick-exact mode; in normal mode 2 cc and 1 cc for END
beside a cycle for each word (R219). A decode entry that reads with a parity error, which decode reads whatever the
condition, says nothing (R76, R206, R227). -/
def execCustomerInstruction (e : Fin 256) (w x : BitVec 32) (s : State) : Out :=
  if (s.core e).parity.contains (0x0104, decAddr (s.core e) w.toNat) then
    .next (s.runIns e (w.toNat % 2 ^ 28) true (parityError 0x0104 (decAddr (s.core e) w.toNat)))
  else
  .next (s.runIns e w.toNat (customerOk (s.core e) w.toNat) do
    let k ← cx
    let d := decEntry k.c w.toNat
    if (← privNow) > fld d 59 58 then privFault
    let ea ← if bit d 60 then pure 0 else formA w.toNat (dispU w.toNat x.toNat)
    let k0 ← cx
    if bit d 61 then extUse false
    let k ← cx
    set { k with cost := fld d 43 32, xcost := fld d 43 32, path := some (2 + (k.cost - k0.cost)) }
    let m ← uRun 4096 (mseqStart k.c k.s.free ea) (fld d 11 0) (fld d 11 0 + 1)
    uRetire m)

end Sys2Proof.Machine
end

