-- ==== Sys2Proof/Machine/Restore.lean ====
section
/-!
DEFINITION. What the journal gives back after a cold reset (R355, R356): requests that run again or whose results are
released, idempotency entries, and the posting entries above the tick of a ledger image.
-/
namespace Sys2Proof.Machine

/-- The last RELEASE key of a queue in the own half. -/
def State.ownRelease (s : State) (q : Nat) : Nat :=
  s.vault.own.foldl (fun m r => match r.body with
    | .release q' k => if q' = q then max m k else m | _ => m) 0

/-- The RESULT of a request of the own half, if its tick counts: STATUS, order key, result. -/
def State.ownResult (s : State) (counts : Nat → Bool) (isn : Nat) : Option (Nat × Nat × List Byte) :=
  match resultOf s.vault.own isn with
  | some (.result _ _ st ok res _) => if counts (ok / 2 ^ 32) then some (st, ok, res) else none
  | _ => none

/-- The request of an ACCEPT record (R355, R356): with a RESULT that counts it is SEALED, or RELEASED where a RELEASE
record covers it; else it runs again. Its frame comes with its partition (R345), its region with its queue (R358). -/
def State.restoreRun (counts : Nat → Bool) (s : State) : JBody → State
  | .accept isn idem q part prog plen check payload sqidx =>
    let res := s.ownResult counts isn
    let mk (st : RunSt) (ok stt : Nat) (out : List Byte) : Run :=
      ⟨isn, q, part, s.rf (.intQcfg q) 61 59, prog, plen, payload.take plen, idem, sqidx, noFrame, noFrame, false, ok, st,
        0, 0, false, stt, 0, 0, out, 0, 0, ok / 2 ^ 32, none, check, false, false, false, none, none⟩
    let r : Run := match res with
      | some (stt, ok, out) => mk (if ok ≤ s.ownRelease q then .released else .isSealed) ok stt out
      | none => mk .accepted 0 0 []
    let x : Idem := match res with
      | some (_, ok, out) => ⟨idem, check, 2, q, ok, isn, out, none⟩
      | none => ⟨idem, check, 1, q, 0, isn, [], none⟩
    let old := (idemPlaces part idem).find? fun i =>
      (sget Idem.free s.idem i).isn == isn && (sget Idem.free s.idem i).key == idem && (sget Idem.free s.idem i).st != 0
    let s : State := match old, s.idemRoom s.idem part idem with
      | some i, _ => { s with idem := sins s.idem i x }
      | none, some i => { s with idem := sins s.idem i x }
      | none, none => s
    { s with runs := s.runs ++ [r] }
  | _ => s

/-- The last RELEASE key of a queue is known again (R309, R349). -/
def State.restoreRelease (s : State) : JBody → State
  | .release q k =>
    let x := sget Queue.cold s.queues q
    { s with queues := sset Queue.cold s.queues q { x with relKey := some (max k (x.relKey.getD 0)) } }
  | _ => s

/-- The requests of the own half come back. -/
def State.restoreRuns (s : State) (counts : Nat → Bool) : State :=
  let s := (s.vault.own.map (·.body)).foldl (State.restoreRun counts) s
  (s.vault.own.map (·.body)).foldl State.restoreRelease s

/-- Posting entries of the own half with their tick, above tick m: those of RESULT and COMMIT records (R341, R342). -/
def State.entriesAbove (s : State) (m : Nat) : List (Nat × LogE) :=
  s.vault.own.flatMap fun r => match r.body with
    | .result _ _ _ ok _ es => if ok / 2 ^ 32 > m then es.map fun e => (ok / 2 ^ 32, e) else []
    | .commit t _ es => if t > m then es.map fun e => (t, e) else []
    | _ => []

/-- Insert an entry in tick and LSEQ order. -/
def insEntry (p : Nat × LogE) : List (Nat × LogE) → List (Nat × LogE)
  | [] => [p]
  | q :: l => if p.1 * 65536 + p.2.lseq < q.1 * 65536 + q.2.lseq then p :: q :: l else q :: insEntry p l

/-- The posting entries above tick m are applied in tick and LSEQ order, each word taking its last AFTER (R355). -/
def State.applyAbove (s : State) (m : Nat) : State :=
  let es := (s.entriesAbove m).foldl (fun l p => insEntry p l) []
  es.foldl (fun (s : State) p => s.putWord p.2.word ⟨p.2.after, tPDEC⟩) s

/-- The highest tick that a RESULT or COMMIT record of the own half names. -/
def State.lastCommit (s : State) : Nat :=
  s.vault.own.foldl (fun m r => match r.body with
    | .result _ _ _ ok _ _ => max m (ok / 2 ^ 32)
    | .commit t _ _ => max m t
    | _ => m) 0

end Sys2Proof.Machine
end

