-- ==== Sys2Proof/Machine/Mirror.lean ====
section
/-!
DEFINITION. What mirror partners, issuers and targets send each other: tables and custody (R276, R436), journal
records, posting logs and PIN records (R295, R343, R344, R351, R441), remote close, rollback notices and lost entries
(R298, R323, R442, R443), and remote operations (R296, R324, R438 to R440).
-/
namespace Sys2Proof.Machine

/-- The message comes from the mirror partner. -/
def State.isPartner (s : State) (src : Nat) : Bool := s.hasPartner && src == s.partnerId

/-- TABLES (R276): the partner's partition data, kept until the next copy; of the key of a frame the last copy stands. -/
def execTables (src : Fin 4096) (t : Tables) (s : State) : Out :=
  .next (if s.isPartner src then
    s.modFab fun f =>
      let old := (f.tables.find? fun x => x.part == t.part).getD ⟨t.part, 0, 0, [], [], []⟩
      let keep := old.frames.filter fun x => !t.frames.any fun y => y.frame == x.frame
      let keys := old.keys.filter (fun k => !t.keys.any fun j => j.1 == k.1) ++ t.keys
      let rest := (f.tables.filter fun x => x.part != t.part).map fun x =>
        { x with keys := x.keys.filter fun k => !t.keys.any fun j => j.1 == k.1 }
      { f with tables := rest ++ [{ t with frames := keep ++ t.frames, keys := keys }] }
  else s)

/-- A frame image arrives in this device's own ledger area: PC of the frame is cleared (R280, R355). -/
def State.putOwn (s : State) (im : FrameImg) : State := (s.otherWrite (4096 * im.frame)).putImage (4096 * im.frame) im

/-- The own ledger area before it comes back: a frame of which no image comes is zero (R436, log 132). -/
def State.clearOwn (s : State) : State :=
  let fs := ((s.mem.map fun c => c.1 / 4096).filter fun f => f < s.layout.m / 4096).eraseDups
  (fs.foldl (fun (s : State) f => s.otherWrite (4096 * f)) s).clearArea 0 s.layout.m

/-- A record of the custodian becomes a record of this device, which the custodian holds again once it is shipped
(R436): its RSN and its TAG are this device's (R339, R340). -/
def State.rejournal (s : State) (r : JRec) : State :=
  let (s, rec) := s.journal r.body
  if s.vaultOk then s.send s.partnerId false false (.journal rec) else s

/-- The work comes back (R355, R436): records of mirrored partitions, the idempotency entries and the requests, in place of
what this device still held of them. What it had COMMITTED without a seal is gone (R356). -/
def State.takeBack (s : State) (recs : List JRec) (idem : List (Nat × Idem)) : State :=
  let back (p : Nat) : Bool := bit (s.rd (.keyPtctl p)) 62 || s.fab.handAck
  let gone := (s.runs.filter fun r => back r.part).map (·.isn)
  let keys := (s.runs.filter fun r => back r.part).map (·.okey)
  let own := s.vault.own.filter fun r => match r.body with
    | .accept _ _ _ part .. => !back part
    | .result i _ _ k .. => !gone.contains i && !keys.contains k
    | .release .. => false
    | _ => true
  let s : State := { s with runs := s.runs.filter fun r => !gone.contains r.isn }
  let s := s.modVault fun v => { v with own := own, toShip := [], unacked := [], logs := [], npuCopy := [], imgCopy := [] }
  let s := (s.modSched fun k => { k with unsealed := [], imaged := [] }).sealPoint
  let s := recs.foldl State.rejournal s
  let s : State := { s with idem := idem.foldl (fun m p => sset Idem.free m p.1 { p.2 with bound := none }) s.idem }
  let s := (recs.map (·.body)).foldl (State.restoreRun fun _ => true) s
  (recs.map (·.body)).foldl State.restoreRelease s

/-- RESTORE (R355, R436): what the custodian ships back, by part: a partition with its registers and tables; 1,024, the own
ledger area with the journal and the idempotency entries; 1,025, the sender's own ledger area for the replica. The custody
ends with it. -/
def execRestore (src : Fin 4096) (t : Tables) (work : ReturnedWork) (s : State) : Out :=
  .next (if !s.isPartner src then s
  else if t.part = 1025 then
    let s := s.clearArea s.replicaBase s.layout.p
    t.frames.foldl (fun (s : State) im =>
      if 4096 * im.frame < s.layout.p then s.putImage (s.replicaBase + 4096 * im.frame) im else s) s
  else
    let s := if t.part > 1023 then s else (s.wr (.keyPtctl t.part) t.ptctl).wr (.keyPtroot t.part) t.ptroot
    let s := t.grants.foldl (fun (s : State) g => s.wr (.keyGrant g.1) g.2) s
    let s := t.keys.foldl (fun (s : State) k => s.setFrameKey (4096 * k.1) (k.2 % 256) (k.2 / 256 == 1)) s
    let s := t.frames.foldl State.putOwn (if t.part = 1024 then s.clearOwn else s)
    let s := if t.part = 1024 then s.takeBack work.recs work.idem else s
    (s.modFab fun f => { f with handAck := false, handSent := false, asked := false, granted := none }).wf .fabLease 63 61 1)

/-! Records. -/

/-- Take a record of the partner into the partner half (R336, R344). -/
def State.takeRec (s : State) (r : JRec) : State :=
  if s.vault.ptn.any fun x => x.rsn == r.rsn then s
  else
    let s := s.modVault fun v => { v with ptn := insRsn r v.ptn, ptnRsn := max v.ptnRsn r.rsn, refused := v.refused.filter (· != r.rsn) }
    match r.body with
    | .accept isn idem q part _ _ check _ _ =>
      if s.idemPtn.any fun p => p.2.isn == isn && p.2.key == idem && p.2.st != 0 then s
      else match s.idemRoom s.idemPtn part idem with
      | some i => { s with idemPtn := sins s.idemPtn i ⟨idem, check, 1, q, 0, isn, [], some part⟩ }
      | none => s
    | .result isn _ _ ok res _ =>
      { s with idemPtn := s.idemPtn.map fun (p : Nat × Idem) =>
          if p.2.isn = isn && p.2.st = 1 then (p.1, { p.2 with st := 2, okey := ok, result := res }) else p }
    | .commit _ _ _ => s
    | .release q _ => s.modVault fun v => { v with ptn := v.ptn.filter fun x => match x.body with
        | .release q' _ => q' != q || x.rsn == r.rsn | _ => true }
    | .retire q k =>
      let done (x : JRec) : Bool := match x.body with
        | .result _ q' _ ok _ _ => q' == q && decide (ok ≤ k) | _ => false
      let isns := (s.vault.ptn.filter done).filterMap fun x => match x.body with | .result i .. => some i | _ => none
      let top := (s.vault.ptn.filter done).foldl (fun m x => match x.body with | .result _ _ _ ok _ _ => max m (ok / 2 ^ 32) | _ => m) 0
      let left := s.vault.ptn.filter fun x => !done x
      let covers (q' k' : Nat) : Bool := left.any fun x => match x.body with
        | .result _ q'' _ ok _ _ => q'' == q' && decide (ok ≤ k') | _ => false
      s.modVault fun v => { v with ptn := left.filter fun x => match x.body with
        | .accept i .. => !isns.contains i | .retire .. => false | .commit t _ _ => decide (t > top)
        | .release q' k' => covers q' k' | .result .. => true }

/-- Records that waited for the lowest of those whose TAG was wrong are applied, in RSN order (R344). -/
def State.takeEarly (s : State) : State :=
  let low (x : JRec) : Bool := s.vault.badRsn.all fun b => x.rsn < b
  let (now, later) := s.vault.early.partition low
  now.foldl State.takeRec (s.modVault fun v => { v with early := later })

/-- JOURNAL (R343, R344, R351): a record from the partner. One whose TAG is wrong is not acknowledged, and no later one is
applied, nor acknowledged, before it has come again. -/
def execJournal (src : Fin 4096) (r : JRec) (s : State) : Out :=
  let isAccept := match r.body with | .accept .. => true | _ => false
  .next (if !s.isPartner src || s.quiet || !s.vaultOk then s
  else if !s.vault.verifies src r then
    (s.modVault fun v => { v with badRsn := if v.badRsn.contains r.rsn then v.badRsn else v.badRsn ++ [r.rsn] }).alarm
      sgJOURNAL_AUTH (s.locElement elVLT) (detBytes 8 r.rsn)
  else if s.vault.ptn.any (fun x => x.rsn == r.rsn) then s.mirrorAck src 0x10 s.vault.ackRsn
  else if isAccept && decide (vaultHalf - recBytes s.vault.ptn < 2 ^ 21) then
    let s := s.modVault fun v => { v with refused := if v.refused.contains r.rsn then v.refused else v.refused ++ [r.rsn],
                                          badRsn := v.badRsn.filter (· != r.rsn) }
    s.takeEarly.mirrorAck src 0x10 s.vault.ackRsn
  else if s.vault.badRsn.any (· < r.rsn) then s.modVault fun v => { v with early := insRsn r v.early }
  else
    let s := ((s.modVault fun v => { v with badRsn := v.badRsn.filter (· != r.rsn) }).takeRec r).takeEarly
    s.mirrorAck src 0x10 s.vault.ackRsn)

/-- The partner's posting log of a tick (R284, R295, R413). With a record of it behind one whose TAG was wrong, the log is
not applied, nor acknowledged: it comes again (R29, R344). -/
def State.takePostlog (s : State) (src : Fin 4096) (p : PostLog) : State :=
  if p.recs.any fun r => !s.vault.verifies src r then s.alarm sgJOURNAL_AUTH (s.locElement elVLT) (detBytes 8 p.tick)
  else if p.recs.any fun r => s.vault.badRsn.any (· < r.rsn) then s
  else
    let s := p.images.foldl (fun (s : State) im =>
      if s.chanState (chanOf (s.replicaBase + 4096 * im.frame)) == 3 then s.modFmu fun f => { f with ptnUnprot := true }
      else s.putImage (s.replicaBase + 4096 * im.frame) im) s
    let s := p.entries.foldl (fun (s : State) x => s.putReplica x.word x.after) s
    let s := (p.recs.foldl (fun l r => insRsn r l) []).foldl State.takeRec s
    let s := s.modFab fun f => { f with pins := f.pins.filter (fun x => x.tick > p.tick),
                                        ptnRemote := f.ptnRemote.filter (fun x => x.okey / 2 ^ 32 > p.tick),
                                        closes := f.closes.filter fun c => c.tick > p.tick || c.tick + 2 > s.tick }
    s.mirrorAck src 0x11 p.tick

/-- A REMOTE entry of the partner's posting units, held until its posting log or a takeover, and acknowledged (R440). -/
def State.takeEntry (s : State) (issuer rid : Nat) (e : LogE) : State :=
  (s.modFab fun f => { f with ptnRemote := f.ptnRemote ++ [e] }).send s.partnerId false false (.remoteAck issuer rid)

/-- POSTLOG (R284, R295, R413, R440): the posting log of a tick, or one REMOTE entry. -/
def execPostlog (src : Fin 4096) (p : LogMsg) (s : State) : Out :=
  .next (if !s.isPartner src || s.quiet || !s.vaultOk then s
  else match p with
  | .tick p => s.takePostlog src p
  | .entry issuer rid e => s.takeEntry issuer rid e)

/-- PIN (R441). -/
def execPinRecord (src : Fin 4096) (mseq : BitVec 32) (p : PinRec) (s : State) : Out :=
  .next (if !s.isPartner src || s.quiet then s
  else
    let (s, first) := s.firstCopy src 0x12 mseq.toNat
    let s := if first then s.modFab fun f => { f with pins := f.pins ++ [p] } else s
    s.mirrorAck src 0x12 mseq.toNat)

/-- The partner refused ACCEPT records for want of space: now that a posting log has brought it RETIRE records, those not
acknowledged are shipped again (R20, R351). -/
def State.offerAgain (s : State) : State :=
  if !s.vault.ptnFull then s
  else
    let rs := s.vault.own.filter fun r => s.vault.unacked.any fun p => p.1 == r.rsn
    let s := s.modVault fun v => { v with ptnFull := false }
    if s.quiet then s else rs.foldl (fun (s : State) r => s.send s.partnerId false false (.journal r)) s

/-- The partner's acknowledgement of a posting log: the tick is SEALED, and shipped RETIRE records are freed (R29,
R295, R341). A late one restores protection (R18). -/
def State.ackPostlog (s : State) (t : Nat) : State :=
  if !s.sched.unsealed.contains t then s
  else
    let sent := ((s.vault.logs.filter fun p => p.tick == t).flatMap (·.recs)).map (·.rsn)
    let s := s.sealTick t
    let s := s.modVault fun v => { v with own := v.own.filter fun r => match r.body with
      | .retire .. => !sent.contains r.rsn | _ => true }
    s.offerAgain.reprotect

/-- The requests whose ACCEPT records the partner holds are ACCEPTED (R343). -/
def State.ackJournal (s : State) (rsn : Nat) : State :=
  let isns := s.vault.own.filterMap fun r => match r.body with
    | .accept i .. => if r.rsn ≤ rsn then some i else none | _ => none
  let rs := s.runs.map fun (r : Run) => if r.st == .journaled && isns.contains r.isn then { r with st := .accepted } else r
  let s : State := { s with runs := rs }
  s.modVault fun v => { v with unacked := v.unacked.filter (fun p => p.1 > rsn), ptnFull := false }

/-- MIRROR_ACK (R343, R295, R422, R440, R441): a second copy is discarded. -/
def execMirrorAck (m : Sender) (a : MirAck) (s : State) : Out :=
  .next (if !s.isPartner m.src || !s.vaultOk then s
  else
    let (s, first) := s.firstCopy m.src 0x13 m.mseq.toNat
    if !first then s
    else
    let s := (s.modFab fun f => { f with mirrorDown := f.mirrorDown && !bit (s.rd .tsqStatus) 4 }).reprotect
    match a with
    | .journal rsn false => s.ackJournal rsn
    | .journal _ true => s.modVault fun v => { v with ptnFull := true }
    | .postlog t => s.ackPostlog t
    | .pin q => s.modFab fun f => { f with ownPins := f.ownPins.map fun (p : OwnPin) => if p.mseq = q then { p with acked := true } else p }
    | .remote to_ rid =>
      match s.fab.tgtWaits.find? fun w => w.src == to_ && w.rid == rid with
      | none => s
      | some w =>
        let s := s.modFab fun f => { f with tgtWaits := f.tgtWaits.filter fun x => x != w }
        State.selfReply (s.reply to_ ⟨rid, rsDONE, 0, 0, w.value, w.tick⟩))

/-- JOURNAL_ACK_MISSING (R344): the record is shipped once more, on the other path; then it is a mirror-link fault. -/
def execJournalAckMissing (rsn : BitVec 64) (s : State) : Out :=
  let k := rsn.toNat
  .next (match s.vault.unacked.find? (·.1 == k), s.vault.own.find? (·.rsn == k) with
  | some (_, 0), some r =>
    let s := s.modVault fun v => { v with unacked := v.unacked.map fun (p : Nat × Nat) => if p.1 = k then (k, 1) else p }
    if s.quiet then s else s.sendAlt s.partnerId (.journal r)
  | some (_, _), _ => s.unprotect.modFab fun f => { f with mirrorDown := true }
  | _, _ => s)

/-! Remote close, notices, lost entries. -/

/-- REMOTE_CLOSE_MESSAGE (R442): the first copy is kept and applied; the issuer's partner forwards it to the devices
to_. -/
def execRemoteCloseMessage (src : Fin 4096) (mseq : BitVec 32) (c : CloseRec) (to_ : List Nat) (s : State) : Out :=
  .next (if s.isPartner c.issuer && s.quiet then s
  else
    let (s, first) := s.firstCopy c.issuer 8 mseq.toNat
    if !first then s
    else
      let s := s.modFab fun f => { f with closes := f.closes ++ [c] }
      let s := if c.tick = s.tick && !s.sched.flipped then s.rollRemotes c.issuer c.keys.contains else s
      if s.isPartner c.issuer && src.val == s.partnerId then
        to_.foldl (fun (s : State) d => s.send d true true (.remoteClose mseq.toNat c.tick c.issuer c.keys)) s
      else s)

/-- ROLLBACK_NOTICE (R298, R323, R440): direct says that this device is the target; its mirror partner drops its copy
of the entries. -/
def execRollbackNotice (src : Fin 4096) (mseq : BitVec 32) (tick : BitVec 48) (okey : BitVec 80) (direct : Bool)
    (s : State) : Out :=
  let k := okey.toNat
  let (s, first) := s.firstCopy src 9 mseq.toNat
  let s1 : State := if !first then s
    else if tick.toNat = s.tick && !s.sched.flipped then s.rollRemotes src fun j => j != k else s
  let s2 := s1.modFab fun f => { f with ptnRemote := f.ptnRemote.filter fun x => !(x.owner == src.val && x.okey == k) }
  .next (if direct then s2.send src false true (.rollback mseq.toNat true tick.toNat k) else s2)

/-- ROLLBACK_ACK (R323). -/
def execRollbackAck (src : Fin 4096) (mseq : BitVec 32) (s : State) : Out :=
  .next (s.modFab fun f => { f with notices := f.notices.filter fun p => !(p.1 == mseq.toNat && p.2 == src.val) })

/-- REMOTE_LOST (R443): before the own remote close, the named transaction aborts without an overrun. -/
def execRemoteLost (src : Fin 4096) (mseq : BitVec 32) (tick : BitVec 48) (okey : BitVec 80) (s : State) : Out :=
  let (s, first) := s.firstCopy src 10 mseq.toNat
  .next (if first && tick.toNat = s.tick && s.rf .tsqStatus 2 0 = 0 then
    s.abortNow ((s.runs.filter fun r => r.okey == okey.toNat).map (·.isn)) false else s)

/-! Remote operations. -/

/-- RPOST at the target (R271, R296, R321, R326, R438 to R440); as mirror partner of the target, R440. -/
def execRpost (src : Fin 4096) (rq : RReq) (s : State) : Out := .next (State.selfReply (s.targetPost src rq))

/-- RREAD_FRAME at the target (R324, R326). -/
def execRreadFrame (src : Fin 4096) (rq : RReq) (s : State) : Out := .next (State.selfReply (s.targetRead src rq))

/-- RREPLY (R323, R324, R439): one for a transaction that has aborted leaves its REMOTE entry to a rollback notice. -/
def execRreply (r : RReply) (s : State) : Out :=
  .next (match s.fab.waits.find? (·.1 == r.rid) with
  | some (_, w) =>
    if r.status = rsDONE && !w.isRead && w.tick == s.tick && s.runDead w.isn then
      match s.run w.isn with
      | some q =>
        let s := s.modFab fun f => { f with waits := sdel f.waits r.rid, held := f.held ++ [⟨w.isn, q.okey, w.dst, w.tick⟩] }
        if s.rf .tsqStatus 2 0 ≥ 1 then s.notice w.dst q.okey else s
      | none => s
    else s.rreply r
  | none => s)

end Sys2Proof.Machine
end

