-- ==== Sys2Proof/Machine/Image.lean ====
section
/-!
DEFINITION. A customer microcode image (R222) and the checks that the management processor makes of it (R223): entries,
words, branches and loops, distances (R216), delay slots (R217), stores, limits, and the declared cost (R219).
-/
namespace Sys2Proof.Machine

/-! The image. -/

/-- The store words of an image (R222). -/
def imgWords (bs : List Byte) : List (BitVec 32) :=
  (List.range (bytesAt bs 8 2)).map fun i => BitVec.ofNat 32 (bytesAt bs (0x210 + 4 * i) 4)

/-- The 64 decode entries of an image (R222). -/
def imgEntries (bs : List Byte) : List Word := (List.range 64).map fun i => BitVec.ofNat 64 (bytesAt bs (0x10 + 8 * i) 8)

/-- Reason 0x01: the signature verifies against the key. -/
def imgSigned (key : Nat) (bs : List Byte) : Bool :=
  let n := bs.length - 96
  decide (bs.length ≥ 96) && Config.ecdsaVerify key (ofBytes (bs.take n)) (ofBytes (bs.drop n))

/-- The entry fields are valid (R207): reserved bits 0, and for a VALID entry a privilege, a cost and a START. -/
def entryFieldsOk (words : Nat) (e : Word) : Bool :=
  fld e 57 44 == 0 && fld e 31 12 == 0 &&
    (!bit e 63 || (fld e 59 58 != 3 && decide (4 ≤ fld e 43 32) && decide (fld e 11 0 < words)))

/-- Reason 0x02. -/
def imgShape (bs : List Byte) : Bool :=
  let n := bytesAt bs 8 2
  bytesAt bs 0 4 == 0x55434D31 && bytesAt bs 4 4 != 0 && bytesAt bs 10 2 == 0 && decide (n ≤ 4096)
    && bs.length == 0x210 + 4 * n + 96 && (imgEntries bs).all (entryFieldsOk n)

/-! Words. -/

/-- What D holds: nothing, a destination, or a micro-condition (R208, R210). -/
inductive DUse where
  | none | dest | cond
  deriving DecidableEq, Repr

/-- The use of D by an operation. -/
def uDUse (op : Nat) : DUse :=
  if op = 0x14 ∨ op = 0x17 then .cond
  else if op = 0 ∨ op = 0x0E ∨ op = 0x10 ∨ (0x12 ≤ op ∧ op ≤ 0x16) then .none
  else .dest

/-- A is read (R210, R213). -/
def uUsesA (w : BitVec 32) : Bool :=
  match uOP w with
  | 0 | 9 | 0x15 | 0x16 => false
  | 0x14 | 0x17 => (1 ≤ uD w && uD w ≤ 4) || uD w == 9
  | _ => true

/-- B is read (R210). -/
def uUsesB (w : BitVec 32) : Bool :=
  let op := uOP w
  (1 ≤ op && op ≤ 5) || op == 0x0B || (op == 0x0C && uK w != 2) || op == 0x0E || op == 0x10

/-- K in range (R210, R212). -/
def uKOk (w : BitVec 32) : Bool :=
  let k := uK w
  match uOP w with
  | 6 | 7 | 8 => k < 64
  | 9 | 0x0A | 0x0D | 0x0E | 0x0F | 0x10 => true
  | 0x0C => k < 3
  | 0x11 => k < 16
  | 0x12 => k < 1024
  | 0x13 => wf k 10 7 == 0 && wf k 4 4 == 0
  | 0x14 => 2 ≤ k
  | 0x15 => 1 ≤ k
  | 0x16 => true
  | 0x17 => k < 256
  | _ => k == 0

/-- An operand code that may be read (R209). -/
def srcOk (c : Nat) : Bool := c != 14 && c != 15

/-- Reason 0x03 for one word. -/
def uWordOk (w : BitVec 32) : Bool :=
  decide (uOP w ≤ 0x17) && uKOk w
    && (match uDUse (uOP w) with
        | .none => uD w == 0
        | .dest => srcOk (uD w) && uD w != 8 && uD w != 9
        | .cond => decide (uD w ≤ 9))
    && (if uUsesA w then srcOk (uA w) else uA w == 0)
    && (if uUsesB w then srcOk (uB w) else uB w == 0)

def uIsBr (w : BitVec 32) : Bool := uOP w == 0x14
def uIsLoop (w : BitVec 32) : Bool := uOP w == 0x16
def uIsUlc (w : BitVec 32) : Bool := uOP w == 0x15

/-! Paths. -/

/-- A place on a path: the word's address, and the branch whose delay slot it is (R217). -/
structure UNode where
  addr : Nat
  slot : Option Nat
  deriving DecidableEq, Repr

/-- The word at an address; an END word past the last one. -/
def uAt (ws : List (BitVec 32)) (a : Nat) : BitVec 32 := ws.getD a 0

/-- Where the branch at address b goes. -/
def uTarget (ws : List (BitVec 32)) (b : Nat) : Nat :=
  if uIsLoop (uAt ws b) then b - uK (uAt ws b) else b + uK (uAt ws b)

/-- What is executed next (R210, R217): a branch by its delay slot; a UBR of condition 0 always branches. -/
def uNext (ws : List (BitVec 32)) (n : UNode) : List UNode :=
  let w := uAt ws n.addr
  match n.slot with
  | some b =>
    let t : UNode := ⟨uTarget ws b, none⟩
    if uIsBr (uAt ws b) && uD (uAt ws b) == 0 then [t] else [⟨n.addr + 1, none⟩, t]
  | none =>
    if uEND w then [] else if uIsBr w || uIsLoop w then [⟨n.addr + 1, some n.addr⟩] else [⟨n.addr + 1, none⟩]

/-- The places reached from some places; stop: a place whose successors do not count. -/
def uReach (ws : List (BitVec 32)) (stop : UNode → Bool) : Nat → List UNode → List UNode → List UNode
  | 0, _, seen => seen
  | _, [], seen => seen
  | fuel + 1, n :: todo, seen =>
    if seen.contains n || n.addr ≥ ws.length then uReach ws stop fuel todo (if seen.contains n then seen else n :: seen)
    else uReach ws stop fuel ((if stop n then [] else uNext ws n) ++ todo) (n :: seen)

/-- Enough steps for every place to be visited from each of its predecessors. -/
def uFuel (ws : List (BitVec 32)) : Nat := 8 * ws.length + 16

/-- The places reached from a START. -/
def uFrom (ws : List (BitVec 32)) (start : Nat) : List UNode := uReach ws (fun _ => false) (uFuel ws) [⟨start, none⟩] []

/-- Reason 0x04: branch targets; loops backward, after a ULC on every path, and with neither ULC nor ULOOP in the body. -/
def imgBranches (ws : List (BitVec 32)) (starts : List Nat) : Bool :=
  let n := ws.length
  let as := List.range n
  as.all (fun a =>
      let w := uAt ws a
      if uIsBr w then decide (a + uK w < n)
      else if uIsLoop w then
        decide (1 ≤ uK w) && decide (uK w ≤ a) && (List.range (uK w)).all fun i => !(uIsUlc (uAt ws (a - uK w + i)) || uIsLoop (uAt ws (a - uK w + i)))
      else true)
    && (let exits := (as.filter fun a => uIsLoop (uAt ws a)).map fun a => (⟨a + 2, none⟩ : UNode)
        let bare := uReach ws (fun m => uIsUlc (uAt ws m.addr) || uIsLoop (uAt ws m.addr)) (uFuel ws)
          (starts.map (fun a => ⟨a, none⟩) ++ (exits.filter fun m => starts.any fun a => (uFrom ws a).contains m)) []
        !bare.any fun m => uIsLoop (uAt ws m.addr) && decide (m.addr < n))

/-- Reason 0x05: delay slots and END (R217), and no path past the last word. -/
def imgSlots (ws : List (BitVec 32)) (starts : List Nat) : Bool :=
  ((List.range ws.length).all fun a =>
      let w := uAt ws a
      if uIsBr w || uIsLoop w then
        let d := uAt ws (a + 1)
        !uEND w && decide (a + 1 < ws.length) && !uEND d && !(uIsBr d || uIsLoop d || uIsUlc d || uOP d == 0x17)
      else true)
    && starts.all fun a => (uFrom ws a).all fun m => decide (m.addr < ws.length)

/-! Distances. -/

/-- A result that a word produces late: its operand, or the decimal latches, or LC. -/
inductive URes where
  | reg (code : Nat) | dinv | dovf | lc
  deriving DecidableEq, Repr

/-- The results of a word (R210, R211). -/
def uResults (w : BitVec 32) : List URes :=
  (if uDUse (uOP w) = .dest then [.reg (uD w)] else []) ++ (if uOP w = 0x0C then [.dinv, .dovf] else [])
    ++ (if uIsUlc w then [.lc] else [])

/-- The minimum distance of a word's results (R216). -/
def uDist (w : BitVec 32) : Nat :=
  match uOP w with
  | 0x0D | 0x0F | 0x15 => 2
  | 0x0C => 3
  | 0x0B => 4
  | _ => 1

/-- A word reads a result (R210, R212, R213). -/
def uReads (w : BitVec 32) : URes → Bool
  | .reg c => (uUsesA w && uA w == c) || (uUsesB w && uB w == c)
  | .dinv => (uOP w == 0x13 && (uK w).testBit 5) || ((uIsBr w || uOP w == 0x17) && uD w == 7)
  | .dovf => (uOP w == 0x13 && (uK w).testBit 3 && (uK w).testBit 6) || ((uIsBr w || uOP w == 0x17) && uD w == 8)
  | .lc => uIsLoop w

/-- On every path from a place, for d words, no word reads the result unless a nearer one has produced it again. -/
def uNoRead (ws : List (BitVec 32)) (r : URes) : Nat → UNode → Bool
  | 0, _ => true
  | d + 1, n =>
    (uNext ws n).all fun m =>
      decide (m.addr ≥ ws.length) ||
        (!uReads (uAt ws m.addr) r && ((uResults (uAt ws m.addr)).contains r || uNoRead ws r d m))

/-- Reason 0x06 (R216). -/
def imgDistances (ws : List (BitVec 32)) (starts : List Nat) : Bool :=
  starts.all fun a => (uFrom ws a).all fun m =>
    let w := uAt ws m.addr
    (uResults w).all fun r => uNoRead ws r (uDist w - 1) m

/-! Longest paths. -/

/-- The greater of two lengths; none is no path. -/
def maxO : Option Nat → Option Nat → Option Nat
  | some a, some b => some (max a b)
  | some a, none => some a
  | none, b => b

/-- The length of the longest path from a word w, from those of the words ws after it. -/
def uStep (wt : BitVec 32 → Nat) (w : BitVec 32) (ws : List (BitVec 32)) (rest : List (Option Nat)) : Option Nat :=
  if uEND w then some (wt w)
  else if uIsBr w then
    let s := wt w + wt (ws.headD 0)
    let far := rest.getD (uK w - 1) none
    (if uD w = 0 then far else maxO (rest.getD 1 none) far).map (· + s)
  else (rest.getD 0 none).map (· + wt w)

/-- The lengths of the longest paths from each address to the end, in a measure wt of words. Addresses from a on stand in
the list in order; beyond the words, init; set fixes the length at an address. -/
def uTab (wt : BitVec 32 → Nat) (set : Nat → Option (Option Nat)) :
    Nat → List (BitVec 32) → List (Option Nat) → List (Option Nat)
  | _, [], init => init
  | a, w :: ws, init =>
    let rest := uTab wt set (a + 1) ws init
    (match set a with | some v => v | none => uStep wt w ws rest) :: rest

/-- The longest paths from the ULOOP at address a when it is reached with LC = 0 to n (R210): it goes on past its delay slot
with LC = 1, else back to its target with LC one less, from which a path comes to it again or leaves for good with that LC.
rest: the lengths from the words after a by LC. No path reaches a ULOOP with LC = 0 (R223, reason 0x04). -/
def uLoopLens (ws : List (BitVec 32)) (wt : BitVec 32 → Nat) (a : Nat) (rest : Nat → List (Option Nat)) :
    Nat → SMap (Option Nat)
  | 0 => [(0, none)]
  | n + 1 =>
    let l := uLoopLens ws wt a rest n
    let t := a - uK (uAt ws a)
    let next := if n = 0 then (rest 0).getD 1 none
      else (uTab wt (fun b => if b = a then some (sget none l n) else none) t ((ws.take (a + 1)).drop t) (rest n)).headD none
    l ++ [(n + 1, next.map (· + (wt (uAt ws a) + wt (uAt ws (a + 1)))))]

/-- The longest paths from each address on, for each value of LC up to n with which they may be entered (R210): a ULC
begins another. -/
def uRows (all : List (BitVec 32)) (wt : BitVec 32 → Nat) (n : Nat) : Nat → List (BitVec 32) → List (SMap (Option Nat))
  | _, [] => []
  | a, w :: ws =>
    let rest := uRows all wt n (a + 1) ws
    let col (k : Nat) : List (Option Nat) := rest.map fun r => sget none r k
    (if uIsLoop w then uLoopLens all wt a col n
      else (List.range (n + 1)).map fun k => (k, uStep wt w ws (col (if uIsUlc w then uK w else k)))) :: rest

/-- The longest path from each address to an END, with every loop run as often as its ULC says. -/
def uLongest (ws : List (BitVec 32)) (wt : BitVec 32 → Nat) : List (Option Nat) :=
  (uRows ws wt ((ws.filter uIsUlc).foldl (fun m w => max m (uK w)) 0) 0 ws).map fun r => sget none r 0

/-- Reason 0x07: at most 16 stores on any path. -/
def imgStores (ws : List (BitVec 32)) (starts : List Nat) : Bool :=
  let t := uLongest ws fun w => if uOP w = 0x0E ∨ uOP w = 0x10 then 1 else 0
  starts.all fun a => decide ((t.getD a none).getD 0 ≤ 16)

/-- Reason 0x08: the vectors of UFAULT and the tags of UTAG are permitted. -/
def imgLimits (ws : List (BitVec 32)) : Bool :=
  ws.all fun w =>
    if uOP w = 0x17 then [vILLEGAL_OPCODE, vTAG_MISMATCH, vDECIMAL_DATA, vDECIMAL_OVERFLOW, vDIVIDE_BY_ZERO].contains (uK w)
    else if uOP w = 0x11 then decide (uK w ≤ 9)
    else true

/-- A word names XS0 to XS3 (R209). -/
def uNamesXs (w : BitVec 32) : Bool :=
  let x (c : Nat) : Bool := 10 ≤ c && c ≤ 13
  (uDUse (uOP w) == .dest && x (uD w)) || (uUsesA w && x (uA w)) || (uUsesB w && x (uB w))

/-- Reason 0x09: the declared cost and XST of an entry (R207, R219). -/
def imgCost (ws : List (BitVec 32)) (t : List (Option Nat)) (e : Word) : Bool :=
  let s := fld e 11 0
  let n := (t.getD s none).getD 0
  let path := max (n + 3) (if n ≥ 4 then 7 else 0)
  !bit e 63 || (decide (path + 48 * b2n (bit e 61) ≤ fld e 43 32)
    && bit e 61 == (uFrom ws s).any fun m => uNamesXs (uAt ws m.addr))

/-- The base of the free store words for n words beside the active image (R222, reason 0x0A). The words that the active
image does not use are one run when addresses go on from 4,095 to 0; branches are relative, so an image that lies across
that end runs as any other (DESIGN CHOICE, log 116). -/
def freeBase (active : Nat × Nat) (n : Nat) : Option Nat :=
  if active.2 + n > 4096 then none
  else if n ≤ active.1 || active.2 = 0 then some 0
  else some ((active.1 + active.2) % 4096)

/-- The first check of R223 that fails for an image: its reason code. key: the enrolled key that KEYID names; late: the
activation tick is too near; free: room for the words. -/
def imgReason (key : Option Nat) (bs : List Byte) (active : Nat × Nat) (pending late : Bool) : Option Nat :=
  let ws := imgWords bs
  let es := imgEntries bs
  let starts := ((es.filter fun e => bit e 63).map fun e => fld e 11 0).eraseDups
  if !key.any (fun k => imgSigned k bs) then some 1
  else if !imgShape bs then some 2
  else if !ws.all uWordOk then some 3
  else if !imgBranches ws starts then some 4
  else if !imgSlots ws starts then some 5
  else if !imgDistances ws starts then some 6
  else if !imgStores ws starts then some 7
  else if !imgLimits ws then some 8
  else if !es.all (imgCost ws (uLongest ws fun _ => 1)) then some 9
  else if (freeBase active ws.length).isNone then some 10
  else if pending then some 11
  else if late then some 12
  else none

end Sys2Proof.Machine
end

