-- ==== Sys2Proof/Machine/Report.lean ====
section
/-!
DEFINITION. The steps of the fault management unit (R396 to R400, R536 to R538) and of the management processor's own
triad (R455).
-/
namespace Sys2Proof.Machine

/-- The aggregators from one upward (R33): its key, then those above. -/
def aggUp (key : Nat) : List Nat :=
  let i := key % 1000
  match key / 1000 with
  | 5 => [key, aggKey 4 (i / 8), aggKey 3 (i / 32), aggKey 2 (i / 128), aggKey 1 0]
  | 4 => [key, aggKey 3 (i / 4), aggKey 2 (i / 16), aggKey 1 0]
  | 3 => [key, aggKey 2 (i / 4), aggKey 1 0]
  | 2 => [key, aggKey 1 0]
  | _ => [key]

/-- FMU_RECORD (R392, R396 to R400, R536): the aggregator at a level accepts a record from below; the aggregators that it
passes are those of the record's FIRST. -/
def execFmuRecord (level : Fin 6) (r : Rec) (s : State) : Out :=
  let l := Loc.of r.first
  let path := s.aggPath l
  let below := (path.takeWhile fun k => k / 1000 != level.val).getLast?
  let bm := match below with
    | some k => s.mapBits k r.bitmap
    | none => s.firstBits l
  .next (State.passUp (path.dropWhile fun k => k / 1000 != level.val) bm r.fixed s)

/-- The ALARM records that wait try once more, in their order. -/
def State.retryOnce (s : State) : State :=
  s.fmu.waiting.foldl (fun (s : State) p =>
    if p.1 = logKey then State.passUp [] 0 p.2 s else State.passUp (aggUp p.1) p.2.bitmap p.2 s)
    (s.modFmu fun f => { f with waiting := [] })

/-- ALARM records that wait at aggregators or at the device log go on while there is room; one that moves on frees the output
slot of its sender, up to the seven stages of the way (R399, R400). None is counted twice. -/
def State.retryWaiting (s : State) : State :=
  if s.fmu.waiting.isEmpty then s
  else ((List.range 7).foldl (fun (t : State) _ => t.retryOnce) s).modFmu fun f => { f with loss := s.fmu.loss }

/-- AGGREGATOR_ENTRY_CLOSE (R397, R398): the entry for a pair of SIG and ROOT at an aggregator of the given level and
index, once global time has reached its TIME + (7 − level) × T. -/
def execAggregatorEntryClose (level : Fin 6) (idx : Fin 1000) (sig : BitVec 16) (root : BitVec 32) (s : State) : Out :=
  let key := aggKey level idx
  let a := sget Agg.cold s.fmu.aggs key
  .next (match a.entries.find? fun x => x.sig == sig.toNat && x.root == root.toNat with
  | none => s
  | some x =>
    if s.now < x.time + (7 - level.val) * s.period then s
    else
      let a' := { a with entries := a.entries.filter fun y => !(y.sig == x.sig && y.root == x.root) }
      let (a', up) := if x.count ≤ 1 then (a', []) else aggSend a' (s.aggLoc key) { x with close := true }
      let s := s.modFmu fun f => { f with aggs := sset Agg.cold f.aggs key a' }
      (up.foldl (fun (s : State) u => State.passUp ((aggUp key).drop 1) (s.mapBits key u.bitmap) u s) s).retryWaiting)

/-- FMU_RECORD_FORWARD (R398, R538): the management processor sends the next record of the device log to the fabric
manager. -/
def execFmuRecordForward (s : State) : Out :=
  .next (match s.fmu.forward with
  | [] => s
  | r :: rest =>
    let s := s.modFmu fun f => { f with forward := rest }
    if bit (s.rd .fabRole) 63 then s.sysAccept r
    else s.send (s.rf .fabRole 59 48) false false (.manage (.record r)))

/-- A member of the management processor is retired (R455). -/
def State.mpLose (s : State) (m : Nat) : State :=
  if s.mp.members.contains m then
    ((s.modMp fun x => { x with members := x.members.filter (· != m) }).alarm sgMP_MEMBER_LOST (s.locElement elMP) 0).refreshStatus
  else s

/-- MP_MEMBER_LOST (R455): a member that the two others outvote. -/
def execMpMemberLost (m : Fin 3) (s : State) : Out := .next (if s.mp.members.length = 3 then s.mpLose m else s)

/-- MP_PAIR_MISMATCH (R455): the two members left differ; those that fail their self-test are retired. -/
def execMpPairMismatch (failed : List Nat) (s : State) : Out :=
  .next (if s.mp.members.length = 2 then failed.foldl (fun (s : State) m => s.mpLose m) s else s)

end Sys2Proof.Machine
end

