-- ==== Sys2Proof/Machine/Omi.lean ====
section
/-!
DEFINITION. The doorbells of the mailboxes (R459) and the commands of host and fabric manager (R464, R465) that set up
partitions, functions, queues, grants, memory, the journal key and admission, and those that read health and the log.
-/
namespace Sys2Proof.Machine

/-- The host buffer as read: DLEN bytes. -/
def OmiReq.data (rq : OmiReq) (env : OmiEnv) : List Byte := env.buf.take rq.dlen

/-- Who may send (R461): function 0 alone. -/
def byOwner : List OmiWho := [.owner]

/-! Doorbells. -/

/-- MBX_DOORBELL (R449, R458, R459): a write of seq, size bytes long, by function fn to its mailbox m. The request is what
stands in the request area. -/
def execMbxDoorbell (m : Fin 32) (seq : BitVec 32) (fn : Fin 256) (size : Nat) (s : State) : Out :=
  let last := s.rf (.mbxStatus m) 63 32
  let st := s.rf (.mbxStatus m) 1 0
  let (cmd, rq) := s.areaReq m
  .next (if s.mp.fwFail || s.pfail || !(size == 4 || size == 8) || s.rf (.mbxOwner m) 7 0 ≠ fn then s
  else if seq.toNat = (last + 1) % 2 ^ 32 && st != 1 then
    if rq.seq = seq.toNat then
      if omiAssigned cmd then s.mbxTake m cmd rq
      else (s.wf (.mbxStatus m) 63 32 rq.seq).omiEnd (.mbx m) cmd rq.seq false (stUNKNOWN_COMMAND, 0, [])
    else s.wf (.mbxStatus m) 2 2 1
  else if seq.toNat = last && st == 2 then s.mbxMsg m
  else if seq.toNat = last && st == 1 then s
  else (s.wf (.mbxStatus m) 2 2 1).event sgMBX_SEQ_ERROR (s.locElement elMP) (detBytes 1 m))

/-! Health and the log. -/

/-- The 16 bytes of OMI_HEALTH_READ for a cluster (R464). -/
def State.healthCluster (s : State) (c : Nat) : List Byte :=
  if s.clusterOn c then
    toBytes 1 (s.regView (.cluMode c)).toNat ++ (List.range 5).flatMap (fun sl => toBytes 1 (s.slotState c sl)) ++ toBytes 2 0
      ++ toBytes 8 (s.regView (.chkStatus c)).toNat
  else toBytes 16 0

/-- The response data of OMI_HEALTH_READ (R464). -/
def State.health (s : State) : List Byte :=
  let w (r : Reg) : List Byte := toBytes 8 (s.regView r).toNat
  w .fmuStatus ++ w .intStatus ++ w .tsqSealed ++ w .vltStatus ++ w .fmuDegcnt
    ++ toBytes 8 (s.mp.fw.getD s.mp.running ⟨0, 0, false⟩).version ++ toBytes 8 s.mp.persist.toNat
    ++ (List.range 32).flatMap s.healthCluster

/-- OMI_HEALTH_READ (R464). -/
def execOmiHealthRead (src : OmiSrc) (rq : OmiReq) (_env : OmiEnv) (s : State) : Out :=
  .next (s.omiRun ⟨0x01, [.owner, .vf, .fabric], true, false, 0, []⟩ src rq [] (fun _ => []) fun s => s.omiOk s.health)

/-- Records in RSEQ order. -/
def insRec (r : Rec) : List Rec → List Rec
  | [] => [r]
  | q :: l => if r.rseq < q.rseq then r :: q :: l else q :: insRec r l

/-- The 64 bytes of a record (R391). -/
def Rec.bytes (r : Rec) : List Byte := (List.range 8).flatMap fun i => toBytes 8 (r.word i)

/-- OMI_FAULT_LOG_READ (R400, R464): records to the host buffer, at most DLEN / 64; to the fabric manager, which has none,
at most 31 after the other response data. -/
def execOmiFaultLogRead (src : OmiSrc) (rq : OmiReq) (env : OmiEnv) (s : State) : Out :=
  .next (s.omiRun ⟨0x02, [.owner, .vf, .fabric], true, false, 16, [(10, 6)]⟩ src rq [] (fun _ => []) fun s =>
    let free := rq.flags.testBit 0
    let fab := s.omiWho src == .fabric
    if free && s.omiWho src != .owner then s.omiErr stDENIED 0
    else
      let all := s.fmu.log.foldl (fun l p => if rq.p 0 8 ≤ p.2.rseq then insRec p.2 l else l) []
      let rs := all.take (min (rq.p 8 2) (if fab then 31 else rq.dlen / 64))
      if !fab && !rs.isEmpty && !env.dmaOk then s.omiErr stDMA_ERROR 0
      else
        let bytes := rs.flatMap Rec.bytes
        let s := if fab || rs.isEmpty then s else s.toHost (.buffer (s.srcFn src) rq.daddr bytes)
        let s := if free then
            (s.modFmu fun f => { f with log := f.log.filter fun p => rq.p 0 8 ≤ p.2.rseq }).retryWaiting
          else s
        let nxt := match rs.getLast? with | some r => r.rseq + 1 | none => rq.p 0 8
        s.omiOk (toBytes 2 rs.length ++ toBytes 6 0 ++ toBytes 8 nxt ++ (if fab then bytes else [])))

/-! Partitions and functions. -/

/-- A partition exists (R253). -/
def State.partActive (s : State) (p : Nat) : Bool := bit (s.rd (.keyPtctl p)) 63

/-- A request of the partition, of the queue, lies between ACCEPTED and RETIRED. -/
def State.partBusy (s : State) (p : Nat) : Bool := s.runs.any fun r => r.part == p && r.st != .journaled
def State.queueBusy (s : State) (q : Nat) : Bool := s.runs.any fun r => r.queue == q && r.adopted.isNone && r.st != .journaled

/-- The grants whose target is a partition (R270). -/
def State.grantsOf (s : State) (p : Nat) : List (Nat × Word) :=
  s.regs.filterMap fun r => match r.1 with
    | .keyGrant g => if bit r.2 63 && fld r.2 9 0 == p then some (g, r.2) else none
    | _ => none

/-- A partition's data go to the mirror partner (R276). -/
def State.shipTables (s : State) (p : Nat) (keys : List (Nat × Nat)) (frames : List FrameImg) : State :=
  if s.hasPartner then
    s.send s.partnerId false false (.tables ⟨p, s.rd (.keyPtctl p), s.rd (.keyPtroot p), s.grantsOf p, keys, frames⟩)
  else s

/-- A mirror partner is valid for mirrored partitions (R431, R465): assigned, and the neighbour on the port that MPORT
names. -/
def State.partnerValid (s : State) : Bool :=
  let p := s.rf .fabPartner 2 0
  s.hasPartner && s.portUp p && (s.port p).beacon.isSome && s.rf (.fabPstatus p) 43 32 == s.partnerId

/-- The registers of a partition's tables, program table and request area, from the parameters of OMI_PARTITION_CREATE. -/
def OmiReq.root (rq : OmiReq) : Word := setFld 0 51 13 (rq.p 8 8 / 8192)
def OmiReq.progtab (rq : OmiReq) : Word := setFld 0 51 6 (rq.p 16 8 / 64)
def OmiReq.rqarea (rq : OmiReq) : Word := setFld (setFld 0 51 16 (rq.p 24 8 / 65536)) 14 0 (rq.p 32 2)

/-- OMI_PARTITION_CREATE (R252, R264, R465): an active partition keeps its KEY_PTCTL. -/
def execOmiPartitionCreate (src : OmiSrc) (rq : OmiReq) (_env : OmiEnv) (s : State) : Out :=
  let p := rq.p 0 2
  let mir := rq.p 2 1
  let unv := rq.p 3 1
  .next (s.omiRun ⟨0x10, byOwner, false, false, 40, [(6, 2), (34, 6)]⟩ src rq [obPart p]
    (fun _ => [prm 0 (p > 1023), prm 2 (mir > 1), prm 3 (unv > 1), prm 5 (rq.p 5 1 > 1),
      prm 8 (rq.p 8 8 % 8192 ≠ 0 || rq.p 8 8 ≥ 2 ^ 52), prm 16 (rq.p 16 8 % 64 ≠ 0 || rq.p 16 8 ≥ 2 ^ 52),
      prm 24 (rq.p 24 8 % 65536 ≠ 0 || rq.p 24 8 ≥ 2 ^ 52), prm 32 (rq.p 32 2 > 16384)]) fun s =>
    let old := s.partActive p
    if old && (s.rf (.keyPtctl p) 62 62 != mir || s.rf (.keyPtctl p) 61 61 != unv) then s.omiErr stEXISTS 0
    else if mir = 1 && !s.partnerValid then s.omiErr stSTATE_ERROR 0
    else if old && s.partBusy p && s.rd (.intRqarea p) != rq.rqarea then s.omiErr stBUSY 0
    else
      let c := setFld (setFld (setFld (setFld (setBit 0 63 true) 62 62 mir) 61 61 unv) 55 48 (rq.p 4 1)) 47 47 (rq.p 5 1)
      let s := ((if old then s else s.wr (.keyPtctl p) c).wr (.keyPtroot p) rq.root).wr (.intProgtab p) rq.progtab
      let s := s.wr (.intRqarea p) rq.rqarea
      let s := if old then s.dropTlb fun t => t.part != p else s
      let s := s.giveFrames p
      (if mir = 1 then s.shipTables p [] [] else s).omiOk [])

/-- OMI_PARTITION_DELETE (R465). -/
def execOmiPartitionDelete (src : OmiSrc) (rq : OmiReq) (_env : OmiEnv) (s : State) : Out :=
  let p := rq.p 0 2
  .next (s.omiRun ⟨0x11, byOwner, false, false, 8, [(2, 6)]⟩ src rq [obPart p] (fun _ => [prm 0 (p > 1023)]) fun s =>
    let bound := s.regs.any fun r => match r.1 with
      | .keyQbind _ => bit r.2 63 && fld r.2 9 0 == p
      | .keyFnbind _ => bit r.2 63 && fld r.2 9 0 == p
      | _ => false
    if p = 0 then s.omiErr stDENIED 0
    else if !s.partActive p then s.omiErr stNOT_FOUND 0
    else if s.partBusy p || bound || !(s.grantsOf p).isEmpty then s.omiErr stBUSY 0
    else
      let mir := bit (s.rd (.keyPtctl p)) 62
      let z (s : State) (r : Reg) : State := s.wr r (Reg.cold s.fuses r)
      let s := z (z (z (z s (.keyPtctl p)) (.keyPtroot p)) (.intProgtab p)) (.intRqarea p)
      let s := s.dropTlb fun t => t.part != p
      (if mir then s.shipTables p [] [] else s).omiOk [])

/-- The lowest range of n entries that no other function holds (R452). -/
def State.freeVecs (s : State) (f n : Nat) : Option Nat :=
  let held := (0 :: (s.hif.fns.map (·.1)).filter (fun g => g != f && g != 0)).map s.fnVecs
  ((List.range (2049 - n)).find? fun b => held.all fun h => b + n ≤ h.1 || h.1 + h.2 ≤ b)

/-- OMI_FUNCTION_BIND (R272 to R274, R452, R465). -/
def execOmiFunctionBind (src : OmiSrc) (rq : OmiReq) (_env : OmiEnv) (s : State) : Out :=
  let f := rq.p 0 1
  let p := rq.p 2 2
  .next (s.omiRun ⟨0x12, byOwner, false, false, 8, [(1, 1), (6, 2)]⟩ src rq [obFn f, obPart p]
    (fun _ => [prm 2 (p > 1023 && p != 0xFFFF)]) fun s =>
    let n := rq.p 4 2
    let un := p == 0xFFFF
    let b := s.rd (.keyFnbind f)
    let qs := s.regs.any fun r => match r.1 with | .keyQbind _ => bit r.2 63 && fld r.2 55 48 == f | _ => false
    let busy := s.runs.any fun r => r.st != .journaled && r.adopted.isNone && bit (s.rd (.keyQbind r.queue)) 63 && s.rf (.keyQbind r.queue) 55 48 == f
    if f = 0 then s.omiErr stDENIED 0
    else if !un && !s.partActive p then s.omiErr stNOT_FOUND 0
    else if busy || (qs && (un || fld b 9 0 != p)) then s.omiErr stBUSY 0
    else if un then
      ((s.wr (.keyFnbind f) 0).modHif fun h => { h with fns := sset Fn.cold h.fns f { sget Fn.cold h.fns f with
        vbase := 0, nvec := 0, table := [], pend := [] } }).omiOk (toBytes 8 0)
    else match (if n > 2048 then none else s.freeVecs f n) with
    | none => s.omiErr stNO_RESOURCE 0
    | some v =>
      ((s.wr (.keyFnbind f) (setFld (setBit 0 63 true) 9 0 p)).modHif fun h => { h with
        fns := sset Fn.cold h.fns f { sget Fn.cold h.fns f with vbase := v, nvec := n, table := [], pend := [] } }).omiOk
          (toBytes 2 v ++ toBytes 6 0))

/-! Queues. -/

/-- OMI_QUEUE_CREATE (R273, R333, R358, R465). A queue whose function cannot master the bus begins as held (DEDUCED from
R454, log 137). -/
def execOmiQueueCreate (src : OmiSrc) (rq : OmiReq) (_env : OmiEnv) (s : State) : Out :=
  let q := rq.p 0 2
  let f := rq.p 2 1
  let sq := rq.p 5 1
  let cq := rq.p 6 1
  .next (s.omiRun ⟨0x13, byOwner, false, false, 40, [(7, 1), (10, 6)]⟩ src rq [obQueue q, obFn f]
    (fun s => [prm 0 (q > 4095), prm 3 (rq.p 3 1 > 1), prm 4 (rq.p 4 1 > 7), prm 5 (sq < 4 || sq > 16),
      prm 6 (cq ≤ sq || cq > 17), prm 8 ((bit (s.rd (.keyFnbind f)) 63 || f == 0) && rq.p 8 2 ≥ (s.fnVecs f).2),
      prm 16 (rq.p 16 8 % 512 ≠ 0), prm 24 (rq.p 24 8 % 128 ≠ 0)]) fun s =>
    if !bit (s.rd (.keyFnbind f)) 63 && f != 0 then s.omiErr stNOT_FOUND 0
    else if bit (s.rd (.intQcfg q)) 63 then s.omiErr stEXISTS 0
    else
      let w := setFld (setFld (setFld (setBit 0 63 true) 62 62 (rq.p 3 1)) 61 59 (rq.p 4 1)) 55 52 (sq % 16)
      let s := s.wr (.intQcfg q) (setFld (setFld w 51 48 (cq % 16)) 10 0 (rq.p 8 2))
      let s := s.wr (.keyQbind q) (setFld (setFld (setBit 0 63 true) 55 48 f) 9 0 (s.rf (.keyFnbind f) 9 0))
      let s := (s.wr (.intSqbase q) (BitVec.ofNat 64 (rq.p 16 8))).wr (.intCqbase q) (BitVec.ofNat 64 (rq.p 24 8))
      let s := (s.wr (.intCqtail q) (BitVec.ofNat 64 (rq.p 32 8))).setQueue q { Queue.cold with
        relKey := (s.queue q).relKey, held := !s.fnMaster f }
      let s : State := { s with runs := s.runs.map fun (r : Run) =>
        if r.queue = q && r.adopted.isNone then { r with region := rq.p 4 1 } else r }
      s.omiOk [])

/-- OMI_QUEUE_DELETE (R465). -/
def execOmiQueueDelete (src : OmiSrc) (rq : OmiReq) (_env : OmiEnv) (s : State) : Out :=
  let q := rq.p 0 2
  .next (s.omiRun ⟨0x14, byOwner, false, false, 8, [(2, 6)]⟩ src rq [obQueue q] (fun _ => [prm 0 (q > 4095)]) fun s =>
    if !bit (s.rd (.intQcfg q)) 63 then s.omiErr stNOT_FOUND 0
    else if s.queueBusy q then s.omiErr stBUSY 0
    else
      let z (s : State) (r : Reg) : State := s.wr r (Reg.cold s.fuses r)
      let s := z (z (z (z (z s (.intQcfg q)) (.keyQbind q)) (.intSqbase q)) (.intCqbase q)) (.intCqtail q)
      (s.setQueue q Queue.cold).omiOk [])

/-! Grants, tables, memory. -/

/-- OMI_GRANT_SET (R270, R276, R465). -/
def execOmiGrantSet (src : OmiSrc) (rq : OmiReq) (env : OmiEnv) (s : State) : Out :=
  let g := rq.p 0 2
  let v := BitVec.ofNat 64 (rq.p 8 8)
  .next (s.omiRun ⟨0x15, byOwner, false, false, 16, [(2, 6)]⟩ src rq [obPart (fld v 9 0)]
    (fun _ => [prm 0 (g > 4095), prm 8 (fld v 59 48 != 0 || fld v 35 34 != 0 || fld v 15 10 != 0)]) fun s =>
    let old := s.rd (.keyGrant g)
    let mir (w : Word) : Bool := bit w 63 && bit (s.rd (.keyPtctl (fld w 9 0))) 62
    if (mir v || mir old) && !env.ack then s.omiErr stPARTNER_ERROR 0
    else
      let s := s.wr (.keyGrant g) v
      let s := if mir old then s.shipTables (fld old 9 0) [] [] else s
      (if mir v && !(mir old && fld old 9 0 == fld v 9 0) then s.shipTables (fld v 9 0) [] [] else s).omiOk [])

/-- OMI_TABLES_SHIP (R276, R465): the frames whose addresses the buffer holds, with their keys. -/
def execOmiTablesShip (src : OmiSrc) (rq : OmiReq) (env : OmiEnv) (s : State) : Out :=
  let p := rq.p 0 2
  .next (s.omiRun ⟨0x16, byOwner, false, false, 8, [(2, 6)]⟩ src rq [obPart p]
    (fun _ => [(0x18, rq.dlen % 8 ≠ 0), prm 0 (p > 1023)]) fun s =>
    let bs := rq.data env
    let as := (List.range (bs.length / 8)).map fun i => bytesAt bs (8 * i) 8
    if !s.partActive p then s.omiErr stNOT_FOUND 0
    else if !bit (s.rd (.keyPtctl p)) 62 then s.omiErr stSTATE_ERROR 0
    else if !env.dmaOk then s.omiErr stDMA_ERROR 0
    else if as.any fun a => a % 4096 != 0 || !s.physOk a then (s.readBuffer src rq).omiErr stBAD_PARAM 0x10
    else if !env.ack then (s.readBuffer src rq).omiErr stPARTNER_ERROR 0
    else
      let ks := as.map fun a => (a / 4096, (s.frameKey a).1 + 256 * b2n (s.frameKey a).2)
      ((s.readBuffer src rq).shipTables p ks (as.map fun a => s.frameImage (a / 4096))).omiOk [])

/-- OMI_TCM_CODE_LOAD (R243, R269, R465). -/
def execOmiTcmCodeLoad (src : OmiSrc) (rq : OmiReq) (_env : OmiEnv) (s : State) : Out :=
  let p := rq.p 2 2
  let b := rq.p 0 1
  let a := rq.p 8 8
  .next (s.omiRun ⟨0x17, byOwner, false, false, 16, [(1, 1), (6, 2)]⟩ src rq [obPart p]
    (fun s => [prm 0 (b > 63), prm 2 (p > 1023), prm 5 (rq.p 5 1 > 1), prm 8 (a % 4096 ≠ 0 || !s.physOk a)]) fun s =>
    if !s.partActive p then s.omiErr stNOT_FOUND 0
    else
      let d := setFld (setFld (setFld (setBit (setBit 0 63 true) 62 true) 57 48 p) 47 40 (rq.p 4 1)) 39 39 (rq.p 5 1)
      let ws := (List.range 512).map fun i => s.memWord (a + 8 * i)
      let es := (List.range 256).filter fun e => s.clusterOn (e / 8) && s.coreState e != csRETIRED
      (s.modMp fun m => { m with
        code := m.code.filter (fun x => x.1 != b) ++ [(b, d, ws, s.tick + 1)],
        codeDue := m.codeDue.filter (fun x => x.2 != b) ++ es.map fun e => (e, b) }).omiOk [])

/-- OMI_MEMORY_LAYOUT_SET (R45, R465). A size that is no whole number of 4 KiB frames is BAD_PARAM (DESIGN CHOICE, log 102). -/
def execOmiMemoryLayoutSet (src : OmiSrc) (rq : OmiReq) (_env : OmiEnv) (ptnM ptnP : Nat) (s : State) : Out :=
  let m := rq.p 0 8
  let u := rq.p 8 8
  .next (s.omiRun ⟨0x18, byOwner, false, false, 16, []⟩ src rq [obLayout]
    (fun s => [prm 0 (m % 4096 ≠ 0 || m > s.layout.d || (s.hasPartner && (m != ptnP || s.layout.d - m - u != ptnM))),
      prm 8 (u % 4096 ≠ 0 || m + u > s.layout.d)]) fun s =>
    let d := s.layout.d
    let p := d - m - u
    let active := s.regs.any fun r => match r.1 with | .keyPtctl p => p != 0 && bit r.2 63 | _ => false
    if active then s.omiErr stBUSY 0
    else State.omiOk { s with layout := ⟨s.layout.cap, m, u, p⟩ } (toBytes 8 d ++ toBytes 8 p))

/-- OMI_JOURNAL_KEY_SET (R340, R465): a key that unwraps under the enrolled key-encryption key. -/
def execOmiJournalKeySet (src : OmiSrc) (rq : OmiReq) (env : OmiEnv) (s : State) : Out :=
  .next (s.omiRun ⟨0x19, byOwner, false, false, 48, [(1, 7)]⟩ src rq [] (fun _ => []) fun s =>
    let live := match s.vault.prevKey with
      | some (e, _) => (s.vault.own ++ s.vault.ptn).any fun r => r.keyep == e
      | none => false
    let k := match s.mp.creds.find? fun c => c.kind == 5 with
      | some c => Config.unwrapKey c.key (rq.p 8 40)
      | none => none
    match k with
    | none => s.omiErr stAUTH_FAILED 0
    | some k =>
      if live then s.omiErr stSTATE_ERROR 0
      else if s.hasPartner && !env.ack then s.omiErr stPARTNER_ERROR 0
      else (s.modVault fun v => { v with key := some (rq.p 0 1, k), prevKey := v.key }).omiOk [])

/-- OMI_TAKEOVER_QUEUE_SET (R357, R465). -/
def execOmiTakeoverQueueSet (src : OmiSrc) (rq : OmiReq) (_env : OmiEnv) (s : State) : Out :=
  let pq := rq.p 0 2
  let q := rq.p 2 2
  .next (s.omiRun ⟨0x1A, byOwner, false, false, 8, [(4, 4)]⟩ src rq [obQueue q]
    (fun _ => [prm 0 (pq > 4095), prm 2 (q > 4095 && q != 0xFFFF)]) fun s =>
    if q = 0xFFFF then State.omiOk { s with takeQ := sdel s.takeQ pq } []
    else if !bit (s.rd (.intQcfg q)) 63 then s.omiErr stNOT_FOUND 0
    else
      let s : State := { s with takeQ := sins s.takeQ pq q }
      (if s.fab.custody then s.takeRelease pq q else s).omiOk [])

/-- OMI_ADMIT_SET (R327): TSQ_ADMIT.LIMIT. -/
def execOmiAdmitSet (src : OmiSrc) (rq : OmiReq) (_env : OmiEnv) (s : State) : Out :=
  .next (s.omiRun ⟨0x1B, byOwner, false, false, 8, [(2, 6)]⟩ src rq [] (fun _ => []) fun s =>
    (s.wf .tsqAdmit 15 0 (rq.p 0 2)).omiOk [])

end Sys2Proof.Machine
end

