-- ==== Sys2Proof/Machine/OmiSys.lean ====
section
/-!
DEFINITION. The commands of host and fabric manager (R464, R465) on units and clusters, microcode, firmware, credentials,
the degradation ledger, Fawn mode, mailboxes, roles, the mirror partner, the restore of a ledger, device IDs and the tick
period.
-/
namespace Sys2Proof.Machine

/-! Units and clusters. -/

/-- The locator of a command's LOC parameter, if it is one of this device at a DEPTH (R42, R465). A valid one of another
device or at another DEPTH gets the answer of an invalid one, BAD_LOCATOR (DESIGN CHOICE, log 103). -/
def State.locArg (s : State) (rq : OmiReq) (depth : Nat) : Option Loc :=
  let l := Loc.of (rq.p 0 4)
  if s.locValid (rq.p 0 4) && l.dev == s.devId && l.depth == depth then some l else none

/-- OMI_UNIT_MODE_SET (R385, R387, R464): mine says which MODE the row handles. -/
def State.unitMode (s : State) (src : OmiSrc) (rq : OmiReq) (mine : Nat → Bool) (body : State → Nat → Nat → OmiAns) : State :=
  let l := Loc.of (rq.p 0 4)
  let c := l.clusterDw
  if !mine (rq.p 4 1) then s
  else s.omiRun ⟨0x20, byOwner, false, false, 16, [(5, 3)]⟩ src rq [obSlot c l.slot, obCluster c]
    (fun _ => [prm 4 (rq.p 4 1 > 1)]) fun s =>
    match s.locArg rq 5 with
    | none => s.omiErr stBAD_LOCATOR 0
    | some l => body s l.clusterDw l.slot

/-- OMI_UNIT_SPLIT (R385): MODE 1; the mailbox stays BUSY until the hand-over. -/
def execOmiUnitSplit (src : OmiSrc) (rq : OmiReq) (_env : OmiEnv) (s : State) : Out :=
  .next (s.unitMode src rq (· != 0) fun s c sl =>
    if s.slotState c sl ≠ slACTIVE || s.cluMode c ≠ 0 || bit (s.rd (.cluSlot c sl)) 27 then s.omiErr stSTATE_ERROR 0
    else ⟨s.modSlotX c sl fun x => { x with splitAt := some (rq.p 8 8) }, none⟩)

/-- OMI_UNIT_REJOIN (R387, R389): MODE 0. -/
def execOmiUnitRejoin (src : OmiSrc) (rq : OmiReq) (_env : OmiEnv) (s : State) : Out :=
  .next (s.unitMode src rq (· == 0) fun s c sl =>
    let st := s.slotState c sl
    let gone := (s.slotCores c sl).filter fun e => s.coreState e == csRETIRED
    if st ≠ slSPLIT && st ≠ slHELD then s.omiErr stSTATE_ERROR 0
    else if gone.any (fun e => (s.pickSpare e).isNone) then s.omiErr stNO_RESOURCE 0
    else ⟨s.modSlotX c sl fun x => { x with rejoinAt := some (rq.p 8 8) }, none⟩)

/-- OMI_CLUSTER_MODE_SET (R388): the mailbox stays BUSY until the cluster reset. -/
def execOmiClusterModeSet (src : OmiSrc) (rq : OmiReq) (_env : OmiEnv) (s : State) : Out :=
  let c := (Loc.of (rq.p 0 4)).clusterDw
  .next (s.omiRun ⟨0x21, byOwner, false, false, 8, [(5, 3)]⟩ src rq (obCluster c :: (List.range 5).map (obSlot c))
    (fun _ => [prm 4 (rq.p 4 1 > 1)]) fun s =>
    match s.locArg rq 4 with
    | none => s.omiErr stBAD_LOCATOR 0
    | some _ =>
      if (List.range 5).any fun sl => s.slotState c sl == slSPLIT then s.omiErr stSTATE_ERROR 0
      else
        let s := s.wf (.cluMode c) 1 1 (rq.p 4 1)
        ⟨{ s with cluDrain := s.cluDrain.filter (fun p => p.1 != c) ++ [(c, s.tick + 1)] }, none⟩)

/-! Microcode, firmware, credentials. -/

/-- The words and decode entries of an image go into a core: words from base on, entries into the inactive bank, which is
sealed (R203, R222, R224). A word that is written reads without a parity error again (R203). -/
def Core.storeImage (c : Core) (base : Nat) (ws : List (BitVec 32)) (es : List Word) : Core :=
  let k := 1 - fld c.ucstat 8 8
  { c with
    cstore := (ws.zipIdx).foldl (fun m (p : BitVec 32 × Nat) => sset 0 m ((base + p.2) % 4096) p.1) c.cstore
    dectab := (es.zipIdx).foldl (fun m (p : Word × Nat) =>
      sset 0 m (64 * k + p.2) (if bit p.1 63 then setFld p.1 11 0 ((fld p.1 11 0 + base) % 4096) else p.1)) c.dectab
    parity := c.parity.filter fun p => !((p.1 == 0x0103 && decide ((p.2 + 4096 - base) % 4096 < ws.length))
      || (p.1 == 0x0104 && p.2 / 64 == k))
    ucstat := setFld c.ucstat k k 1 }

/-- OMI_MICROCODE_LOAD (R222 to R225): the mailbox stays BUSY until the activation. -/
def execOmiMicrocodeLoad (src : OmiSrc) (rq : OmiReq) (env : OmiEnv) (s : State) : Out :=
  .next (s.omiRun ⟨0x22, byOwner, false, false, 8, []⟩ src rq [obStores] (fun _ => []) fun s =>
    let bs := rq.data env
    let t := rq.p 0 8
    let key := (s.mp.creds.find? fun c => c.kind == 2 && c.index == bytesAt bs 0xC 4).map (·.key)
    let ws := imgWords bs
    if !env.dmaOk then s.omiErr stDMA_ERROR 0
    else
    let s := s.readBuffer src rq
    match imgReason key bs s.mp.ucode (s.mp.image.isSome || s.fawn) (decide (t < s.tick + 16)) with
    | some r => s.omiErr stREFUSED r
    | none =>
      let base := (freeBase s.mp.ucode ws.length).getD 0
      let s := ((List.range 256).filter fun e => s.clusterOn (e / 8) && s.coreState e != csRETIRED).foldl
        (fun (s : State) e => s.modCore e fun c => c.storeImage base ws (imgEntries bs)) s
      ⟨s.modMp fun m => { m with image := some (t, bs), ucodeNext := (base, ws.length) }, none⟩)

/-- OMI_FIRMWARE_UPDATE (R456): the inactive slot, after its image has been verified. -/
def execOmiFirmwareUpdate (src : OmiSrc) (rq : OmiReq) (env : OmiEnv) (img : FwImg) (s : State) : Out :=
  .next (s.omiRun ⟨0x23, byOwner, false, true, 0, []⟩ src rq [] (fun _ => []) fun s =>
    if !env.dmaOk then s.omiErr stDMA_ERROR 0
    else
    let s := s.readBuffer src rq
    if !img.valid || img.version < s.mp.antiRollback || img.minver > img.version then s.omiErr stAUTH_FAILED 0
    else (s.modMp fun m => { m with fw := m.fw.set (1 - m.running) img }).omiOk [])

/-- The debug domain's copy of the enrolled debug credentials (R471). -/
def State.copyCreds (s : State) : State :=
  if s.dbg.powered then
    s.modDbg fun d => { d with creds := some (s.mp.creds.filter fun c => c.kind == 3 || c.kind == 4) }
  else s

/-- OMI_CREDENTIAL_ENROLL (R464, R465, R471). -/
def execOmiCredentialEnroll (src : OmiSrc) (rq : OmiReq) (env : OmiEnv) (s : State) : Out :=
  let kind := rq.p 0 1
  let index := rq.p 1 1
  .next (s.omiRun ⟨0x24, byOwner, false, true, 8, [(2, 6)]⟩ src rq []
    (fun _ => [prm 0 (kind > 5), prm 1 ((kind == 3 || kind == 4) && index > 3)]) fun s =>
    let bs := rq.data env
    let root := s.mp.creds.find? fun c => c.kind == 0
    let n := bs.length - 96
    let enroll (s : State) (k : Nat) : OmiAns :=
      ((s.modMp fun m => { m with creds := m.creds.filter (fun c => !(c.kind == kind && c.index == index)) ++ [⟨kind, index, k⟩] }).copyCreds).omiOk []
    if !env.dmaOk then s.omiErr stDMA_ERROR 0
    else
    let s := s.readBuffer src rq
    match root with
    | none => if kind = 0 then enroll s (ofBytes (bs.take 96)) else s.omiErr stAUTH_FAILED 0
    | some r =>
      if decide (bs.length > 96) && Config.ecdsaVerify r.key (ofBytes (bs.take n)) (ofBytes (bs.drop n)) then enroll s (ofBytes (bs.take n))
      else s.omiErr stAUTH_FAILED 0)

/-! Degradation, Fawn mode, mailboxes, roles. -/

/-- OMI_DEGRADATION_CLEAR (R406): of a function that has been replaced or repaired. -/
def execOmiDegradationClear (src : OmiSrc) (rq : OmiReq) (_env : OmiEnv) (repaired : Bool) (s : State) : Out :=
  .next (s.omiRun ⟨0x25, byOwner, true, true, 8, [(6, 2)]⟩ src rq (s.obLoc (rq.p 0 4)) (fun _ => []) fun s =>
    let mine (d : Degr) : Bool := d.loc == rq.p 0 4 && d.sig == rq.p 4 2
    if !s.locValid (rq.p 0 4) then s.omiErr stBAD_LOCATOR 0
    else if !s.mp.ledger.any mine then s.omiErr stNOT_FOUND 0
    else if !repaired then s.omiErr stSTATE_ERROR 0
    else (s.modMp fun m => { m with ledger := m.ledger.filter fun d => !mine d }).omiOk [])

/-- OMI_FAWN_EXIT (R414): intake opens at the next pulse. -/
def execOmiFawnExit (src : OmiSrc) (rq : OmiReq) (_env : OmiEnv) (s : State) : Out :=
  .next (s.omiRun ⟨0x26, byOwner, true, false, 0, []⟩ src rq [] (fun _ => []) fun s =>
    if !s.fawn then s.omiOk []
    else if s.causes ≠ 0 || s.fab.handAck || s.rf .fabLease 63 61 = 5 then s.omiErr stSTATE_ERROR s.causes
    else
      let s := ((s.wf .fmuStatus 61 60 0).wf .fmuStatus 55 48 0).alarm sgFAWN_EXIT s.locDevice 0
      (s.modSched fun k => { k with isOpen := false, opening := k.isOpen || k.opening }).omiOk [])

/-- OMI_MAILBOX_ASSIGN (R461). -/
def execOmiMailboxAssign (src : OmiSrc) (rq : OmiReq) (_env : OmiEnv) (s : State) : Out :=
  let m := rq.p 0 1
  .next (s.omiRun ⟨0x27, byOwner, false, false, 8, [(2, 6)]⟩ src rq [obFn (rq.p 1 1)] (fun _ => [prm 0 (m > 31)]) fun s =>
    if m = 0 then s.omiErr stDENIED 0
    else if s.rf (.mbxStatus m) 1 0 = 1 then s.omiErr stBUSY 0
    else
      let s := (s.wf (.mbxOwner m) 7 0 (rq.p 1 1)).wf (.mbxStatus m) 63 32 0
      ((s.wf (.mbxStatus m) 1 0 0).setMbx m Mbx.cold).omiOk [])

/-- OMI_ROLE_SET (R424). -/
def execOmiRoleSet (src : OmiSrc) (rq : OmiReq) (_env : OmiEnv) (s : State) : Out :=
  .next (s.omiRun ⟨0x28, byOwner, false, true, 8, [(2, 6)]⟩ src rq [] (fun _ => []) fun s =>
    let s := (s.wf .fabRole 31 24 (rq.p 0 1)).wf .fabRole 23 16 (rq.p 1 1)
    (s.modMp fun m => { m with prio := (rq.p 0 1, rq.p 1 1) }).omiOk [])

/-! The mirror partner. -/

/-- OMI_PARTNER_SET (R431): the partner and the witness are two other devices. -/
def execOmiPartnerSet (src : OmiSrc) (rq : OmiReq) (_env : OmiEnv) (s : State) : Out :=
  let p := rq.p 0 2
  let w := rq.p 2 2
  .next (s.omiRun ⟨0x30, [.fabric], false, false, 8, [(5, 3)]⟩ src rq [obPartner]
    (fun s => [prm 0 (p > 4095 || p == s.devId), prm 2 (w > 4095 || w == s.devId || w == p), prm 4 (rq.p 4 1 > 7)]) fun s =>
    let v := setFld (setFld (setFld (setBit 0 63 true) 59 48 w) 43 32 p) 2 0 (rq.p 4 1)
    let s := ((s.wr .fabPartner v).wf .fabLease 63 61 1).wf .fabLease 59 56 0
    (s.modFab fun f => { f with hbMiss := 0, hbSeen := false, asked := false, granted := none }).omiOk [])

/-- OMI_PARTNER_RESTORE (R436): at the custodian, or at the device that waits for its custody. -/
def execOmiPartnerRestore (src : OmiSrc) (rq : OmiReq) (_env : OmiEnv) (s : State) : Out :=
  .next (s.omiRun ⟨0x31, [.owner, .fabric], true, false, 8, []⟩ src rq [obPartner] (fun _ => []) fun s =>
    let ps := s.rf .fabLease 63 61
    if !(s.fab.custody || s.fab.handAck || ps == 4 || ps == 5) then s.omiErr stSTATE_ERROR 0
    else ⟨s.modFab fun f => { f with asked := false, restoreAt := some (rq.p 0 8) }, none⟩)

/-- OMI_LEDGER_LOAD (R355): the image, committed as at the start of tick M + 1, and what the journal holds above it. -/
def execOmiLedgerLoad (src : OmiSrc) (rq : OmiReq) (env : OmiEnv) (image : List FrameImg) (s : State) : Out :=
  .next (s.omiRun ⟨0x32, byOwner, false, false, 8, []⟩ src rq [] (fun _ => []) fun s =>
    let m := rq.p 0 8
    if !s.sched.waitLoad || m < (s.rd .vltRtick).toNat then s.omiErr stSTATE_ERROR 0
    else if !env.dmaOk then s.omiErr stDMA_ERROR 0
    else
      let s := image.foldl (init := s.readBuffer src rq) (fun (s : State) im => s.putImage (4096 * im.frame) im)
      let s := (s.applyAbove m).restoreRuns fun _ => true
      let s := (s.wf .tsqSealed 47 0 (max m s.lastCommit)).wf .vltStatus 61 60 0
      let s := if s.hasPartner then s.send s.partnerId false false (.restore s.ownArea [] []) else s
      (s.modSched fun k => { k with waitLoad := false }).omiOk [])

/-! Device IDs and the tick period. -/

/-- OMI_DEVICE_ID_RELEASE (R425): refused while any device holds journal records or a replica of the bound device. -/
def execOmiDeviceIdRelease (src : OmiSrc) (rq : OmiReq) (_env : OmiEnv) (held : Bool) (s : State) : Out :=
  .next (s.omiRun ⟨0x33, [.fabric], false, true, 8, []⟩ src rq [] (fun _ => []) fun s =>
    match s.fab.ids.find? fun p => p.1 == rq.p 0 8 with
    | none => s.omiErr stNOT_FOUND 0
    | some p =>
      if held || (s.hasPartner && s.partnerId == p.2) then s.omiErr stSTATE_ERROR 0
      else
        let s := s.modFab fun f => { f with ids := f.ids.filter fun q => q.1 != p.1 }
        (s.candidates.foldl (fun (s : State) d => s.send d false false (.manage (.unbind p.1))) s).omiOk [])

/-- OMI_TICK_PERIOD_SET (R306): a change that comes too late is discarded. -/
def execOmiTickPeriodSet (src : OmiSrc) (rq : OmiReq) (_env : OmiEnv) (s : State) : Out :=
  let n := rq.p 0 1
  let t := rq.p 8 8
  .next (s.omiRun ⟨0x34, [.fabric], false, false, 16, [(1, 7)]⟩ src rq []
    (fun _ => [prm 0 (n < 4 || n > 64), prm 8 (t ≥ 2 ^ 48)]) fun s =>
    if t < s.tick + 16 then (s.event sgTICK_PERIOD_LATE (s.locElement elTSQ) 0).omiErr stSTATE_ERROR 0
    else ((s.wf .tsqPeriod 55 48 n).wf .tsqPeriod 47 0 t).omiOk [])

end Sys2Proof.Machine
end

