-- ==== Sys2Proof/Machine/Power.lean ====
section
/-!
DEFINITION. Power, the hold-up store, clocks and temperature (R491 to R505, R511, R512), and the board buses (R494, R527,
R529).
-/
namespace Sys2Proof.Machine

/-! The power-fail sequence (R501, R502). -/

/-- The dump image of the vault as it is frozen (R352, R353). -/
def State.dumpImg (s : State) : DumpImg :=
  let v := s.vault
  let (ep, k) := v.key.getD (0, 0)
  (⟨s.devId, v.slots.foldl (fun m x => max m x.seq) 0 + 1, v.nextRsn, (s.rd .intNextisn).toNat, (s.rd .vltRtick).toNat, s.tick,
    v.own, v.ptn, ep, 0, 0⟩ : DumpImg).sealed k

/-- The sequence of R501, once: the vault freezes and its dump starts, VLT_PWR_SEL := 1, the charger and a capacitance test
stop; every other domain is in reset from here on (R502): no tick runs, the clusters and the links are down. -/
def State.powerFail (s : State) : State :=
  if s.pfail then s
  else
    let s := ((((s.wf .hupStatus 0 0 1).wf .hupStatus 1 1 1).wf .hupStatus 2 2 0).wf .hupStatus 3 3 0).modPwr
      fun p => { p with v0 := none }
    let s := s.alarm sgPWR_FAIL (s.locElement elHUP) 0
    let room := s.vault.slotsLeft != 0
    let s := s.wf .vltStatus 61 60 (if room then 2 else 1)
    let im := s.dumpImg
    let s := s.modVault fun v => { v with dumping := if room then some im else none }
    let s := (List.range 8).foldl (fun (s : State) p => s.wf (.fabPstatus p) 2 0 0) ((s.wf .tsqStatus 2 0 4).wf .hifLink 15 12 0)
    { s with cluInReset := (List.range 32).filter s.clusterOn }

/-- PWR_FAIL (R352, R501): PWR_FAIL_N is asserted. -/
def execPwrFail (s : State) : Out := .next s.powerFail

/-- VAULT_UNDERVOLTAGE (R501). -/
def execVaultUndervoltage (s : State) : Out := .next s.powerFail

/-- RAIL_FAULT (R493): rail i. -/
def execRailFault (i : Fin 8) (s : State) : Out :=
  .next ((s.alarm sgRAIL_FAULT (s.locElement elPWR) (detBytes 1 i)).wf (.pwrRail i) 0 0 1).powerFail

/-- TIMEREF_LOST (R505). -/
def execTimerefLost (s : State) : Out :=
  .next ((s.alarm sgTIMEREF_LOST (s.locElement elPWR) 0).wf .clkCtl 3 3 0).powerFail

/-- THERM_TRIP (R512). -/
def execThermTrip (s : State) : Out :=
  .next ((s.modPwr fun p => { p with thermTrip := true }).alarm sgTHERM_TRIP (s.locElement elPWR) 0).powerFail

/-- The newest valid image (R355). -/
def Vault.newest (v : Vault) : Option DumpImg :=
  v.slots.foldl (fun b x => if !v.dumpOk x then b else match b with
    | some y => if x.seq > y.seq then some x else b
    | none => some x) none

/-- Slot pairs are lost: more bad blocks than the channel's spare blocks replace, so that a dump cannot reserve them (R354). -/
def Vault.loseSlots (v : Vault) (lost : Nat) : Vault := { v with slotsLeft := v.slotsLeft - lost }

/-- DUMP_COMPLETE (R354, R501, R502): the image goes into the slot pair that does not hold the newest valid one, and the
cold reset that follows can begin. -/
def execDumpComplete (s : State) : Out :=
  .next (if !s.pfail || s.pwr.dumped then s
  else
    let keep := if s.vault.slotsLeft ≥ 2 then s.vault.newest.toList else s.vault.slots.filter fun _ => s.vault.dumping.isNone
    let s := s.modVault fun v => { v with slots := keep ++ (if s.vault.slotsLeft = 0 then [] else v.dumping.toList), dumping := none }
    let s := (s.wf .vltStatus 61 60 3).modPwr fun p => { p with dumped := true }
    { s with resets := { s.resets with cold := some 4, warm := none, parts := [] } })

/-! The bank. -/

/-- Vmin of R498 in units of 0.01 mV: VCUT × 10 mV plus IPK × 0.1 A × ESR. -/
def State.vmin (s : State) : Nat := s.rf .hupCfg 11 0 * 1000 + s.rf .hupCfg 39 32 * s.rf .hupMeas 31 16

/-- V² − Vmin² of R498 for a bank voltage in units of 0.25 mV, in units of 10⁻¹⁰ V²; 0 at and below Vmin. -/
def State.span (s : State) (v : Nat) : Nat := (25 * v) ^ 2 - s.vmin ^ 2

/-- The energy estimate of R498 in mJ, to the nearest, for a capacitance of 4 / d F. -/
def State.energyMj (s : State) (d v : Nat) : Nat := (s.span v + 2500000 * d) / (5000000 * d)

/-- The energy estimate for the last accepted test is below mj: 1.2 J in R499, 1.4 J in R497. Before the first one it is 0
(R498). -/
def State.energyBelow (s : State) (mj v : Nat) : Bool :=
  match s.pwr.test with
  | some d => decide (s.span v < mj * 5000000 * d)
  | none => true

/-- CAPACITANCE_TEST (R497): v0 as sampled before the load is connected; the command asserts that the test or its retry is
due. A test that is deferred changes nothing. -/
def execCapacitanceTest (v0 : BitVec 16) (s : State) : Out :=
  let again := s.rf .hupMeas 1 0 = 1 ∨ s.rf .hupMeas 1 0 = 2
  .next (if s.pfail || s.pwr.v0.isSome || decide (v0.toNat < s.rf .hupCfg 23 12 * 40) then s
  else if s.pwr.tested && !decide again && s.energyBelow 1400 s.pwr.volt then s
  else ((s.wf .hupStatus 3 3 1).wf .hupStatus 2 2 0).modPwr fun p => { p with v0 := some v0.toNat, volt := v0.toNat })

/-- A result of a test is rejected (R497). -/
def State.rejectTest (s : State) : State :=
  let n := s.rf .hupMeas 1 0 % 3 + 1
  let s := s.wf .hupMeas 1 0 n
  if n = 3 then ((s.wf .hupMeas 63 32 0).modPwr fun p => { p with test := none }).alarm sgHUP_TEST_FAIL (s.locElement elHUP) 0
  else s

/-- A result of a test is accepted (R497, R500): the capacitance is 4 / d F, the ESR 50 × e in units of 0.1 mΩ. -/
def State.acceptTest (s : State) (d esr : Nat) : State :=
  let s := ((s.wf .hupMeas 63 32 ((4000000 + d / 2) / d)).wf .hupMeas 31 16 esr).wf .hupMeas 1 0 0
  let s := s.modPwr fun p => { p with test := some d, testAt := s.now, tested := true }
  let top := s.rf .hupCfg 23 12 * 40
  if s.span top < s.rf .hupCfg 63 48 * 5000000 * d then s.event sgHUP_AGING (s.locElement elHUP) 0 else s

/-- CAPACITANCE_TEST_COMPLETE (R497, R500): V1 and V2 in units of 0.25 mV. -/
def execCapacitanceTestComplete (v1 v2 : BitVec 16) (s : State) : Out :=
  .next (match s.pwr.v0 with
  | none => s
  | some v0 =>
    let s := ((s.wf .hupStatus 3 3 0).wf .hupStatus 2 2 1).modPwr fun p => { p with v0 := none, volt := v2.toNat }
    let d := v1.toNat - v2.toNat
    let up := decide (v1.toNat > v0)
    let e := v0 - v1.toNat
    if d < 20 || d > 400 || e > 200 then s.rejectTest
    else s.acceptTest d (if up then Config.negativeEsr v0 v1.toNat % 65536 else 50 * e))

/-- ENERGY_ESTIMATE (R498 to R500): the present voltage in units of 0.25 mV. -/
def execEnergyEstimate (v : BitVec 16) (s : State) : Out :=
  let s := (s.modPwr fun p => { p with volt := v.toNat }).wf .hupStatus 31 16 (v.toNat / 4)
  let s := s.wf .hupStatus 2 2 (b2n (!s.pfail && s.pwr.v0.isNone))
  let mj := match s.pwr.test with
    | some d => min 65535 (s.energyMj d v.toNat)
    | none => 0
  let low := s.energyBelow 1200 v.toNat
  let age := if s.pwr.tested then min 65535 ((s.now - s.pwr.testAt) / 1000000000) else 0
  let s := (s.wf .hupEst 15 0 mj).wf .hupEst 47 32 age
  .next (if s.rf .intStatus 2 2 = b2n low then s
  else (s.wf .intStatus 2 2 (b2n low)).alarm sgHUP_LOW (s.locElement elHUP) (detBytes 2 mj))

/-- VAULT_DOMAIN_POWER_OFF (R501): after the dump, once the bank has fallen to Vmin. The dump slots and the journal keys
stay. -/
def execVaultDomainPowerOff (s : State) : Out :=
  .next (if s.pfail && s.pwr.dumped && decide (25 * s.pwr.volt ≤ s.vmin) then
    (s.modPwr fun p => { p with vaultOn := false }).modVault fun v =>
      { Vault.cold with slots := v.slots, slotsLeft := v.slotsLeft, key := v.key, prevKey := v.prevKey }
  else s)

/-! Regulators and buses. -/

/-- VR_ALERT (R494): STATUS_WORD of every regulator, read. -/
def execVrAlert (stat : List Nat) (s : State) : Out :=
  .next (((stat.take 8).zipIdx).foldl (fun (s : State) (p : Nat × Nat) => s.wf (.pwrRail p.2) 31 16 p.1) s)

/-- PMBUS_POLL (R494): what the regulators report, by rail index. -/
def execPmbusPoll (rs : List RailRead) (s : State) : Out :=
  .next (((rs.take 8).zipIdx).foldl (fun (s : State) (p : RailRead × Nat) =>
    (((s.wf (.pwrRail p.2) 63 48 p.1.vmv).wf (.pwrRail p.2) 47 32 p.1.ida).wf (.pwrRail p.2) 31 16 p.1.stat).wf
      (.pwrRail p.2) 15 8 p.1.tc) s)

/-- BMC_ALERT_N (R494): an ALARM from the power block is undrained. -/
def State.bmcAlert (s : State) : Bool := s.fmu.log.any fun p => p.2.cls == clALARM && p.2.sig / 256 == 8

/-- SMBUS_CLOCK_LOW_TIMEOUT (R527): as master the device abandons the transaction and retries it once; as target it
releases the bus. -/
def execSmbusClockLowTimeout (master : Bool) (s : State) : Out :=
  .next (if master then s.modPwr fun p => { p with pmbRetry := !p.pmbRetry } else s)

/-- ZQ_RECALIBRATION (R529). -/
def execZqRecalibration (s : State) : Out := .next (s.modPwr fun p => { p with zqAt := s.now })

/-! Clocks. -/

/-- PLL_LOCK_LOSS (R395, R505): a MACHINE_CHECK on every unit of the cluster, and on every core of it in none. -/
def execPllLockLoss (c : Fin 32) (s : State) : Out :=
  .next (if !s.clusterOn c then s
  else
    let es := ((List.range 8).map (8 * c.val + ·)).filter fun e =>
      s.checkable e && (match s.unitOf e with | some sl => (s.slotCores c sl).head? == some e | none => true)
    es.foldl (fun (s : State) e => s.machineCheck e { s.core e with act := .run } 0x0501 (restartBit 0x0501) (s.core e).pc)
      (s.wf .clkCtl (32 + c) (32 + c) 0))

/-! Temperature. -/

/-- A reading in quarter degrees is valid (R511): −40 to 150 °C. -/
def sensorOk (t : Int) : Bool := decide (-160 ≤ t) && decide (t ≤ 600)

/-- The temperature of a die in quarter degrees (R511): its hottest valid sensor; 100 °C with fewer than two valid ones. -/
def dieTemp (ts : List Int) : Int :=
  let ok := ts.filter sensorOk
  if ok.length < 2 then 400 else ok.foldl max (ok.headD 400)

/-- The sensors of a die that are invalid, as a mask. -/
def invMask (ts : List Int) : Nat :=
  (ts.zipIdx).foldl (fun m (p : Int × Nat) => if sensorOk p.1 then m else m + 2 ^ p.2) 0

/-- Lower bound of a thermal step in quarter degrees (R327): 90, 93 and 96 °C. -/
def thermBound (k : Nat) : Int := 360 + 12 * ((k : Int) - 1)

/-- The thermal step for a temperature, from the present one (R327): it falls 2 °C below its bound. -/
def thermStep (old : Nat) (t : Int) : Nat :=
  (List.range 4).foldl (fun m k =>
    if k ≠ 0 && (decide (thermBound k ≤ t) || (decide (k ≤ old) && decide (thermBound k - 8 < t))) then k else m) 0

/-- TEMPERATURE_SAMPLE (R327, R409, R511): the sensors of compute dies 0 and 1 and of the spine die, in quarter degrees;
a sensor that gives no reading is not listed. -/
def execTemperatureSample (t0 t1 t2 : List Int) (s : State) : Out :=
  let ds : List (List Int) := [t0.take 16, t1.take 16, t2.take 8]
  let s := (ds.zipIdx).foldl (fun (s : State) (p : List Int × Nat) =>
    (p.1.filter fun t => !sensorOk t).foldl (fun (s : State) _ => s.event sgSENSOR_FAULT (s.locDie p.2) 0) s) s
  let mask (i : Nat) : Nat := invMask (ds.getD i [])
  let temp (i : Nat) : Int := dieTemp (ds.getD i [])
  let enc (i : Nat) : Nat := (temp i % 4096).toNat
  let s := ((s.wf .pwrSensinv 15 0 (mask 0)).wf .pwrSensinv 31 16 (mask 1)).wf .pwrSensinv 39 32 (mask 2)
  let s := ((s.wf .pwrTherm 35 24 (enc 0)).wf .pwrTherm 47 36 (enc 1)).wf .pwrTherm 59 48 (enc 2)
  let s := s.wf .pwrTherm 2 0 (b2n (mask 0 != 0) + 2 * b2n (mask 1 != 0) + 4 * b2n (mask 2 != 0))
  let hot := max (temp 0) (max (temp 1) (temp 2))
  let s := s.modSched fun k => { k with hottest := hot.toNat }
  let s := s.wf .tsqAdmit 17 16 (thermStep (s.rf .tsqAdmit 17 16) hot)
  .next (s.modFmu fun f => { f with causes := setBit f.causes 2 (decide (400 ≤ hot)) }).refreshStatus

end Sys2Proof.Machine
end

