-- ==== Sys2Proof/Machine/Reset.lean ====
section
/-!
DEFINITION. Cold, warm and partition reset and the start-up order (R355, R456, R502, R506 to R510).
-/
namespace Sys2Proof.Machine

/-! Firmware. -/

/-- The boot ROM accepts an image (R456). -/
def fwOk (counter : Nat) (f : FwImg) : Bool := f.valid && decide (counter ≤ f.version) && decide (f.minver ≤ f.version)

/-- The firmware slot whose image the boot ROM runs (R456): the valid one with the higher version. -/
def MpState.pickFw (m : MpState) : Option Nat :=
  ((m.fw.zipIdx).foldl (fun (b : Option (Nat × Nat)) p =>
    if !fwOk m.antiRollback p.1 then b else match b with
      | some (v, i) => if p.1.version > v then some (p.1.version, p.2) else some (v, i)
      | none => some (p.1.version, p.2)) none).map (·.2)

/-- The management processor starts (R456), at a tick. -/
def MpState.start (m : MpState) (tick : Nat) : MpState :=
  match m.pickFw with
  | some i => { m with running := i, fwFail := false, fwSince := tick }
  | none => { m with fwFail := true }

/-- FIRMWARE_COUNTER_RAISE (R456): after 1,024 tk. -/
def execFirmwareCounterRaise (s : State) : Out :=
  .next (if s.mp.fwFail || s.tick < s.mp.fwSince + 1024 then s
  else s.modMp fun m => { m with antiRollback := max m.antiRollback (m.fw.getD m.running ⟨0, 0, false⟩).minver })

/-! Cold reset. -/

/-- RST_CAUSE of a cold reset: THERM, PWRFAIL, SOFTCOLD, PIN (R502, R514). -/
def State.coldCause (s : State) (k : ColdKind) : Word :=
  setBit (setBit (setBit (setBit 0 5 s.pwr.thermTrip) 4 s.pfail) 3 (k == .request && s.resets.cold == some 3 && !s.pfail))
    2 (k == .pin)

/-- Registers of the debug domain that a cold reset keeps: those whose map names no cold value (R469, R490). -/
def State.dbgKept (s : State) : List (Reg × Word) :=
  let st := setFld (setFld (s.rd .dbgStatus) 3 2 0) 4 4 0
  [(.dbgStatus, st), (.trcStatus, s.rd .trcStatus), (.trcRdptr, s.rd .trcRdptr)]
    ++ ((List.range 6).map fun i => (.dbgNonce i, s.rd (.dbgNonce i)))
    ++ ((List.range 12).map fun i => (.dbgSig i, s.rd (.dbgSig i)))
    ++ [(.dbgMaaddr, s.rd .dbgMaaddr), (.dbgMadata, s.rd .dbgMadata)]
    ++ (List.range 256).flatMap fun c => [(.dbgTomon c, s.rd (.dbgTomon c)), (.dbgFrommon c, s.rd (.dbgFrommon c))]

/-- What a cold reset leaves before firmware starts (R506): the fuses, the boot flash, the dump slots with the journal
keys, and the debug domain (R469); the end of the open session is the first record of the new log (R473). -/
def State.coldBase (s0 : State) (k : ColdKind) : State :=
  let s := s0.closeSession
  let m := s.mp
  let t : State := { State.reset with
    fuses := s.fuses
    free := s.free
    pending := s.pending
    regs := s.dbgKept ++ [(.rstCause, s.coldCause k)]
    chans := s.chans.map fun p => (p.1, { Chan.cold with soft := p.2.soft, hard := p.2.hard })
    vault := { Vault.cold with
      slots := s.vault.slots, slotsLeft := s.vault.slotsLeft, key := s.vault.key, prevKey := s.vault.prevKey }
    fab := { Fab.cold with ids := s.fab.ids }
    mp := { MpState.cold with
      fw := m.fw, antiRollback := m.antiRollback, creds := m.creds, ledger := m.ledger, persist := m.persist, prio := m.prio }
    dbg := { s.dbg with step := none, req := none }
    trc := { s.trc with srcs := [] }
    pwr := { Pwr.cold with volt := s.pwr.volt } }
  if s0.session = 0 then t else t.event sgDBG_SESSION_CLOSE (t.locElement elDBG) 0

/-- Memory training (R45, R277, R282, R283, R301): soft repairs are replayed as hard ones, then each channel's capacity, its
DIMMs and its repair resources are known, and its change from ABSENT is recorded; the default layout. -/
def State.train (s : State) (dimms : List (Option Nat)) (dpc ppr : List Nat) : State :=
  let cap (ch : Nat) : Nat := ((dimms.getD ch none).getD 0)
  let s := (List.range 12).foldl (fun (s : State) ch =>
    let ok := cap ch != 0
    let c := s.chan ch
    let s := s.setChan ch { c with soft := [], hard := c.hard ++ c.soft }
    let s := ((s.wf (.mcuStatus ch) 31 16 (cap ch)).wf (.mcuStatus ch) 7 6 (min (dpc.getD ch 0) 2)).wf (.mcuPpr ch) 31 16
      (ppr.getD ch 0)
    let s := if ok then s.setChanState ch 1 else s
    if !ok || cap ch != cap 0 then s.alarm sgMEM_CONFIG (s.locElement (elMC ch)) 0 else s) s
  if (List.range 12).all fun ch => cap ch != 0 && cap ch == cap 0 then { s with layout := Layout.default (12 * cap 0 * 2 ^ 30) }
  else s

/-- The cores that the degradation ledger names (R406) are RETIRED, and the comparator copies that it names are lost again
(R381, R414). -/
def State.applyLedger (s : State) : State :=
  s.mp.ledger.foldl (fun (s : State) d =>
    let l := Loc.of d.loc
    if l.depth = 6 && s.clusterOn l.clusterDw then s.modCore l.coreDw fun c => c.setStateCode csRETIRED
    else if d.sig = sgCOMPARATOR_LOST && s.clusterOn l.clusterDw then s.wf (.chkStatus l.clusterDw) (8 + d.copy) (8 + d.copy) 1
    else s) s

/-- With both comparator copies lost, every slot of a cluster is HELD (R381). -/
def State.holdSlots (s : State) (c : Nat) : State :=
  if s.copyLost c 0 && s.copyLost c 1 then (s.usedSlots c).foldl (fun (s : State) sl => s.setSlotState c sl slHELD) s else s

/-- The vendor stores of the cores of a cluster (R203, R204). -/
def State.loadVendor (s : State) (c release : Nat) (micro nano : List Nat) : State :=
  let m := (micro.zipIdx).foldl (fun m (p : Nat × Nat) => sset 0 m (p.2 % 16384) (BitVec.ofNat 24 p.1)) []
  let n := (nano.zipIdx).foldl (fun m (p : Nat × Nat) => sset 0 m (p.2 % 2048) (BitVec.ofNat 160 p.1)) []
  let s := (List.range 8).foldl (fun (s : State) i => s.modCore (c * 8 + i) fun k => { k with vmicro := m, vnano := n }) s
  s.modMp fun x => { x with release := sset 0 x.release c release }

/-- The passes that an environment lists for a cluster. -/
def BootEnv.pass (env : BootEnv) (c : Nat) : List SlotPass :=
  match env.passes.find? fun p => p.cluster == c with
  | some p => p.slots
  | none => []

/-- Step 5 of R510 for one cluster: self-test, the vendor stores, the assignment of slots (R359), Chamois injection. -/
def State.startCluster (s : State) (env : ColdEnv) (c : Nat) : State :=
  let s := s.bootCores c false env.boot.fail
  let s := s.loadVendor c env.release env.micro env.nano
  ((s.assign c 0).chamoisAll c (env.boot.pass c)).holdSlots c

/-- The records of a half that verify (R355); each other one is recorded. -/
def State.verifiedRecs (s : State) (dev : Nat) (rs : List JRec) : State × List JRec :=
  rs.foldl (fun (a : State × List JRec) r =>
    if a.1.vault.verifies dev r then (a.1, a.2 ++ [r])
    else (a.1.alarm sgJOURNAL_AUTH (s.locElement elVLT) (detBytes 8 r.rsn), a.2)) (s, [])

/-- Steps 1 to 3 of R355: the newest image goes back into the vault. ptn: the mirror partner's ID. -/
def State.loadDump (s : State) (ptn : Nat) : State :=
  match s.vault.newest with
  | none => s.modVault fun v => { v with key := none, prevKey := none }
  | some im =>
    let (s, own) := s.verifiedRecs im.device im.own
    let (s, pr) := s.verifiedRecs ptn im.ptn
    let s := s.modVault fun v => { v with own := own, nextRsn := im.nextRsn }
    let s := pr.foldl State.takeRec s
    let s := (s.wr .intNextisn (BitVec.ofNat 64 im.nextIsn)).wr .vltRtick (BitVec.ofNat 64 (im.rtick % 2 ^ 48))
    (s.wr .vltDump (BitVec.ofNat 64 (im.seq % 2 ^ 32 * 2 ^ 32 + (recBytes own + recBytes pr) / 64 % 2 ^ 32))).wf .vltStatus 0 0 1

/-- Step 4 of R355. What the journal holds of ticks above the partner's last SEALED one is void: those requests run again. -/
def State.ptnCase (s : State) (p : PtnState) : State :=
  match p with
  | .took => (s.modVault fun v => { v with own := [] }).wf .vltStatus 61 60 0
  | .running upTo area keys idem =>
    let stale (ok : Nat) : Bool := decide (ok / 2 ^ 32 > upTo)
    let s := s.freeRecs fun b => match b with
      | .result _ _ _ ok .. => stale ok
      | .commit t _ _ => decide (t > upTo)
      | _ => false
    let s := area.foldl (fun (s : State) im => s.putImage (4096 * im.frame) im) s
    let s := keys.foldl (fun (s : State) k => s.setFrameKey (4096 * k.1) (k.2 % 256) (k.2 / 256 == 1)) s
    let s : State := { s with idem := idem.foldl (fun m p => sset Idem.free m p.1 { p.2 with bound := none }) [] }
    ((s.restoreRuns fun t => decide (t ≤ upTo)).wf .tsqSealed 47 0 upTo).wf .vltStatus 61 60 0
  | .restarting => s.modSched fun k => { k with waitLoad := true }

/-- The start-up order up to the restore (R272, R427, R494, R496, R505, R510): steps 2 to 5 and 7; with no valid firmware the
device stays in BOOT (R456). ptn: the mirror partner's ID. -/
def State.startUp (s : State) (env : ColdEnv) (ptn : Nat) : State :=
  let s := s.modMp fun m => m.start 0
  if s.mp.fwFail then s.modHif fun h => { h with page := [(0x30, 1)] }
  else
    let on := (List.range 32).filter s.clusterOn
    let s := on.foldl (fun (s : State) c => s.wf .clkCtl (32 + c) (32 + c) 1) (s.wf .clkCtl 3 3 1)
    let s := (s.wf .hupStatus 2 2 1).modPwr fun p => { p with vcore := s.fuses.vcore }
    let s := s.train env.dimms env.dpc env.ppr
    let s := s.wf (.keyPtctl 0) 63 63 1
    let s := on.foldl (fun (s : State) c => s.startCluster env c) s.applyLedger
    let s := (s.wf .fabRole 31 24 s.mp.prio.1).wf .fabRole 23 16 s.mp.prio.2
    let s := (List.range 8).foldl (fun (s : State) p => if bit (s.rd (.fabPctl p)) 4 then s.wf (.fabPstatus p) 2 0 1 else s) s
    let left := s.vault.slotsLeft
    let s := s.modVault fun v => v.loseSlots env.lostSlots
    let s := if s.vault.slotsLeft = left then s else s.degrade (s.locElement elVLT) 0
    let s := (s.wf .vltStatus 63 62 (2 - s.vault.slotsLeft)).refreshStatus
    ((s.loadDump ptn).ptnCase env.ptn).copyCreds

/-- The bit of RST_CAUSE under which a cold reset waits for the dump. -/
def ColdKind.bit : ColdKind → Nat
  | .pin => 2
  | _ => 3

/-- COLD_RESET (R355, R406, R456, R469, R502, R506, R509, R510). During the power-fail sequence it waits for the dump; a
request is one made by RST_CTL.COLD or by the end of that sequence. -/
def execColdReset (env : ColdEnv) (s : State) : Out :=
  .next (if env.kind == .request && s.resets.cold.isNone then s
  else if s.pfail && !s.pwr.dumped then
    { s with resets := { s.resets with cold := some env.kind.bit, warm := none } }
  else (s.coldBase env.kind).startUp env s.partnerId)

/-- A request that was restored can run: its partition exists, its queue is enabled and it has its frame (R345, R355). -/
def State.runReady (s : State) (r : Run) : Bool :=
  r.st != .accepted || r.adopted.isSome || (s.partActive r.part && bit (s.rd (.intQcfg r.queue)) 63 && r.frame != noFrame)

/-- INTAKE_OPEN (R277, R340, R355, R510): the last step of the start-up order. -/
def execIntakeOpen (s : State) : Out :=
  let chans := (List.range 12).all fun ch => s.chanState ch != 0 && s.rf (.mcuStatus ch) 31 16 == s.rf (.mcuStatus 0) 31 16
  let clear := fld s.intStatusWord 7 1 == 0
  .next (if s.mp.fwFail || !chans || !s.vaultOk || s.sched.waitLoad || s.vault.key.isNone || !clear || !s.runs.all s.runReady then s
  else s.modSched fun k => { k with isOpen := true })

/-! Warm reset. -/

/-- WARM_RESET_REQUEST (R507, R509, R526): WARM_RST_N. -/
def execWarmResetRequest (s : State) : Out :=
  .next (if s.resets.warm.isSome || s.resets.cold.isSome then s
  else { s with resets := { s.resets with warm := some 0, parts := [], due := false, partsDue := [] } })

/-- A register's value after a warm reset (R6, R7: the Warm column). -/
def Reg.warm (r : Reg) (w : Word) : Word :=
  r.fields.foldl (fun a f => match f.warm with | some v => setFld a f.hi f.lo v | none => a) w

/-- The registers of a warm reset: RST_CAUSE names it by its bit (R514). The host link goes DOWN, which is recorded (R468). -/
def State.warmRegs (s : State) (cause : Nat) : State :=
  let s := s.setLink 0 0 0 0
  let s : State := { s with regs := s.regs.map fun p => (p.1, Reg.warm p.1 p.2) }
  (s.wf .vltStatus 61 60 0).wr .rstCause (setBit 0 cause true)

/-- The cores run BOOT (R226, R230, R243, R506), with the code blocks from the retained copies. -/
def State.warmCores (s : State) (fail : List Nat) : State :=
  let on := (List.range 32).filter s.clusterOn
  let s := on.foldl (fun (s : State) c => s.bootCores c true fail) s
  let f (c : Core) : Core := s.mp.code.foldl (fun (c : Core) b =>
    { c with tcmblk := sset 0 c.tcmblk b.1 b.2.1,
             tcm := (b.2.2.1.zipIdx).foldl (fun m (p : TWord × Nat) => sset raw0 m (512 * b.1 + p.2) p.1) c.tcm }) c
  let es := (List.range 256).filter fun e => s.clusterOn (e / 8) && s.coreState e != csRETIRED
  (es.foldl (fun (s : State) e => s.modCore e f) s).modMp fun m => { m with codeDue := [] }

/-- The cores of cluster c that no slot holds are spares again, and a slot whose core failed BOOT self-test takes one (R359,
R376, R377). Triage of a slot that a CHECKER_FAULT retired ends with its cores as spares (R380). -/
def State.warmSlots (s : State) (c : Nat) : State :=
  let s := (List.range 5).foldl (fun (s : State) sl =>
    if s.slotState c sl == slRETIRED && (s.slotX c sl).evt == 3 then
      (s.dissolve c sl slRETIRED).modSlotX c sl fun x => { x with evt := 0 } else s) s
  let held := (s.usedSlots c).flatMap fun sl => s.slotCores c sl
  let s := (List.range 8).foldl (fun (s : State) i => if held.contains (c * 8 + i) then s else s.toSpare (c * 8 + i)) s
  (s.usedSlots c).foldl (fun (s : State) sl =>
    let st := s.slotState c sl
    let s := if st == slTRIAGE || st == slRESYNC then s.setSlotState c sl slACTIVE else s
    let s := if s.slotState c sl == slACTIVE then s.fillSlot c sl else s
    s.modSlotX c sl fun x => { x with evt := 0, copied := false, captured := false }) s

/-- One cluster in a warm reset: a requested cluster reset (R509), or units in triage or resync go on in service (R377); then
Chamois injection (R382, R507). -/
def State.warmCluster (s : State) (env : BootEnv) (c : Nat) : State :=
  let s : State := if s.cluDrain.any (fun p => p.1 == c) then
      let m := s.rf (.cluMode c) 1 1
      let s := (s.wf (.cluMode c) 0 0 m).wr (.chkStatus c) 0
      let s := (List.range 5).foldl (fun (s : State) sl => s.modSlotX c sl fun _ => SlotX.cold) s
      (s.assign c m).omiFinish 0x21 (obCluster c) stOK
    else s.warmSlots c
  s.chamoisAll c (env.pass c)

/-- The posting units: staged state is discarded; pinned entries stay (R284, R295). -/
def State.warmNpus (s : State) : State :=
  (List.range 12).foldl (fun (s : State) u =>
    s.setNpu u { Npu.cold with cache := ((s.npu u).cache.filter (·.pin.isSome)).map NEntry.pulse }) s

/-- WARM_RESET (R226, R295, R437, R459, R506, R507, R509): after the first stage close since the request, once the flip writes
of that tick are complete. -/
def execWarmReset (env : BootEnv) (s : State) : Out :=
  .next (match s.resets.warm with
  | none => s
  | some cause =>
    if !s.resets.due || s.sched.warm || s.pfail || !(s.sched.flipped || !s.vaultOk) then s
    else
      let s := (s.abortNow s.inTickRuns false).warmRegs cause
      let s := (s.modDbg fun d => { d with step := none, req := none }).warmNpus
      let s := (s.warmCores env.fail).modSched fun k => { k with warm := true, window := [] }
      let s := ((List.range 32).filter s.clusterOn).foldl (fun (s : State) c => s.warmCluster env c) s
      let s := s.modFab fun f => { f with waits := [], held := [] }
      let s := (s.holdQueues fun _ => true).modHif fun h => { h with
        fns := h.fns.map fun p => (p.1, { p.2 with busMaster := false, table := [], pend := [] }), page := [], ide := [] }
      let s := s.modMp fun m => m.start s.tick
      let s := if s.mp.fwFail then s.modHif fun h => { h with page := [(0x30, 1)] } else s
      { s with cluDrain := [], cluInReset := [], repairWait := [], lineDead := [], fabTlb := [], resets := Resets.none })

/-- WARM_RESET_RESUME (R356, R507): at a boundary of fabric time, with the tick number of the time master; COMMITTED ticks
that are not SEALED are shipped again. -/
def execWarmResetResume (tick : BitVec 48) (s : State) : Out :=
  .next (if !s.sched.warm || s.mp.fwFail then s
  else
    let s := (s.modSched fun k => { k with warm := false }).pulse tick.toNat
    s.sched.unsealed.foldl State.reship s)

/-! Partition reset. -/

/-- PARTITION_RESET (R508): every run of the partitions in the tick aborts without an overrun, and the translations go at
the next pulse. -/
def execPartitionReset (s : State) : Out :=
  .next (if s.resets.partsDue.isEmpty || s.rf .tsqStatus 2 0 ≠ 2 || s.sched.flipped then s
  else
    let ps := s.resets.partsDue
    let isns := (s.runs.filter fun r => r.st.inTick && ps.contains r.part).map (·.isn)
    let s := (s.abortNow isns false).wf .rstPart 61 61 0
    { s with resets := { s.resets with parts := s.resets.parts.filter fun p => !ps.contains p, partsDue := [],
                                       inv := s.resets.inv ++ ps } })

end Sys2Proof.Machine
end

