-- ==== Sys2Proof/Machine/StringOps.lean ====
section
/-!
DEFINITION. String and editing instructions (R107 to R114, R163) and the REP prefix (R115 to R120).
-/
namespace Sys2Proof.Machine

/-! Bytes at the cursors. -/

/-- Read one byte (R67, R108). -/
def readByte (va : Nat) : Op Byte := do
  let bs ← readPieces [(va, 1)] false
  return bs.getD 0 0

/-- Check the write of one byte (R89, R67, R108). -/
def checkByte (va : Nat) : Op (List (Target × Nat)) := checkPieces [(va, 1)] false

/-- Move the source cursor by d. -/
def moveX1 (d : Word) : Op Unit := modB fun b => { b with x1 := ⟨b.x1.val + d, b.x1.tag⟩ }
/-- Move the destination cursor by d. -/
def moveX2 (d : Word) : Op Unit := modB fun b => { b with x2 := ⟨b.x2.val + d, b.x2.tag⟩ }
/-- CNT := CNT − 1. -/
def decCnt : Op Unit := modB fun b => { b with cnt := b.cnt - 1 }

/-- The cursor tags (R107): X1 always, then X2 where the instruction uses it (the order: DESIGN CHOICE, log 105). -/
def needCursors (two : Bool) : Op Unit := do
  let b ← curB
  needTag b.x1.tag (b.x1.tag == tPTR) 2
  if two then needTag b.x2.tag (b.x2.tag == tPTR) 3

/-! Elements (R108): each answers whether the instruction ends early. -/

/-- MVS, and TRN with its table. -/
def elemMove (table : Option FDesc) : Op Bool := do
  let b ← curB
  let v ← readByte b.x1.val.toNat
  let v ← match table with
    | some d => readByte (d.addr + v.toNat)
    | none => pure v
  let tg ← checkByte b.x2.val.toNat
  writePieces tg [v]
  moveX1 1
  moveX2 1
  decCnt
  addCost 1
  return false

/-- MVSR. -/
def elemMoveRev : Op Bool := do
  let b ← curB
  let v ← readByte (b.x1.val - 1).toNat
  let tg ← checkByte (b.x2.val - 1).toNat
  writePieces tg [v]
  moveX1 (-1)
  moveX2 (-1)
  decCnt
  addCost 1
  return false

/-- CMS: ends on bytes that differ, with the flags of R111. byte(X1) is read whole, its tag too, before byte(X2) (DESIGN
CHOICE, log 118). -/
def elemCompare : Op Bool := do
  let b ← curB
  let p ← readByte b.x1.val.toNat
  let q ← readByte b.x2.val.toNat
  addCost 1
  if p = q then
    moveX1 1
    moveX2 1
    decCnt
    return false
  else
    let lt := decide (p.toNat < q.toNat)
    flagsZNCV false lt lt false
    return true

/-- TRT: ends on a byte whose table byte is not 0, with ACC and Z of R111. -/
def elemTest (d : FDesc) : Op Bool := do
  let b ← curB
  let v ← readByte b.x1.val.toNat
  let t ← readByte (d.addr + v.toNat)
  addCost 1
  if t = 0 then
    moveX1 1
    decCnt
    return false
  else
    modB fun b => { b with acc := ⟨t.setWidth 64, tRAW⟩ }
    setFlag 0 true
    return true

/-- SRCH: ends on a match, or not found when fewer bytes remain than the argument has (R108). The accesses of both
operands are checked before the tags of either (R535). -/
def elemSearch (d : FDesc) : Op Bool := do
  let b ← curB
  if b.cnt.toNat < d.len then
    setFlag 0 false
    return true
  else
    let va := b.x1.val.toNat
    let vs ← accessPieces .read (fieldPieces va d.len) false
    let as_ ← accessPieces .read (fieldPieces d.addr d.len) false
    let v ← fetchPieces vs
    let a ← fetchPieces as_
    addCost (d.len + splits va d.len + d.splits)
    if v = a then
      setFlag 0 true
      return true
    else
      moveX1 1
      decCnt
      return false

/-! EDIT and EDMK (R112 to R114). -/

/-- What one pattern byte does: the byte written, and the bank after it (cursor X2 and the length excluded). -/
structure EditStep where
  out : Byte
  bank : Bank
  deriving DecidableEq, Repr

/-- A digit slot or forced digit p with source byte sb (R114); the digit is valid. -/
def editDigit (mark : Bool) (b : Bank) (p sb : Byte) : EditStep :=
  let rn := bit b.cnt 63
  let d := if rn then sb.toNat % 16 else sb.toNat / 16
  let si := bit b.psw 5
  let cnt := if d ≠ 0 then setBit b.cnt 62 true else b.cnt
  let shown := p = 0x11 ∨ si = true ∨ d ≠ 0
  let aex := if shown ∧ mark = true ∧ si = false then ⟨b.x2.val, tPTR⟩ else b.aex
  let out : Byte := if shown then BitVec.ofNat 8 (0x30 + d) else b.acc.val.setWidth 8
  let psw := if shown then setBit b.psw 5 true else b.psw
  let lo := sb.toNat % 16
  let next : TWord := ⟨b.x1.val + 1, b.x1.tag⟩
  if rn then ⟨out, { b with cnt := setBit cnt 63 false, aex := aex, psw := psw, x1 := next }⟩
  else if lo > 9 then
    let cnt := if lo = 0xB ∨ lo = 0xD then setBit cnt 61 true else cnt
    ⟨out, { b with cnt := cnt, aex := aex, psw := psw, x1 := next }⟩
  else ⟨out, { b with cnt := setBit cnt 63 true, aex := aex, psw := psw }⟩

/-- Every other pattern byte (R112, R114). -/
def editOther (b : Bank) (p : Byte) : EditStep :=
  let fill : Byte := b.acc.val.setWidth 8
  let ng := bit b.cnt 61
  if p = 0x12 then ⟨fill, { b with psw := setBit b.psw 5 false, cnt := setFld b.cnt 62 60 0 }⟩
  else if p = 0x13 then ⟨if ng then 0x20 else fill, { b with cnt := setBit b.cnt 60 true }⟩
  else if bit b.cnt 60 then ⟨if ng then p else fill, b⟩
  else ⟨if bit b.psw 5 then p else fill, b⟩

/-- One element of EDIT, or of EDMK with mark (R114): DECIMAL_DATA whatever DDM holds (R99). -/
def elemEdit (mark : Bool) : Op Bool := do
  let b ← curB
  let p ← readByte b.x2.val.toNat
  let st ←
    if p = 0x10 ∨ p = 0x11 then
      let sb ← readByte b.x1.val.toNat
      let d := if bit b.cnt 63 then sb.toNat % 16 else sb.toNat / 16
      if d > 9 then raiseA vDECIMAL_DATA 0 b.x1.val.toNat false false
      pure (editDigit mark b p sb)
    else pure (editOther b p)
  let tg ← checkByte b.x2.val.toNat
  writePieces tg [st.out]
  modB fun _ => { st.bank with x2 := ⟨b.x2.val + 1, b.x2.tag⟩,
                               cnt := setFld st.bank.cnt 59 0 (fld st.bank.cnt 59 0 - 1) }
  addCost 2
  return false

/-- Completion of EDIT and EDMK (R111). -/
def endEdit : Op Unit :=
  modB fun b => { b with psw := pswZNV b.psw (!bit b.cnt 62) (bit b.cnt 62 && bit b.cnt 61) false, cnt := 0 }

/-! The course of a string instruction (R110, R111). -/

/-- Perform at most n elements; true when the instruction ended early. -/
def strLoop (elem : Op Bool) : Nat → Op Bool
  | 0 => return false
  | n + 1 => do
    if ← elem then return true else strLoop elem n

/-- The elements that may be performed: CNT of them under REP, one without (R110). -/
def strCount (rep : Bool) (n : Nat) : Nat := if rep then n else min 1 n

/-- The elements of a string instruction, then fin when none ended it early, and its cost (R111, R163). -/
def strRun (rep : Bool) (elem : Op Bool) (fin : Op Unit) : Op Unit := do
  let n := strCount rep (← curB).cnt.toNat
  let k ← limited n
  let early ← strLoop elem k
  if !early && k < n then pause
  if early then pure () else fin
  done 4

/-- MVS (R108). -/
def mvsOp (rep : Bool) : Op Unit := do
  needCursors true
  strRun rep (elemMove none) (pure ())

/-- MVSR (R108). -/
def mvsrOp (rep : Bool) : Op Unit := do
  needCursors true
  strRun rep elemMoveRev (pure ())

/-- CMS (R108, R111). -/
def cmsOp (rep : Bool) : Op Unit := do
  needCursors true
  strRun rep elemCompare (flagsZNCV true false false false)

/-- TRN (R108). A base register that is also a cursor receives its value at the start, less 8, at completion (R77). -/
def trnOp (rep : Bool) (w x : Nat) : Op Unit := do
  let b0 ← curB
  needCursors true
  let d ← descWord w x (· == kTABLE)
  strRun rep (elemMove (some d)) (pure ())
  baseUpdateFrom w 8 b0

/-- TRT (R108, R111). -/
def trtOp (rep : Bool) (w x : Nat) : Op Unit := do
  let b0 ← curB
  needCursors false
  let d ← descWord w x (· == kTABLE)
  strRun rep (elemTest d) (setFlag 0 false)
  baseUpdateFrom w 8 b0

/-- SRCH (R108, R111). -/
def srchOp (rep : Bool) (w x : Nat) : Op Unit := do
  let b0 ← curB
  needCursors false
  let d ← descWord w x (· == kCHAR)
  strRun rep (elemSearch d) (setFlag 0 false)
  baseUpdateFrom w 8 b0

/-- EDIT and EDMK (R111, R113, R114). -/
def editOp (mark rep : Bool) : Op Unit := do
  needCursors true
  let b ← curB
  needTag b.acc.tag true 0
  let n := strCount rep (fld b.cnt 59 0)
  let k ← limited n
  let _ ← strLoop (elemEdit mark) k
  if k < n then pause
  endEdit
  done 4

/-- MVS without REP. -/
def execMvs (e : Fin 256) (w _x : BitVec 32) (s : State) : Out :=
  .next (s.runIns e w.toNat (fmtOk .n w.toNat) (mvsOp false))
/-- MVSR without REP. -/
def execMvsr (e : Fin 256) (w _x : BitVec 32) (s : State) : Out :=
  .next (s.runIns e w.toNat (fmtOk .n w.toNat) (mvsrOp false))
/-- CMS without REP. -/
def execCms (e : Fin 256) (w _x : BitVec 32) (s : State) : Out :=
  .next (s.runIns e w.toNat (fmtOk .n w.toNat) (cmsOp false))
/-- TRN without REP. -/
def execTrn (e : Fin 256) (w x : BitVec 32) (s : State) : Out :=
  .next (s.runIns e w.toNat (fmtOk .m w.toNat) (trnOp false w.toNat x.toNat))
/-- TRT without REP. -/
def execTrt (e : Fin 256) (w x : BitVec 32) (s : State) : Out :=
  .next (s.runIns e w.toNat (fmtOk .m w.toNat) (trtOp false w.toNat x.toNat))
/-- SRCH without REP. -/
def execSrch (e : Fin 256) (w x : BitVec 32) (s : State) : Out :=
  .next (s.runIns e w.toNat (fmtOk .m w.toNat) (srchOp false w.toNat x.toNat))
/-- EDIT without REP. -/
def execEdit (e : Fin 256) (w _x : BitVec 32) (s : State) : Out :=
  .next (s.runIns e w.toNat (fmtOk .n w.toNat) (editOp false false))
/-- EDMK without REP. -/
def execEdmk (e : Fin 256) (w _x : BitVec 32) (s : State) : Out :=
  .next (s.runIns e w.toNat (fmtOk .n w.toNat) (editOp true false))

/-! REP (R115). -/

/-- The format of an instruction that may follow REP, by opcode (R115, R162, R163). -/
def repFmt (opc : Nat) : Option Fmt :=
  match opc with
  | 0x50 => some .m | 0x51 => some .m
  | 0x60 => some .n | 0x61 => some .n | 0x62 => some .n
  | 0x63 => some .m | 0x64 => some .m | 0x65 => some .m
  | 0x66 => some .n | 0x67 => some .n
  | _ => none

/-- The decode checks of a REP pair (R115, R146). -/
def repOk (r w : Nat) : Bool :=
  fmtOk .n r && fCOND w == 0 && (match repFmt (fOPC w) with | some f => fmtOk f w | none => false)

/-- The repeated instruction (R115). -/
def repBody (w x : Nat) : Op Unit :=
  match fOPC w with
  | 0x50 => repDecimal w x false
  | 0x51 => repDecimal w x true
  | 0x60 => mvsOp true
  | 0x61 => mvsrOp true
  | 0x62 => cmsOp true
  | 0x63 => trnOp true w x
  | 0x64 => trtOp true w x
  | 0x65 => srchOp true w x
  | 0x66 => editOp false true
  | _ => editOp true true

/-- REP with the instruction w and its extension word x (R115 to R120, R150): the condition of the REP word
governs the pair, which retires once; PC names the REP word until then. With stop, an interrupt is to be taken after
that many elements (R118). -/
def execRep (e : Fin 256) (r w x : BitVec 32) (stop : Option Nat) (s : State) : Out :=
  .next
    (if !s.issuesNow e then s
    else s.around e r.toNat fun s =>
      let c := s.startCx e r.toNat (4 + insLen w.toNat)
      let c := { c with ia := c.ipc + 4, lim := match c.lim with | some k => some k | none => stop }
      if !repOk r.toNat w.toNat then finishOp e s.free (illegal c)
      else if fCOND r.toNat = 15 then finishOp e s.free (raiseV vILLEGAL_COND r.toNat c)
      else if !condHolds (fCOND r.toNat) c.c.cur.psw then finishOp e s.free (setCost 2 c)
      else finishOp e s.free (repBody w.toNat x.toNat c))

end Sys2Proof.Machine
end

