-- ==== Sys2Proof/Machine/Dispatch.lean ====
section
/-!
DEFINITION. The commands of the device, one arm for each constructor of Instr in the order of
spec/opcode_table.json: each arm is one call of the meaning of that command.
-/
namespace Sys2Proof.Machine

/-- The effect of a command on everything but the queue. -/
def exec (i : Instr) (s : State) : Host.Outcome State Fault Refusal :=
  match i with
  | .nop e w x => Sys2Proof.Machine.execNop e w x s
  | .jmp e w x => Sys2Proof.Machine.execJmp e w x s
  | .call e w x => Sys2Proof.Machine.execCall e w x s
  | .ret e w x => Sys2Proof.Machine.execRet e w x s
  | .retl e w x => Sys2Proof.Machine.execRetl e w x s
  | .svc e w x => Sys2Proof.Machine.execSvc e w x s
  | .sync e w x => Sys2Proof.Machine.execSync e w x s
  | .wait e w x => Sys2Proof.Machine.execWait e w x s
  | .dispatch e w x => Sys2Proof.Machine.execDispatch e w x s
  | .yieldEnd e w x => Sys2Proof.Machine.execYieldEnd e w x s
  | .yieldSus e w x => Sys2Proof.Machine.execYieldSus e w x s
  | .rep e r w x stop => Sys2Proof.Machine.execRep e r w x stop s
  | .csrr e w x => Sys2Proof.Machine.execCsrr e w x s
  | .csrw e w x => Sys2Proof.Machine.execCsrw e w x s
  | .invt e w x => Sys2Proof.Machine.execInvt e w x s
  | .invta e w x => Sys2Proof.Machine.execInvta e w x s
  | .ld e w x => Sys2Proof.Machine.execLd e w x s
  | .st e w x => Sys2Proof.Machine.execSt e w x s
  | .lde e w x => Sys2Proof.Machine.execLde e w x s
  | .ste e w x => Sys2Proof.Machine.execSte e w x s
  | .lea e w x => Sys2Proof.Machine.execLea e w x s
  | .add e w x => Sys2Proof.Machine.execAdd e w x s
  | .sub e w x => Sys2Proof.Machine.execSub e w x s
  | .cmp e w x => Sys2Proof.Machine.execCmp e w x s
  | .andAcc e w x => Sys2Proof.Machine.execAndAcc e w x s
  | .orAcc e w x => Sys2Proof.Machine.execOrAcc e w x s
  | .xor e w x => Sys2Proof.Machine.execXor e w x s
  | .shl e w x => Sys2Proof.Machine.execShl e w x s
  | .shr e w x => Sys2Proof.Machine.execShr e w x s
  | .sar e w x => Sys2Proof.Machine.execSar e w x s
  | .mul e w x => Sys2Proof.Machine.execMul e w x s
  | .mulu e w x => Sys2Proof.Machine.execMulu e w x s
  | .div e w x => Sys2Proof.Machine.execDiv e w x s
  | .divu e w x => Sys2Proof.Machine.execDivu e w x s
  | .stm e w x => Sys2Proof.Machine.execStm e w x s
  | .ldm e w x => Sys2Proof.Machine.execLdm e w x s
  | .mov e w x => Sys2Proof.Machine.execMov e w x s
  | .ldi e w x => Sys2Proof.Machine.execLdi e w x s
  | .xadd e w x => Sys2Proof.Machine.execXadd e w x s
  | .xsub e w x => Sys2Proof.Machine.execXsub e w x s
  | .xcmp e w x => Sys2Proof.Machine.execXcmp e w x s
  | .ttst e w x => Sys2Proof.Machine.execTtst e w x s
  | .tagset e w x => Sys2Proof.Machine.execTagset e w x s
  | .ttstm e w x => Sys2Proof.Machine.execTtstm e w x s
  | .tagsetm e w x => Sys2Proof.Machine.execTagsetm e w x s
  | .dadd e w x => Sys2Proof.Machine.execDadd e w x s
  | .dsub e w x => Sys2Proof.Machine.execDsub e w x s
  | .dmul e w x => Sys2Proof.Machine.execDmul e w x s
  | .ddiv e w x => Sys2Proof.Machine.execDdiv e w x s
  | .dcmp e w x => Sys2Proof.Machine.execDcmp e w x s
  | .dset e w x => Sys2Proof.Machine.execDset e w x s
  | .dsrp e w x => Sys2Proof.Machine.execDsrp e w x s
  | .dadj e w x => Sys2Proof.Machine.execDadj e w x s
  | .pack e w x => Sys2Proof.Machine.execPack e w x s
  | .unpk e w x => Sys2Proof.Machine.execUnpk e w x s
  | .dcvb e w x => Sys2Proof.Machine.execDcvb e w x s
  | .dcvd e w x => Sys2Proof.Machine.execDcvd e w x s
  | .mvs e w x => Sys2Proof.Machine.execMvs e w x s
  | .mvsr e w x => Sys2Proof.Machine.execMvsr e w x s
  | .cms e w x => Sys2Proof.Machine.execCms e w x s
  | .trn e w x => Sys2Proof.Machine.execTrn e w x s
  | .trt e w x => Sys2Proof.Machine.execTrt e w x s
  | .srch e w x => Sys2Proof.Machine.execSrch e w x s
  | .edit e w x => Sys2Proof.Machine.execEdit e w x s
  | .edmk e w x => Sys2Proof.Machine.execEdmk e w x s
  | .post e w x => Sys2Proof.Machine.execPost e w x s
  | .postr e w x => Sys2Proof.Machine.execPostr e w x s
  | .pread e w x => Sys2Proof.Machine.execPread e w x s
  | .rread e w x => Sys2Proof.Machine.execRread e w x s
  | .fadd e w x => Sys2Proof.Machine.execFadd e w x s
  | .fsub e w x => Sys2Proof.Machine.execFsub e w x s
  | .fmul e w x => Sys2Proof.Machine.execFmul e w x s
  | .fdiv e w x => Sys2Proof.Machine.execFdiv e w x s
  | .fmad e w x => Sys2Proof.Machine.execFmad e w x s
  | .fsqrt e w x => Sys2Proof.Machine.execFsqrt e w x s
  | .fcmp e w x => Sys2Proof.Machine.execFcmp e w x s
  | .fcmps e w x => Sys2Proof.Machine.execFcmps e w x s
  | .fcvt e w x => Sys2Proof.Machine.execFcvt e w x s
  | .fcvti e w x => Sys2Proof.Machine.execFcvti e w x s
  | .fcvtf e w x => Sys2Proof.Machine.execFcvtf e w x s
  | .fneg e w x => Sys2Proof.Machine.execFneg e w x s
  | .fabs e w x => Sys2Proof.Machine.execFabs e w x s
  | .customerInstruction e w x => Sys2Proof.Machine.execCustomerInstruction e w x s
  | .levelEntry e cause => Sys2Proof.Machine.execLevelEntry e cause s
  | .budgetExceeded e => Sys2Proof.Machine.execBudgetExceeded e s
  | .waitWakeup e => Sys2Proof.Machine.execWaitWakeup e s
  | .schedMessage e code => Sys2Proof.Machine.execSchedMessage e code s
  | .mpNotify e code => Sys2Proof.Machine.execMpNotify e code s
  | .tickPulse => Sys2Proof.Machine.execTickPulse s
  | .heartbeatHalfTick => Sys2Proof.Machine.execHeartbeatHalfTick s
  | .remoteClose => Sys2Proof.Machine.execRemoteClose s
  | .stageClose => Sys2Proof.Machine.execStageClose s
  | .flip => Sys2Proof.Machine.execFlip s
  | .sealDeadline => Sys2Proof.Machine.execSealDeadline s
  | .stalenessSweep => Sys2Proof.Machine.execStalenessSweep s
  | .tickPeriodChange => Sys2Proof.Machine.execTickPeriodChange s
  | .idemEntryExpiry => Sys2Proof.Machine.execIdemEntryExpiry s
  | .transientExpiry => Sys2Proof.Machine.execTransientExpiry s
  | .intakeStopTimeout => Sys2Proof.Machine.execIntakeStopTimeout s
  | .energyLowTimeout => Sys2Proof.Machine.execEnergyLowTimeout s
  | .fawnEnter => Sys2Proof.Machine.execFawnEnter s
  | .fawnDrainTimeout => Sys2Proof.Machine.execFawnDrainTimeout s
  | .handoverAdoption => Sys2Proof.Machine.execHandoverAdoption s
  | .takeover => Sys2Proof.Machine.execTakeover s
  | .resultRelease => Sys2Proof.Machine.execResultRelease s
  | .acceptancePass q => Sys2Proof.Machine.execAcceptancePass q s
  | .sqTailDoorbell f q v => Sys2Proof.Machine.execSqTailDoorbell f q v s
  | .cqHeadDoorbell f q v => Sys2Proof.Machine.execCqHeadDoorbell f q v s
  | .retireDoorbell f q whole key => Sys2Proof.Machine.execRetireDoorbell f q whole key s
  | .descriptorFetch q ok bytes => Sys2Proof.Machine.execDescriptorFetch q ok bytes s
  | .stageIn g => Sys2Proof.Machine.execStageIn g s
  | .descriptorDelivery e isn => Sys2Proof.Machine.execDescriptorDelivery e isn s
  | .npuPostApply u => Sys2Proof.Machine.execNpuPostApply u s
  | .npuPread u => Sys2Proof.Machine.execNpuPread u s
  | .npuTouch u => Sys2Proof.Machine.execNpuTouch u s
  | .npuFill u pa => Sys2Proof.Machine.execNpuFill u pa s
  | .npuRollback u => Sys2Proof.Machine.execNpuRollback u s
  | .npuLost u => Sys2Proof.Machine.execNpuLost u s
  | .npuBistSlice u preempted fail => Sys2Proof.Machine.execNpuBistSlice u preempted fail s
  | .patrolScrub ch e => Sys2Proof.Machine.execPatrolScrub ch e s
  | .softPpr ch dev row => Sys2Proof.Machine.execSoftPpr ch dev row s
  | .memoryChannelRetrain ch cleared => Sys2Proof.Machine.execMemoryChannelRetrain ch cleared s
  | .remoteRepairTimeout line => Sys2Proof.Machine.execRemoteRepairTimeout line s
  | .repair src line => Sys2Proof.Machine.execRepair src line s
  | .repairComplete line ws => Sys2Proof.Machine.execRepairComplete line ws s
  | .beacon p b => Sys2Proof.Machine.execBeacon p b s
  | .beaconSend => Sys2Proof.Machine.execBeaconSend s
  | .electionSettle manager => Sys2Proof.Machine.execElectionSettle manager s
  | .manage src m => Sys2Proof.Machine.execManage src m s
  | .managerFailover => Sys2Proof.Machine.execManagerFailover s
  | .timeProbeSend => Sys2Proof.Machine.execTimeProbeSend s
  | .timeProbe p delay => Sys2Proof.Machine.execTimeProbe p delay s
  | .timeSyncSend => Sys2Proof.Machine.execTimeSyncSend s
  | .timeSync time tick d => Sys2Proof.Machine.execTimeSync time tick d s
  | .timeSyncTimeout => Sys2Proof.Machine.execTimeSyncTimeout s
  | .heartbeat src mseq fawn => Sys2Proof.Machine.execHeartbeat src mseq fawn s
  | .heartbeatMissed => Sys2Proof.Machine.execHeartbeatMissed s
  | .leaseRenew m paired => Sys2Proof.Machine.execLeaseRenew m paired s
  | .leaseOk m => Sys2Proof.Machine.execLeaseOk m s
  | .witnessTimeout => Sys2Proof.Machine.execWitnessTimeout s
  | .leaseTakeoverReq m subject lasthb rival => Sys2Proof.Machine.execLeaseTakeoverReq m subject lasthb rival s
  | .leaseGrant m => Sys2Proof.Machine.execLeaseGrant m s
  | .leaseDenied m => Sys2Proof.Machine.execLeaseDenied m s
  | .leaseExpiry => Sys2Proof.Machine.execLeaseExpiry s
  | .handoverReq src mseq => Sys2Proof.Machine.execHandoverReq src mseq s
  | .handoverSend => Sys2Proof.Machine.execHandoverSend s
  | .handoverAck m => Sys2Proof.Machine.execHandoverAck m s
  | .handoverRefused m => Sys2Proof.Machine.execHandoverRefused m s
  | .restore src t work => Sys2Proof.Machine.execRestore src t work s
  | .tables src t => Sys2Proof.Machine.execTables src t s
  | .journal src r => Sys2Proof.Machine.execJournal src r s
  | .postlog src p => Sys2Proof.Machine.execPostlog src p s
  | .pinRecord src mseq p => Sys2Proof.Machine.execPinRecord src mseq p s
  | .mirrorAck m a => Sys2Proof.Machine.execMirrorAck m a s
  | .remoteCloseMessage src mseq c to_ => Sys2Proof.Machine.execRemoteCloseMessage src mseq c to_ s
  | .rollbackNotice src mseq tick okey direct => Sys2Proof.Machine.execRollbackNotice src mseq tick okey direct s
  | .rollbackAck src mseq => Sys2Proof.Machine.execRollbackAck src mseq s
  | .remoteLost src mseq tick okey => Sys2Proof.Machine.execRemoteLost src mseq tick okey s
  | .rpost src rq => Sys2Proof.Machine.execRpost src rq s
  | .rreadFrame src rq => Sys2Proof.Machine.execRreadFrame src rq s
  | .rreply r => Sys2Proof.Machine.execRreply r s
  | .frameForward p fr => Sys2Proof.Machine.execFrameForward p fr s
  | .linkRetryRequest p fseq => Sys2Proof.Machine.execLinkRetryRequest p fseq s
  | .linkKeyAgreement p ok => Sys2Proof.Machine.execLinkKeyAgreement p ok s
  | .linkRekey p => Sys2Proof.Machine.execLinkRekey p s
  | .linkNarrowed p lanes => Sys2Proof.Machine.execLinkNarrowed p lanes s
  | .lockstepMismatch c sl gx gy odd => Sys2Proof.Machine.execLockstepMismatch c sl gx gy odd s
  | .sampleDisagree c sl odd => Sys2Proof.Machine.execSampleDisagree c sl odd s
  | .triageComplete c sl failed => Sys2Proof.Machine.execTriageComplete c sl failed s
  | .resyncImageCapture c sl => Sys2Proof.Machine.execResyncImageCapture c sl s
  | .coldResync c sl r => Sys2Proof.Machine.execColdResync c sl r s
  | .chamoisReinjection c sl r window preempted => Sys2Proof.Machine.execChamoisReinjection c sl r window preempted s
  | .spareSelfTest e => Sys2Proof.Machine.execSpareSelfTest e s
  | .unitSplitHandover c sl => Sys2Proof.Machine.execUnitSplitHandover c sl s
  | .unitRejoinHandover c sl => Sys2Proof.Machine.execUnitRejoinHandover c sl s
  | .clusterReset c fail rs => Sys2Proof.Machine.execClusterReset c fail rs s
  | .c6Entry e => Sys2Proof.Machine.execC6Entry e s
  | .c6Exit e => Sys2Proof.Machine.execC6Exit e s
  | .microcodeActivation same => Sys2Proof.Machine.execMicrocodeActivation same s
  | .tcmCodeInstall e => Sys2Proof.Machine.execTcmCodeInstall e s
  | .fmuRecord level r => Sys2Proof.Machine.execFmuRecord level r s
  | .aggregatorEntryClose level idx sig root => Sys2Proof.Machine.execAggregatorEntryClose level idx sig root s
  | .fmuRecordForward => Sys2Proof.Machine.execFmuRecordForward s
  | .mpMemberLost m => Sys2Proof.Machine.execMpMemberLost m s
  | .omiHealthRead src rq env => Sys2Proof.Machine.execOmiHealthRead src rq env s
  | .omiFaultLogRead src rq env => Sys2Proof.Machine.execOmiFaultLogRead src rq env s
  | .omiPartitionCreate src rq env => Sys2Proof.Machine.execOmiPartitionCreate src rq env s
  | .omiPartitionDelete src rq env => Sys2Proof.Machine.execOmiPartitionDelete src rq env s
  | .omiFunctionBind src rq env => Sys2Proof.Machine.execOmiFunctionBind src rq env s
  | .omiQueueCreate src rq env => Sys2Proof.Machine.execOmiQueueCreate src rq env s
  | .omiQueueDelete src rq env => Sys2Proof.Machine.execOmiQueueDelete src rq env s
  | .omiGrantSet src rq env => Sys2Proof.Machine.execOmiGrantSet src rq env s
  | .omiTablesShip src rq env => Sys2Proof.Machine.execOmiTablesShip src rq env s
  | .omiTcmCodeLoad src rq env => Sys2Proof.Machine.execOmiTcmCodeLoad src rq env s
  | .omiMemoryLayoutSet src rq env ptnM ptnP => Sys2Proof.Machine.execOmiMemoryLayoutSet src rq env ptnM ptnP s
  | .omiJournalKeySet src rq env => Sys2Proof.Machine.execOmiJournalKeySet src rq env s
  | .omiTakeoverQueueSet src rq env => Sys2Proof.Machine.execOmiTakeoverQueueSet src rq env s
  | .omiAdmitSet src rq env => Sys2Proof.Machine.execOmiAdmitSet src rq env s
  | .omiUnitSplit src rq env => Sys2Proof.Machine.execOmiUnitSplit src rq env s
  | .omiUnitRejoin src rq env => Sys2Proof.Machine.execOmiUnitRejoin src rq env s
  | .omiClusterModeSet src rq env => Sys2Proof.Machine.execOmiClusterModeSet src rq env s
  | .omiMicrocodeLoad src rq env => Sys2Proof.Machine.execOmiMicrocodeLoad src rq env s
  | .omiFirmwareUpdate src rq env img => Sys2Proof.Machine.execOmiFirmwareUpdate src rq env img s
  | .omiCredentialEnroll src rq env => Sys2Proof.Machine.execOmiCredentialEnroll src rq env s
  | .omiDegradationClear src rq env repaired => Sys2Proof.Machine.execOmiDegradationClear src rq env repaired s
  | .omiFawnExit src rq env => Sys2Proof.Machine.execOmiFawnExit src rq env s
  | .omiMailboxAssign src rq env => Sys2Proof.Machine.execOmiMailboxAssign src rq env s
  | .omiRoleSet src rq env => Sys2Proof.Machine.execOmiRoleSet src rq env s
  | .omiPartnerSet src rq env => Sys2Proof.Machine.execOmiPartnerSet src rq env s
  | .omiPartnerRestore src rq env => Sys2Proof.Machine.execOmiPartnerRestore src rq env s
  | .omiLedgerLoad src rq env image => Sys2Proof.Machine.execOmiLedgerLoad src rq env image s
  | .omiDeviceIdRelease src rq env held => Sys2Proof.Machine.execOmiDeviceIdRelease src rq env held s
  | .omiTickPeriodSet src rq env => Sys2Proof.Machine.execOmiTickPeriodSet src rq env s
  | .devIdWrite v => Sys2Proof.Machine.execDevIdWrite v s
  | .csrControlWrite m e n v => Sys2Proof.Machine.execCsrControlWrite m e n v s
  | .cluSignalWrite m c k code => Sys2Proof.Machine.execCluSignalWrite m c k code s
  | .keyFksetSet m frame fp key => Sys2Proof.Machine.execKeyFksetSet m frame fp key s
  | .keyFksetQuery m frame => Sys2Proof.Machine.execKeyFksetQuery m frame s
  | .keyFksetInvalidate m frame fp key => Sys2Proof.Machine.execKeyFksetInvalidate m frame fp key s
  | .tsqPeriodWrite nxt tick => Sys2Proof.Machine.execTsqPeriodWrite nxt tick s
  | .rstCtlCold => Sys2Proof.Machine.execRstCtlCold s
  | .rstCtlWarm => Sys2Proof.Machine.execRstCtlWarm s
  | .rstPartGo m part => Sys2Proof.Machine.execRstPartGo m part s
  | .dbgAuthcmdGo level index bar4 => Sys2Proof.Machine.execDbgAuthcmdGo level index bar4 s
  | .dbgAuthcmdClose => Sys2Proof.Machine.execDbgAuthcmdClose s
  | .dbgHaltSet c => Sys2Proof.Machine.execDbgHaltSet c s
  | .dbgHaltRelease c => Sys2Proof.Machine.execDbgHaltRelease c s
  | .dbgStepGo e int => Sys2Proof.Machine.execDbgStepGo e int s
  | .dbgReqWrite loc code => Sys2Proof.Machine.execDbgReqWrite loc code s
  | .dbgMaRead word => Sys2Proof.Machine.execDbgMaRead word s
  | .dbgMaWrite word v tag => Sys2Proof.Machine.execDbgMaWrite word v tag s
  | .dbgLockExpiry => Sys2Proof.Machine.execDbgLockExpiry s
  | .dbgSessionTimeout => Sys2Proof.Machine.execDbgSessionTimeout s
  | .tapUpdateIr code => Sys2Proof.Machine.execTapUpdateIr code s
  | .dbgacc go wr off v => Sys2Proof.Machine.execDbgacc go wr off v s
  | .traceBufferRead off => Sys2Proof.Machine.execTraceBufferRead off s
  | .registerWrite m off v => Sys2Proof.Machine.execRegisterWrite m off v s
  | .registerReadClear m off => Sys2Proof.Machine.execRegisterReadClear m off s
  | .coldReset env => Sys2Proof.Machine.execColdReset env s
  | .intakeOpen => Sys2Proof.Machine.execIntakeOpen s
  | .firmwareCounterRaise => Sys2Proof.Machine.execFirmwareCounterRaise s
  | .warmResetRequest => Sys2Proof.Machine.execWarmResetRequest s
  | .warmReset env => Sys2Proof.Machine.execWarmReset env s
  | .warmResetResume tick => Sys2Proof.Machine.execWarmResetResume tick s
  | .partitionReset => Sys2Proof.Machine.execPartitionReset s
  | .pwrFail => Sys2Proof.Machine.execPwrFail s
  | .vaultUndervoltage => Sys2Proof.Machine.execVaultUndervoltage s
  | .dumpComplete => Sys2Proof.Machine.execDumpComplete s
  | .railFault rail => Sys2Proof.Machine.execRailFault rail s
  | .vrAlert stat => Sys2Proof.Machine.execVrAlert stat s
  | .pmbusPoll rs => Sys2Proof.Machine.execPmbusPoll rs s
  | .timerefLost => Sys2Proof.Machine.execTimerefLost s
  | .pllLockLoss c => Sys2Proof.Machine.execPllLockLoss c s
  | .temperatureSample t0 t1 t2 => Sys2Proof.Machine.execTemperatureSample t0 t1 t2 s
  | .thermTrip => Sys2Proof.Machine.execThermTrip s
  | .capacitanceTest v0 => Sys2Proof.Machine.execCapacitanceTest v0 s
  | .capacitanceTestComplete v1 v2 => Sys2Proof.Machine.execCapacitanceTestComplete v1 v2 s
  | .energyEstimate v => Sys2Proof.Machine.execEnergyEstimate v s
  | .debugDomainReset => Sys2Proof.Machine.execDebugDomainReset s
  | .flr f => Sys2Proof.Machine.execFlr f s
  | .busMasterDisable f => Sys2Proof.Machine.execBusMasterDisable f s
  | .hostLinkDown hot => Sys2Proof.Machine.execHostLinkDown hot s
  | .ideFault stream => Sys2Proof.Machine.execIdeFault stream s
  | .mbxDoorbell m seq fn size => Sys2Proof.Machine.execMbxDoorbell m seq fn size s
  | .linkTrainingComplete p lanes => Sys2Proof.Machine.execLinkTrainingComplete p lanes s
  | .hostLinkUp width speed flit => Sys2Proof.Machine.execHostLinkUp width speed flit s
  | .busMasterEnable f => Sys2Proof.Machine.execBusMasterEnable f s
  | .vddDbgLoss => Sys2Proof.Machine.execVddDbgLoss s
  | .stateCopyComplete c sl => Sys2Proof.Machine.execStateCopyComplete c sl s
  | .spareSelfTestComplete e fail => Sys2Proof.Machine.execSpareSelfTestComplete e fail s
  | .dimmDeviceFault ch rank dev => Sys2Proof.Machine.execDimmDeviceFault ch rank dev s
  | .journalAckMissing rsn => Sys2Proof.Machine.execJournalAckMissing rsn s
  | .mpPairMismatch failed => Sys2Proof.Machine.execMpPairMismatch failed s
  | .timeMasterFailover => Sys2Proof.Machine.execTimeMasterFailover s
  | .vendorReleaseRoll c release micro nano ok => Sys2Proof.Machine.execVendorReleaseRoll c release micro nano ok s
  | .smbusClockLowTimeout master => Sys2Proof.Machine.execSmbusClockLowTimeout master s
  | .zqRecalibration => Sys2Proof.Machine.execZqRecalibration s
  | .vaultDomainPowerOff => Sys2Proof.Machine.execVaultDomainPowerOff s

end Sys2Proof.Machine
end

