-- ==== Sys2Proof/Machine/Claims.lean ====
section
/-!
DEFINITION. The words in which statements speak of one instruction of a core: when it issues, the context in which it
starts, and what the device is once it has retired or waits.
-/
namespace Sys2Proof.Machine

/-- Core e executes the instruction with first word w: it issues instructions and neither BUDGET_EXCEEDED nor a request
comes first (R176), no debug step is under way that stops before this one (R480), the decode checks ok pass, and the
condition of R76 holds. -/
def State.issues (s : State) (e w : Nat) (ok : Bool) : Bool :=
  s.issuesNow e && !(s.stepping e && stepBlocked w) && ok && fCOND w != 15
    && condHolds (fCOND w) (s.core e).cur.psw

/-- The context in which it starts: a due SYNC of trace stands before it (R486). -/
def State.start (s : State) (e w : Nat) : Cx := (s.preTrace e).startCx e w (insLen w)

/-- The device without its cores, its registers, trace and the debug step in progress. -/
def State.besides (s : State) : State :=
  { s with cores := [], regs := [], trc := Trc.cold, dbg := { s.dbg with step := none } }

/-- t and u differ at most in the cores, the trace with its registers, and the end of a debug step with DBG_STEP: memory,
tags, keys, posting units, runs, queues and every other register are the same. -/
def State.Beside (t u : State) : Prop :=
  t.besides = u.besides ∧ ∀ r, r ≠ .trcStatus → r ≠ .trcRdptr → r ≠ .dbgStep → t.rd r = u.rd r

/-- Every core of the unit of core e holds c, every other core what it holds in u, and nothing else differs from u. -/
def State.Unit (t u : State) (e : Nat) (c : Core) : Prop :=
  (∀ k, t.core k = if k ∈ u.unitCores e then c else u.core k) ∧ t.Beside u

/-- t is the device once the instruction of core e that started in s has retired in context y (R188, R247): in every core
of the unit the PC is that of the next instruction, one more instruction has retired and the cost is charged. -/
def Retires (s t : State) (e : Nat) (y : Cx) : Prop :=
  t.Unit y.s e (y.c.retire y.npc (y.charged s.free y.cost) y.ent)

/-- t is the device while the instruction of core e waits in context y for a. -/
def Waits (t : State) (e : Nat) (y : Cx) (a : Act) : Prop := t.Unit y.s e { y.c with act := a, mid := y.path.isSome }

/-- t is the device once core e has raised q in context y, but for trace: the cycles are charged and the exception is taken
(R188, R189). -/
def Raises (s t : State) (e : Nat) (y : Cx) (q : Exc) : Prop :=
  let u := y.s.takeExc e (y.c.leaveMid.charge (y.charged s.free y.xcost)) q y.ipc
  t.Beside u ∧ t.cores = u.cores

/-- The context with its bank changed and n more cycles of cost. -/
def Cx.with (y : Cx) (n : Nat) (f : Bank → Bank) : Cx :=
  { y with c := y.c.setCur (f y.c.cur), cost := y.cost + n, xcost := y.cost + n }

/-- The instruction starts in y with field d1 in ACC and field d2 in its descriptor word; the accesses of R106 pass and
give the bytes b1 and b2 and the checked places tg of d1, in context z. -/
def FieldsRead (w x k1 k2 : Nat) (y : Cx) (d1 d2 : FDesc) (b1 b2 : List Byte) (tg : List (Target × Nat)) (z : Cx) : Prop :=
  ∃ y1 y2 y3, twoDescs w x k1 k2 y = .ok (d1, d2) y1 ∧ readField d2.addr d2.len y1 = .ok b2 y2 ∧
    readField d1.addr d1.len y2 = .ok b1 y3 ∧ checkField d1.addr d1.len y3 = .ok tg z

/-- The first m registers of the list rs are transferred from the context u 0 by move, the j-th between u j and u (j + 1): one
in PROG is left out, any other is marked in PROG, costs 1 cc and brings a boundary at which to stop nearer (R82). -/
def Transfers (move : Nat → Nat → Cx → Cx → Prop) (ea : Nat) (rs : List (Nat × Nat)) (u : Nat → Cx) (m : Nat) : Prop :=
  ∀ j p, j < m → rs[j]? = some p →
    (bit (u j).c.cur.psw (55 + p.1) = true → u (j + 1) = u j) ∧
    (bit (u j).c.cur.psw (55 + p.1) = false → ∃ z, move p.1 (ea + 8 * p.2) (u j) z ∧ u (j + 1) = { z with
      c := z.c.setCur { z.c.cur with psw := setBit z.c.cur.psw (55 + p.1) true }, cost := z.cost + 1,
      lim := z.lim.map (· - 1) })

/-- The bytes of a field are valid digits and a valid sign (R96). -/
def ValidField (d : FDesc) (bs : List Byte) : Prop := badIndex d.kind bs = none

/-- The context in which REP with first word r and the repeated instruction w starts (R115, R118). -/
def State.repStart (s : State) (e r w : Nat) (stop : Option Nat) : Cx :=
  let c := (s.preTrace e).startCx e r (4 + insLen w)
  { c with ia := c.ipc + 4, lim := match c.lim with | some k => some k | none => stop }

/-- The core with floating-point flags ORed into CORE_FPSR (R129, R130); no flag changes nothing. -/
def Core.orFlags (c : Core) (fl : FFlags) : Core :=
  if fl = [] then c
  else { c with fpsr := fl.foldl (fun w i => setBit w i true) c.fpsr, xown := setBit c.xown 1 true }

/-- The bank with a floating-point value of format f in ACC, or in AEX:ACC for .D128 (R125, R127). -/
def Bank.putFp (f : Nat) (v : FV) (b : Bank) : Bank :=
  if f = 3 then { b with aex := ⟨BitVec.ofNat 64 (fpEncode f v / 2 ^ 64), tDFP⟩,
                         acc := ⟨BitVec.ofNat 64 (fpEncode f v), tDFP⟩ }
  else { b with acc := ⟨BitVec.ofNat 64 (fpEncode f v), fpTag f⟩ }

/-- The first operand of format f carries its tag (R65), and PSW.RM is no reserved mode (R63). -/
def FpReady (f : Nat) (b : Bank) : Prop :=
  fld b.psw 34 32 ≤ 4 ∧ b.acc.tag = fpTag f ∧ (f = 3 → b.aex.tag = tDFP)

/-- The device is u once it has taken the command cmd of source src, and the checks before every command pass (R458,
R460 to R463): the source is one of who, the command runs in Fawn mode where fawn says so, the request has plen bytes
of parameters, its reserved bytes rsv are 0, and no command holds an object of names. -/
def Taken (s u : State) (src : OmiSrc) (rq : OmiReq) (cmd : Nat) (who : List OmiWho) (fawn : Bool) (plen : Nat)
    (rsv : List (Nat × Nat)) (names : List Nat) : Prop :=
  s.omiTake src cmd rq = some u ∧ u.omiWho src ∈ who ∧ (u.fawn = true → fawn = true) ∧ rq.params.length = plen ∧
    rq.rsvA = 0 ∧ rq.rsvB = 0 ∧ (∀ p ∈ rsv, bytesAt rq.params p.1 p.2 = 0) ∧ ∀ b ∈ u.mp.busy, b.obj ∉ names

/-- The command ends with OK and response data: t is v with the response stored, and the command noted where it persists
(R458, R459, R464). -/
def Answers (t v : State) (src : OmiSrc) (rq : OmiReq) (cmd : Nat) (keeps : Bool) (data : List Byte) : Prop :=
  t = v.omiEnd src cmd rq.seq keeps (stOK, 0, data)

/-- The command stays BUSY until a later event (R458, R460): t is v in which it holds the object obj. -/
def StaysBusy (t v : State) (src : OmiSrc) (rq : OmiReq) (cmd obj : Nat) : Prop :=
  t = v.modMp fun m => { m with busy := m.busy ++ [⟨src, cmd, rq.seq, obj⟩] }

end Sys2Proof.Machine
end

