-- ==== Sys2Proof/Safety.lean ====
section
/-!
DEFINITION. What counts as a safe run: the commands are taken one after another, each answering a next state.
-/
namespace Sys2Proof

open Sys2Proof.Machine

/-- The next state of an outcome, if it is one. -/
def nextOf (o : Host.Outcome State Fault Refusal) : Option State :=
  match o with
  | .next s => some s
  | .fault _ => none
  | .refused _ => none

/-- The command answers a next state, and P holds of it. -/
def Completes (c : Instr) (s : State) (P : State → Prop) : Prop := ∃ t, exec c s = .next t ∧ P t

/-- The commands of a list, executed in order, all answer a next state and lead from s to t. -/
inductive Runs : State → List Instr → State → Prop where
  | nil (s : State) : Runs s [] s
  | cons (s t u : State) (c : Instr) (cs : List Instr) :
      exec c s = .next t → Runs t cs u → Runs s (c :: cs) u

/-- States that a run of the device reaches from reset, with any commands arriving. -/
inductive Reachable : State → Prop where
  | reset : Reachable State.reset
  | step (s t : State) : Reachable s → step s = .next t → Reachable t
  | arrive (s : State) (c : Instr) : Reachable s → Reachable { s with pending := s.pending ++ [c] }

end Sys2Proof
end

