-- ==== Sys2Proof/Certificates/Slice0/Obligations.lean ====
section
/-!
DEFINITION. The statements about the device. Each def is one obligation; OBLIGATIONS.json lists them.
-/
open Sys2Proof Sys2Proof.Machine

/-! The device as a whole. -/

/-- Log 7: one step takes the command at the front of the queue and is the effect of that command with the rest of the
queue waiting; with an empty queue the device idles. -/
def Obligations.StepRunsTheFrontCommand : Prop :=
  (∀ (s : State) (c : Instr), step { s with pending := c :: s.pending } = exec c s) ∧
  (∀ s : State, s.pending = [] → step s = .next s)

/-- Every command in every state has an effect: none is refused and none stops the device. -/
def Obligations.EveryCommandAnswersANextState : Prop := ∀ (c : Instr) (s : State), Completes c s fun _ => True

/-- The memory keeps its canonical form (addresses rising, nothing listed that reads as unlisted) at every step. -/
def Obligations.StepKeepsMemoryCanonical : Prop :=
  ∀ s t : State, Memory.wf s.mem = true → step s = .next t → Memory.wf t.mem = true

/-- The memory of the device after reset is in canonical form. -/
def Obligations.ResetMemoryCanonical : Prop := Memory.wf State.reset.mem = true

/-! The course of a core instruction. -/

/-- R76: an instruction whose condition is false changes nothing in the core but the PC, the count of retired
instructions, the windows of R85 and the budget, and nothing outside it. -/
def Obligations.FalseConditionOnlyRetires : Prop :=
  ∀ (e : Fin 256) (w x : BitVec 32) (s : State),
    s.issuesNow e = true → (s.stepping e && stepBlocked w.toNat) = false → fCOND w.toNat ≠ 15 →
    condHolds (fCOND w.toNat) (s.core e).cur.psw = false →
    let y := { s.start e w.toNat with cost := if fL w.toNat then 2 else 1 }
    (fmtOk .a w.toNat = true → Completes (.jmp e w x) s fun t => Retires s t e y) ∧
    (fmtOk .m w.toNat = true → Completes (.st e w x) s fun t => Retires s t e y) ∧
    (fmtOk .m w.toNat = true → Completes (.post e w x) s fun t => Retires s t e y) ∧
    (fmtOk .i w.toNat = true → Completes (.svc e w x) s fun t => Retires s t e y)

/-- R188, R247: retiring moves the PC on, counts the instruction, ends an entry in progress, and charges the cycles to
the budget of a core with a context (REMAIN stops at 0, the excess goes to OVER); it changes no bank and no other
register. -/
def Obligations.RetiringChangesOnlyTheCourse : Prop :=
  ∀ (c : Core) (npc : Word) (n : Nat) (q : Option Entering),
    let d := c.retire npc n q
    d.pc = npc ∧ d.retired = c.retired + 1 ∧ d.entering = q ∧
    (c.ctx = none → d.budget = c.budget) ∧
    (c.ctx ≠ none → fld d.budget 31 0 = fld c.budget 31 0 - n ∧
      fld d.budget 63 32 = satAdd 32 (fld c.budget 63 32) (n - fld c.budget 31 0)) ∧
    d = { c with pc := d.pc, retired := d.retired, entering := d.entering, budget := d.budget, delayed := d.delayed }

/-- R61, R121: a flag write sets the flags it names and keeps every other bit of the PSW. -/
def Obligations.FlagWritesKeepTheOtherBits : Prop :=
  ∀ (p a b : Word) (z n c v : Bool) (i : Nat), i < 64 →
    bit (pswZN p z n) i = (if i = 0 then z else if i = 1 then n else bit p i) ∧
    bit (pswZNV p z n v) i = (if i = 0 then z else if i = 1 then n else if i = 3 then v else bit p i) ∧
    bit (pswZNCV p z n c v) i
      = (if i = 0 then z else if i = 1 then n else if i = 2 then c else if i = 3 then v else bit p i) ∧
    bit (addPsw p a b) i
      = (if i = 0 then decide (a + b = 0) else if i = 1 then (a + b).msb
         else if i = 2 then decide (2 ^ 64 ≤ a.toNat + b.toNat)
         else if i = 3 then decide (a.toInt + b.toInt < -2 ^ 63 ∨ 2 ^ 63 ≤ a.toInt + b.toInt) else bit p i) ∧
    bit (subPsw p a b) i
      = (if i = 0 then decide (a = b) else if i = 1 then (a - b).msb
         else if i = 2 then decide (a.toNat < b.toNat)
         else if i = 3 then decide (a.toInt - b.toInt < -2 ^ 63 ∨ 2 ^ 63 ≤ a.toInt - b.toInt) else bit p i)

/-- R77, R78, R147: forming an address reads the core and changes nothing; the address lies below 2^42; in the direct mode it
is base + (index << scale) + displacement, in the pre-decrement mode the access width is taken off too, in the modulo mode
it is MB + the sum modulo ML. An A-format instruction, which accesses nothing, checks the limit 2^42 alone and takes off no
width. Under pre-decrement the base register of an access loses the access width at completion, and no other register
changes. -/
def Obligations.AddressesAndBaseUpdate : Prop :=
  (∀ (w : Nat) (d : Int) (n : Nat) (wr : Bool) (x y : Cx) (ea : Nat), formEa w d n wr x = .ok ea y →
    y = x ∧ ea < 2 ^ 42 ∧
    (fAM w = 0 → ea = (baseVal x.c.cur x.ia w + (idxVal x.c.cur w <<< fSCL w) + ofInt d).toNat) ∧
    (fAM w = 3 → ea = (baseVal x.c.cur x.ia w - BitVec.ofNat 64 n + (idxVal x.c.cur w <<< fSCL w) + ofInt d).toNat) ∧
    (fAM w = 1 → ∃ r : Nat, r < x.c.cur.ml.toNat ∧ ea = (x.c.cur.mb + BitVec.ofNat 64 r).toNat ∧
      (x.c.cur.ml.toNat : Int) ∣
        (baseVal x.c.cur x.ia w - x.c.cur.mb + (idxVal x.c.cur w <<< fSCL w) + ofInt d).toInt - r)) ∧
  (∀ (w : Nat) (d : Int) (x : Cx),
    let direct := (baseVal x.c.cur x.ia w + (idxVal x.c.cur w <<< fSCL w) + ofInt d).toNat
    (fAM w = 0 ∨ fAM w = 3 → direct < 2 ^ 42 → formA w d x = .ok direct x) ∧
    (fAM w = 0 ∨ fAM w = 3 → 2 ^ 42 ≤ direct → formA w d x = .error (.exc ⟨vTRANSLATION, 1, some direct, false, false, false⟩) x) ∧
    ∀ (y : Cx) (ea : Nat), formA w d x = .ok ea y → y = x ∧ ea < 2 ^ 42) ∧
  ∀ (w n : Nat) (b : Bank),
    (fAM w ≠ 3 → b.based w n = b) ∧
    (fAM w = 3 → fBASE w = 1 → b.based w n = { b with x1 := ⟨b.x1.val - BitVec.ofNat 64 n, b.x1.tag⟩ }) ∧
    (fAM w = 3 → fBASE w = 2 → b.based w n = { b with x2 := ⟨b.x2.val - BitVec.ofNat 64 n, b.x2.tag⟩ }) ∧
    (fAM w = 3 → fBASE w = 3 → b.based w n = { b with sp := b.sp - BitVec.ofNat 64 n })

/-- Reading a word operand outside control space changes no register, no bank and no byte of memory; what may change
is the cached translations, the state of a memory line and error records. -/
def Obligations.ReadingAWordKeepsRegistersAndMemory : Prop :=
  ∀ (va : Nat) (x y z : Cx) (tg : Target) (v : TWord),
    access .read va false x = .ok tg y → (∀ off, tg ≠ .ctl off) → loadWord va x = .ok v z →
    va % 8 = 0 ∧ v.tag ≠ tPOISON ∧ tagReserved v.tag = false ∧
    z.c = { x.c with tlb := z.c.tlb } ∧ z.cost = x.cost ∧ z.npc = x.npc ∧ z.ent = x.ent ∧
    z.s.cores = x.s.cores ∧ ∀ a, Memory.read z.s.mem a = Memory.read x.s.mem a

/-- R158: LD and LDE put the word with its tag into ACC and AEX; under pre-decrement the base register is updated; no
flag and no other register changes. -/
def Obligations.WordLoads : Prop :=
  ∀ (e : Fin 256) (w x : BitVec 32) (s : State) (v : TWord) (z : Cx),
    s.issues e w.toNat (fmtOk .m w.toNat) = true → memOperand w x (s.start e w.toNat) = .ok v z →
    (Completes (.ld e w x) s fun t => Retires s t e (z.with 1 fun b => { b.based w.toNat 8 with acc := v })) ∧
    (Completes (.lde e w x) s fun t => Retires s t e (z.with 1 fun b => { b.based w.toNat 8 with aex := v }))

/-- R158, R64, R66, R69: ST and STE store ACC and AEX with their tags. At a TCM target one word of the TCM changes, at a
memory target the 8 bytes of one word, most significant first, and its tag; every other byte of memory keeps its value. A
store to control space is the register write that it makes. -/
def Obligations.WordStores : Prop :=
  ∀ (e : Fin 256) (w x : BitVec 32) (s : State) (r ea : Nat) (tg : Target) (z : Cx),
    let y := s.start e w.toNat
    let v := (s.core e).cur.reg r
    let i := if r = 0 then Instr.st e w x else Instr.ste e w x
    s.issues e w.toNat (fmtOk .m w.toNat) = true → r = 0 ∨ r = 1 →
    v.tag ≠ tPOISON → tagReserved v.tag = false → (v.tag = tSEAL → pPRIV (s.core e).cur.psw < 2) →
    formEa w.toNat (dispOf w.toNat x.toNat) 8 true y = .ok ea y → ea % 8 = 0 →
    access .write ea false y = .ok tg z → targetTag z tg ≠ tSEAL →
    (∀ off, tg = .tcm off → Completes i s fun t =>
      (∀ k ∈ z.s.unitCores e, (t.core k).tcm = sset raw0 z.c.tcm (off / 8) v ∧ (t.core k).pc = y.npc ∧
        (t.core k).cur = z.c.cur.based w.toNat 8) ∧
      ∀ a, Memory.read t.mem a = Memory.read z.s.mem a) ∧
    (∀ pa pf, tg = .mem pa pf → Completes i s fun t =>
      (∀ k ∈ z.s.unitCores e, (t.core k).cur = z.c.cur.based w.toNat 8 ∧ (t.core k).tcm = z.c.tcm ∧
        (t.core k).pc = y.npc) ∧
      sget tRAW t.tags (pa / 8) = v.tag ∧
      (∀ j < 8, Memory.read t.mem (pa / 8 * 8 + j) = BitVec.ofNat 8 (v.val.toNat / 256 ^ (7 - j))) ∧
      (∀ a, a < pa / 8 * 8 ∨ pa / 8 * 8 + 8 ≤ a → Memory.read t.mem a = Memory.read z.s.mem a)) ∧
    (∀ off s', tg = .ctl off → (z.s.setCores (z.s.unitCores e) z.c).ctlWrite e off v.val = (s', true) →
      Completes i s fun t => Retires s t e ({ z with s := s', c := s'.core e }.with 1 fun b => b.based w.toNat 8))

/-- R121, R122, R65, R158: ADD, SUB, MUL and MULU on an INT in ACC and an INT word, with their flags; CMP sets the flags
of SUB for two INT or two PTR and writes no register. -/
def Obligations.IntegerArithmetic : Prop :=
  ∀ (e : Fin 256) (w x : BitVec 32) (s : State) (v : TWord) (z : Cx),
    s.issues e w.toNat (fmtOk .m w.toNat) = true → memOperand w x (s.start e w.toNat) = .ok v z →
    v.tag = (s.core e).cur.acc.tag →
    let a := z.c.cur.acc.val
    let p := z.c.cur.psw
    let m : Int := a.toInt * v.val.toInt
    let u : Nat := a.toNat * v.val.toNat
    let wide (n : Int) := decide (n < -2 ^ 63 ∨ 2 ^ 63 ≤ n)
    let added (b : Word) := pswZNCV p (decide (a + b = 0)) (a + b).msb (decide (2 ^ 64 ≤ a.toNat + b.toNat))
      (wide (a.toInt + b.toInt))
    let taken (b : Word) := pswZNCV p (decide (a - b = 0)) (a - b).msb (decide (a.toNat < b.toNat)) (wide (a.toInt - b.toInt))
    (v.tag = tINT →
      (Completes (.add e w x) s fun t => Retires s t e (z.with 1 fun b =>
        { b.based w.toNat 8 with acc := ⟨a + v.val, tINT⟩, psw := added v.val })) ∧
      (Completes (.sub e w x) s fun t => Retires s t e (z.with 1 fun b =>
        { b.based w.toNat 8 with acc := ⟨a - v.val, tINT⟩, psw := taken v.val })) ∧
      (Completes (.mul e w x) s fun t => ∃ hi lo q, Retires s t e (z.with 4 fun b =>
          { b.based w.toNat 8 with aex := ⟨hi, tINT⟩, acc := ⟨lo, tINT⟩, psw := q }) ∧
        (hi ++ lo : BitVec 128) = BitVec.ofInt 128 m ∧
        q = pswZNCV p (decide (m = 0)) hi.msb (wide m) (wide m)) ∧
      (Completes (.mulu e w x) s fun t => ∃ hi lo q, Retires s t e (z.with 4 fun b =>
          { b.based w.toNat 8 with aex := ⟨hi, tINT⟩, acc := ⟨lo, tINT⟩, psw := q }) ∧
        (hi ++ lo : BitVec 128) = BitVec.ofNat 128 u ∧
        q = pswZNCV p (decide (u = 0)) hi.msb (decide (2 ^ 64 ≤ u)) (decide (2 ^ 64 ≤ u)))) ∧
    (v.tag = tINT ∨ v.tag = tPTR →
      Completes (.cmp e w x) s fun t => Retires s t e (z.with 1 fun b =>
        { b.based w.toNat 8 with psw := taken v.val }))

/-- R123, R124: DIV and DIVU divide AEX:ACC by an INT word: quotient to ACC and remainder to AEX, truncated toward zero, with
Z, N and V = 0; a quotient that does not fit writes no register and sets V alone; a zero divisor raises DIVIDE_BY_ZERO at the
end with no register or flag changed. The cost is 68 cc. -/
def Obligations.IntegerDivision : Prop :=
  ∀ (e : Fin 256) (w x : BitVec 32) (s : State) (v : TWord) (z : Cx),
    s.issues e w.toNat (fmtOk .m w.toNat) = true → memOperand w x (s.start e w.toNat) = .ok v z →
    v.tag = tINT → (s.core e).cur.acc.tag = tINT → (s.core e).cur.aex.tag = tINT →
    let n : BitVec 128 := z.c.cur.aex.val ++ z.c.cur.acc.val
    let p := z.c.cur.psw
    let q := n.toInt.tdiv v.val.toInt
    let qu := n.toNat / v.val.toNat
    (v.val = 0 → ∀ i ∈ [Instr.div e w x, .divu e w x], Completes i s fun t =>
      Raises s t e { z with cost := z.cost + 67, xcost := z.cost + 67 } ⟨vDIVIDE_BY_ZERO, 0, none, false, false, false⟩) ∧
    (v.val ≠ 0 →
    (-2 ^ 63 ≤ q ∧ q < 2 ^ 63 → Completes (.div e w x) s fun t => Retires s t e (z.with 67 fun b =>
      { b.based w.toNat 8 with acc := ⟨ofInt q, tINT⟩, aex := ⟨ofInt (n.toInt.tmod v.val.toInt), tINT⟩,
                               psw := pswZNV p (decide (ofInt q = 0)) (ofInt q).msb false })) ∧
    (¬(-2 ^ 63 ≤ q ∧ q < 2 ^ 63) → Completes (.div e w x) s fun t => Retires s t e (z.with 67 fun b =>
      { b.based w.toNat 8 with psw := setBit p 3 true })) ∧
    (qu < 2 ^ 64 → Completes (.divu e w x) s fun t => Retires s t e (z.with 67 fun b =>
      { b.based w.toNat 8 with acc := ⟨ofInt qu, tINT⟩, aex := ⟨ofInt (n.toNat % v.val.toNat : Nat), tINT⟩,
                               psw := pswZNV p (decide (ofInt qu = 0)) (ofInt qu).msb false })) ∧
    (2 ^ 64 ≤ qu → Completes (.divu e w x) s fun t => Retires s t e (z.with 67 fun b =>
      { b.based w.toNat 8 with psw := setBit p 3 true })))

/-- R65, R158: AND, OR and XOR of ACC and a word tagged RAW or INT: the result is RAW if either is RAW, else INT; Z and
N from the result, V = 0, C kept. -/
def Obligations.LogicalInstructions : Prop :=
  ∀ (e : Fin 256) (w x : BitVec 32) (s : State) (v : TWord) (z : Cx),
    let a := (s.core e).cur.acc
    s.issues e w.toNat (fmtOk .m w.toNat) = true → memOperand w x (s.start e w.toNat) = .ok v z →
    a.tag = tRAW ∨ a.tag = tINT → v.tag = tRAW ∨ v.tag = tINT →
    let tag := if a.tag = tRAW ∨ v.tag = tRAW then tRAW else tINT
    let put (r : Word) := z.with 1 fun b =>
      { b.based w.toNat 8 with acc := ⟨r, tag⟩, psw := pswZNV z.c.cur.psw (decide (r = 0)) r.msb false }
    (Completes (.andAcc e w x) s fun t => Retires s t e (put (a.val &&& v.val))) ∧
    (Completes (.orAcc e w x) s fun t => Retires s t e (put (a.val ||| v.val))) ∧
    (Completes (.xor e w x) s fun t => Retires s t e (put (a.val ^^^ v.val)))

/-- R158: the shifts of an ACC tagged RAW or INT by the low six bits k of the effective address, with Z and N from the
result, V = 0 and C the last bit shifted out (0 when k = 0); LEA puts the address, tagged PTR, into ACC. -/
def Obligations.ShiftsAndAddressLoad : Prop :=
  ∀ (e : Fin 256) (w x : BitVec 32) (s : State) (ea : Nat),
    let y := s.start e w.toNat
    let a := (s.core e).cur.acc
    let k := ea % 64
    s.issues e w.toNat (fmtOk .a w.toNat) = true → formA w.toNat (dispOf w.toNat x.toNat) y = .ok ea y →
    let put (r : Word) (out : Bool) := y.with 0 fun b =>
      { b with acc := ⟨r, a.tag⟩, psw := pswZNCV b.psw (decide (r = 0)) r.msb (decide (k ≠ 0) && out) false }
    (Completes (.lea e w x) s fun t => Retires s t e (y.with 0 fun b => { b with acc := ⟨BitVec.ofNat 64 ea, tPTR⟩ })) ∧
    (a.tag = tRAW ∨ a.tag = tINT →
      (Completes (.shl e w x) s fun t => Retires s t e (put (a.val <<< k) (a.val.getLsbD (64 - k)))) ∧
      (Completes (.shr e w x) s fun t => Retires s t e (put (a.val >>> k) (a.val.getLsbD (k - 1)))) ∧
      (Completes (.sar e w x) s fun t => Retires s t e (put (a.val.sshiftRight k) (a.val.getLsbD (k - 1)))))

/-- R151, R159, R160: NOP, MOV, LDI, XADD, XSUB and XCMP. XADD and XSUB keep the tag of RD and set Z and N alone; XCMP
sets the flags of a subtraction. -/
def Obligations.RegisterInstructions : Prop :=
  ∀ (e : Fin 256) (w x : BitVec 32) (s : State),
    let y := s.start e w.toNat
    let b := (s.core e).cur
    let rd := fRD w.toNat
    let rs := fRS w.toNat
    let imm := ofInt (immR w.toNat x.toNat)
    let v := if rs = 15 then (0 : Word) else (b.reg rs).val
    (s.issues e w.toNat (fmtOk .n w.toNat) = true → Completes (.nop e w x) s fun t => Retires s t e y) ∧
    (s.issues e w.toNat (fmtOk .r w.toNat) = true →
      (rd < 8 → rs < 8 → Completes (.mov e w x) s fun t => Retires s t e (y.with 0 fun b => b.setReg rd (b.reg rs))) ∧
      (rd < 8 → rs = 15 → Completes (.ldi e w x) s fun t => Retires s t e (y.with 0 fun b => b.setReg rd ⟨imm, tINT⟩)) ∧
      (2 ≤ rd → rd ≤ 5 → rs < 8 ∨ rs = 15 → (rd < 4 → (b.reg rd).tag = tPTR ∨ (b.reg rd).tag = tINT) →
        (rs < 4 → (b.reg rs).tag = tINT) →
        (Completes (.xadd e w x) s fun t => Retires s t e (y.with 0 fun b =>
          let r := (b.reg rd).val + v + imm
          let d := b.setReg rd ⟨r, (b.reg rd).tag⟩
          { d with psw := pswZN d.psw (decide (r = 0)) r.msb })) ∧
        (Completes (.xsub e w x) s fun t => Retires s t e (y.with 0 fun b =>
          let r := (b.reg rd).val - v - imm
          let d := b.setReg rd ⟨r, (b.reg rd).tag⟩
          { d with psw := pswZN d.psw (decide (r = 0)) r.msb }))) ∧
      (rd < 8 → rs < 8 ∨ rs = 15 → (rd < 4 → rs < 4 → (b.reg rd).tag = (b.reg rs).tag) →
        Completes (.xcmp e w x) s fun t => Retires s t e (y.with 0 fun b =>
          { b with psw := subPsw b.psw (b.reg rd).val (v + imm) })))

/-- R68: the tag changes that a privilege permits: none to POISON or a reserved tag; at P2 only from RAW and only to INT,
PDEC, PTR, DESC, TEXT, BFP or DFP (a tag that stays the same is no change). -/
def Obligations.PermittedTagChanges : Prop :=
  ∀ (p : Nat) (old new : Tag),
    (tagChange p old new = none ↔ new ≠ tPOISON ∧ tagReserved new = false ∧
      (old = new ∨ p < 2 ∨ (old = tRAW ∧ 1 ≤ new.toNat ∧ new.toNat ≤ 7))) ∧
    (new = tPOISON ∨ tagReserved new = true → tagChange p old new = some vTAG_MISMATCH) ∧
    (tagChange p old new = none ∨ tagChange p old new = some vTAG_MISMATCH ∨ tagChange p old new = some vPRIVILEGE)

/-- R68, R161: TTST and TTSTM put the comparison of a tag into PSW.T; TAGSET changes the tag of a register where R68
permits it and keeps its value; TAGSETM does so for a word, written only when the tag changes. -/
def Obligations.TagInstructions : Prop :=
  ∀ (e : Fin 256) (w x : BitVec 32) (s : State) (v : TWord) (z : Cx),
    let y := s.start e w.toNat
    let b := (s.core e).cur
    let rd := fRD w.toNat
    let t := tagImm w.toNat x.toNat
    (s.issues e w.toNat (tagFormOk w.toNat x.toNat) = true →
      (Completes (.ttst e w x) s fun u => Retires s u e (y.with 0 fun b =>
        { b with psw := setBit b.psw 6 (decide ((b.reg rd).tag = t)) })) ∧
      (tagChange (pPRIV b.psw) (b.reg rd).tag t = none →
        Completes (.tagset e w x) s fun u => Retires s u e (y.with 0 fun b => b.setReg rd ⟨(b.reg rd).val, t⟩))) ∧
    (s.issues e w.toNat (fmtOk .m w.toNat) = true → b.acc.tag = tRAW ∨ b.acc.tag = tINT →
      let m : Tag := b.acc.val.setWidth 4
      (memOperand w x y = .ok v z → Completes (.ttstm e w x) s fun u => Retires s u e (z.with 1 fun b =>
        { b.based w.toNat 8 with psw := setBit b.psw 6 (decide (v.tag = m)) })) ∧
      (∀ (ea : Nat) (tg : Target) (y' z' : Cx), formEa w.toNat (dispOf w.toNat x.toNat) 8 true y = .ok ea y →
        ea % 8 = 0 → access .write ea false y = .ok tg y' → (∀ off, tg ≠ .ctl off) → targetWord tg ea false y' = .ok v z →
        v.tag ≠ tPOISON → tagReserved v.tag = false → tagChange (pPRIV z.c.cur.psw) v.tag m = none →
        (v.tag = m → z' = z) → (v.tag ≠ m → writeTarget tg ea ⟨v.val, m⟩ z = .ok () z') →
        Completes (.tagsetm e w x) s fun u => Retires s u e (z'.with 1 fun b => b.based w.toNat 8)))

/-- R81 to R83: STM stores and LDM loads the registers of the mask in ascending order, the i-th at the effective address + 8 i,
those in PROG left out and each marked in PROG as it is done; PROG of a PSW stored is 0. STM stores a register with its tag;
LDM takes ACC, AEX, X1 and X2 with any tag, any other only with the tag that STM writes, and the PSW as CSRW does. At the end PROG is 0 and the
base register is updated. An interrupt to be taken after some registers leaves what they hold and PROG, with PC at the
instruction. -/
def Obligations.MultipleTransfers : Prop :=
  ∀ (e : Fin 256) (w x : BitVec 32) (stop : Option Nat) (s : State) (ea m : Nat) (u : Nat → Cx),
    let y := s.start e w.toNat
    let rs := maskRegs (fMASK w.toNat)
    let n := 8 * rs.length
    let tagOf (r : Nat) := if r = 4 ∨ r = 7 then tINT else if r = 5 ∨ r = 6 then tPTR else tRAW
    let undone (v : Cx) (r : Nat) := bit v.c.cur.psw (55 + r) = false
    let ended (v : Cx) : Cx := { v with
      c := v.c.setCur ({ v.c.cur with psw := setFld v.c.cur.psw 63 55 0 }.based w.toNat n), cost := v.cost + 1 }
    let paused (v : Cx) (t : State) := ∀ k ∈ v.s.unitCores e,
      (t.core k).banks = v.c.banks ∧ (t.core k).pc = v.c.pc ∧ (t.core k).retired = v.c.retired ∧ (t.core k).act = .run
    let stored (r a : Nat) (v z : Cx) := storeWordAt a
      (if r = 8 then ⟨setFld v.c.cur.psw 63 55 0, tRAW⟩ else v.c.cur.reg r) v = .ok () z
    let loaded (r a : Nat) (v z : Cx) := ∃ d v', loadWord a v = .ok d v' ∧ (4 ≤ r → d.tag = tagOf r) ∧
      (r < 8 → z = { v' with c := v'.c.setCur (v'.c.cur.setReg r d) }) ∧ (r = 8 → ldmPsw d v' = .ok () z)
    let clear (l : Nat) := ∀ j p, j < l → rs[j]? = some p → undone (u j) p.1 → (u j).lim ≠ some 0
    let held (l : Nat) := ∃ p, rs[l]? = some p ∧ undone (u l) p.1 ∧ (u l).lim = some 0
    u 0 = { y with lim := stop } → ea % 8 = 0 → m ≤ rs.length →
    (s.issues e w.toNat (fmtOk .k w.toNat && fMASK w.toNat != 0) = true →
      (∀ p ∈ rs, undone y p.1 →
        let g := (y.c.cur.reg p.1).tag
        g ≠ tPOISON ∧ tagReserved g = false ∧ (g = tSEAL → pPRIV y.c.cur.psw < 2)) →
      formEa w.toNat (dispK w.toNat x.toNat) n true y = .ok ea y → Transfers stored ea rs u m → clear m →
      (m = rs.length → Completes (.stm e w ⟨x, stop⟩) s fun t => Retires s t e (ended (u m))) ∧
      (held m → Completes (.stm e w ⟨x, stop⟩) s (paused (u m)))) ∧
    (s.issues e w.toNat (fmtOk .k w.toNat && fMASK w.toNat != 0 && !maskUses w.toNat) = true →
      formEa w.toNat (dispK w.toNat x.toNat) n false y = .ok ea y → Transfers loaded ea rs u m → clear m →
      (m = rs.length → Completes (.ldm e w ⟨x, stop⟩) s fun t => Retires s t e (ended (u m))) ∧
      (held m → Completes (.ldm e w ⟨x, stop⟩) s (paused (u m)))) ∧
    (∀ p ∈ rs, p.1 < 9 ∧ (fMASK w.toNat).testBit p.1 = true ∧
      p.2 = ((List.range p.1).filter (fMASK w.toNat).testBit).length)

/-- R70, R80, R151, R152, R196, R197, R245: JMP goes to the effective address, in 2 cc; CALL also pushes the address of the
next instruction, tagged CODE, on the return stack, and RET pops it and goes there, in 3 cc each. With the Markhor check active
(in BOOT, TEST or RECOVERY) CALL also pushes the address on the shadow stack in TCM, which must have room, and RET takes it off
where it agrees. A transfer to an address that is no multiple of 4 raises MISALIGNED, and an empty or full stack without WRAP,
or a disagreeing shadow stack, its own exception. -/
def Obligations.JumpCallReturn : Prop :=
  ∀ (e : Fin 256) (w x : BitVec 32) (s : State) (ea : Nat),
    let y := s.start e w.toNat
    let c := s.core e
    let top := fld c.rsctl 12 8
    let depth := fld c.rsctl 5 0
    let sd := fld c.shstk 40 32
    let r := sget raw0 c.rstk ((top + 31) % 32)
    let sh := sget raw0 c.tcm (shadowWord c (sd - 1))
    let mk := c.stateCode = csBOOT ∨ c.stateCode = csTEST ∨ c.stateCode = csRECOVERY
    let exc (v d : Nat) (a : Option Nat) : Exc := ⟨v, d, a, false, false, false⟩
    let aform := s.issues e w.toNat (fmtOk .a w.toNat) = true ∧ formA w.toNat (dispOf w.toNat x.toNat) y = .ok ea y
    let nform := s.issues e w.toNat (fmtOk .n w.toNat) = true
    (aform → ea % 4 = 0 →
      (Completes (.jmp e w x) s fun t => Retires s t e { y with npc := BitVec.ofNat 64 ea, cost := 2, xcost := 2 }) ∧
      (y.v.wrap = true ∨ depth ≠ 32 → (mk → sd < 256) → Completes (.call e w x) s fun t => ∃ d : Core,
        Retires s t e { y with c := d, npc := BitVec.ofNat 64 ea, cost := 3, xcost := 3 } ∧
        d = { c with rstk := sset raw0 c.rstk top ⟨y.npc, tCODE⟩,
                     rsctl := setFld (setFld c.rsctl 12 8 ((top + 1) % 32)) 5 0 (min (depth + 1) 32),
                     tcm := d.tcm, shstk := d.shstk } ∧
        (mk → d.tcm = sset raw0 c.tcm (shadowWord c sd) ⟨y.npc, tCODE⟩ ∧ d.shstk = setFld c.shstk 40 32 (sd + 1)) ∧
        (¬mk → d.tcm = c.tcm ∧ d.shstk = c.shstk)) ∧
      (y.v.wrap = false → depth = 32 → Completes (.call e w x) s fun t => Raises s t e y (exc vRS_OVERFLOW 0 none)) ∧
      (y.v.wrap = true ∨ depth ≠ 32 → mk → 256 ≤ sd → Completes (.call e w x) s fun t =>
        Raises s t e y (exc vSHADOW_MISMATCH 1 (some y.npc.toNat)))) ∧
    (aform → ea % 4 ≠ 0 → ∀ i ∈ [Instr.jmp e w x, .call e w x], Completes i s fun t =>
      Raises s t e y (exc vMISALIGNED 0 (some ea))) ∧
    (nform → y.v.wrap = true ∨ depth ≠ 0 → r.tag = tCODE →
      (r.val.toNat % 4 = 0 → (mk → sd ≠ 0 ∧ sh.tag ≠ tPOISON ∧ sh.val = r.val) → Completes (.ret e w x) s fun t =>
        Retires s t e { y with
          c := { c with rsctl := setFld (setFld c.rsctl 12 8 ((top + 31) % 32)) 5 0 (depth - 1),
                        shstk := if mk then setFld c.shstk 40 32 (sd - 1) else c.shstk },
          npc := r.val, cost := 3, xcost := 3 }) ∧
      (r.val.toNat % 4 ≠ 0 → Completes (.ret e w x) s fun t => Raises s t e y (exc vMISALIGNED 0 (some r.val.toNat))) ∧
      (r.val.toNat % 4 = 0 → mk → sd = 0 → Completes (.ret e w x) s fun t =>
        Raises s t e y (exc vSHADOW_MISMATCH 2 (some r.val.toNat))) ∧
      (r.val.toNat % 4 = 0 → mk → sd ≠ 0 → sh.tag ≠ tPOISON → sh.val ≠ r.val → Completes (.ret e w x) s fun t =>
        Raises s t e y (exc vSHADOW_MISMATCH 0 (some sh.val.toNat)))) ∧
    (nform → y.v.wrap = false → depth = 0 → Completes (.ret e w x) s fun t => Raises s t e y (exc vRS_UNDERFLOW 0 none))

/-- R154, R178, R180, R183: SVC n enters the level of its vector entry, where that entry is valid, above the current level
and not masked: the link group saves the address of the instruction after SVC with tag CODE, the vector, the level left
and n; PRIV, KEY and GM come from the entry; no register of the bank that is left changes. -/
def Obligations.SupervisorCall : Prop :=
  ∀ (e : Fin 256) (w x : BitVec 32) (s u : State) (ent : Word),
    let y := s.start e w.toNat
    let c := s.core e
    let l := fld ent 63 60
    s.issues e w.toNat (fmtOk .i w.toNat) = true → c.lev < 16 → y.s.vecEntry c.vbr vSVC = (u, some ent) →
    c.lev < l → masked c.lmask c.cur.psw l = false →
    Completes (.svc e w x) s fun t => ∀ k ∈ y.s.unitCores e,
      let d := t.core k
      let i := (d.link l).linfo
      d.lev = l ∧ d.pc = setFld 0 41 2 (fld ent 41 2) ∧ (d.link l).lpc = ⟨y.npc, tCODE⟩ ∧
      fld i 63 56 = vSVC ∧ fld i 55 51 = c.lev ∧ fld i 50 48 = 0 ∧ fld i 31 0 = fN w.toNat ∧
      fld d.cur.psw 39 38 = fld ent 59 58 ∧ fld d.cur.psw 47 40 = fld ent 55 48 ∧ fld d.cur.psw 26 26 = fld ent 57 57 ∧
      bit d.active l = true ∧ (∀ b, b ≠ l → d.bank b = c.bank b ∧ d.link b = c.link b) ∧
      (d.bank l).acc = (c.bank l).acc ∧ (d.bank l).sp = (c.bank l).sp

/-- R180, R185: an exception that its vector entry does not deliver goes to the guard level 16, if vector 0 is valid: PRIV
P0, KEY 0, GM 1, SP from CORE_GSP, with the reason in ESCR; the vector 0 entry gives the handler's address. -/
def Obligations.EscalationToTheGuardLevel : Prop :=
  ∀ (e : Nat) (s u u' : State) (c : Core) (q : Exc) (rpc ent : Word) (o : Option Word),
    c.lev < 16 → s.vecEntry c.vbr q.vec = (u, o) → escOf c q.vec o ≠ 0 → escOf c q.vec o ≠ 4 →
    u.vecEntry c.vbr 0 = (u', some ent) → q.detail < 2 ^ 32 → q.vec < 256 →
    ∀ k ∈ s.unitCores e,
      let d := (s.takeExc e c q rpc).core k
      let i := (d.link 16).linfo
      d.lev = 16 ∧ d.pc = setFld 0 41 2 (fld ent 41 2) ∧ (d.link 16).lpc = ⟨rpc, tCODE⟩ ∧
      fld i 63 56 = q.vec ∧ fld i 55 51 = c.lev ∧ fld i 50 48 = escOf c q.vec o ∧ fld i 31 0 = q.detail ∧
      (d.link 16).laddr = BitVec.ofNat 64 (q.addr.getD 0) ∧
      fld d.cur.psw 39 38 = 0 ∧ fld d.cur.psw 47 40 = 0 ∧ fld d.cur.psw 26 26 = 1 ∧
      fld d.cur.sp 41 3 = fld c.gsp 41 3 ∧ ∀ b, b ≠ 16 → d.bank b = c.bank b

/-- R70, R153, R174, R184, R195: RETL leaves the current level: with no request pending above the level to return to, it goes
back to the link address there, which must be a multiple of 4; with one pending it chains into that level with the link group
handed on; above a level 0 that stands in a DISPATCH of the hardware it waits there, with the PSW of an abort where an abort
put it there. Requests whose vector entry is invalid are cleared first. It is a synchronising event. -/
def Obligations.ReturnFromLevel : Prop :=
  ∀ (e : Fin 256) (w x : BitVec 32) (s : State),
    let y := s.start e w.toNat
    let u := y.s.dropInvalid e
    let c := s.core e
    let l := c.link c.lev
    let lret := fld l.linfo 55 51
    let out := { c.sync with active := setBit c.active c.lev false }
    let p := u.pick e out.lmask lret (out.bank lret).psw out.vbr
    s.issues e w.toNat (fmtOk .n w.toNat) = true → c.lev ≠ 0 → l.lpc.tag = tCODE →
    (p = none → ¬(lret = 0 ∧ c.dead0 = true) →
      (l.lpc.val.toNat % 4 = 0 → Completes (.retl e w x) s fun t =>
        Retires s t e { y with s := u, c := { out with lev := lret }, npc := l.lpc.val, cost := 8, xcost := 8 }) ∧
      (l.lpc.val.toNat % 4 ≠ 0 → Completes (.retl e w x) s fun t =>
        Raises s t e { y with s := u } ⟨vMISALIGNED, 0, some l.lpc.val.toNat, false, false, false⟩)) ∧
    (p = none → lret = 0 → c.dead0 = true → Completes (.retl e w x) s fun t => ∀ k ∈ u.unitCores e,
      (t.core k).lev = 0 ∧ (t.core k).act = .disp ∧ (t.core k).delayed = [] ∧
      (t.core k).cur = if c.aborted0 then { out.bank 0 with psw := dispPsw out } else out.bank 0) ∧
    (∀ i ent, p = some (i, ent) → Completes (.retl e w x) s fun t => ∀ k ∈ (u.clearReq i e).unitCores e,
      let d := t.core k
      let q := fld ent 63 60
      d.lev = q ∧ d.pc = setFld 0 41 2 (fld ent 41 2) ∧ (d.link q).lpc = l.lpc ∧
      fld (d.link q).linfo 55 51 = lret ∧ fld (d.link q).linfo 44 44 = 1 ∧ bit d.active q = true)

/-- R60, R86, R155: SYNC puts every earlier write of a needs-SYNC register into effect, of the instruction stream and of
control space; WAIT at P0 or P1 outside tick-exact mode retires at once when an unmasked request for a higher level is pending,
and else puts the unit into C1; WAIT_WAKEUP retires it when such a request, or a tick pulse, has come. -/
def Obligations.SyncAndWait : Prop :=
  ∀ (e : Fin 256) (w x : BitVec 32) (s : State),
    let y := s.start e w.toNat
    let u := y.s.dropInvalid e
    let v := s.dropInvalid e
    let c := s.core e
    let p := u.pick e y.v.lmask c.lev c.cur.psw c.vbr
    (s.issues e w.toNat (fmtOk .n w.toNat) = true → Completes (.sync e w x) s fun t =>
      Retires s t e { y with c := c.sync, cost := 2, xcost := 2 }) ∧
    (s.issues e w.toNat (fmtOk .n w.toNat) = true → c.tx = false → pPRIV c.cur.psw < 2 →
      (∀ r, p = some r → Completes (.wait e w x) s fun t => Retires s t e { y with s := u }) ∧
      (p = none → Completes (.wait e w x) s fun t => Waits t e { y with s := u } .c1)) ∧
    ((s.halted (e / 8) && !s.stepping e) = false →
      c.act = .c1p ∨ (c.act = .c1 ∧
        (v.pick e (effVal v.free 0x14 c.lmask c.delayed) c.lev c.cur.psw c.vbr).isSome = true) →
      Completes (.waitWakeup e) s fun t => ∀ k ∈ s.unitCores e, (t.core k).act = .run ∧
        (t.core k).retired = c.retired + 1 ∧ (t.core k).pc = c.pc + 4 ∧ (t.core k).banks = c.banks)

/-- R58, R59, R156, R182, R199: CSRR puts a CSR into ACC where the privilege permits; CSRW writes ACC to it after its
checks, and changes nothing for a read-only CSR, with an EVENT where CORE_UCSTAT would take another value in a protected field
(R9). What CSRW writes to the registers that hold a whole word reads back. -/
def Obligations.ControlRegisterAccess : Prop :=
  (∀ (e : Fin 256) (w x : BitVec 32) (s : State) (k : Csr) (z z' : Cx),
    let y := s.start e w.toNat
    let p := pPRIV (s.core e).cur.psw
    let v := (s.core e).cur.acc
    s.issues e w.toNat (fmtOk .c w.toNat) = true → Csr.of (fCSR w.toNat) = some k →
    (p ≤ k.readPriv → (k.isExt = false → z = y) → (k.isExt = true → extUse false y = .ok () z) →
      Completes (.csrr e w x) s fun t => Retires s t e (z.with 1 fun b => { b with acc := csrSeen z k })) ∧
    (p ≤ k.writePriv → k.readOnly = true → Completes (.csrw e w x) s fun t =>
      Retires s t e { y with s := if k = .ucstat then y.s.denyCsrw e k v.val else y.s, cost := 2, xcost := 2 }) ∧
    (p ≤ k.writePriv → k.readOnly = false → v.tag ≠ tPOISON → tagReserved v.tag = false →
      csrwCheck k (fCSR w.toNat) v y = .ok () y →
      (k.isExt = false → z = y) → (k.isExt = true → extUse true y = .ok () z) → csrwStore k v z = .ok () z' →
      Completes (.csrw e w x) s fun t => Retires s t e { z' with cost := z'.cost + 1, xcost := z'.cost + 1 })) ∧
  (∀ (c : Core) (mp : Bool) (id i b : Nat) (pend : Word) (v : TWord),
    ((c.csrStore mp (.xscr i) v).csrVal id pend (.xscr i) = ⟨v.val, tRAW⟩) ∧
    ((c.csrStore mp .budget v).csrVal id pend .budget = ⟨v.val, tRAW⟩) ∧
    ((c.csrStore mp (.laddr b) v).csrVal id pend (.laddr b) = ⟨v.val, tRAW⟩) ∧
    ((c.csrStore mp (.rsent i) v).csrVal id pend (.rsent i) = v) ∧
    ((c.csrStore mp (.lpc b) v).csrVal id pend (.lpc b) = ⟨v.val, tRAW⟩) ∧
    ((c.csrStore mp (.lpc b) v).csrVal id pend (.lpct b) = ⟨v.tag.setWidth 64, tRAW⟩) ∧
    ((c.csrStore mp .pc v).csrVal id pend .pc = ⟨c.pc, tRAW⟩))

/-- R157, R265: INVT at P0 or P1 removes the cached translations of one frame, INVTA those of a partition, from every core
and from the fabric endpoint, in 1,024 cc; nothing else changes. While an access that used such a translation waits in a
posting unit, the instruction does not retire. -/
def Obligations.TranslationInvalidation : Prop :=
  ∀ (e : Fin 256) (w x : BitVec 32) (s : State) (ea : Nat),
    let y := s.start e w.toNat
    let b := (s.core e).cur
    let p := if pPRIV b.psw = 0 then b.acc.val.toNat else fld y.v.tbase 63 54
    let gone (keep : TlbItem → Bool) : Cx :=
      { y with s := y.s.dropTlb keep, c := { y.c with tlb := y.c.tlb.filter keep }, cost := 1024, xcost := 1024 }
    pPRIV b.psw < 2 → (pPRIV b.psw = 0 → b.acc.tag = tINT) → p ≤ 1023 →
    (s.issues e w.toNat (fmtOk .a w.toNat) = true → formA w.toNat (dispOf w.toNat x.toNat) y = .ok ea y →
      (y.invHeld (invtKeeps p ea) = false → Completes (.invt e w x) s fun t => Retires s t e (gone (invtKeeps p ea)) ∧
        ∀ k, ∀ i ∈ (t.core k).tlb, invtKeeps p ea i = true) ∧
      (y.invHeld (invtKeeps p ea) = true → Completes (.invt e w x) s fun t => (t.core e).pc = (s.core e).pc ∧
        (t.core e).retired = (s.core e).retired ∧ t.fabTlb = s.fabTlb ∧ t.npus = s.npus)) ∧
    (s.issues e w.toNat (fmtOk .n w.toNat) = true →
      (y.invHeld (fun i => i.part != p) = false → Completes (.invta e w x) s fun t =>
        Retires s t e (gone fun i => i.part != p) ∧ ∀ k, ∀ i ∈ (t.core k).tlb, i.part ≠ p) ∧
      (y.invHeld (fun i => i.part != p) = true → Completes (.invta e w x) s fun t => (t.core e).pc = (s.core e).pc ∧
        (t.core e).retired = (s.core e).retired ∧ t.fabTlb = s.fabTlb ∧ t.npus = s.npus))

/-- R86, R169, R170, R199, R247, R345: DISPATCH at level 0 and P0 or P1 is a synchronising event and waits; a request of the
tick that the region scheduler then delivers to it retires it with the new context: the bank, the PC, the partition, the keys,
the budget and the empty stacks of R169. YIELD.END stages the 64-byte record at the effective address, ends the run, charges
the context with its 40 cc and waits in DISPATCH; YIELD.SUS charges its 48 cc, puts the nine registers of level 0 with their
tags, the PC tagged CODE and CORE_BUDGET into the context save area, suspends the run and waits in DISPATCH. -/
def Obligations.DispatchAndYield : Prop :=
  ∀ (e : Fin 256) (w x : BitVec 32) (s : State) (ea : Nat) (ws : List TWord) (z : Cx) (k : Ctx),
    let y := s.start e w.toNat
    let c := s.core e
    c.lev = 0 →
    (s.issues e w.toNat (fmtOk .n w.toNat) = true → pPRIV c.cur.psw < 2 →
      Completes (.dispatch e w x) s fun u => Waits u e { y with c := c.sync } .disp ∧
        ∀ (r : Run) (p : Prog), u.runs.find? (fun q => q.isn % 2 ^ 64 == r.isn % 2 ^ 64 && u.deliverable e q) = some r →
          u.takesRun e r = true → u.overtakes e r = false → u.deliveryFault r = none → u.progOf r = some p →
          r.st = .queued → r.exact = false → r.pblk = none →
          Completes (.descriptorDelivery e (BitVec.ofNat 64 r.isn)) u fun t => ∀ i ∈ u.unitCores e,
            let d := t.core i
            d.act = .run ∧ d.retired = c.retired + 1 ∧ d.pc = BitVec.ofNat 64 p.entry ∧ d.lev = 0 ∧
            d.ctx = some ⟨r.isn, r.okey, r.save, r.xsaved⟩ ∧
            d.cur = { acc := ⟨BitVec.ofNat 64 r.okey, tINT⟩, aex := raw0, x1 := ⟨BitVec.ofNat 64 r.frame, tPTR⟩,
                      x2 := ⟨p.xtwo, tPTR⟩, cnt := 0, sp := BitVec.ofNat 64 (r.frame + 0x400), mb := 0, ml := 0,
                      psw := setBit (setFld (setFld 0 39 38 2) 47 40 p.key) 37 c.tx } ∧
            d.budget = setFld 0 31 0 p.budget ∧ d.txstall = 0 ∧ d.decctl = 0 ∧ d.rstk = [] ∧ fld d.rsctl 5 0 = 0 ∧
            fld d.rsctl 12 8 = 0 ∧ fld d.shstk 40 32 = 0 ∧ bit d.tbase 0 = true ∧ fld d.tbase 63 54 = r.part % 1024 ∧
            bit d.xown 0 = false) ∧
    (c.ctx = some k → s.issues e w.toNat (fmtOk .m w.toNat) = true →
      formEa w.toNat (dispOf w.toNat x.toNat) 64 false y = .ok ea y →
      loadWords (recordAddrs ea) (fun _ => true) y = .ok ws z →
      let f (r : Run) : Run := if r.runsOn (z.s.unitCores e)
        then { r with st := .executed, result := ws.flatMap (fun v => toBytes 8 v.val.toNat), status := 0, tick := z.s.tick }
        else r
      let d := z.c.setCur (z.c.cur.based w.toNat 64)
      Completes (.yieldEnd e w x) s fun t => Retires s t e { z with
        s := (z.s.modRun k.isn f).sendPins, c := (d.charge (chargeOf d (z.s.free - 1) (z.cost + 39))).toDispatch,
        cost := z.cost + 39, xcost := z.cost + 39 }) ∧
    (c.ctx = some k → s.issues e w.toNat (fmtOk .n w.toNat) = true → y.s.physOk k.save = true →
      y.s.physOk (k.save + 0x57) = true → k.save % 8 = 0 →
      let d := c.charge (chargeOf c (y.s.free - 1) 48)
      Completes (.yieldSus e w x) s fun t => (∀ i ∈ y.s.unitCores e,
          (t.core i).act = .disp ∧ (t.core i).ctx = none ∧ (t.core i).delayed = [] ∧ (t.core i).banks = c.sync.banks) ∧
        (∀ r < 9, t.memWord (k.save + 8 * r) = c.cur.reg r) ∧
        t.memWord (k.save + 0x48) = ⟨y.npc, tCODE⟩ ∧ t.memWord (k.save + 0x50) = ⟨d.budget, tRAW⟩ ∧
        (∀ a, a < k.save ∨ k.save + 0x58 ≤ a → Memory.read t.mem a = Memory.read y.s.mem a) ∧
        t.runs = y.s.runs.map fun r => if r.isn = k.isn ∧ r.runsOn (y.s.unitCores e) = true
          then { r with st := .suspended (if bit c.xown 0 && bit c.xown 1 then some e.val else none), xsaved := k.xsaved }
          else r)

/-! Decimal, string, posting, floating-point and customer instructions. -/

/-- R99 to R103, R162: DADD, DSUB and DMUL put the result of two valid PACKED fields into op1 with Z, N and V = 0 when it
fits; when it does not and DOM = 1, the low digits with V = 1; with an invalid field and DDM = 1 nothing is written and
PSW.DI is set. The cost depends on the lengths and splits alone. -/
def Obligations.DecimalArithmetic : Prop :=
  ∀ (e : Fin 256) (w x : BitVec 32) (s : State) (d1 d2 : FDesc) (b1 b2 : List Byte) (tg : List (Target × Nat)) (z z' : Cx),
    let y := s.start e w.toNat
    let v1 := fieldVal d1.kind b1
    let v2 := fieldVal d2.kind b2
    let sp := d2.splits + 2 * d1.splits
    s.issues e w.toNat (fmtOk .m w.toNat) = true → FieldsRead w.toNat x.toNat kPACKED kPACKED y d1 d2 b1 b2 tg z →
    ∀ p ∈ [(Instr.dadd e w x, v1 + v2, 6 + d1.len + d2.len + sp), (Instr.dsub e w x, v1 - v2, 6 + d1.len + d2.len + sp),
        (Instr.dmul e w x, v1 * v2, 8 + 2 * d1.len * d2.len + sp)],
      (ValidField d1 b1 → ValidField d2 b2 → writePieces tg (d1.encode z.c.decctl p.2.1) z = .ok () z' →
        (d1.fits p.2.1 = true → Completes p.1 s fun t => Retires s t e (z'.with (p.2.2 - 1) fun b =>
          { b with psw := pswZNV b.psw (decide (p.2.1 = 0)) (decide (p.2.1 < 0)) false }.based w.toNat 8)) ∧
        (d1.fits p.2.1 = false → bit z.c.decctl 1 = true → Completes p.1 s fun t => Retires s t e (z'.with (p.2.2 - 1) fun b =>
          { b with psw := pswZNV b.psw (decide (p.2.1.natAbs % 10 ^ d1.digits = 0)) (decide (p.2.1 < 0)) true }.based
            w.toNat 8))) ∧
      (¬(ValidField d1 b1 ∧ ValidField d2 b2) → bit z.c.decctl 0 = true → Completes p.1 s fun t =>
        Retires s t e (z.with (p.2.2 - 1) fun b => { b with psw := setBit b.psw 4 true }.based w.toNat 8))

/-- R102, R103: DDIV by a divisor other than 0 writes the quotient, truncated toward zero, and the remainder into op1; a
quotient that does not fit sets V alone when DOM = 1. DCMP sets Z and N by the comparison and V = 0 and writes no field. -/
def Obligations.DecimalDivideAndCompare : Prop :=
  ∀ (e : Fin 256) (w x : BitVec 32) (s : State) (d1 d2 : FDesc) (b1 b2 : List Byte),
    let y := s.start e w.toNat
    let v1 := fieldVal d1.kind b1
    let v2 := fieldVal d2.kind b2
    let q := v1.tdiv v2
    let dq : FDesc := ⟨kPACKED, d1.addr, d1.len - d2.len⟩
    let n := 9 + 2 * d1.len * d2.len + 4 * d1.len + d2.splits + 2 * d1.splits
    s.issues e w.toNat (fmtOk .m w.toNat) = true → ValidField d1 b1 → ValidField d2 b2 →
    (∀ tg z, FieldsRead w.toNat x.toNat kPACKED kPACKED y d1 d2 b1 b2 tg z → v2 ≠ 0 →
      (∀ z', d2.len < d1.len → dq.fits q = true →
        writePieces tg (dq.encode z.c.decctl q ++ d2.encode z.c.decctl (v1.tmod v2)) z = .ok () z' →
        Completes (.ddiv e w x) s fun t => Retires s t e (z'.with n fun b =>
          { b with psw := pswZNV b.psw (decide (q = 0)) (decide (q < 0)) false }.based w.toNat 8)) ∧
      (d1.len ≤ d2.len ∨ dq.fits q = false → bit z.c.decctl 1 = true →
        Completes (.ddiv e w x) s fun t => Retires s t e (z.with n fun b =>
          { b with psw := setBit b.psw 3 true }.based w.toNat 8))) ∧
    (∀ y1 y2 z, twoDescs w.toNat x.toNat kPACKED kPACKED y = .ok (d1, d2) y1 → readField d2.addr d2.len y1 = .ok b2 y2 →
      readField d1.addr d1.len y2 = .ok b1 z →
      Completes (.dcmp e w x) s fun t => Retires s t e (z.with (5 + d1.len + d2.len + d2.splits + d1.splits) fun b =>
        { b with psw := pswZNV b.psw (decide (v1 = v2)) (decide (v1 < v2)) false }.based w.toNat 8))

/-- R101: DSET, PACK, UNPK and DADJ write a valid field's value into op1 in preferred form, with the flags of R102, when it
fits. -/
def Obligations.DecimalMoves : Prop :=
  (∀ (e : Fin 256) (w x : BitVec 32) (s : State) (d1 d2 : FDesc) (b2 : List Byte) (tg : List (Target × Nat)) (y1 y2 z z' : Cx),
    s.issues e w.toNat (fmtOk .m w.toNat) = true →
    ∀ p ∈ [(Instr.dset e w x, kPACKED, kPACKED), (Instr.pack e w x, kPACKED, kZONED), (Instr.unpk e w x, kZONED, kPACKED)],
      twoDescs w.toNat x.toNat p.2.1 p.2.2 (s.start e w.toNat) = .ok (d1, d2) y1 → readField d2.addr d2.len y1 = .ok b2 y2 →
      checkField d1.addr d1.len y2 = .ok tg z → ValidField d2 b2 →
      let v := fieldVal d2.kind b2
      d1.fits v = true → writePieces tg (d1.encode z.c.decctl v) z = .ok () z' →
      Completes p.1 s fun t => Retires s t e (z'.with (5 + d1.len + d2.len + d2.splits + d1.splits) fun b =>
        { b with psw := pswZNV b.psw (decide (v = 0)) (decide (v < 0)) false }.based w.toNat 8)) ∧
  (∀ (e : Fin 256) (w x : BitVec 32) (s : State) (d : FDesc) (bs : List Byte) (tg : List (Target × Nat)) (y1 z z' : Cx),
    let y := s.start e w.toNat
    let a := (s.core e).cur.acc
    let v := fieldVal d.kind bs
    a.tag = tDESC → readField d.addr d.len y = .ok bs y1 → checkField d.addr d.len y1 = .ok tg z → ValidField d bs →
    (s.issues e w.toNat (fmtOk .n w.toNat) = true →
      needDesc a.val (fun k => k == kPACKED || k == kZONED) 0 none y = .ok d y → d.fits v = true →
      writePieces tg (d.encode z.c.decctl v) z = .ok () z' →
      Completes (.dadj e w x) s fun t => Retires s t e (z'.with (3 + d.len + 2 * d.splits) fun b =>
        { b with psw := pswZNV b.psw (decide (v = 0)) (decide (v < 0)) false })))

/-- R104: DSRP takes its shift count from bits 5:0 of the effective address, as a signed value, and its rounding digit r from
bits 11:8. The magnitude is multiplied by 10^s, or shifted right by n digits with the rounding digit added at the digit before
the last that stays, and the sign is kept. With r above 9 the validity check fails: PSW.DI under DDM = 1, else DECIMAL_DATA. -/
def Obligations.ShiftAndRound : Prop :=
  (∀ (v : Int) (ea r n : Nat), ea / 256 % 16 = r →
    (ea % 64 = n → n < 32 → srpVal v ea = v * 10 ^ n) ∧
    (ea % 64 = 64 - n → 1 ≤ n → n ≤ 32 →
      (srpVal v ea).natAbs = (v.natAbs + r * 10 ^ (n - 1)) / 10 ^ n ∧ (v < 0 → srpVal v ea ≤ 0) ∧ (0 ≤ v → 0 ≤ srpVal v ea))) ∧
  ∀ (e : Fin 256) (w x : BitVec 32) (s : State) (ea : Nat) (d : FDesc) (bs : List Byte) (tg : List (Target × Nat)) (y1 z z' : Cx),
    let y := s.start e w.toNat
    let a := (s.core e).cur.acc
    let v := fieldVal d.kind bs
    s.issues e w.toNat (fmtOk .a w.toNat) = true → a.tag = tDESC →
    formA w.toNat (dispOf w.toNat x.toNat) y = .ok ea y → needDesc a.val (· == kPACKED) 0 none y = .ok d y →
    readField d.addr d.len y = .ok bs y1 → checkField d.addr d.len y1 = .ok tg z → ValidField d bs →
    (ea / 256 % 16 ≤ 9 → d.fits (srpVal v ea) = true → writePieces tg (d.encode z.c.decctl (srpVal v ea)) z = .ok () z' →
      Completes (.dsrp e w x) s fun t => Retires s t e (z'.with (5 + 2 * d.len + 2 * d.splits) fun b =>
        { b with psw := pswZNV b.psw (decide (srpVal v ea = 0)) (decide (srpVal v ea < 0)) false })) ∧
    (9 < ea / 256 % 16 → bit z.c.decctl 0 = true → Completes (.dsrp e w x) s fun t =>
      Retires s t e (z.with (5 + 2 * d.len + 2 * d.splits) fun b => { b with psw := setBit b.psw 4 true })) ∧
    (9 < ea / 256 % 16 → bit z.c.decctl 0 = false → Completes (.dsrp e w x) s fun t =>
      Raises s t e z ⟨vDECIMAL_DATA, 1, none, false, false, false⟩)

/-- R105: DCVB puts the value of a PACKED field into AEX:ACC as a 128-bit integer, both tagged INT, with Z, N and V = 0;
DCVD writes the 128-bit integer in AEX:ACC, both tagged INT, into a PACKED field when it fits. -/
def Obligations.DecimalBinaryConversion : Prop :=
  ∀ (e : Fin 256) (w x : BitVec 32) (s : State) (d : FDesc) (y1 z : Cx),
    let b := (s.core e).cur
    s.issues e w.toNat (fmtOk .m w.toNat) = true → descWord w.toNat x.toNat (· == kPACKED) (s.start e w.toNat) = .ok d y1 →
    (∀ bs, readField d.addr d.len y1 = .ok bs z → ValidField d bs →
      let v := fieldVal d.kind bs
      v < 2 ^ 127 → -2 ^ 127 ≤ v →
      Completes (.dcvb e w x) s fun t => ∃ hi lo, hi ++ lo = BitVec.ofInt 128 v ∧
        Retires s t e (z.with (7 + 2 * d.len + d.splits) fun b =>
          { b with aex := ⟨hi, tINT⟩, acc := ⟨lo, tINT⟩,
                   psw := pswZNV b.psw (decide (v = 0)) (decide (v < 0)) false }.based w.toNat 8)) ∧
    (∀ tg z', b.acc.tag = tINT → b.aex.tag = tINT → checkField d.addr d.len y1 = .ok tg z →
      let v := (b.aex.val ++ b.acc.val).toInt
      d.fits v = true → writePieces tg (d.encode z.c.decctl v) z = .ok () z' →
      Completes (.dcvd e w x) s fun t => Retires s t e (z'.with (7 + 2 * d.len + d.splits) fun b =>
        { b with psw := pswZNV b.psw (decide (v = 0)) (decide (v < 0)) false }.based w.toNat 8))

/-- R94 to R97: the bytes that a decimal instruction writes are a valid field of the length of op1 that holds the value
cut to its digit positions. -/
def Obligations.WrittenFieldHoldsTheValue : Prop :=
  ∀ (d : FDesc) (ctl : Word) (v : Int), d.kind = kPACKED ∨ d.kind = kZONED → 1 ≤ d.len →
    (d.encode ctl v).length = d.len ∧ ValidField d (d.encode ctl v) ∧
    (d.fits v = true → fieldVal d.kind (d.encode ctl v) = v) ∧
    (fieldVal d.kind (d.encode ctl v)).natAbs = v.natAbs % 10 ^ d.digits

/-- R77, R108, R110, R111, R163: one element of MVS, MVSR, TRN, CMS, TRT and SRCH when CNT is not 0: the byte moved or
compared, the cursors and CNT, and the flags. Under pre-decrement a base register of TRN, TRT or SRCH receives its value at the
start less 8. -/
def Obligations.StringElements : Prop :=
  ∀ (e : Fin 256) (w x : BitVec 32) (s : State) (d : FDesc) (y0 y1 y2 y3 z : Cx) (v u : Byte) (tg : List (Target × Nat)),
    let y := s.start e w.toNat
    let b := (s.core e).cur
    let up (q : TWord) (k : Word) : TWord := ⟨q.val + k, q.tag⟩
    let upd (q : Bank) : Bank := Bank.basedFrom w.toNat 8 b q
    b.x1.tag = tPTR → b.cnt ≠ 0 →
    (s.issues e w.toNat (fmtOk .n w.toNat) = true → b.x2.tag = tPTR →
      (readByte b.x1.val.toNat y = .ok v y1 → checkByte b.x2.val.toNat y1 = .ok tg y2 → writePieces tg [v] y2 = .ok () z →
        Completes (.mvs e w x) s fun t => Retires s t e (z.with 4 fun b =>
          { b with x1 := up b.x1 1, x2 := up b.x2 1, cnt := b.cnt - 1 })) ∧
      (readByte (b.x1.val - 1).toNat y = .ok v y1 → checkByte (b.x2.val - 1).toNat y1 = .ok tg y2 →
        writePieces tg [v] y2 = .ok () z →
        Completes (.mvsr e w x) s fun t => Retires s t e (z.with 4 fun b =>
          { b with x1 := up b.x1 (-1), x2 := up b.x2 (-1), cnt := b.cnt - 1 })) ∧
      (readByte b.x1.val.toNat y = .ok v y1 → readByte b.x2.val.toNat y1 = .ok u z →
        (v = u → Completes (.cms e w x) s fun t => Retires s t e (z.with 4 fun b =>
          { b with x1 := up b.x1 1, x2 := up b.x2 1, cnt := b.cnt - 1, psw := pswZNCV b.psw true false false false })) ∧
        (v ≠ u → Completes (.cms e w x) s fun t => Retires s t e (z.with 4 fun b =>
          { b with psw := pswZNCV b.psw false (decide (v.toNat < u.toNat)) (decide (v.toNat < u.toNat)) false })))) ∧
    (s.issues e w.toNat (fmtOk .m w.toNat) = true → descWord w.toNat x.toNat (· == kTABLE) y = .ok d y0 →
      y0.c.cur = b → y0.lim = y.lim →
      (b.x2.tag = tPTR → readByte b.x1.val.toNat y0 = .ok v y1 → readByte (d.addr + v.toNat) y1 = .ok u y2 →
        checkByte b.x2.val.toNat y2 = .ok tg y3 → writePieces tg [u] y3 = .ok () z →
        Completes (.trn e w x) s fun t => Retires s t e (z.with 4 fun b =>
          upd { b with x1 := up b.x1 1, x2 := up b.x2 1, cnt := b.cnt - 1 })) ∧
      (readByte b.x1.val.toNat y0 = .ok v y1 → readByte (d.addr + v.toNat) y1 = .ok u z →
        (u = 0 → Completes (.trt e w x) s fun t => Retires s t e (z.with 4 fun b =>
          upd { b with x1 := up b.x1 1, cnt := b.cnt - 1, psw := setBit b.psw 0 false })) ∧
        (u ≠ 0 → Completes (.trt e w x) s fun t => Retires s t e (z.with 4 fun b =>
          upd { b with acc := ⟨u.setWidth 64, tRAW⟩, psw := setBit b.psw 0 true })))) ∧
    (s.issues e w.toNat (fmtOk .m w.toNat) = true → descWord w.toNat x.toNat (· == kCHAR) y = .ok d y0 →
      y0.c.cur = b → y0.lim = y.lim →
      (b.cnt.toNat < d.len → Completes (.srch e w x) s fun t => Retires s t e (y0.with 3 fun b =>
        upd { b with psw := setBit b.psw 0 false })) ∧
      (∀ bs ar vs as, d.len ≤ b.cnt.toNat → accessPieces .read (fieldPieces b.x1.val.toNat d.len) false y0 = .ok vs y1 →
        accessPieces .read (fieldPieces d.addr d.len) false y1 = .ok as y2 → fetchPieces vs y2 = .ok bs y3 →
        fetchPieces as y3 = .ok ar z →
        let n := d.len + splits b.x1.val.toNat d.len + d.splits + 3
        (bs = ar → Completes (.srch e w x) s fun t => Retires s t e (z.with n fun b =>
          upd { b with psw := setBit b.psw 0 true })) ∧
        (bs ≠ ar → Completes (.srch e w x) s fun t => Retires s t e (z.with n fun b =>
          upd { b with x1 := up b.x1 1, cnt := b.cnt - 1, psw := setBit b.psw 0 false }))))

/-- R111 to R114: EDIT and EDMK without REP perform one pattern byte p when the length in CNT is not 0, then complete: Z = 1
unless CNT.NZ, N from NZ and NG, V = 0, C kept and CNT = 0. A digit slot or forced digit takes the nibble of byte(X1) that RN
names, a nibble above 9 raising DECIMAL_DATA with the byte's address, shows the digit or the fill, moves RN and X1 on over the
digit and a sign, and notes NZ, NG and SI, EDMK also AEX where significance starts; a field reset clears SI, NZ, NG and NT; a
negative text sets NT; any other byte is kept or filled. The byte goes to byte(X2), and X2 moves on. -/
def Obligations.EditInstructions : Prop :=
  ∀ (e : Fin 256) (w x : BitVec 32) (s : State) (mark : Bool) (p sb out : Byte) (tg : List (Target × Nat))
      (y1 y2 y3 z : Cx) (n : Bank),
    let y := s.start e w.toNat
    let b := (s.core e).cur
    let i := if mark then Instr.edmk e w x else Instr.edit e w x
    let fin (b : Bank) : Bank :=
      { b with psw := pswZNV b.psw (!bit b.cnt 62) (bit b.cnt 62 && bit b.cnt 61) false, cnt := 0 }
    let fill : Byte := b.acc.val.setWidth 8
    let si := bit b.psw 5
    let rn := bit b.cnt 63
    let d := if rn then sb.toNat % 16 else sb.toNat / 16
    let shown := p = 0x11 ∨ si = true ∨ d ≠ 0
    let sign := rn = false ∧ 9 < sb.toNat % 16
    let nz := if d = 0 then b.cnt else setBit b.cnt 62 true
    let digit : Bank := { b with
      x1 := if rn = true ∨ sign then ⟨b.x1.val + 1, b.x1.tag⟩ else b.x1
      aex := if shown ∧ mark = true ∧ si = false then ⟨b.x2.val, tPTR⟩ else b.aex
      psw := if shown then setBit b.psw 5 true else b.psw
      cnt := if rn then setBit nz 63 false
        else if sign then (if sb.toNat % 16 = 0xB ∨ sb.toNat % 16 = 0xD then setBit nz 61 true else nz)
        else setBit nz 63 true }
    s.issues e w.toNat (fmtOk .n w.toNat) = true → b.x1.tag = tPTR → b.x2.tag = tPTR →
    b.acc.tag ≠ tPOISON → tagReserved b.acc.tag = false →
    (fld b.cnt 59 0 = 0 → Completes i s fun t => Retires s t e (y.with 3 fin)) ∧
    (fld b.cnt 59 0 ≠ 0 → readByte b.x2.val.toNat y = .ok p y1 →
      ((p = 0x10 ∨ p = 0x11) → readByte b.x1.val.toNat y1 = .ok sb y2 → 9 < d → Completes i s fun t =>
        Raises s t e y2 ⟨vDECIMAL_DATA, 0, some b.x1.val.toNat, false, false, false⟩) ∧
      ((p = 0x10 ∨ p = 0x11 → readByte b.x1.val.toNat y1 = .ok sb y2 ∧ d ≤ 9 ∧ n = digit ∧
          out = if shown then BitVec.ofNat 8 (0x30 + d) else fill) →
        (¬(p = 0x10 ∨ p = 0x11) → y2 = y1) →
        (p = 0x12 → out = fill ∧ n = { b with psw := setBit b.psw 5 false, cnt := setFld b.cnt 62 60 0 }) →
        (p = 0x13 → out = (if bit b.cnt 61 then 0x20 else fill) ∧ n = { b with cnt := setBit b.cnt 60 true }) →
        (p < 0x10 ∨ 0x13 < p → n = b ∧
          out = if (if bit b.cnt 60 then bit b.cnt 61 else si) then p else fill) →
        checkByte b.x2.val.toNat y2 = .ok tg y3 → writePieces tg [out] y3 = .ok () z →
        Completes i s fun t => Retires s t e (z.with 5 fun _ =>
          fin { n with x2 := ⟨b.x2.val + 1, b.x2.tag⟩, cnt := setFld n.cnt 59 0 (fld n.cnt 59 0 - 1) })))

/-- R115, R110, R118: REP performs the repeated instruction and retires once, after the REP word and the instruction; a
repeated MVS with CNT elements to go performs them one after another; an interrupt after k of them leaves PC at the REP
word with what was done kept. -/
def Obligations.RepeatedInstructions : Prop :=
  ∀ (e : Fin 256) (r w x : BitVec 32) (stop : Option Nat) (s : State) (z : Cx),
    let y := s.repStart e r.toNat w.toNat stop
    let n := (s.core e).cur.cnt.toNat
    s.issues e r.toNat (repOk r.toNat w.toNat) = true →
    (repBody w.toNat x.toNat y = .ok () z → Completes (.rep e r w x stop) s fun t => Retires s t e z) ∧
    y.npc = (s.core e).pc + 4 + BitVec.ofNat 64 (insLen w.toNat) ∧
    (fOPC w.toNat = 0x60 → (s.core e).cur.x1.tag = tPTR → (s.core e).cur.x2.tag = tPTR → y.lim = none →
      strLoop (elemMove none) n y = .ok false z →
      Completes (.rep e r w x stop) s fun t => Retires s t e (z.with 3 id)) ∧
    (∀ k, fOPC w.toNat = 0x60 → (s.core e).cur.x1.tag = tPTR → (s.core e).cur.x2.tag = tPTR → y.lim = some k → k < n →
      strLoop (elemMove none) k y = .ok false z →
      Completes (.rep e r w x stop) s fun t => ∀ i ∈ z.s.unitCores e,
        (t.core i).banks = z.c.banks ∧ (t.core i).pc = z.c.pc ∧ (t.core i).retired = z.c.retired ∧ (t.core i).act = .run) ∧
    (∀ (elem : Op Bool) (m : Nat) (u u' : Cx), strLoop elem 0 u = .ok false u ∧
      (elem u = .ok false u' → strLoop elem (m + 1) u = strLoop elem m u') ∧
      (elem u = .ok true u' → strLoop elem (m + 1) u = .ok true u'))

/-- R165, R168, R287: POST that its posting unit stages or refuses puts the running value, tagged PDEC, into ACC with its flags;
PREAD returns the running value with Z and N. One that waits, at the unit or behind an earlier request for its word, is queued
and the core waits. -/
def Obligations.PostAndPread : Prop :=
  ∀ (e : Fin 256) (w x : BitVec 32) (s : State) (ea pa isn key : Nat) (lane : Bool) (y1 : Cx),
    let y := s.start e w.toNat
    let b := (s.core e).cur
    let floor := if b.aex.tag = tPDEC then some b.aex.val else none
    let m := dispOf w.toNat x.toNat
    let res (p v : Word) (c o : Bool) := pswZNCV p (decide (wordVal v = 0)) (decide (wordVal v < 0)) c o
    s.issues e w.toNat (fmtOk .m w.toNat) = true → runOf y1 = .ok (isn, key, lane) y1 →
    (b.acc.tag = tPDEC → b.aex.tag = tPDEC ∨ b.aex.tag = tRAW → (pdecVal b.acc.val).isSome = true →
      (b.aex.tag = tPDEC → (pdecVal b.aex.val).isSome = true) → formEa w.toNat m 8 true y = .ok ea y →
      postAccess .post ea y = .ok pa y1 → y1.s.npuBehind pa lane = false →
      (∀ u v c f, y1.s.npuPost isn key pa b.acc.val floor = (u, .done v c f) →
        Completes (.post e w x) s fun t => Retires s t e ({ y1 with s := u }.with 159 fun b =>
          { b with acc := ⟨v, tPDEC⟩, psw := res b.psw v c f }.based w.toNat 8)) ∧
      (∀ u, y1.s.npuPost isn key pa b.acc.val floor = (u, .wait) →
        Completes (.post e w x) s fun t => Waits t e { y1 with
          s := u.npuEnqueue (chanOf pa) (.post e w.toNat ea isn key pa b.acc.val floor lane) } .reply)) ∧
    (formEa w.toNat m 8 false y = .ok ea y → postAccess .pread ea y = .ok pa y1 → y1.s.npuBehind pa lane = false →
      (∀ u v c f, y1.s.npuPread isn key pa = (u, .done v c f) →
        Completes (.pread e w x) s fun t => Retires s t e ({ y1 with s := u }.with 159 fun b =>
          { b with acc := ⟨v, tPDEC⟩, psw := pswZN b.psw (decide (wordVal v = 0)) (decide (wordVal v < 0)) }.based
            w.toNat 8)) ∧
      (∀ u, y1.s.npuPread isn key pa = (u, .wait) →
        Completes (.pread e w x) s fun t => Waits t e { y1 with
          s := u.npuEnqueue (chanOf pa) (.pread e w.toNat ea isn key pa lane) } .reply)) ∧
    (y1.s.npuBehind pa lane = true →
      (b.acc.tag = tPDEC → b.aex.tag = tPDEC ∨ b.aex.tag = tRAW → (pdecVal b.acc.val).isSome = true →
        (b.aex.tag = tPDEC → (pdecVal b.aex.val).isSome = true) → formEa w.toNat m 8 true y = .ok ea y →
        postAccess .post ea y = .ok pa y1 → Completes (.post e w x) s fun t => Waits t e { y1 with
          s := y1.s.npuEnqueue (chanOf pa) (.post e w.toNat ea isn key pa b.acc.val floor lane) } .reply) ∧
      (formEa w.toNat m 8 false y = .ok ea y → postAccess .pread ea y = .ok pa y1 →
        Completes (.pread e w x) s fun t => Waits t e { y1 with
          s := y1.s.npuEnqueue (chanOf pa) (.pread e w.toNat ea isn key pa lane) } .reply))

/-- R167, R246, R438, R439: POSTR and RREAD of a word of another device that is reached, on a device that is synchronised with
every earlier tick SEALED, send the request in the current tick and wait for the reply. The reply then retires them: POSTR with
the target's running value in ACC, tagged PDEC, and Z, N, C and V of a POST, RREAD with the committed value and Z and N. -/
def Obligations.RemoteOperationsAreSent : Prop :=
  ∀ (e : Fin 256) (w x : BitVec 32) (s u : State) (isn key : Nat) (lane : Bool) (value : Word) (status : Nat),
    let y := s.start e w.toNat
    let b := (s.core e).cur
    let ra := b.x1.val.toNat
    let floor := if b.aex.tag = tPDEC then some b.aex.val else none
    let rid := freeRid y.s.fab
    let part := fld y.v.tbase 63 54
    let sent (t : State) (read : Bool) (m : Msg) := (∀ k ∈ y.s.unitCores e, (t.core k).act = .reply ∧ (t.core k).pc = (s.core e).pc) ∧
      t.fab.out = y.s.fab.out ++ [⟨raDev ra, false, false, m, false⟩] ∧
      t.fab.waits.find? (·.1 == rid) = some (rid, ⟨e, isn, raDev ra, ra, read, y.s.tick, none⟩)
    let back (i : Instr) (read : Bool) (q : Word → Word) (m : Msg) := Completes i s fun t => sent t read m ∧
      (t.rf .tsqStatus 2 0 = 0 → Completes (.rreply ⟨rid, status, 0, 0, value, t.tick⟩) t fun v =>
        v.fab.waits.find? (·.1 == rid) = none ∧ ∀ k ∈ t.unitCores e, let d := v.core k
          d.cur = { b with acc := ⟨value, tPDEC⟩, psw := q b.psw } ∧ d.act = .run ∧ d.pc = (s.core e).pc + 4 ∧
          d.retired = (s.core e).retired + 1)
    s.issues e w.toNat (fmtOk .n w.toNat) = true → b.x1.tag = tPTR → runOf y = .ok (isn, key, lane) y →
    bit (y.s.rd .tsqStatus) 4 = true → y.s.sched.unsealed = [] → raDev ra ≠ y.s.devId → y.s.reaches (raDev ra) = (u, true) →
    (b.acc.tag = tPDEC → b.aex.tag = tPDEC ∨ b.aex.tag = tRAW → (pdecVal b.acc.val).isSome = true →
      (b.aex.tag = tPDEC → (pdecVal b.aex.val).isSome = true) → status = rsDONE ∨ status = rsFLOOR ∨ status = rsOVERFLOW →
      back (.postr e w x) false (fun p => pswZNCV p (decide (wordVal value = 0)) (decide (wordVal value < 0))
        (decide (status ≠ rsDONE)) (decide (status = rsOVERFLOW)))
        (.rpost ⟨ra, b.acc.val, floor, key, part, rid, y.s.tick⟩)) ∧
    (status = rsDONE → back (.rread e w x) true (fun p => pswZN p (decide (wordVal value = 0)) (decide (wordVal value < 0)))
      (.rread ⟨ra, 0xC, none, key, part, rid, y.s.tick⟩))

/-- R127, R130, R171: FADD, FSUB, FMUL, FDIV, FMAD and FSQRT with no trap enabled for a condition present put the exact
result, rounded once, into the first operand and OR the flags of the conditions into CORE_FPSR; a NaN operand gives that
NaN. -/
def Obligations.FloatArithmetic : Prop :=
  ∀ (e : Fin 256) (w x : BitVec 32) (s : State) (ms vs : List FV) (fl fl' : FFlags) (v : FV) (y1 y2 y3 z : Cx),
    let y := s.start e w.toNat
    let f := fpF w.toNat
    let F := FFmt.of f
    let a := fpDecode f (fpFirstBits f y2.c.cur)
    let rm := fld y3.c.cur.psw 34 32
    let o (i : Nat) := opd vs i
    FpReady f (s.core e).cur → extUse false y1 = .ok () y2 → fpOperands f (a :: ms) false y2 = .ok (vs, fl) y3 →
    ∀ p ∈ [(Instr.fadd e w x, Fmt.m, 1, fAdd F.radix rm (o 0) (o 1), [5, 5, 11, 17]),
        (Instr.fsub e w x, Fmt.m, 1, fAdd F.radix rm (o 0) (o 1).negate, [5, 5, 11, 17]),
        (Instr.fmul e w x, Fmt.m, 1, fMul (o 0) (o 1), [5, 5, 15, 27]),
        (Instr.fdiv e w x, Fmt.m, 1, fDiv F.qmin (o 0) (o 1), [13, 21, 41, 83]),
        (Instr.fmad e w x, Fmt.m, 2, fMad F.radix rm (o 0) (o 1) (o 2), [6, 6, 19, 31]),
        (Instr.fsqrt e w x, Fmt.n, 0, fSqrt F (o 0), [15, 25, 45, 91])],
      s.issues e w.toNat (fmtOk p.2.1 w.toNat) = true →
      (p.2.2.1 = 0 → ms = [] ∧ y1 = y) → (p.2.2.1 ≠ 0 → fpMem w.toNat x.toNat f p.2.2.1 y = .ok ms y1) →
      fpRound f (match firstNan vs with | some v => .special v false false | none => p.2.2.2.1) y3 = .ok (v, fl') z →
      Completes p.1 s fun t => Retires s t e { z with
        c := let c := z.c.orFlags (fl ++ fl')
             let b := c.cur.putFp f v
             c.setCur (if p.2.2.1 = 0 then b else b.based w.toNat (fpWidth f)),
        cost := z.cost + (p.2.2.2.2.getD f 1 - 1), xcost := z.cost + (p.2.2.2.2.getD f 1 - 1) }

/-- R127, R129, R137, R138: FCMP and FCMPS set Z, N, C or V by the relation; FNEG and FABS change the sign bit alone; FCVTI
puts the rounded integer into ACC tagged INT; FCVT and FCVTF put the converted value, rounded once, into the first operand. -/
def Obligations.FloatCompareAndConvert : Prop :=
  ∀ (e : Fin 256) (w x : BitVec 32) (s : State) (ms vs : List FV) (fl fl' : FFlags) (v : FV) (y1 y2 y3 z : Cx),
    let y := s.start e w.toNat
    let f := fpF w.toNat
    let g := convSource f
    let cost (l : List Nat) := l.getD f 1 - 1
    let rel (q : FRel) (p : Word) := pswZNCV p (decide (q = .eq)) (decide (q = .lt)) (decide (q = .gt)) (decide (q = .un))
    let i := toInteger (FFmt.of f).radix (fld y3.c.cur.psw 34 32) (opd vs 0)
    let n := y2.c.cur.acc.val.toInt
    (∀ p ∈ [(Instr.fcmp e w x, false), (Instr.fcmps e w x, true)],
      s.issues e w.toNat (fmtOk .m w.toNat) = true → FpReady f (s.core e).cur →
      fpMem w.toNat x.toNat f 1 y = .ok ms y1 → extUse false y1 = .ok () y2 →
      fpOperands f (fpDecode f (fpFirstBits f y2.c.cur) :: ms) p.2 y2 = .ok (vs, fl) z →
      Completes p.1 s fun t => Retires s t e ({ z with c := z.c.orFlags fl }.with (cost [5, 5, 11, 17]) fun b =>
        { b with psw := rel (fCmp (FFmt.of f).radix (opd vs 0) (opd vs 1)) b.psw }.based w.toNat (fpWidth f))) ∧
    (s.issues e w.toNat (fmtOk .n w.toNat) = true →
      (FpReady f (s.core e).cur → extUse false y = .ok () z → ∀ p ∈ [(Instr.fneg e w x, true), (Instr.fabs e w x, false)],
        Completes p.1 s fun t => Retires s t e (z.with 0 fun b =>
          if f = 0 then { b with acc := ⟨setBit (setFld b.acc.val 63 32 0) 31 (p.2 && !bit b.acc.val 31), tBFP⟩ }
          else if f = 3 then { b with aex := ⟨setBit b.aex.val 63 (p.2 && !bit b.aex.val 63), tDFP⟩ }
          else { b with acc := ⟨setBit b.acc.val 63 (p.2 && !bit b.acc.val 63), b.acc.tag⟩ })) ∧
      (FpReady f (s.core e).cur → extUse false y = .ok () y2 →
        fpOperands f [fpDecode f (fpFirstBits f y2.c.cur)] false y2 = .ok (vs, fl) y3 →
        ((i.2.1 = true → bit y3.c.cur.psw 31 = false) → (i.2.2 = true → bit y3.c.cur.psw 27 = false) →
        Completes (.fcvti e w x) s fun t => Retires s t e
          ({ y3 with c := y3.c.orFlags (fl ++ (if i.2.1 then [fsIV] else []) ++ if i.2.2 then [fsNX] else []) }.with
            (cost [5, 5, 13, 13]) fun b => { b with acc := ⟨i.1, tINT⟩ }))) ∧
      (FpReady g (s.core e).cur → extUse false y = .ok () y2 →
        fpOperands g [fpDecode g (fpFirstBits g y2.c.cur)] false y2 = .ok (vs, fl) y3 →
        fpRound f (match opd vs 0 with | .nan n _ p => .special (.nan n false (convPayload f p)) false false | v => fConv v)
          y3 = .ok (v, fl') z →
        Completes (.fcvt e w x) s fun t => Retires s t e
          ({ z with c := z.c.orFlags (fl ++ fl') }.with (cost [5, 5, 13, 13]) (Bank.putFp f v))) ∧
      ((s.core e).cur.acc.tag = tINT → fld (s.core e).cur.psw 34 32 ≤ 4 → extUse false y = .ok () y2 →
        (s.core e).cur = y2.c.cur →
        fpRound f (if n = 0 then .zero false 0 else .rat (decide (n < 0)) n.natAbs 1 0 0) y2 = .ok (v, fl) z →
        Completes (.fcvtf e w x) s fun t => Retires s t e
          ({ z with c := z.c.orFlags fl }.with (cost [5, 5, 13, 13]) (Bank.putFp f v))))

/-- R172, R205, R206, R214, R219: a customer instruction whose decode entry reads without a parity error runs the microcode
that the entry names, from the entry's address, and at END its register and flag writes and its held stores take effect, at
the declared cost in tick-exact mode and at the cost of its path in normal mode. One of a single word completes under
conditions on the state and its operands alone: without an operation it changes no register, and UADD, whose operands carry
tags that may be read, leaves the sum in its destination; the path costs 4 cc. -/
def Obligations.CustomerInstructionRuns : Prop :=
  (∀ (e : Fin 256) (w x : BitVec 32) (s : State),
    let y := s.start e w.toNat
    let c := s.core e
    let d := decEntry c w.toNat
    let u := sget 0 c.cstore (fld d 11 0)
    let a := c.cur.reg (uA u)
    let b := c.cur.reg (uB u)
    let n := fld d 43 32
    let readable (v : TWord) := tagReserved v.tag = false ∧ v.tag ≠ tPOISON
    s.issues e w.toNat (customerOk c w.toNat) = true → c.parity.contains (0x0104, decAddr c w.toNat) = false →
    c.parity.contains (0x0103, fld d 11 0) = false → pPRIV c.cur.psw ≤ fld d 59 58 → bit d 60 = true → bit d 61 = false →
    uEND u = true →
    (uOP u = 0 → Completes (.customerInstruction e w x) s fun t =>
      Retires s t e { y with c := c.setCur c.cur, cost := n, xcost := n, path := some 4 }) ∧
    (uOP u = 1 → uD u < 8 → uA u < 8 → uB u < 8 → readable a → readable b → Completes (.customerInstruction e w x) s fun t =>
      Retires s t e { y with c := c.setCur (c.cur.setReg (uD u) ⟨a.val + b.val, aluTag a.tag⟩), cost := n, xcost := n,
                             path := some 4 })) ∧
  ∀ (e : Fin 256) (w x : BitVec 32) (s : State) (m : Mseq) (ea : Nat) (y0 y1 y2 z : Cx),
    let y := s.start e w.toNat
    let c := s.core e
    let d := decEntry c w.toNat
    s.issues e w.toNat (customerOk c w.toNat) = true → c.parity.contains (0x0104, decAddr c w.toNat) = false →
    pPRIV c.cur.psw ≤ fld d 59 58 →
    (bit d 60 = true → ea = 0 ∧ y0 = y) → (bit d 60 = false → formA w.toNat (dispU w.toNat x.toNat) y = .ok ea y0) →
    (bit d 61 = true → extUse false y0 = .ok () y1) → (bit d 61 = false → y1 = y0) →
    uRun 4096 (mseqStart y1.c y1.s.free ea) (fld d 11 0) (fld d 11 0 + 1)
      { y1 with cost := fld d 43 32, xcost := fld d 43 32, path := some (2 + (y1.cost - y0.cost)) } = .ok m y2 →
    uRetire m y2 = .ok () z →
    Completes (.customerInstruction e w x) s fun t => Retires s t e z

/-! What the device does beside the instructions of a core. -/

/-- R176, R180, R189, R191, R247, R395: requests and level entries. SCHED_MESSAGE and MP_NOTIFY make their vector pending
with the code as DETAIL on every core of the unit. At a boundary at which BUDGET_EXCEEDED does not come first, the picked
request enters its level and is cleared; a machine check outside a unit's control stores goes to G with its source; an
unassigned word raises ILLEGAL_OPCODE with the word; a fault of the fetch is taken; an uncorrectable error marks the words of a
cache in working storage, or the word of TCM, POISON (how it is recorded is the model's choice, log entry 96); an exhausted
budget raises BUDGET_EXCEEDED once, with OVER as DETAIL. -/
def Obligations.LevelEntriesAndRequests : Prop :=
  ∀ (e : Fin 256) (s : State),
    let c := s.core e
    (s.listens e = true → ∀ (code : BitVec 32) (p : Instr × Nat),
      p = (.schedMessage e code, 1) ∨ p = (.mpNotify e code, 3) →
      Completes p.1 s fun t => { t with async := s.async } = s ∧ ∀ k, if k ∈ s.unitCores e
        then bit (sget Async.cold t.async k).pend p.2 = true ∧ sget 0 (sget Async.cold t.async k).detail p.2 = code.toNat
        else sget Async.cold t.async k = sget Async.cold s.async k) ∧
    (s.atBoundary e = true → s.budgetDue e = false → ∀ (i : Nat) (ent : Word),
      let u := s.dropInvalid e
      u.requestDue e = some (i, ent) →
      Completes (.levelEntry e .request) s fun t => ∀ k ∈ u.unitCores e,
        let d := t.core k
        let l := fld ent 63 60
        d.lev = l ∧ d.pc = setFld 0 41 2 (fld ent 41 2) ∧ (d.link l).lpc = ⟨(u.core e).pc, tCODE⟩ ∧
        fld (d.link l).linfo 63 56 = 0x20 + i ∧ fld (d.link l).linfo 55 51 = (u.core e).lev ∧
        bit (sget Async.cold t.async k).pend i = false) ∧
    (∀ (src addr : Nat) (ent : Word), s.checkable e = true → src < 0x8000 → ¬(0x0101 ≤ src ∧ src ≤ 0x0104) → c.lev < 16 →
      (s.vecEntry c.vbr 0).2 = some ent → Completes (.levelEntry e (.machineCheck src addr)) s fun t =>
        ∀ k ∈ s.unitCores e,
          let d := t.core k
          let i := (d.link 16).linfo
          d.lev = 16 ∧ d.pc = setFld 0 41 2 (fld ent 41 2) ∧ (d.link 16).lpc = ⟨c.pc, tCODE⟩ ∧
          fld i 63 56 = vMACHINE_CHECK ∧ fld i 50 48 = 5 ∧ fld i 31 16 = src ∧ fld i 0 0 = restartBit src) ∧
    (∀ w : BitVec 32, s.issuesNow e = true → s.stepping e = false →
      Completes (.levelEntry e (.unassigned w)) s fun t =>
        Raises s t e (s.start e w.toNat) ⟨vILLEGAL_OPCODE, w.toNat, none, false, false, false⟩) ∧
    (∀ ws : List Nat, Completes (.levelEntry e (.cacheError ws)) s fun t => t.mem = s.mem ∧ t.cores = s.cores ∧
      ∀ pa ∈ ws, s.area pa = .own ∨ s.area pa = .unmirrored → sget tRAW t.tags (pa / 8) = tPOISON) ∧
    (∀ i : Nat, i < 32768 → Completes (.levelEntry e (.tcmError i)) s fun t => { t with cores := s.cores } = s ∧
      ∀ k ∈ s.unitCores e, sget raw0 (t.core k).tcm i = ⟨(sget raw0 (s.core k).tcm i).val, tPOISON⟩) ∧
    (∀ (q : Exc) (z : Cx), s.issuesNow e = true → fetchOp (s.startCx e 0 4) = .error (.exc q) z → q.after = false →
      q.vec ≠ vMACHINE_CHECK → Completes (.levelEntry e .fetch) s fun t => Raises s t e z q) ∧
    (∀ (u : State) (ent : Word),
      let l := fld ent 63 60
      s.canIssue e = true → s.budgetDue e = true →
      s.vecEntry c.vbr vBUDGET_EXCEEDED = (u, some ent) → 0 < l → masked c.lmask c.cur.psw l = false →
      Completes (.budgetExceeded e) s fun t => ∀ k ∈ s.unitCores e,
        let d := t.core k
        d.lev = l ∧ d.pc = setFld 0 41 2 (fld ent 41 2) ∧ (d.link l).lpc = ⟨c.pc, tCODE⟩ ∧
        fld (d.link l).linfo 63 56 = vBUDGET_EXCEEDED ∧ fld (d.link l).linfo 31 0 = fld c.budget 63 32 ∧
        d.armed = false ∧ d.budget = (c.charge (chargeOf c s.free 12)).budget)

/-- R165, R286, R290, R291, R297: how a posting unit answers a POST it can apply now. It refuses with OVERFLOW a sum of more
than 15 digits and one with which a bound of R296 has more, else with FLOOR a sum below the floor and one with which the low
bound falls below the floor of a surviving REMOTE entry; both leave the running value and make a REFUSED entry; otherwise the
sum is the new running value and a POST entry is logged. -/
def Obligations.PostingUnitAppliesPosts : Prop :=
  ∀ (s s1 : State) (isn okey pa u : Nat) (x : NEntry) (amount : Word) (floor : Option Word) (b : Int),
    s.npuEntry isn pa true true = (s1, .inr (u, x)) → x.r.tag = tPDEC → pdecVal x.r.val = some b →
    let a := wordVal amount
    let n := s1.npu u
    let st := postStatus n.log pa b (wordVal x.c.val) a (floor.map wordVal)
    let r := s.npuPost isn okey pa amount floor
    let ent (k : LKind) (after : Word) : LogE :=
      ⟨okey, n.log.length, x.last, k, false, floor.isSome, x.addr, amount, after, isn, none⟩
    let c := wordVal x.c.val
    let lo := c + debits n.log pa + min a 0
    let big := over15 (b + a) || over15 lo || over15 (c + credits n.log pa + max a 0)
    (st = .overflow ↔ big = true) ∧
    (st = .floor ↔ big = false ∧ ((∃ f, floor = some f ∧ b + a < wordVal f) ∨
      ∃ y ∈ n.log, y.word = pa ∧ y.rolled = false ∧ y.kind = .remote ∧ ∃ f, y.floor = some f ∧ lo < wordVal f)) ∧
    (st = .done → r.2 = .done (pdecOf (b + a)) false false ∧
      (r.1.npu u).log = n.log ++ [ent .post (pdecOf (b + a))] ∧
      (r.1.npu u).cache.head? = some { x with r := ⟨pdecOf (b + a), tPDEC⟩, last := n.log.length, st := .staged }) ∧
    (st ≠ .done → r.2 = .done (pdecOf b) true (decide (st = .overflow)) ∧
      (r.1.npu u).log = n.log ++ [ent .refused (pdecOf b)] ∧
      (r.1.npu u).cache.head? = some { x with r := ⟨x.r.val, tPDEC⟩, last := n.log.length, st := .staged }) ∧
    (∀ v, v ≠ u → r.1.npu v = s1.npu v) ∧ r.1.cores = s.cores ∧ r.1.mem = s.mem ∧ r.1.tags = s.tags

/-- R165, R168, R287, R288, R293, R300, R404: what posting unit u does by itself. The request at the head of its queue is
answered: a POST or PREAD with the value for ACC, and the core retires the instruction; a touch holds the word's entry for its
run. A completed fill makes a CLEAN entry with the word of memory. A rollback marks every POST of an aborted run in its log.
A self-test slice starts while the queue is empty; one that is preempted counts as starved, one that ends without a fault moves
on to the next. -/
def Obligations.PostingUnitServesRequests : Prop :=
  ∀ (u : Fin 12) (s s1 : State),
    let n := s.npu u
    let s0 := s.setNpu u (n.pull 0)
    (∀ (e w ea isn okey pa : Nat) (a v : Word) (f : Option Word) (lane c o : Bool),
      n.queue.head? = some (.post e w ea isn okey pa a f lane) →
      s0.npuPost isn okey pa a f = (s1, .done v c o) → s1.sameRun e isn = true →
      Completes (.npuPostApply u) s fun t => t.npus = s1.npus ∧ ∀ k ∈ s1.unitCores e,
        let d := t.core k
        d.cur.acc = ⟨v, tPDEC⟩ ∧ bit d.cur.psw 2 = c ∧ bit d.cur.psw 3 = o ∧ bit d.cur.psw 0 = (wordVal v == 0) ∧
        d.act = .run ∧ d.pc = (s1.core e).pc + BitVec.ofNat 64 (insLen w) ∧ d.retired = (s1.core e).retired + 1) ∧
    (∀ (e w ea isn okey pa : Nat) (v : Word) (lane : Bool),
      n.queue.head? = some (.pread e w ea isn okey pa lane) →
      s0.npuPread isn okey pa = (s1, .done v false false) → s1.sameRun e isn = true →
      Completes (.npuPread u) s fun t => t.npus = s1.npus ∧ ∀ k ∈ s1.unitCores e,
        let d := t.core k
        d.cur.acc = ⟨v, tPDEC⟩ ∧ bit d.cur.psw 2 = bit (s1.core e).cur.psw 2 ∧ bit d.cur.psw 0 = (wordVal v == 0) ∧
        d.act = .run ∧ d.pc = (s1.core e).pc + BitVec.ofNat 64 (insLen w) ∧ d.retired = (s1.core e).retired + 1) ∧
    (∀ (isn pa v : Nat) (x : NEntry), n.queue.head? = some (.touch isn pa) →
      s0.npuEntry isn pa false false = (s1, .inr (v, x)) →
      Completes (.npuTouch u) s fun t => t.cores = s.cores ∧ t.mem = s.mem ∧
        ∃ y, (t.npu v).cache.head? = some y ∧ y.addr = x.addr ∧ y.c = x.c ∧ y.r = x.r ∧ y.st ≠ .clean ∧
          isn ∈ y.holders) ∧
    (∀ pa : BitVec 52, pa.toNat ∈ n.fills → s.chanState (chanOf pa.toNat) ≠ 3 → s.line pa.toNat = .ok →
      (pa.toNat / 64, Reader.fill pa.toNat) ∉ s.lineDead → n.find pa.toNat = none →
      let rest := n.cache.filter (·.addr != pa.toNat)
      rest.length < 2048 → Completes (.npuFill u pa) s fun t => t = s.setNpu u { n with
        fills := n.fills.filter (· != pa.toNat)
        cache := ⟨pa.toNat, s.memWord pa.toNat, s.memWord pa.toNat, 0xFFFF, .clean, [], none, true⟩ :: rest }) ∧
    (Completes (.npuRollback u) s fun t =>
      (∀ y ∈ (t.npu u).log, y.kind = .post → (s.run y.owner).any (fun r => r.st == .aborted) = true → y.rolled = true) ∧
      t.mem = s.mem ∧ t.tags = s.tags) ∧
    (∀ preempted : Bool,
      (n.test = false → bit (s.rd .fmuStctl) 0 = true → s.fawn = false → s.served u ≠ [] → Completes (.npuBistSlice u preempted false) s fun t =>
        t = if n.queue = [] then s.setNpu u { n with test := true } else s) ∧
      (n.test = true → Completes (.npuBistSlice u preempted false) s fun t =>
        t.npu u = (if preempted then { n with test := false, starved := n.starved + 1 }
          else { n with test := false, starved := 0, slice := (n.slice + 1) % 4096 }) ∧ t.cores = s.cores ∧ t.mem = s.mem))

/-- R278, R279, R281 to R284, R299: memory channels. A clean patrol read moves on; a correctable line is counted; one that is
not, in working storage outside a PC = 1 frame, becomes POISON, and in a PC = 1 frame of the own ledger it is asked of the
partner (what the code corrects is the model's reading, log entry 92). Soft repair uses one resource, and without one the channel
is DEGRADED; failed retraining, and a second failed device in a rank, make it LOST. A repair request is answered with the
replica line; the reply writes the line back; without one in time the waiting loads go on, with the line unreachable where no
remote read waits for it. A lost posting unit is empty and no longer serves. -/
def Obligations.MemoryChannels : Prop :=
  ∀ (ch : Fin 12) (s : State),
    let n := s.chanLines ch
    let c := s.chan ch
    let i := c.patrol % n
    let free (line : BitVec 46) := ∀ p ∈ s.fab.lineWaits, p.1 ≠ line.toNat
    (n ≠ 0 → s.chanState ch ≠ 3 →
      ∀ x : Ecc,
        let pa := 64 * chanLine ch i
        let pc := s.area pa = .own ∧ s.pcBit pa = true
        (x.errs = [] → Completes (.patrolScrub ch x) s fun t => t.chan ch = { c with patrol := (i + 1) % n } ∧
          t.rf (.mcuScrub ch) 31 16 = (i + 1) % n * 65536 / n ∧ t.mem = s.mem ∧ t.tags = s.tags) ∧
        (x.errs.any (fun p => p.2 != 0) = true → c.corrects x = true → Completes (.patrolScrub ch x) s fun t =>
          t.rf (.mcuEcccnt ch) 63 32 = satAdd 32 (s.rf (.mcuEcccnt ch) 63 32) 1 ∧ t.mem = s.mem ∧ t.tags = s.tags) ∧
        (c.corrects x = false → s.area pa = .own ∨ s.area pa = .unmirrored → pa < s.layout.d → ¬pc →
          Completes (.patrolScrub ch x) s fun t => t.mem = s.mem ∧
            ∀ j < 8, sget tRAW t.tags (8 * chanLine ch i + j) = tPOISON) ∧
        (c.corrects x = false → pc → s.line pa ≠ .fetching → s.hasPartner = true →
          Completes (.patrolScrub ch x) s fun t => t.line pa = .fetching ∧ t.mem = s.mem ∧ t.tags = s.tags ∧
            t.fab.out = s.fab.out ++ [⟨s.partnerId, false, false, .repairReq (pa / 64), false⟩])) ∧
    (∀ rank dev row : BitVec 32,
      let k := (rank.toNat, dev.toNat, row.toNat)
      k ∈ c.ueRows → Completes (.softPpr ch ⟨rank, dev⟩ row) s fun t =>
        if s.rf (.mcuPpr ch) 31 16 = 0 then t.chanState ch = (if s.chanState ch = 3 then 3 else 2)
        else t.rf (.mcuPpr ch) 31 16 + 1 = s.rf (.mcuPpr ch) 31 16 ∧
          t.rf (.mcuPpr ch) 15 0 = satAdd 16 (s.rf (.mcuPpr ch) 15 0) 1 ∧
          (t.chan ch).soft = c.soft ++ [k] ∧ k ∉ (t.chan ch).ueRows) ∧
    (s.chanState ch ≠ 0 →
      (Completes (.memoryChannelRetrain ch true) s fun t => t = s) ∧
      (Completes (.memoryChannelRetrain ch false) s fun t => t.chanState ch = 3 ∧ t.mem = s.mem ∧
        (s.chanState ch ≠ 3 → t.mp.ledger = s.mp.ledger ++
          [⟨(s.locElement (elMC ch)).word, sgMEM_CHANNEL_STATE, s.tick, 0⟩]))) ∧
    (∀ rank dev : BitVec 8, (rank.toNat, dev.toNat) ∉ c.failed →
      Completes (.dimmDeviceFault ch rank dev) s fun t =>
        (t.chan ch).failed = c.failed ++ [(rank.toNat, dev.toNat)] ∧ t.rf (.mcuStatus ch) 47 40 = dev.toNat ∧
        t.chanState ch = if c.failed.any (fun p => p.1 == rank.toNat) then 3 else s.chanState ch) ∧
    (∀ line : BitVec 46, s.line (64 * line.toNat) = .fetching →
      Completes (.remoteRepairTimeout line) s fun t => (free line → t.line (64 * line.toNat) = .ue) ∧
        (∀ p ∈ t.repairWait, p.2 ≠ line.toNat) ∧ t.mem = s.mem ∧
        (∀ e, (e, line.toNat) ∈ s.repairWait → (line.toNat, .core e) ∈ t.lineDead ∧
          (s.awaits e = true → e ∈ s.unitCores e → (t.core e).act = .run)) ∧
        ∀ u < 12, ∀ w ∈ (s.npu u).fills, w / 64 = line.toNat → (line.toNat, .fill w) ∈ t.lineDead) ∧
    (∀ (src : Fin 4096) (line : BitVec 46), s.hasPartner = true → s.partnerId = src →
      s.area (s.replicaLine line.toNat) = .replica → s.line (s.replicaLine line.toNat) = .ok →
      Completes (.repair src line) s fun t => t = s.send src false false (.repairReply line.toNat
        ((List.range 8).map fun j => s.memWord (s.replicaLine line.toNat + 8 * j)))) ∧
    (∀ (line : BitVec 46) (ws : List TWord), ws.length = 8 →
      s.line (64 * line.toNat) = .fetching ∨ s.line (64 * line.toNat) = .stale ∧ s.area (64 * line.toNat) = .replica →
      Completes (.repairComplete line ws) s fun t =>
        (∀ j v, ws[j]? = some v → Memory.readBytes t.mem (64 * line.toNat + 8 * j) 8 = toBytes 8 v.val.toNat ∧
          sget tRAW t.tags (8 * line.toNat + j) = v.tag) ∧
        (∀ a, a / 64 ≠ line.toNat → Memory.read t.mem a = Memory.read s.mem a) ∧
        (free line → t.line (64 * line.toNat) = if s.line (64 * line.toNat) = .fetching ∧ s.chanState (chanOf (64 * line.toNat)) = 3
          then .served else .ok)) ∧
    (∀ u : Fin 12, u.val ∈ s.served u → Completes (.npuLost u) s fun t =>
      t.npu u = { Npu.cold with lostNow := true } ∧ 2 ≤ t.rf (.npuStatus u) 3 2 ∧ t.serving u ≠ some u.val)

/-- R280, R285, R294, R295, R302, R304, R313, R322, R437, R507: the phases of a tick. The pulse starts the next tick in phase
0; in a warm reset no tick runs, and the endpoint keeps time; remote close, stage close and the seal deadline lead to phases 1,
2 and 3; after stage close no posting unit holds a request, and the resets that were asked for before it are due. The
flip makes each STAGED word FLIPPED with its value in memory, commits the executed runs, and leaves the tick unsealed until
the partner acknowledges; at the pulse a flipped value is the committed one. -/
def Obligations.TickPhases : Prop :=
  (∀ s : State,
    let phase (t : State) := t.rf .tsqStatus 2 0
    (bit (s.rd .hupStatus) 0 = false → s.sched.warm = false → Completes .tickPulse s fun t =>
      t.tick = (s.tick + 1) % 2 ^ 48 ∧ phase t = 0 ∧ t.sched.admitted = 0 ∧ t.sched.flipped = false) ∧
    (bit (s.rd .hupStatus) 0 = false → s.sched.warm = true → Completes .tickPulse s fun t =>
      t.tick = s.tick ∧ phase t = phase s ∧ t.sched.start = s.sched.start + s.period ∧ t.runs = s.runs ∧ t.npus = s.npus) ∧
    (phase s = 0 → s.sched.warm = false → Completes .remoteClose s fun t => phase t = 1) ∧
    (phase s < 2 → s.sched.warm = false → Completes .stageClose s fun t => phase t = 2 ∧ t.fab.notices = [] ∧
      (∀ u < 12, (t.npu u).queue = []) ∧ t.resets.due = s.resets.warm.isSome ∧ t.resets.partsDue = s.resets.parts) ∧
    (phase s = 2 → Completes .sealDeadline s fun t => phase t = 3 ∧ t.cores = s.cores ∧ t.mem = s.mem ∧
      t.sched = s.sched) ∧
    (phase s = 2 → s.vaultOk = true → s.sched.flipped = false → Completes .flip s fun t =>
      t.sched.flipped = true ∧ t.sched.lastCommit = s.tick ∧ (s.sealsAlone = false → t.sched.unsealed = s.sched.unsealed ++ [s.tick]) ∧
      (∀ r ∈ t.runs, r.st ≠ .executed) ∧
      ∀ u < 12, ∀ x ∈ (s.npu u).flip.flipped, s.chanState (chanOf x.addr) ≠ 3 →
        (∀ v < 12, ∀ y ∈ (s.npu v).flip.flipped, y.addr / 8 = x.addr / 8 → y.r = x.r) →
        Memory.readBytes t.mem (x.addr / 8 * 8) 8 = toBytes 8 x.r.val.toNat ∧ sget tRAW t.tags (x.addr / 8) = x.r.tag)) ∧
  (∀ (n : Npu) (i : Nat) (x : NEntry), n.cache[i]? = some x →
    (x.st = .staged → (n.flip.cache)[i]? = some { x with
      st := .flipped, r := ⟨pdecOf (wordVal x.r.val + remoteSum n.log x.addr 4096), tPDEC⟩ }) ∧
    (x.st ≠ .staged → (n.flip.cache)[i]? = some x) ∧
    (x.st = .flipped → (n.pulse.cache)[i]? = some ⟨x.addr, x.r, x.r, 0xFFFF, .clean, [], x.pin, false⟩) ∧
    (x.st ≠ .flipped → (n.pulse.cache)[i]? = some ⟨x.addr, x.c, x.c, 0xFFFF, .clean, [], x.pin, false⟩))

/-- R20, R267, R306, R317, R336, R356, R375, R409, R432: what else time brings. The half-tick heartbeat goes to the partner on both
paths; translations 65 ticks old go; a period change takes effect with the execute window; DONE idempotency entries past
their horizon and transients 1,024 ticks old go; a second of stopped intake, or without the lease, or of low energy is a Fawn
cause. -/
def Obligations.TimedEvents : Prop :=
  ∀ s : State,
    (s.hasPartner = true → s.quiet = false → Completes .heartbeatHalfTick s fun t => ∃ q,
      t.fab.out.getLast? = some ⟨s.partnerId, false, true,
        .heartbeat q s.sched.warm s.fawn s.tick t.now (s.rf .tsqSealed 47 0), false⟩) ∧
    (s.rf .fabLease 63 61 = 1 → Completes .heartbeatHalfTick s fun t =>
      t.fab.hbMiss = (if s.fab.hbSeen then 0 else s.fab.hbMiss + 1) ∧ t.fab.hbSeen = false) ∧
    (Completes .stalenessSweep s fun t => t.mem = s.mem ∧ t.regs = s.regs ∧
      (∀ k, t.core k = { s.core k with tlb := (s.core k).tlb.filter fun i => decide (s.tick < i.tick + 65) }) ∧
      t.fabTlb = s.fabTlb.filter fun i => decide (s.tick < i.tick + 65)) ∧
    (s.rf .tsqPeriod 47 0 ≤ s.tick → Completes .tickPeriodChange s fun t =>
      t.period = s.rf .tsqPeriod 55 48 * 1000 ∧
      t.rf .tsqExw 31 0 = (t.period - 2000) * (if s.fuses.big then 32 else 30) / 10 ∧
      ∀ r, r ≠ .tsqPeriod → r ≠ .tsqExw → t.rd r = s.rd r) ∧
    (s.tick < s.rf .tsqPeriod 47 0 → Completes .tickPeriodChange s fun t => t = s) ∧
    (Completes .idemEntryExpiry s fun t => { t with idem := s.idem, idemPtn := s.idemPtn } = s ∧
      ∀ p, (p ∈ t.idem ↔ p ∈ s.idem ∧ s.idemExpired p.2 = false) ∧
        (p ∈ t.idemPtn ↔ p ∈ s.idemPtn ∧ s.idemExpired p.2 = false)) ∧
    (Completes .transientExpiry s fun t => ∀ c < 32, ∀ sl < 5,
      (t.slotX c sl).trans = (s.slotX c sl).trans.filter (fun i => decide (s.tick < i + 1024)) ∧
      t.rf (.cluSlot c sl) 9 8 = (t.slotX c sl).trans.length % 4) ∧
    (bit s.intStatusWord 3 || bit s.intStatusWord 4 || bit s.intStatusWord 5 || bit s.intStatusWord 6 ||
        decide (s.rf .fabLease 63 61 = 4) → Completes .intakeStopTimeout s fun t => bit t.fmu.causes 6 = true ∧ t.cores = s.cores ∧ t.mem = s.mem) ∧
    (bit s.intStatusWord 2 = true →
      Completes .energyLowTimeout s fun t => bit t.fmu.causes 1 = true ∧ t.cores = s.cores ∧ t.mem = s.mem)

/-- R27, R198, R244, R330, R332, R337, R343, R345 to R350, R409 to R411, R435, R451: intake, scheduling and custody. Fawn
mode is entered with its causes and DRAIN gives way to HANDOVER; a sealed result goes to its queue with the tail and a RELEASE
record; doorbells move the tail and the head and retire released requests; a fetched descriptor becomes a request with the next
ISN or a refusal; a run whose list is empty is ready; a delivered request starts at its entry with its bank; custody of the
partner's work begins. -/
def Obligations.IntakeAndScheduling : Prop :=
  ∀ s : State,
    (s.causes ≠ 0 → s.rf .fmuStatus 61 60 = 0 → Completes .fawnEnter s fun t =>
      t.rf .fmuStatus 61 60 = if s.causes &&& 0xB6 ≠ 0 ∨ s.healthy = 0 then 2 else 1) ∧
    (s.causes = 0 → Completes .fawnEnter s fun t => t = s) ∧
    (s.rf .fmuStatus 61 60 = 1 → s.sched.drainSince + s.rf .fmuDegcfg 31 16 ≤ s.tick → s.runs.any Run.unreleased = true →
      Completes .fawnDrainTimeout s fun t => t.rf .fmuStatus 61 60 = 2) ∧
    (∀ (r : Run) (q : Nat), s.releases = true → s.runs = [r] → s.outQueue r = some q → s.releasable q = [r] →
      s.cqOpen q = true → Completes .resultRelease s fun t =>
        t.runs = [{ r with st := .released }] ∧
        s.hif.out ++ [.completion q (s.queue q).cqTail (Comp.bytes
            ⟨r.okey, r.status, r.isRepeat, r.queue, r.isn % 2 ^ 64, r.idem, r.sqidx, padTo 64 r.result⟩)
            (bit (s.rd .hifCtl) 0), .tail (s.rd (.intCqtail q)).toNat (((s.queue q).cqTail + 1) % s.cqSize q)]
          <+: t.hif.out ∧ ∃ b ∈ t.vault.own, b.body = .release q r.okey) ∧
    (∀ (q : Fin 4096) (i st k : Nat), s.vaultOk = true → s.cqOpen q = true → (s.queue q).acc = [.refusal i st k] →
      Completes (.acceptancePass q) s fun t => (t.queue q).acc = [] ∧
        s.hif.out ++ [.completion q (s.queue q).cqTail (Comp.bytes ⟨0, st, false, q, 0, k, i, List.replicate 64 0⟩) (bit (s.rd .hifCtl) 0),
          .tail (s.rd (.intCqtail q)).toNat (((s.queue q).cqTail + 1) % s.cqSize q)] <+: t.hif.out) ∧
    (∀ (f : Fin 256) (q : Fin 4096) (v : HostWord), v.fits = false →
      Completes (.sqTailDoorbell f q v) s (· = s) ∧ Completes (.cqHeadDoorbell f q v) s (· = s)) ∧
    (∀ (f : Fin 256) (q : Fin 4096) (v : HostWord),
      let x := s.queue q
      let n := s.sqSize q
      let m := s.cqSize q
      let j := v.val.toNat % 65536
      let h := v.val.toNat % 131072
      v.fits = true → bit (s.rd (.keyQbind q)) 63 = true → fld (s.rd (.keyQbind q)) 55 48 = f → bit (s.rd (.intQcfg q)) 63 = true →
      (j < n → (x.sqTail + n - x.fetch) % n ≤ (j + n - x.fetch) % n →
        Completes (.sqTailDoorbell f q v) s fun t => t = s.setQueue q { x with sqTail := j }) ∧
      (x.held = false → h < m → (h + m - x.cqHead) % m ≤ (x.cqTail + m - x.cqHead) % m →
        Completes (.cqHeadDoorbell f q v) s fun t => t.queue q = { x with cqHead := h } ∧ t.runs = s.runs ∧ t.mem = s.mem) ∧
      (∀ key : BitVec 80, s.runs.all (fun r => !(s.outQueue r == some q.val && r.okey ≤ key.toNat &&
          (r.st == .committed || r.st == .isSealed))) = true → key.toNat ≤ x.relKey.getD 0 →
        s.retiring q key.toNat ≠ [] → s.vaultOk = true →
        Completes (.retireDoorbell f q true key) s fun t =>
          t.runs = s.runs.filter (fun r => !((s.retiring q key.toNat).map (·.isn)).contains r.isn) ∧
          ∃ b ∈ t.vault.own, b.body = .retire q key.toNat)) ∧
    (∀ (q : Fin 4096) (bs : List Byte), s.fetches q = true → s.fawn = false → bs.length = 512 →
      let d := Desc.of bs
      let p := s.queuePart q
      let i := (s.queue q).fetch
      (s.descOk p d = false → Completes (.descriptorFetch q true bs) s fun t =>
        (t.queue q).acc = (s.queue q).acc ++ [.refusal i 0x0103 d.idem] ∧ t.runs = s.runs ∧ t.idem = s.idem) ∧
      (∀ place frame, s.descOk p d = true → s.idemFind s.idem p d.idem (checkOf d.prog d.plen d.payload) = none →
        s.idemRoom s.idem p d.idem = some place → s.freeFrame p = some frame →
        Completes (.descriptorFetch q true bs) s fun t => ∃ r, t.runs = s.runs ++ [r] ∧
          r.isn = (s.rd .intNextisn).toNat ∧ r.queue = q.val ∧ r.part = p ∧ r.prog = d.prog ∧ r.idem = d.idem ∧ r.frame = frame ∧
          r.st = (if bit (s.rd (.keyPtctl p)) 62 then .journaled else .accepted) ∧
          t.rd .intNextisn = s.rd .intNextisn + 1 ∧ (t.queue q).acc = (s.queue q).acc ++ [.request i r.isn d.idem] ∧
          (sget Idem.free t.idem place).isn = r.isn)) ∧
    (∀ (g : Fin 8) (c sl : Nat) (r : Run) (rest : List Run) (p : Prog), s.lane g = some (c, sl) →
      s.runs.any (Run.onLane g) = false → s.rf .tsqStatus 2 0 < 2 →
      sortRuns (·.okey) (s.runs.filter fun r => r.st == .staging && r.xregion == g.val) = r :: rest →
      s.touching r.isn = false → r.prg = some p → p.nstage = 0 →
      Completes (.stageIn g) s fun t =>
        t = (s.freshPayload r).modRun r.isn fun r => { r with st := .ready, staged := 0, pblk := none }) ∧
    (∀ (e : Fin 256) (r : Run) (p : Prog), s.runs.find? (fun q => q.isn % 2 ^ 64 == r.isn % 2 ^ 64 && s.deliverable e q) = some r →
      s.takesRun e r = true → s.overtakes e r = false → s.deliveryFault r = none → s.progOf r = some p → r.st = .queued →
      r.exact = false →
      Completes (.descriptorDelivery e (BitVec.ofNat 64 r.isn)) s fun t =>
        (∀ k ∈ s.unitCores e, let d := t.core k
          d.act = .run ∧ d.pc = BitVec.ofNat 64 p.entry ∧ d.ctx = some ⟨r.isn, r.okey, r.save, r.xsaved⟩ ∧ d.lev = 0 ∧
          d.cur.acc = ⟨BitVec.ofNat 64 r.okey, tINT⟩ ∧ (r.pblk = none → d.cur.x1 = ⟨BitVec.ofNat 64 r.frame, tPTR⟩) ∧
          d.rstk = [] ∧ fld d.rsctl 12 8 = 0 ∧ fld d.rsctl 5 0 = 0 ∧ fld d.shstk 40 32 = 0 ∧ d.txstall = 0 ∧
          d.cur.x2 = ⟨p.xtwo, tPTR⟩ ∧ pPRIV d.cur.psw = 2 ∧ pKEY d.cur.psw = p.key % 256 ∧
          fld d.budget 31 0 = p.budget % 2 ^ 32) ∧
        ∀ q ∈ t.runs, q.isn = r.isn → q.st = .running e ∧ q.prg = some p) ∧
    (s.fab.granted = some true → s.rf .fabLease 63 61 = 2 → Completes .takeover s fun t =>
      t.fab.custody = true ∧ t.rf .fabLease 63 61 = 3) ∧
    (s.fab.handTaken = true → s.fab.custody = false → Completes .handoverAdoption s fun t =>
      t.fab.custody = true ∧ t.rf .fabLease 63 61 = 3 ∧ t.fab.handTaken = false)

/-- R416, R418, R419, R420, R423 to R425, R427, R428: links, beacons and roles. Beacons go out on every UP port; one received
names its neighbour; the elected device and the standby become fabric manager or time master; the manager's frames give roles,
a device ID and routes; a frame goes on over its route with one hop less; a link trains, takes its key at agreement and a new
one at rekey, keeps its lanes, and goes DOWN without lanes or after sixteen retries. -/
def Obligations.FabricRolesAndLinks : Prop :=
  ∀ (p : Fin 8) (s : State),
    let link (t : State) := t.rf (.fabPstatus p) 2 0
    let pri (i : Nat) := s.rf .fabRole (i + 7) i
    let fm (t : State) := t.rf .fabRole 63 63 = 1 ∧ t.rf .fabRole 59 48 = s.devId
    let tm (t : State) := t.rf .fabRole 62 62 = 1 ∧ t.rf .fabRole 47 36 = s.devId
    let me := s.fuses.serial.toNat
    (Completes .beaconSend s fun t => t.fab.out = s.fab.out ++
      s.upPorts.map (fun q => ⟨s.rf (.fabPstatus q) 43 32, false, false, .beacon (s.beaconOf q), false⟩) ++
      if bit (s.rd .fabRole) 63 then
        ((s.upPorts.map (fun q => s.rf (.fabPstatus q) 43 32) ++ s.fab.ids.map (·.2)).eraseDups.filter (· != s.devId)).map fun d =>
          ⟨d, false, false, .manage (.announce (s.rf .fabRole 59 48) (s.rf .fabRole 47 36)), false⟩
      else []) ∧
    (∀ b : Beacon, s.portUp p = true → Completes (.beacon p b) s fun t => (t.port p).beacon = some b ∧
      t.rf (.fabPstatus p) 43 32 = b.devid % 4096) ∧
    (bit (s.rd .fabRole) 63 = false →
      (pri 24 ≠ 0 → s.bestCand (pri 24) Beacon.mpri = me →
        (s.upPorts.filterMap fun q => (s.port q).beacon).all (fun b => b.best == me) = true →
        Completes (.electionSettle true) s fm) ∧
      (s.isStandby (pri 24) 2 Beacon.mpri = true → Completes .managerFailover s fm)) ∧
    (bit (s.rd .fabRole) 62 = false →
      (pri 16 ≠ 0 → s.bestCand (pri 16) Beacon.tpri = me → Completes (.electionSettle false) s tm) ∧
      (s.isStandby (pri 16) 3 Beacon.tpri = true → Completes .timeMasterFailover s tm)) ∧
    (∀ (src : Fin 4096) (f t' id sys ep : Nat) (es : List RouteUpd),
      (Completes (.manage src (.announce f t')) s fun t => t.rf .fabRole 59 48 = f % 4096 ∧ t.rf .fabRole 47 36 = t' % 4096 ∧
        t.rf .fabRole 63 63 = b2n (f == s.devId) ∧ t.rf .fabRole 62 62 = b2n (t' == s.devId)) ∧
      (bit (s.rd .devId) 16 = false → Completes (.manage src (.assign me id sys)) s fun t =>
        t.devId = id % 4096 ∧ bit (t.rd .devId) 16 = true ∧ t.fab.sysid = sys) ∧
      (∀ serial, Completes (.manage src (.unbind serial)) s fun t => ∀ q ∈ t.fab.ids, q.1 ≠ serial ∧ q ∈ s.fab.ids) ∧
      (src.val = s.rf .fabRole 59 48 → Completes (.manage src (.routes ep t' es)) s fun t =>
        t.fab.routeNext = s.fab.routeNext ++ [(ep, t', es)] ∧ t.cores = s.cores ∧ t.mem = s.mem)) ∧
    (∀ (fr : Transit) (u : State) (w : Word), typeKnown fr.typ.toNat = true → s.isMine fr.dst = false → s.portUp p = true →
      fr.typ ≠ 1 → fr.typ ≠ 3 →
      (fr.hops = 0 → Completes (.frameForward p fr) s fun t =>
        t.rf .fabRtctl 15 0 = satAdd 16 (s.rf .fabRtctl 15 0) 1 ∧ t.fab = s.fab) ∧
      (fr.hops ≠ 0 → s.routeOf fr.dst = (u, w) → fr.path = false → bit w 63 = true → u.portUp (fld w 2 0) = true →
        Completes (.frameForward p fr) s fun t =>
          t.fab.fwd = s.fab.fwd ++ [(fld w 2 0, { fr with hops := fr.hops - 1 })] ∧ t.fab.out = s.fab.out)) ∧
    (∀ fseq : BitVec 32, s.portUp p = true →
      let old := if (s.port p).retryFrame = fseq.toNat
        then (s.port p).retryTimes.filter (fun i => decide (s.now < i + 1000000)) else []
      Completes (.linkRetryRequest p fseq) s fun t => if 15 ≤ old.length then link t = 0 ∧ (t.port p).key = none
        else link t = 3 ∧ (t.port p).retryTimes = old ++ [s.now] ∧
          t.rf (.fabPcnt p) 31 16 = satAdd 16 (s.rf (.fabPcnt p) 31 16) 1) ∧
    (∀ lanes : BitVec 4,
      (link s < 2 → bit (s.rd (.fabPctl p)) 4 = true → lanes ≠ 0 → Completes (.linkTrainingComplete p lanes) s fun t =>
        link t = 2 ∧ t.rf (.fabPstatus p) 11 8 = usedLanes lanes.toNat) ∧
      (s.portUp p = true → Completes (.linkNarrowed p lanes) s fun t =>
        t.rf (.fabPstatus p) 11 8 = usedLanes lanes.toNat ∧ link t = if lanes = 0 then 0 else 3)) ∧
    (link s = 2 →
      (Completes (.linkKeyAgreement p true) s fun t => link t = 3 ∧ (t.port p).counter = 0 ∧
        (t.port p).key = some (Config.linkKey s.free) ∧ (t.port p).rxKey = some (Config.linkKey (s.free + 1)) ∧
        (t.port p).salt = Config.linkSalt s.free ∧ (t.port p).rxSalt = Config.linkSalt (s.free + 1)) ∧
      (Completes (.linkKeyAgreement p false) s fun t => link t = 2 ∧ t.fab = s.fab)) ∧
    (s.portUp p = true → Completes (.linkRekey p) s fun t => (t.port p).counter = 0 ∧
      (t.port p).key = some (Config.linkKey s.free) ∧ (t.port p).rxKey = some (Config.linkKey (s.free + 1)) ∧ t.regs = s.regs)

/-- R305, R411, R412, R429, R430, R432, R434 to R436: fabric time, heartbeat, lease and handover. An offset within 50 ns is in
sync, a larger one or 100 µs without TIME_SYNC is not; the partner's heartbeat is noted; after two missed ones the witness is
asked; it answers OK or DENIED to a renewal and grants one takeover of a device; without the lease the device neither fetches
nor releases; the partner acknowledges a handover unless it is in Fawn mode or has asked for the takeover. -/
def Obligations.TimeLeaseAndHandover : Prop :=
  ∀ (src : Fin 4096) (n : BitVec 32) (s : State),
    let lease (t : State) := t.rf .fabLease 63 61
    let fawn (t : State) := t.rf .fmuStatus 61 60
    let sent (t : State) (d : Nat) (m : Nat → Msg) := ∃ q, t.fab.out = s.fab.out ++ [⟨d, false, true, m q, false⟩]
    let fresh (typ : Nat) := (src.val, typ, n.toNat) ∉ s.fab.seen
    (Completes .timeProbeSend s fun t => t.fab.out = s.fab.out ++ s.upPorts.map fun q =>
      ⟨s.rf (.fabPstatus q) 43 32, false, false, .timeProbe s.now, false⟩) ∧
    (∀ (p : Fin 8) (delay : BitVec 16), s.portUp p = true → Completes (.timeProbe p delay) s fun t =>
      t.rf (.fabPdelay p) 15 0 = delay.toNat ∧ t.fab = s.fab) ∧
    (bit (s.rd .fabRole) 62 = true → Completes .timeSyncSend s fun t => t.fab.out = s.fab.out ++ s.upPorts.map fun q =>
      ⟨s.rf (.fabPstatus q) 43 32, false, false, .timeSync s.now s.tick s.sched.history, false⟩) ∧
    (∀ (time : BitVec 64) (tick : BitVec 48) (offset : BitVec 16) (h : List (Nat × Nat)),
      Completes (.timeSync time tick ⟨offset, h⟩) s fun t =>
      t.fab.syncOk = decide (offset.toInt.natAbs ≤ 50) ∧ t.rf .fabRole 15 0 = offset.toNat ∧
      (50 < offset.toInt.natAbs → bit (t.rd .tsqStatus) 4 = false) ∧
      (s.neverTicked = true → t.now = time.toNat ∧ t.tick = tick.toNat ∧
        t.sched.start = boundaryOf h tick.toNat ∧ t.sched.history = h) ∧
      (s.neverTicked = false → t.now = s.now ∧ t.tick = s.tick ∧ t.sched = s.sched)) ∧
    (Completes .timeSyncTimeout s fun t => t.fab.syncOk = false ∧ bit (t.rd .tsqStatus) 4 = false) ∧
    (∀ (mseq : BitVec 32) (b : Bool), s.hasPartner = true → src.val = s.partnerId →
      (src.val, 5, mseq.toNat) ∉ s.fab.seen → Completes (.heartbeat src mseq b) s fun t =>
        t.rf .fabLease 47 0 = s.now % 2 ^ 48 ∧ t.fab.hbSeen = true ∧ t.fab.hbMiss = 0 ∧ t.fab.ptnFawn = b) ∧
    (2 ≤ s.fab.hbMiss → s.fab.asked = false → lease s = 1 → Completes .heartbeatMissed s fun t =>
      t.fab.asked = true ∧ lease t = 2 ∧
      sent t s.witnessId fun q => .lease q .takeoverReq s.tick s.partnerId (s.rf .fabLease 47 0)) ∧
    (fresh 6 →
      (Completes (.leaseRenew ⟨src, n⟩ false) s fun t => t.fab.wit = s.fab.wit ∧
        sent t src fun q => .lease q (if s.deposed src then .denied else .ok) s.tick src 0) ∧
      (∀ (subject : Fin 4096) (h : BitVec 64),
        (s.deposed src = true → Completes (.leaseTakeoverReq ⟨src, n⟩ subject h false) s fun t => t.fab.wit = s.fab.wit ∧
          sent t src fun q => .lease q .denied s.tick subject h.toNat) ∧
        (s.deposed src = false → s.deposed subject = false → Completes (.leaseTakeoverReq ⟨src, n⟩ subject h false) s fun t =>
          t.deposed subject = true ∧ sent t src fun q => .lease q .grant s.tick subject h.toNat)) ∧
      (s.hasPartner = true → src.val = s.witnessId →
        (Completes (.leaseOk ⟨src, n⟩) s fun t => t.fab.okSeen = true ∧ t.rf .fabLease 59 56 = 0 ∧ t.rf .intStatus 4 4 = 0) ∧
        (s.fab.asked = true → Completes (.leaseGrant ⟨src, n⟩) s fun t => t.fab.granted = some true ∧ t.regs = s.regs) ∧
        (s.fab.granted ≠ some true → Completes (.leaseDenied ⟨src, n⟩) s fun t => t.fab.granted = some false ∧ t.regs = s.regs))) ∧
    (¬ fresh 6 → (Completes (.leaseRenew ⟨src, n⟩ false) s fun t => t = s) ∧ (Completes (.leaseGrant ⟨src, n⟩) s fun t => t = s)) ∧
    (Completes .witnessTimeout s fun t => if 3 ≤ s.rf .fabLease 59 56 then t.rf .intStatus 4 4 = 1 else t = s) ∧
    (s.fab.granted = some false → Completes .leaseExpiry s fun t => lease t = 4 ∧ t.releases = false ∧
      (s.fawn = false → ∀ q, t.fetches q = false)) ∧
    (s.hasPartner = true → src.val = s.partnerId → fresh 7 →
      (s.fawn = false → s.fab.asked = false → Completes (.handoverReq src n) s fun t => t.fab.handTaken = true ∧
        sent t src fun q => .handover q .ack s.tick (s.rf .tsqSealed 47 0) 0 0) ∧
      (s.fawn = true → Completes (.handoverReq src n) s fun t => t.fab.handTaken = s.fab.handTaken ∧
        sent t src fun q => .handover q .refused s.tick (s.rf .tsqSealed 47 0) 0 1)) ∧
    (fawn s = 2 → s.sched.unsealed = [] → s.fab.handAck = false → s.mirrorUp = true → Completes .handoverSend s fun t =>
      lease t = 5 ∧ t.fab.handSent = true ∧ ∃ n, sent t s.partnerId fun q =>
        .handover q .req s.tick (s.rf .tsqSealed 47 0) n 0) ∧
    (s.fab.handSent = true → src.val = s.partnerId → fresh 7 →
      (Completes (.handoverAck ⟨src, n⟩) s fun t => t.fab.handAck = true ∧ t.fab.handSent = false ∧ fawn t = 2) ∧
      (Completes (.handoverRefused ⟨src, n⟩) s fun t => t.fab.handSent = false ∧ fawn t = 3 ∧ lease t = 1))

/-- R276, R295, R298, R323, R324, R341, R343, R344, R355, R436, R438 to R443: what partners, issuers and targets exchange.
Shipped partitions, journal records, posting logs and PIN records of the partner are kept and acknowledged; its acknowledgements
accept requests and seal ticks; a remote close and a rollback notice roll REMOTE entries back; a remote operation is answered,
and its reply ends the instruction that waits. -/
def Obligations.MirrorAndRemoteMessages : Prop :=
  ∀ (src : Fin 4096) (s : State),
    let sent (t : State) (o : Nat → OutMsg) := ∃ q, t.fab.out = s.fab.out ++ [o q]
    let ack (typ n : Nat) (q : Nat) : OutMsg := ⟨src, false, false, .mirrorAck q s.tick typ n, false⟩
    let phase := s.rf .tsqStatus 2 0
    (s.isPartner src = true →
      (∀ b : Tables, Completes (.tables src b) s fun t =>
        (∃ x ∈ t.fab.tables, x.part = b.part ∧ x.ptctl = b.ptctl ∧ x.ptroot = b.ptroot ∧ x.grants = b.grants ∧
          ∀ f ∈ b.frames, f ∈ x.frames) ∧ t.regs = s.regs ∧ t.mem = s.mem) ∧
      (∀ (b : Tables) (recs : List JRec) (idem : IdemTable),
        (b.part ≤ 1023 → Completes (.restore src b ⟨recs, idem⟩) s fun t =>
          t.rd (.keyPtctl b.part) = b.ptctl ∧ t.rd (.keyPtroot b.part) = b.ptroot ∧ t.vault = s.vault ∧
          t.runs = s.runs ∧ t.fab.handAck = false ∧ t.rf .fabLease 63 61 = 1) ∧
        (∀ (r : JRec) (isn key q part prog plen check sqidx : Nat) (p : List Byte), b.part = 1024 → recs = [r] →
          r.body = .accept isn key q part prog plen check p sqidx → Completes (.restore src b ⟨recs, idem⟩) s fun t =>
            t.sched.unsealed = [] ∧ t.fab.handAck = false ∧ t.rf .fabLease 63 61 = 1 ∧
            ∃ x ∈ t.runs, x.isn = isn ∧ x.queue = q ∧ x.part = part ∧ x.prog = prog ∧ x.idem = key ∧ x.sqidx = sqidx)) ∧
      (s.vaultOk = true → ∀ (a : Nat) (n : BitVec 32), (src.val, 0x13, n.toNat) ∉ s.fab.seen →
        (Completes (.mirrorAck ⟨src, n⟩ (.journal a false)) s fun t => ∀ r ∈ s.runs, r.st = .journaled →
          (∃ b ∈ s.vault.own, b.rsn ≤ a ∧ match b.body with | .accept i .. => i = r.isn | _ => False) →
          { r with st := .accepted } ∈ t.runs) ∧
        (Completes (.mirrorAck ⟨src, n⟩ (.postlog a)) s fun t => a ∉ t.sched.unsealed) ∧
        (Completes (.mirrorAck ⟨src, n⟩ (.pin a)) s fun t => ∀ p ∈ t.fab.ownPins, p.mseq = a → p.acked = true)) ∧
      (s.quiet = false →
        (∀ r : JRec, s.vaultOk = true → s.vault.verifies src r = true → s.vault.ptn.all (fun x => x.rsn != r.rsn) = true →
          2 ^ 21 + recBytes s.vault.ptn ≤ vaultHalf →
          (s.vault.badRsn.any (· < r.rsn) = false → s.vault.early = [] → Completes (.journal src r) s fun t =>
            (r.body.typ ≠ 5 → r ∈ t.vault.ptn) ∧ t.vault.ptnRsn = max s.vault.ptnRsn r.rsn ∧
            sent t (ack 0x10 t.vault.ackRsn) ∧ (∀ b, b ∈ t.vault.badRsn ∨ b ∈ t.vault.refused → 0 < b → t.vault.ackRsn < b)) ∧
          (s.vault.badRsn.any (· < r.rsn) = true → Completes (.journal src r) s fun t =>
            t.vault.ptn = s.vault.ptn ∧ r ∈ t.vault.early ∧ t.fab = s.fab)) ∧
        (∀ r : JRec, s.vaultOk = true → s.vault.verifies src r = false → Completes (.journal src r) s fun t =>
          t.vault.ptn = s.vault.ptn ∧ r.rsn ∈ t.vault.badRsn ∧ t.fab = s.fab) ∧
        (∀ r : JRec, s.vaultOk = true → s.vault.verifies src r = true → s.vault.ptn.all (fun x => x.rsn != r.rsn) = true →
          r.body.typ = 1 → vaultHalf < 2 ^ 21 + recBytes s.vault.ptn → s.vault.early = [] → Completes (.journal src r) s fun t =>
            t.vault.ptn = s.vault.ptn ∧ r.rsn ∈ t.vault.refused ∧ (0 < r.rsn → t.vault.ackRsn < r.rsn) ∧
            sent t (ack 0x10 t.vault.ackRsn)) ∧
        (∀ (rid issuer : Nat) (x : LogE), s.vaultOk = true → Completes (.postlog src (.entry issuer rid x)) s fun t =>
          t.fab.ptnRemote = s.fab.ptnRemote ++ [x] ∧
          t.fab.out = s.fab.out ++ [⟨s.partnerId, false, false, .remoteAck issuer rid, false⟩]) ∧
        (∀ (p : PostLog) (x : LogE), s.vaultOk = true → p.recs.all (s.vault.verifies src) = true → p.images = [] →
          s.vault.badRsn = [] →
          p.entries = [x] → x.word < s.layout.p → s.chanState (chanOf (s.replicaBase + x.word)) ≠ 3 →
          Completes (.postlog src (.tick p)) s fun t => sent t (ack 0x11 p.tick) ∧
            let a := (s.replicaBase + x.word) / 8
            Memory.readBytes t.mem (a * 8) 8 = toBytes 8 x.after.toNat ∧ sget tRAW t.tags a = tPDEC ∧
            ∀ b, b < a * 8 ∨ a * 8 + 8 ≤ b → Memory.read t.mem b = Memory.read s.mem b) ∧
        (∀ (m : BitVec 32) (p : PinRec), (src.val, 0x12, m.toNat) ∉ s.fab.seen → Completes (.pinRecord src m p) s fun t =>
          t.fab.pins = s.fab.pins ++ [p] ∧ sent t (ack 0x12 m.toNat)))) ∧
    (∀ (k : BitVec 64) (n : Nat) (r : JRec), s.vault.unacked.find? (·.1 == k.toNat) = some (k.toNat, n) →
      s.vault.own.find? (·.rsn == k.toNat) = some r → Completes (.journalAckMissing k) s fun t =>
        if n = 0 then s.quiet = false → t.fab.out = s.fab.out ++ [⟨s.partnerId, false, false, .journal r, true⟩]
        else t.fab.mirrorDown = true) ∧
    (∀ (m : BitVec 32) (c : CloseRec) (l : List Nat), (c.issuer, 8, m.toNat) ∉ s.fab.seen → s.isPartner c.issuer = false →
      Completes (.remoteCloseMessage src m c l) s fun t => t.fab.closes = s.fab.closes ++ [c] ∧
        (c.tick = s.tick → s.sched.flipped = false → ∀ u < 12, ∀ x ∈ (t.npu u).log, x.kind = .remote → x.owner = c.issuer →
          x.okey ∉ c.keys → x.rolled = true)) ∧
    (∀ (m : BitVec 32) (tick : BitVec 48) (k : BitVec 80), (src.val, 9, m.toNat) ∉ s.fab.seen →
      Completes (.rollbackNotice src m tick k true) s fun t =>
        t.fab.out = s.fab.out ++ [⟨src, false, true, .rollback m.toNat true tick.toNat k.toNat, false⟩] ∧
        (tick.toNat = s.tick → s.sched.flipped = false → ∀ u < 12, ∀ x ∈ (t.npu u).log, x.kind = .remote → x.owner = src →
          x.okey = k.toNat → x.rolled = true)) ∧
    (∀ m : BitVec 32, Completes (.rollbackAck src m) s fun t =>
      t.fab.notices = s.fab.notices.filter fun p => !(p.1 == m.toNat && p.2 == src.val)) ∧
    (∀ (m : BitVec 32) (r : Run), (src.val, 10, m.toNat) ∉ s.fab.seen → phase = 0 → s.run r.isn = some r →
      r.st.inTick = true → r.pinned = false → r.okey < 2 ^ 80 →
      Completes (.remoteLost src m (BitVec.ofNat 48 s.tick) (BitVec.ofNat 80 r.okey)) s fun t =>
        (t.run r.isn).any (fun q => q.st == .aborted) = true) ∧
    (src.val ≠ s.devId → ∀ rq : RReq,
      let answer (r : RReply) : OutMsg := ⟨src, false, false, .rreply { r with rid := rq.rid }, false⟩
      (∀ st, rq.tick = s.tick → s.remoteGate false = some st → Completes (.rpost src rq) s fun t =>
        t = { s with fab := { s.fab with out := s.fab.out ++ [answer ⟨0, st, 0, 0, 0, s.tick⟩] } }) ∧
      (∀ (s1 s2 : State) (pa : Nat) (r : RReply), rq.tick = s.tick → s.remoteGate false = none → s.hasPartner = false →
        s.remoteCheck src rq false = (s1, .inr pa) → s1.npuBehind pa false = false → s1.npuRemote src rq.okey pa rq.amount rq.floor = (s2, some r) →
        Completes (.rpost src rq) s fun t => t.npus = s2.npus ∧ t.fab.out = s2.fab.out ++ [answer r]) ∧
      (s.remoteGate true = none → s.remoteGate false = none → Completes (.rpost src rq) s fun t =>
        (rq.tick < s.tick → t.npus = s.npus ∧ t.fab.out = s.fab.out ++ [answer ⟨0, rsNOT_STAGED, 0, 0, 0, s.tick⟩]) ∧
        (s.tick < rq.tick → t = { s with fab := { s.fab with postWaits := s.fab.postWaits ++ [(src.val, rq)] } })) ∧
      (∀ (s1 : State) (pa : Nat), s.remoteGate true = none → rq.tick ≤ s.tick → s.remoteCheck src rq true = (s1, .inr pa) →
        (s1.cachedWord pa = true ∨ s1.lineRead pa (.remote src rq.rid) = (s1, .good)) → (s1.committed pa).tag = tPDEC → (pdecVal (s1.committed pa).val).isSome = true →
        Completes (.rreadFrame src rq) s fun t => t.npus = s1.npus ∧
          t.fab.out = s1.fab.out ++ [answer ⟨0, rsDONE, 0, 0, (s1.committed pa).val, s.tick⟩])) ∧
    (∀ (r : RReply) (w : RWait), s.fab.waits.find? (·.1 == r.rid) = some (r.rid, w) → w.isRead = true → r.status = rsDONE →
      r.tick ≤ s.tick → s.awaits w.core = true → (s.core w.core).ctx.all (fun k => k.isn == w.isn) = true →
      Completes (.rreply r) s fun t => t.fab.waits.find? (·.1 == r.rid) = none ∧ ∀ k ∈ s.unitCores w.core,
        (t.core k).cur.acc = ⟨r.value, tPDEC⟩ ∧ (t.core k).act = .run ∧ (t.core k).pc = (s.core w.core).pc + 4 ∧
        (t.core k).retired = (s.core w.core).retired + 1)

/-- R391, R396 to R400, R448, R449, R451, R452, R454, R455, R468: records, the management processor's members, and the host
side. A new EVENT record at the device aggregator is opened and logged with the next RSEQ; a closed entry is gone; the next
record goes to the fabric manager; an outvoted member leaves. Function level reset and a lost bus master hold the function's
queues; a pending vector that is unmasked is sent; QSTAT is read; the link takes its state; a faulty IDE stream is closed. The
layout of the MSI-X table is the model's (log 131). -/
def Obligations.RecordsMembersAndHostLink : Prop :=
  ∀ s : State,
    let agg (t : State) (k : Nat) := sget Agg.cold t.fmu.aggs k
    (∀ r : Rec,
      let a := agg s (aggKey 1 0)
      (sigClass r.sig).getD r.cls = clEVENT → r.close = false → aggFind a r = none → a.evLost = false → aggCount a false < 64 →
      s.fmu.log.length - (s.fmu.log.filter fun p => p.2.cls == clALARM).length < 3072 →
      Completes (.fmuRecord 1 r) s fun t => t.cores = s.cores ∧ t.mem = s.mem ∧ t.regs = s.regs ∧
        t.fmu.rseq = s.fmu.rseq + 1 ∧ (agg t (aggKey 1 0)).entries.length = a.entries.length + 1 ∧
        ∃ p, t.fmu.log = s.fmu.log ++ [p] ∧ p.2.sig = r.sig ∧ p.2.root = r.root ∧ p.2.level = 1 ∧
          p.2.rseq = s.devId * 2 ^ 52 + (s.fmu.rseq + 1)) ∧
    (∀ (level : Fin 6) (idx : Fin 1000) (sig : BitVec 16) (root : BitVec 32) (x : Rec),
      let key := aggKey level idx
      (agg s key).entries.find? (fun x => x.sig == sig.toNat && x.root == root.toNat) = some x → x.count ≤ 1 →
      s.fmu.waiting = [] →
      (x.time + (7 - level.val) * s.period ≤ s.now → Completes (.aggregatorEntryClose level idx sig root) s fun t =>
        ∀ y, y ∈ (agg t key).entries ↔ y ∈ (agg s key).entries ∧ ¬(y.sig = x.sig ∧ y.root = x.root)) ∧
      (s.now < x.time + (7 - level.val) * s.period →
        Completes (.aggregatorEntryClose level idx sig root) s fun t => t = s)) ∧
    (∀ (r : Rec) (rest : List Rec), s.fmu.forward = r :: rest → bit (s.rd .fabRole) 63 = false →
      Completes .fmuRecordForward s fun t => t.fmu = { s.fmu with forward := rest } ∧
        t.fab.out = s.fab.out ++ [⟨s.rf .fabRole 59 48, false, false, .manage (.record r), false⟩]) ∧
    (∀ m : Fin 3, s.mp.members.length = 3 → m.val ∈ s.mp.members → Completes (.mpMemberLost m) s fun t =>
      t.mp.members = s.mp.members.filter (· != m.val)) ∧
    (∀ l : List Nat, s.mp.members.length = 2 → Completes (.mpPairMismatch l) s fun t =>
      t.mp.members = s.mp.members.filter fun m => !l.contains m) ∧
    (∀ (f : Fin 256) (p : Instr), p = .flr f ∨ p = .busMasterDisable f → Completes p s fun t =>
      (t.fn f).busMaster = false ∧ t.hif.mbx = s.hif.mbx ∧ t.regs = s.regs ∧ t.mem = s.mem ∧
      ∀ q, bit (s.rd (.keyQbind q)) 63 = true → fld (s.rd (.keyQbind q)) 55 48 = f → (t.queue q).held = true) ∧
    (∀ f : Fin 256, Completes (.flr f) s fun t => (t.fn f).table = [] ∧ (t.fn f).pend = []) ∧
    (∀ (f : Fin 256) (k : Nat), let e := sget MsixEntry.cold (s.fn f).table k
      k < (s.fnVecs f).2 → k < 2048 → k ∈ (s.fn f).pend → e.addr < 2 ^ 64 → e.data < 2 ^ 32 →
      Completes (.registerWrite (.host f .bar0 4) (BitVec.ofNat 48 (0x80000 + 16 * k + 12)) 0) s fun t =>
        k ∉ (t.fn f).pend ∧ t.hif.out = s.hif.out ++ [.msix f k e.addr e.data] ∧ t.regs = s.regs) ∧
    (∀ (f : Fin 256) (q : Fin 4096), bit (s.rd (.keyQbind q)) 63 = true → fld (s.rd (.keyQbind q)) 55 48 = f →
      Completes (.registerReadClear (.host f .bar2 8) (BitVec.ofNat 48 (0x1000 * q + 0x20))) s fun t =>
        t = s.toHost (.answer f (toBytes 8 (s.qstat q).toNat))) ∧
    (∀ f : Fin 256, Completes (.busMasterEnable f) s fun t => t.fn f = { s.fn f with busMaster := true } ∧
      t.queues = s.queues ∧ t.regs = s.regs) ∧
    (∀ hot : Bool, Completes (.hostLinkDown hot) s fun t => t.rf .hifLink 15 12 = (if hot then 4 else 0) ∧
      (∀ q, bit (s.rd (.keyQbind q)) 63 = true → (t.queue q).held = true) ∧
      (hot = true → ∀ f, (t.fn f).busMaster = false)) ∧
    (∀ (w : Fin 17) (speed : Fin 5) (flit : Bool), Completes (.hostLinkUp w speed flit) s fun t =>
      if speed ≠ 0 ∧ flit = decide (speed = 4) then
        t.rf .hifLink 15 12 = (if 8 ≤ w.val then 2 else 3) ∧
        t.rf .hifLink 7 3 = (if w.val = 16 then 16 else if 8 ≤ w.val then 8 else 0) ∧
        t.rf .hifLink 2 0 = speed ∧ t.rf .hifLink 8 8 = b2n flit
      else t.rf .hifLink 15 12 = 1) ∧
    (∀ i : Fin 8, Completes (.ideFault i) s fun t => t.hif = { s.hif with ide := s.hif.ide.filter (· != i.val) })

/-- R48, R51, R53, R60, R194, R263, R266, R306, R506 to R509: writes of control space. The device ID is taken once; a CSR of a
core is written in every core of its unit; CORE_SIGNAL reaches every core of the unit; a frame takes its key, shows it, and
loses its cached copies on request, but no core outside P0 in partition 0 changes a key; a period change is at least 16 ticks
ahead; resets are requested, a cold one over a warm one. -/
def Obligations.RegisterCommands : Prop :=
  ∀ s : State,
    (∀ v : BitVec 64,
      (bit (s.rd .devId) 16 = false → Completes (.devIdWrite v) s fun t =>
        t.devId = fld v 11 0 ∧ bit (t.rd .devId) 16 = bit v 16) ∧
      (bit (s.rd .devId) 16 = true → fld v 11 0 ≠ s.devId ∨ bit v 16 = false →
        Completes (.devIdWrite v) s fun t => t.regs = s.regs ∧ t.cores = s.cores)) ∧
    (∀ (e : Fin 256) (n : BitVec 16) (v : BitVec 64) (k : Csr), Csr.of n.toNat = some k → n.toNat < 0x2000 →
      k = .budget ∨ (∃ b, k = .laddr b) ∨ ((∃ i, k = .xscr i) ∧ bit (s.core e).xown 0 = true) →
      s.clusterOn (e / 8) = true → s.offline (e / 8) = false → s.coreState e ≠ csRETIRED → (s.core e).c6 = false →
      Completes (.csrControlWrite .mp e n v) s fun t => t.mem = s.mem ∧ t.regs = s.regs ∧
        ∀ i ∈ s.unitCores e, ∀ id pend, (t.core i).csrVal id pend k = ⟨v, tRAW⟩) ∧
    (∀ (c : Fin 32) (k : Fin 8) (code : BitVec 8),
      let e := c.val * 8 + k
      s.clusterOn c = true → s.offline c = false → s.coreState e ≠ csSPARE → s.coreState e ≠ csRETIRED →
      (s.core e).c6 = false → Completes (.cluSignalWrite .mp c k code) s fun t =>
        { t with async := s.async } = s ∧ ∀ i ∈ s.unitCores e, bit (sget Async.cold t.async i).pend 2 = true ∧
          sget 0 (sget Async.cold t.async i).detail 2 = code.toNat * 2 ^ 16 + 256) ∧
    (∀ (frame : BitVec 40) (fp : Bool) (key : BitVec 8),
      let pa := frame.toNat * 4096
      s.area pa = .own ∨ s.area pa = .unmirrored →
      (Completes (.keyFksetSet .mp frame fp key) s fun t =>
        sget 0 t.keys frame.toNat = key.toNat + 256 * b2n fp ∧ t.cores = s.cores ∧ t.mem = s.mem) ∧
      (Completes (.keyFksetQuery .mp frame) s fun t => t.keys = s.keys ∧ bit (t.rd (.keyFkres mMP)) 63 = true ∧
        fld (t.rd (.keyFkres mMP)) 7 0 = (s.frameKey pa).1 ∧ bit (t.rd (.keyFkres mMP)) 8 = (s.frameKey pa).2) ∧
      (s.accessQueued (· == frame.toNat) = true → Completes (.keyFksetInvalidate .mp frame fp key) s fun t => t = s) ∧
      (s.accessQueued (· == frame.toNat) = false → Completes (.keyFksetInvalidate .mp frame fp key) s fun t =>
        sget 0 t.keys frame.toNat = key.toNat + 256 * b2n fp ∧
        (∀ k, ∀ i ∈ (t.core k).tlb, tlbFrame i ≠ frame.toNat) ∧ ∀ i ∈ t.fabTlb, tlbFrame i ≠ frame.toNat)) ∧
    (∀ (e : Fin 256) (frame : BitVec 40) (fp : Bool) (key : BitVec 8),
      fld ((s.core e).view s.free).tbase 63 54 ≠ 0 ∨ pPRIV (s.core e).cur.psw ≠ 0 →
      Completes (.keyFksetSet (.core e) frame fp key) s fun t => t.keys = s.keys ∧ t.mem = s.mem) ∧
    (∀ (nxt : BitVec 8) (tick : BitVec 48),
      (s.tick + 16 ≤ tick.toNat → Completes (.tsqPeriodWrite nxt tick) s fun t => t.rf .tsqPeriod 47 0 = tick.toNat ∧
        t.rf .tsqPeriod 55 48 = (if nxt.toNat < 4 then 4 else min nxt.toNat 64) ∧ t.period = s.period) ∧
      (tick.toNat < s.tick + 16 → Completes (.tsqPeriodWrite nxt tick) s fun t => t.regs = s.regs)) ∧
    (Completes .rstCtlCold s fun t => t.resets = { s.resets with cold := some 3, warm := none }) ∧
    (s.resets.cold = none → Completes .rstCtlWarm s fun t => t.resets =
      { s.resets with warm := some 1, parts := [], due := false, partsDue := [] }) ∧
    (s.resets.cold ≠ none → Completes .rstCtlWarm s fun t => t.resets = s.resets) ∧
    (∀ p : Fin 1024, Completes (.rstPartGo .mp p) s fun t =>
      (p = 0 → t.resets = s.resets ∧ t.rf .rstPart 62 62 = 1) ∧
      (p ≠ 0 → p.val ∈ t.resets.parts ∧ ∀ q, q ≠ p.val → (q ∈ t.resets.parts ↔ q ∈ s.resets.parts)))

/-- R225, R228, R249, R359, R368 to R376, R378, R380, R382, R384, R385, R387, R388, R402, R405, R465: lockstep. A mismatch
that both copies see stops the unit for triage, one that a single copy sees retires the slot, and an outvoted core is retired
while the triad goes on; triage counts transients and retires the slot at the third; a resynchronised unit is in service with
its image; spares, C6, split, rejoin, cluster reset, microcode, code blocks and vendor stores change as their rules say. -/
def Obligations.LockstepAndClusters : Prop :=
  ∀ (c : Fin 32) (sl : Fin 5) (e : Fin 256) (s : State),
    let es := s.slotCores c sl
    let st (t : State) := t.slotState c sl
    let all (p : Nat → Bool) := ((List.range (slotSize sl)).all fun i => (s.posCore c sl i).any p) = true
    (s.compared c sl = true → s.copyLost c 0 = false → s.copyLost c 1 = false →
      (∀ g : BitVec 48, g ≠ 0 → es ≠ [] → es.length ≠ 3 → s.unitOf (es.headD 0) = some sl.val →
        (∀ k ∈ es, s.coreState k ≠ csRETIRED) →
        ∀ p ∈ [(Instr.lockstepMismatch c sl g g none, 1), (Instr.sampleDisagree c sl none, 2)],
          Completes p.1 s fun t => st t = slTRIAGE ∧ (t.slotX c sl).evt = p.2 ∧ t.mem = s.mem ∧
            ∀ k ∈ es, (t.core k).stateCode = csTEST ∧ (t.core k).ctx = none ∧ (t.core k).act = .stopped) ∧
      (∀ (gx gy : BitVec 48) (odd : Option Nat), gx ≠ gy → Completes (.lockstepMismatch c sl gx gy odd) s fun t =>
        st t = slRETIRED ∧ (t.slotX c sl).evt = 3 ∧ t.mem = s.mem ∧ ∀ k ∈ es, (t.core k).act = .stopped ∧
          (t.core k).stateCode = csTEST ∨ s.coreState k = csRETIRED) ∧
      (∀ (g : BitVec 48) (p k : Nat), g ≠ 0 → es.length = 3 → s.posCore c sl p = some k →
        ∀ i ∈ [Instr.lockstepMismatch c sl g g (some p), Instr.sampleDisagree c sl (some p)],
          Completes i s fun t => t.coreState k = csRETIRED ∧ t.posCore c sl p = none ∧ st t = st s)) ∧
    (st s = slTRIAGE → (s.slotX c sl).parity = [] →
      let old := (s.slotX c sl).trans.filter fun i => decide (s.tick < i + 1024)
      Completes (.triageComplete c sl []) s fun t =>
        if (s.slotX c sl).evt = 5 then st t = slRESYNC ∧ ∀ k ∈ es, t.coreState k = csRECOVERY ∨ s.coreState k = csRETIRED
        else if old.length < 2 then st t = slRESYNC ∧ (t.slotX c sl).trans = old ++ [s.tick]
        else st t = slRETIRED) ∧
    (st s = slACTIVE → (s.slotX c sl).captured = false → (s.core (es.headD 0)).idle = true → 2 ≤ s.rf .tsqStatus 2 0 →
      es ≠ [] → all (fun _ => true) → Completes (.resyncImageCapture c sl) s fun t =>
        (t.slotX c sl).image = some (s.core (es.headD 0)).image ∧ (t.slotX c sl).captured = true ∧ t.cores = s.cores) ∧
    (st s = slRESYNC →
      (Completes (.stateCopyComplete c sl) s fun t => (t.slotX c sl).copied = true ∧ t.regs = s.regs) ∧
      ((s.slotX c sl).copied = true → ¬(s.copyLost c 0 = true ∧ s.copyLost c 1 = true) →
        (Completes (.coldResync c sl ⟨[], []⟩) s fun t => st t = slACTIVE ∧
          (t.slotX c sl).poolFrom = s.tick + 1 ∧ ∀ k ∈ es, t.coreState k = csSERVICE ∧ (t.core k).lev = 0 ∧
            (t.core k).act = .disp ∧ (t.core k).parity = [] ∧ (t.core k).vbr = ((s.slotX c sl).image.getD Core.cold.image).vbr ∧
            bit (sget Async.cold t.async k).pend 0 = false ∧
            ∀ i, 1 ≤ i → i < 6 → bit (s.slotX c sl).reqs.pend i = true → bit (sget Async.cold t.async k).pend i = true)) ∧
      ((s.slotX c sl).copied = true → s.copyLost c 0 = true → s.copyLost c 1 = true → es ≠ [] →
        Completes (.coldResync c sl ⟨[], []⟩) s fun t => st t = slRESYNC ∧ ∀ k ∈ es, t.coreState k = s.coreState k)) ∧
    (bit (s.rd .fmuStctl) 0 = true → s.rf .fmuStctl 23 16 ≠ 0 → s.fawn = false → sl.val ∈ s.usedSlots c →
      es.all (fun k => (s.core k).idle) = true →
      let n (t : State) := sget 0 t.fmu.starved (1000 + c.val * 8 + sl)
      (Completes (.chamoisReinjection c sl ⟨[], []⟩ false false) s fun t => n t = 0 ∧
        bit (t.rd (.chkStatus c)) 0 = !(s.copyLost c 0 && s.copyLost c 1)) ∧
      (Completes (.chamoisReinjection c sl ⟨[], []⟩ false true) s fun t => n t = n s + 1 ∧ t.regs = s.regs)) ∧
    (s.clusterOn (e / 8) = true → s.coreState e = csSPARE →
      (bit (s.rd .fmuStctl) 0 = true → s.rf .fmuStctl 15 8 ≠ 0 → s.fawn = false → Completes (.spareSelfTest e) s fun t =>
        t.coreState e = csTEST ∧ (t.core e).c6 = false) ∧
      ((s.core e).c6 = false → Completes (.c6Entry e) s fun t => (t.core e).c6 = true)) ∧
    (s.spareTest e = true →
      (Completes (.spareSelfTestComplete e false) s fun t => t.coreState e = csSPARE ∧ t.mp.ledger = s.mp.ledger) ∧
      (Completes (.spareSelfTestComplete e true) s fun t => t.coreState e = csRETIRED ∧
        t.mp.ledger = s.mp.ledger ++ [⟨(s.locCore e).word, sgSELFTEST_FAIL, s.tick, 0⟩])) ∧
    (Completes (.c6Exit e) s fun t => (t.core e).c6 = false ∧ t.mem = s.mem) ∧
    (∀ i, (s.slotX c sl).splitAt = some i → i ≤ s.tick → st s = slACTIVE → es.all (fun k => (s.core k).idle) = true →
      Completes (.unitSplitHandover c sl) s fun t => st t = slSPLIT ∧ (t.slotX c sl).splitAt = none) ∧
    (∀ i, (s.slotX c sl).rejoinAt = some i → i ≤ s.tick → st s = slSPLIT → es.all (fun k => (s.core k).idle) = true →
      all (fun k => s.coreState k != csRETIRED) →
      Completes (.unitRejoinHandover c sl) s fun t => st t = slRESYNC ∧ (t.slotX c sl).rejoinAt = none) ∧
    (s.clusterOn c = true → s.drained c = true → ∀ fail rs, Completes (.clusterReset c fail rs) s fun t =>
      c.val ∈ t.cluInReset ∧ (∀ p ∈ t.cluDrain, p.1 ≠ c.val) ∧ t.cluMode c = s.rf (.cluMode c) 1 1 ∧ t.mem = s.mem) ∧
    (∀ i bs, s.mp.image = some (i, bs) → i ≤ s.tick →
      (Completes (.microcodeActivation true) s fun t => t.mp.image = none ∧ ∀ k < 256, s.clusterOn (k / 8) = true →
        ∃ u, fld u 8 8 = 1 - fld (s.core k).ucstat 8 8 ∧ t.core k =
          if (s.core k).mid then { s.core k with ucNext := some u } else { s.core k with ucstat := u }) ∧
      (Completes (.microcodeActivation false) s fun t => t.mp.image = none ∧ ∀ k < 256, s.clusterOn (k / 8) = true →
        fld (t.core k).ucstat 8 8 = fld (s.core k).ucstat 8 8)) ∧
    (∀ (b : Nat) (d : Word) (ws : List TWord) (i : Nat), (s.core e).act = .disp →
      s.mp.code.filter (fun x => s.mp.codeDue.contains (e.val, x.1) && decide (x.2.2.2 ≤ s.tick)) = [(b, d, ws, i)] →
      Completes (.tcmCodeInstall e) s fun t => sget 0 (t.core e).tcmblk b = d ∧
        (∀ j v, ws[j]? = some v → sget raw0 (t.core e).tcm (512 * b + j) = v) ∧ (e.val, b) ∉ t.mp.codeDue) ∧
    (∀ (rel : BitVec 32) (mi na : List Nat), s.clusterOn c = true → mi.length ≤ 16384 → na.length ≤ 2048 →
      (s.usedSlots c).all (fun i => (s.slotCores c i).all fun k => (s.core k).idle) = true →
      Completes (.vendorReleaseRoll c rel mi na true) s fun t => sget 0 t.mp.release c = rel.toNat ∧
        ∀ i < 8, (∀ j v, mi[j]? = some v → sget 0 (t.core (c * 8 + i)).vmicro j = BitVec.ofNat 24 v) ∧
          ∀ j v, na[j]? = some v → sget 0 (t.core (c * 8 + i)).vnano j = BitVec.ofNat 160 v) ∧
    (∀ (rel : BitVec 32) (mi na : List Nat), s.clusterOn c = true → s.clusterIdle c = false →
      Completes (.vendorReleaseRoll c rel mi na true) s fun t => t.delivers c = false ∧ t.cores = s.cores ∧
        ⟨c, rel.toNat, mi, na, true⟩ ∈ t.mp.rolls)

/-- R45, R252, R270, R272, R273, R276, R327, R340, R357, R358, R391, R400, R449, R452, R457 to R459, R464, R465: the mailbox and the
commands that set a device up. The host writes the request area of a mailbox that its function owns; a doorbell of 4 or 8 bytes
copies the request and takes the next command, answers an unassigned one, repeats a message or sets SEQERR; a command that ends
stores its response and is DONE. With admissible parameters each command of the setup has its effect on the registers
of the partition, function, queue, grant, layout, key or admission that it names, and answers OK; health and the log are read. -/
def Obligations.MailboxAndSetupCommands : Prop :=
  ∀ (s u : State) (src : OmiSrc) (rq : OmiReq) (env : OmiEnv),
    let P := rq.p
    let own : List OmiWho := [.owner]
    let every : List OmiWho := [.owner, .vf, .fabric]
    let taken (cmd plen : Nat) := Taken s u src rq cmd own false plen
    let ok (t : State) (cmd : Nat) (data : List Byte) (f : State → Prop) := ∃ v, Answers t v src rq cmd false data ∧ f v
    let p := P 0 2
    let q := P 0 2
    (∀ (m : Fin 32) (seq : BitVec 32) (fn : Fin 256) (size : Nat), s.mp.fwFail = false → s.pfail = false →
      let last := s.rf (.mbxStatus m) 63 32
      let st := s.rf (.mbxStatus m) 1 0
      let a := s.areaReq m
      let ring := Completes (.mbxDoorbell m seq fn size) s
      (s.rf (.mbxOwner m) 7 0 ≠ fn ∨ (size ≠ 4 ∧ size ≠ 8) → ring (· = s)) ∧
      (s.rf (.mbxOwner m) 7 0 = fn → size = 4 ∨ size = 8 →
        (seq.toNat = (last + 1) % 2 ^ 32 → st ≠ 1 →
          (a.2.seq = seq.toNat → omiAssigned a.1 = true → ring fun t => t = s.mbxTake m a.1 a.2 ∧
            t.rf (.mbxStatus m) 63 32 = seq.toNat ∧ t.rf (.mbxStatus m) 1 0 = 1 ∧ (t.mbx m).busy = some a ∧
            t.hif.taken = s.hif.taken ++ [m.val]) ∧
          (a.2.seq = seq.toNat → omiAssigned a.1 = false → ring fun t => t.rf (.mbxStatus m) 1 0 = 2 ∧
            (t.mbx m).resp = some ⟨a.1, stUNKNOWN_COMMAND, seq.toNat, 0, []⟩) ∧
          (a.2.seq ≠ seq.toNat → ring fun t => t = s.wf (.mbxStatus m) 2 2 1)) ∧
        (seq.toNat = last → (st = 2 → ring fun t => t = s.mbxMsg m) ∧ (st = 1 → ring fun t => t = s)) ∧
        (¬(seq.toNat = (last + 1) % 2 ^ 32 ∧ st ≠ 1) → ¬(seq.toNat = last ∧ (st = 1 ∨ st = 2)) → ring fun t =>
          t.rf (.mbxStatus m) 2 2 = 1 ∧ t.hif = s.hif ∧ ∀ r, r ≠ .mbxStatus m → t.rd r = s.rd r))) ∧
    (∀ (m : Fin 32) (fn : Fin 256) (i : Nat) (v : BitVec 64), i < 248 →
      let write := Completes (.registerWrite (.host fn .bar0 8) (BitVec.ofNat 48 (0x1000 * m + 0x40 + 8 * i)) v) s
      (s.rf (.mbxOwner m) 7 0 ≠ fn → write (· = s)) ∧
      (s.rf (.mbxOwner m) 7 0 = fn → write fun t => t.areaBytes m (8 * i) 8 = toBytes 8 v.toNat ∧ t.regs = s.regs ∧
        (t.mbx m).busy = (s.mbx m).busy ∧ ∀ k, k < 8 * i ∨ 8 * i + 8 ≤ k → t.areaBytes m k 1 = s.areaBytes m k 1)) ∧
    (∀ (v : State) (m : Fin 32) (cmd seq st d : Nat) (keeps : Bool) (data : List Byte),
      let t := v.omiEnd (.mbx m) cmd seq keeps (st, d, data)
      t.rf (.mbxStatus m) 1 0 = 2 ∧ (t.mbx m).resp = some ⟨cmd, st, seq, d, data⟩ ∧ t.cores = v.cores ∧ t.mem = v.mem ∧
      ∀ r, r ≠ .mbxStatus m → t.rd r = v.rd r) ∧
    (Taken s u src rq 0x01 every true 0 [] [] → Completes (.omiHealthRead src rq env) s fun t =>
      Answers t u src rq 0x01 false u.health) ∧
    (Taken s u src rq 0x02 every true 16 [(10, 6)] [] → rq.flags.testBit 0 = false → env.dmaOk = true →
      let all := u.fmu.log.foldl (fun l x => if P 0 8 ≤ x.2.rseq then insRec x.2 l else l) []
      let fab := u.omiWho src == .fabric
      let rs := all.take (min (P 8 2) (if fab then 31 else rq.dlen / 64))
      let bytes := rs.flatMap Rec.bytes
      Completes (.omiFaultLogRead src rq env) s fun t => Answers t (if fab || rs.isEmpty then u
        else u.toHost (.buffer (u.srcFn src) rq.daddr bytes)) src rq 0x02 false (toBytes 2 rs.length ++ toBytes 6 0 ++
          toBytes 8 (match rs.getLast? with | some r => r.rseq + 1 | none => P 0 8) ++ (if fab then bytes else []))) ∧
    (taken 0x10 40 [(6, 2), (34, 6)] [obPart p] → p ≤ 1023 → P 2 1 ≤ 1 → P 3 1 ≤ 1 → P 5 1 ≤ 1 →
      P 8 8 % 8192 = 0 → P 8 8 < 2 ^ 52 → P 16 8 % 64 = 0 → P 16 8 < 2 ^ 52 → P 24 8 % 65536 = 0 → P 24 8 < 2 ^ 52 →
      P 32 2 ≤ 16384 → (P 2 1 = 1 → u.partnerValid = true) →
      let tables (v : State) := v.rf (.keyPtroot p) 51 13 * 8192 = P 8 8 ∧ v.rf (.intProgtab p) 51 6 * 64 = P 16 8 ∧
        v.rf (.intRqarea p) 51 16 * 65536 = P 24 8 ∧ v.rf (.intRqarea p) 14 0 = P 32 2
      (u.partActive p = false → Completes (.omiPartitionCreate src rq env) s fun t => ok t 0x10 [] fun v => tables v ∧
        v.partActive p = true ∧ v.rf (.keyPtctl p) 62 62 = P 2 1 ∧ v.rf (.keyPtctl p) 61 61 = P 3 1 ∧
        v.rf (.keyPtctl p) 55 48 = P 4 1 ∧ v.rf (.keyPtctl p) 47 47 = P 5 1 ∧ v.cores = u.cores) ∧
      (u.partActive p = true → u.rf (.keyPtctl p) 62 62 = P 2 1 → u.rf (.keyPtctl p) 61 61 = P 3 1 →
        u.partBusy p = false ∨ u.rd (.intRqarea p) = rq.rqarea →
        Completes (.omiPartitionCreate src rq env) s fun t => ok t 0x10 [] fun v => tables v ∧
          v.rd (.keyPtctl p) = u.rd (.keyPtctl p) ∧ ∀ k, ∀ i ∈ (v.core k).tlb, i.part ≠ p)) ∧
    (taken 0x11 8 [(2, 6)] [obPart p] → p ≠ 0 → p ≤ 1023 → u.partActive p = true → u.partBusy p = false →
      u.grantsOf p = [] → u.regs.all (fun r => match r.1 with
        | .keyQbind _ => !(bit r.2 63 && fld r.2 9 0 == p) | .keyFnbind _ => !(bit r.2 63 && fld r.2 9 0 == p) | _ => true)
          = true →
      Completes (.omiPartitionDelete src rq env) s fun t => ok t 0x11 [] fun v => v.partActive p = false ∧
        ∀ k, ∀ i ∈ (v.core k).tlb, i.part ≠ p) ∧
    (∀ b, let f := P 0 1; let d := P 2 2
      taken 0x12 8 [(1, 1), (6, 2)] [obFn f, obPart d] → f ≠ 0 → d ≤ 1023 → u.partActive d = true →
      u.runs.all (fun r => !(r.st != .journaled && r.adopted.isNone && bit (u.rd (.keyQbind r.queue)) 63 && u.rf (.keyQbind r.queue) 55 48 == f))
        = true →
      u.regs.all (fun r => match r.1 with | .keyQbind _ => !(bit r.2 63 && fld r.2 55 48 == f) | _ => true) = true →
      P 4 2 ≤ 2048 → u.freeVecs f (P 4 2) = some b →
      Completes (.omiFunctionBind src rq env) s fun t => ok t 0x12 (toBytes 2 b ++ toBytes 6 0) fun v =>
        bit (v.rd (.keyFnbind f)) 63 = true ∧ v.rf (.keyFnbind f) 9 0 = d ∧ (v.fn f).vbase = b ∧ (v.fn f).nvec = P 4 2) ∧
    (let f := P 2 1; taken 0x13 40 [(7, 1), (10, 6)] [obQueue q, obFn f] → q ≤ 4095 → P 3 1 ≤ 1 → P 4 1 ≤ 7 → 4 ≤ P 5 1 → P 5 1 ≤ 16 →
      P 5 1 < P 6 1 → P 6 1 ≤ 17 → P 16 8 % 512 = 0 → P 24 8 % 128 = 0 → bit (u.rd (.keyFnbind f)) 63 = true ∨ f = 0 →
      P 8 2 < (u.fnVecs f).2 → (u.fnVecs f).2 ≤ 2048 → bit (u.rd (.intQcfg q)) 63 = false →
      Completes (.omiQueueCreate src rq env) s fun t => ok t 0x13 [] fun v => bit (v.rd (.intQcfg q)) 63 = true ∧
        v.rf (.intQcfg q) 62 62 = P 3 1 ∧ v.rf (.intQcfg q) 61 59 = P 4 1 ∧ v.rf (.intQcfg q) 55 52 = P 5 1 % 16 ∧
        v.rf (.intQcfg q) 51 48 = P 6 1 % 16 ∧ v.rf (.intQcfg q) 10 0 = P 8 2 ∧ bit (v.rd (.keyQbind q)) 63 = true ∧
        v.rf (.keyQbind q) 55 48 = f ∧ v.rf (.keyQbind q) 9 0 = u.rf (.keyFnbind f) 9 0 ∧
        v.rd (.intSqbase q) = BitVec.ofNat 64 (P 16 8) ∧ v.rd (.intCqbase q) = BitVec.ofNat 64 (P 24 8) ∧
        v.rd (.intCqtail q) = BitVec.ofNat 64 (P 32 8) ∧ (v.queue q).acc = [] ∧ (v.queue q).held = !u.fnMaster f) ∧
    (taken 0x14 8 [(2, 6)] [obQueue q] → q ≤ 4095 → bit (u.rd (.intQcfg q)) 63 = true → u.queueBusy q = false →
      Completes (.omiQueueDelete src rq env) s fun t => ok t 0x14 [] fun v => bit (v.rd (.intQcfg q)) 63 = false ∧
        bit (v.rd (.keyQbind q)) 63 = false ∧ v.queue q = Queue.cold) ∧
    (let w := BitVec.ofNat 64 (P 8 8); taken 0x15 16 [(2, 6)] [obPart (fld w 9 0)] → P 0 2 ≤ 4095 → fld w 59 48 = 0 → fld w 35 34 = 0 → fld w 15 10 = 0 → env.ack = true →
      Completes (.omiGrantSet src rq env) s fun t => ok t 0x15 [] fun v => v.rd (.keyGrant (P 0 2)) = w ∧
        ∀ r, r ≠ .keyGrant (P 0 2) → v.rd r = u.rd r) ∧
    (let as_ := (List.range ((rq.data env).length / 8)).map fun i => bytesAt (rq.data env) (8 * i) 8
     taken 0x16 8 [(2, 6)] [obPart p] → p ≤ 1023 → rq.dlen % 8 = 0 → u.partActive p = true →
      bit (u.rd (.keyPtctl p)) 62 = true → env.dmaOk = true → as_.all (fun a => a % 4096 == 0 && u.physOk a) = true →
      env.ack = true → u.hasPartner = true →
      Completes (.omiTablesShip src rq env) s fun t => ok t 0x16 [] fun v =>
        v.fab.out = u.fab.out ++ [⟨u.partnerId, false, false, .tables ⟨p, u.rd (.keyPtctl p), u.rd (.keyPtroot p), u.grantsOf p,
          as_.map fun a => (a / 4096, (u.frameKey a).1 + 256 * b2n (u.frameKey a).2),
          as_.map fun a => u.frameImage (a / 4096)⟩, false⟩]) ∧
    (let d := P 2 2; let a := P 8 8; taken 0x17 16 [(1, 1), (6, 2)] [obPart d] → P 0 1 ≤ 63 → d ≤ 1023 → P 5 1 ≤ 1 → a % 4096 = 0 → u.physOk a = true →
      u.partActive d = true → Completes (.omiTcmCodeLoad src rq env) s fun t => ok t 0x17 [] fun v => ∃ x ∈ v.mp.code,
        x.1 = P 0 1 ∧ bit x.2.1 63 = true ∧ bit x.2.1 62 = true ∧ fld x.2.1 57 48 = d ∧ fld x.2.1 47 40 = P 4 1 ∧
        x.2.2.1 = ((List.range 512).map fun i => u.memWord (a + 8 * i)) ∧ x.2.2.2 = u.tick + 1) ∧
    (∀ pm pp, let m := P 0 8; let un := P 8 8; let d := u.layout.d; taken 0x18 16 [] [obLayout] → m % 4096 = 0 → un % 4096 = 0 → m + un ≤ d →
      (u.hasPartner = true → m = pp ∧ d - m - un = pm) →
      u.regs.all (fun r => match r.1 with | .keyPtctl p => p == 0 || !bit r.2 63 | _ => true) = true →
      Completes (.omiMemoryLayoutSet src rq env pm pp) s fun t => ok t 0x18 (toBytes 8 d ++ toBytes 8 (d - m - un)) fun v =>
        v = { u with layout := ⟨u.layout.cap, m, un, d - m - un⟩ }) ∧
    (∀ c k, taken 0x19 48 [(1, 7)] [] → u.mp.creds.find? (fun c => c.kind == 5) = some c →
      Config.unwrapKey c.key (P 8 40) = some k →
      (∀ e, u.vault.prevKey = some e → (u.vault.own ++ u.vault.ptn).all (fun r => r.keyep != e.1) = true) →
      (u.hasPartner = true → env.ack = true) → Completes (.omiJournalKeySet src rq env) s fun t => ok t 0x19 [] fun v =>
        v.vault = { u.vault with key := some (P 0 1, k), prevKey := u.vault.key }) ∧
    (let r := P 2 2; taken 0x1A 8 [(4, 4)] [obQueue r] → P 0 2 ≤ 4095 → r ≤ 4095 → bit (u.rd (.intQcfg r)) 63 = true →
      Completes (.omiTakeoverQueueSet src rq env) s fun t => ok t 0x1A [] fun v =>
        v = { u with takeQ := v.takeQ, queues := v.queues } ∧ (u.fab.custody = false → v.queues = u.queues) ∧ v.takeQ.find? (·.1 == P 0 2) = some (P 0 2, r)) ∧
    (taken 0x1B 8 [(2, 6)] [] → Completes (.omiAdmitSet src rq env) s fun t => ok t 0x1B [] fun v =>
      v.rf .tsqAdmit 15 0 = P 0 2 ∧ v.rf .tsqAdmit 17 16 = u.rf .tsqAdmit 17 16 ∧ ∀ r, r ≠ .tsqAdmit → v.rd r = u.rd r)

/-- R225, R306, R355, R385, R387, R388, R405, R406, R414, R424, R425, R431, R436, R456, R461, R464, R465, R471: the commands
on units, clusters, images, credentials, Fawn mode, roles, the partner and the fabric. Split, rejoin, cluster mode, microcode
and the return of custody stay BUSY until their event; the others have their effect and answer OK. -/
def Obligations.SystemCommands : Prop :=
  ∀ (s u : State) (src : OmiSrc) (rq : OmiReq) (env : OmiEnv),
    let P := rq.p
    let l := Loc.of (P 0 4)
    let c := l.clusterDw
    let sl := l.slot
    let taken (cmd plen : Nat) := Taken s u src rq cmd [.owner] false plen
    let anytime (cmd plen : Nat) := Taken s u src rq cmd [.owner] true plen
    let fabric (cmd plen : Nat) := Taken s u src rq cmd [.fabric] false plen
    let ok (t : State) (cmd : Nat) (keeps : Bool) (f : State → Prop) := ∃ v, Answers t v src rq cmd keeps [] ∧ f v
    let busy (t : State) (cmd obj : Nat) (f : State → Prop) := ∃ v, StaysBusy t v src rq cmd obj ∧ f v
    let here (d : Nat) := u.locValid (P 0 4) = true ∧ l.dev = u.devId ∧ l.depth = d
    (taken 0x20 16 [(5, 3)] [obSlot c sl, obCluster c] → here 5 →
      (P 4 1 = 1 → u.slotState c sl = slACTIVE → u.cluMode c = 0 → bit (u.rd (.cluSlot c sl)) 27 = false →
        Completes (.omiUnitSplit src rq env) s fun t => busy t 0x20 (obSlot c sl) fun v =>
          (v.slotX c sl).splitAt = some (P 8 8) ∧ v.regs = u.regs) ∧
      (P 4 1 = 0 → u.slotState c sl = slSPLIT ∨ u.slotState c sl = slHELD →
        (u.slotCores c sl).all (fun e => u.coreState e != csRETIRED) = true →
        Completes (.omiUnitRejoin src rq env) s fun t => busy t 0x20 (obSlot c sl) fun v =>
          (v.slotX c sl).rejoinAt = some (P 8 8) ∧ v.regs = u.regs)) ∧
    (taken 0x21 8 [(5, 3)] (obCluster c :: (List.range 5).map (obSlot c)) → here 4 → P 4 1 ≤ 1 →
      (List.range 5).all (fun i => u.slotState c i != slSPLIT) = true →
      Completes (.omiClusterModeSet src rq env) s fun t => busy t 0x21 (obCluster c) fun v =>
        v.rf (.cluMode c) 1 1 = P 4 1 ∧ v.cluMode c = u.cluMode c ∧ (c, u.tick + 1) ∈ v.cluDrain) ∧
    (let bs := rq.data env
     let ws := imgWords bs
     let base := (freeBase u.mp.ucode ws.length).getD 0
     let key := (u.mp.creds.find? fun k => k.kind == 2 && k.index == bytesAt bs 0xC 4).map (·.key)
     taken 0x22 8 [] [obStores] → env.dmaOk = true →
      imgReason key bs u.mp.ucode u.mp.image.isSome (decide (P 0 8 < u.tick + 16)) = none →
      Completes (.omiMicrocodeLoad src rq env) s fun t => busy t 0x22 obStores fun v => v.mp.image = some (P 0 8, bs) ∧
        ∀ e < 256, u.clusterOn (e / 8) = true → u.coreState e ≠ csRETIRED → v.core e = (u.core e).storeImage base ws (imgEntries bs)) ∧
    (∀ img : FwImg, taken 0x23 0 [] [] → env.dmaOk = true → img.valid = true → u.mp.antiRollback ≤ img.version →
      img.minver ≤ img.version → Completes (.omiFirmwareUpdate src rq env img) s fun t => ok t 0x23 true fun v =>
        v.mp = { u.mp with fw := u.mp.fw.set (1 - u.mp.running) img }) ∧
    (∀ r : Cred, let bs := rq.data env; let n := bs.length - 96; taken 0x24 8 [(2, 6)] [] → P 0 1 ≤ 5 → (P 0 1 = 3 ∨ P 0 1 = 4 → P 1 1 ≤ 3) → env.dmaOk = true →
      u.mp.creds.find? (fun k => k.kind == 0) = some r → 96 < bs.length →
      Config.ecdsaVerify r.key (ofBytes (bs.take n)) (ofBytes (bs.drop n)) = true →
      Completes (.omiCredentialEnroll src rq env) s fun t => ok t 0x24 true fun v =>
        (⟨P 0 1, P 1 1, ofBytes (bs.take n)⟩ : Cred) ∈ v.mp.creds ∧
        ∀ k ∈ v.mp.creds, k.kind = P 0 1 → k.index = P 1 1 → k.key = ofBytes (bs.take n)) ∧
    (anytime 0x25 8 [(6, 2)] (s.obLoc (P 0 4)) → u.locValid (P 0 4) = true → u.mp.ledger.any (fun d => d.loc == P 0 4 && d.sig == P 4 2) = true →
      Completes (.omiDegradationClear src rq env true) s fun t => ok t 0x25 true fun v =>
        v.mp.ledger = u.mp.ledger.filter fun d => !(d.loc == P 0 4 && d.sig == P 4 2)) ∧
    (anytime 0x26 0 [] [] → u.fawn = true → u.causes = 0 → u.fab.handAck = false → u.rf .fabLease 63 61 ≠ 5 →
      Completes (.omiFawnExit src rq env) s fun t => ok t 0x26 false fun v => v.fawn = false ∧ v.sched.isOpen = false ∧
        v.sched.opening = (u.sched.isOpen || u.sched.opening)) ∧
    (let m := P 0 1; taken 0x27 8 [(2, 6)] [obFn (P 1 1)] → 1 ≤ m → m ≤ 31 → u.rf (.mbxStatus m) 1 0 ≠ 1 →
      Completes (.omiMailboxAssign src rq env) s fun t => ok t 0x27 false fun v => v.rf (.mbxOwner m) 7 0 = P 1 1 ∧
        v.rf (.mbxStatus m) 63 32 = 0 ∧ v.rf (.mbxStatus m) 1 0 = 0 ∧ v.mbx m = Mbx.cold) ∧
    (taken 0x28 8 [(2, 6)] [] → Completes (.omiRoleSet src rq env) s fun t => ok t 0x28 true fun v =>
      v.rf .fabRole 31 24 = P 0 1 ∧ v.rf .fabRole 23 16 = P 1 1 ∧ v.mp.prio = (P 0 1, P 1 1)) ∧
    (fabric 0x30 8 [(5, 3)] [obPartner] → P 0 2 ≤ 4095 → P 2 2 ≤ 4095 → P 0 2 ≠ u.devId → P 2 2 ≠ u.devId → P 0 2 ≠ P 2 2 →
      P 4 1 ≤ 7 → Completes (.omiPartnerSet src rq env) s fun t => ok t 0x30 false fun v => v.hasPartner = true ∧
        v.partnerId = P 0 2 ∧ v.witnessId = P 2 2 ∧ v.rf .fabPartner 2 0 = P 4 1 ∧ v.rf .fabLease 63 61 = 1) ∧
    (Taken s u src rq 0x31 [.owner, .fabric] true 8 [] [obPartner] → u.fab.custody = true ∨ u.fab.handAck = true →
      Completes (.omiPartnerRestore src rq env) s fun t => busy t 0x31 obPartner fun v =>
        v.fab = { u.fab with asked := false, restoreAt := some (P 0 8) }) ∧
    (∀ image : List FrameImg, taken 0x32 8 [] [] → u.sched.waitLoad = true → (u.rd .vltRtick).toNat ≤ P 0 8 →
      env.dmaOk = true → Completes (.omiLedgerLoad src rq env image) s fun t => ok t 0x32 false fun v =>
        v.sched.waitLoad = false ∧ v.rf .vltStatus 61 60 = 0 ∧ v.rf .tsqSealed 47 0 = max (P 0 8) u.lastCommit % 2 ^ 48) ∧
    (∀ x : Nat × Nat, fabric 0x33 8 [] [] → u.fab.ids.find? (fun i => i.1 == P 0 8) = some x →
      ¬(u.hasPartner = true ∧ u.partnerId = x.2) → Completes (.omiDeviceIdRelease src rq env false) s fun t =>
        ok t 0x33 true fun v => v.fab = { u.fab with
          ids := u.fab.ids.filter fun i => i.1 != x.1,
          out := u.fab.out ++ u.candidates.map fun d => ⟨d, false, false, .manage (.unbind x.1), false⟩ }) ∧
    (fabric 0x34 16 [(1, 7)] [] → 4 ≤ P 0 1 → P 0 1 ≤ 64 → P 8 8 < 2 ^ 48 → u.tick + 16 ≤ P 8 8 →
      Completes (.omiTickPeriodSet src rq env) s fun t => ok t 0x34 false fun v => v.rf .tsqPeriod 55 48 = P 0 1 ∧
        v.rf .tsqPeriod 47 0 = P 8 8 ∧ v.period = u.period)

/-- R7 to R9, R389, R467, R469 to R482, R488, R490: the debug domain and the registers. A signature of an enrolled credential
opens a session and each GO draws a fresh nonce; three failures lock; sessions end and locks expire; LAB halts, releases and
steps clusters and raises DEBUG_REQUEST; the memory access master reads and writes; the TAP selects its instruction and reaches
the authentication registers without a session; reads of the buffer free it in stop mode; a register write follows the access
codes of its fields, and a read clears the RC fields. Without a LAB session its commands change no register, and without
any session neither does the memory access master; in OBSERVE the master takes the address of a write and no more. -/
def Obligations.DebugDomain : Prop :=
  ∀ s : State,
    let st (t : State) (i : Nat) := bit (t.rd .dbgStatus) i
    let fails (t : State) := t.rf .dbgStatus 1 0
    let fresh (t : State) := ∀ i : Fin 6, t.rd (.dbgNonce i) = BitVec.ofNat 64 (Config.nonce s.free / 2 ^ (64 * (5 - i.val)))
    let same (t : State) := { t with fmu := s.fmu, async := s.async, regs := s.regs } = s
    let denied (t : State) := same t ∧ ∀ r, t.rd r = s.rd r
    let closed (t : State) := t.session = 0 ∧ st t 4 = false ∧ fresh t ∧ t.cores = s.cores ∧ t.mem = s.mem
    let lab := s.session = 2
    (∀ (level : Fin 4) (index : Fin 64) (bar4 : Bool),
      st s 6 = true → Completes (.dbgAuthcmdGo level index bar4) s fun t => t = s) ∧
    (∀ (level : Fin 4) (index : Fin 64) (bar4 : Bool),
      let ok := (level.val = 1 ∨ level.val = 2) ∧ index.val < 4 ∧ ∃ c ∈ s.dbg.creds.getD [], c.index = index.val ∧
        (c.kind = 4 ∨ (c.kind = 3 ∧ level.val = 1)) ∧
        Config.ecdsaVerify c.key (s.challenge level index (b2n bar4)) s.sigNumber = true
      st s 6 = false → s.dbg.powered = true →
      (ok → Completes (.dbgAuthcmdGo level index bar4) s fun t => t.session = level ∧ st t 4 = bar4 ∧ st t 5 = false ∧
        fails t = 0 ∧ fresh t ∧ t.cores = s.cores ∧ t.mem = s.mem) ∧
      (¬ok → Completes (.dbgAuthcmdGo level index bar4) s fun t => t.session = s.session ∧ st t 5 = true ∧
        fails t = min 3 (fails s + 1) ∧ (st t 6 = true ↔ fails t = 3) ∧ fresh t)) ∧
    (s.session ≠ 0 → Completes .dbgAuthcmdClose s closed ∧ Completes .dbgSessionTimeout s closed) ∧
    (Completes .dbgLockExpiry s fun t => st t 6 = false ∧ fails t = fails s ∧ ∀ r, r ≠ .dbgStatus → t.rd r = s.rd r) ∧
    (¬lab → (∀ c, Completes (.dbgHaltSet c) s denied ∧ Completes (.dbgHaltRelease c) s denied) ∧
      (∀ e b, Completes (.dbgStepGo e b) s denied) ∧ (∀ l k, Completes (.dbgReqWrite l k) s denied) ∧
      ∀ p v g, (s.session = 0 → Completes (.dbgMaRead p) s denied ∧ Completes (.dbgMaWrite p v g) s denied) ∧
        (s.session ≠ 0 → Completes (.dbgMaWrite p v g) s fun t => same t ∧ t.rf .dbgMaaddr 51 3 = p.toNat ∧
          ∀ r, r ≠ .dbgMaaddr → t.rd r = s.rd r)) ∧
    (lab → ∀ c : Fin 32,
      (s.clusterOn c = true → s.offline c = false → s.halted c = false → Completes (.dbgHaltSet c) s fun t =>
        t.halted c = true ∧ bit (t.rd .dbgHalt) c = true ∧ (∀ d, d < 32 → d ≠ c.val → t.halted d = s.halted d) ∧
        (∀ sl ∈ s.usedSlots c, t.slotState c sl = slHELD) ∧ t.mem = s.mem) ∧
      (s.halted c = true → Completes (.dbgHaltRelease c) s fun t => t.halted c = false ∧ bit (t.rd .dbgHalt) c = false ∧
        (∀ d, d < 32 → d ≠ c.val → t.halted d = s.halted d) ∧ t.cores = s.cores ∧ t.mem = s.mem)) ∧
    (lab → ∀ (e : Fin 256) (int : Bool), s.halted (e / 8) = true →
      (s.clusterOn (e / 8) = true → s.coreState e ≠ csRETIRED → s.coreState e ≠ csSPARE → (s.core e).act ≠ .disp →
        Completes (.dbgStepGo e int) s fun t => t.dbg = { s.dbg with step := some (e.val, int) } ∧ t.cores = s.cores) ∧
      (s.coreState e = csRETIRED ∨ s.coreState e = csSPARE → Completes (.dbgStepGo e int) s fun t => t.dbg = s.dbg ∧
        t.cores = s.cores ∧ bit (t.rd .dbgStep) 11 = true)) ∧
    (lab → ∀ (loc : BitVec 32) (code : BitVec 8),
      let e := (Loc.of loc.toNat).coreDw
      bit (s.rd .dbgReq) 63 = false → (Loc.of loc.toNat).depth = 6 → s.locValid loc.toNat = true →
      (Loc.of loc.toNat).dev = s.devId → s.coreState e ≠ csRETIRED → s.coreState e ≠ csSPARE → (s.core e).c6 = false →
      Completes (.dbgReqWrite loc code) s fun t => t.dbg = { s.dbg with req := some e } ∧ bit (t.rd .dbgReq) 63 = true ∧
        ∀ i ∈ s.unitCores e, bit (sget Async.cold t.async i).pend 5 = true ∧
          sget 0 (sget Async.cold t.async i).detail 5 = code.toNat) ∧
    (∀ word : BitVec 49, let pa := word.toNat * 8
      (s.session ≠ 0 → s.area pa = .own ∨ s.area pa = .unmirrored ∨ s.area pa = .replica → Completes (.dbgMaRead word) s fun t =>
        t.rd .dbgMadata = (s.committed pa).val ∧ t.rf .dbgMactl 3 0 = (s.committed pa).tag.toNat ∧
        bit (t.rd .dbgMactl) 61 = true ∧ bit (t.rd .dbgMactl) 60 = false ∧ t.mem = s.mem ∧ t.tags = s.tags ∧ t.cores = s.cores) ∧
      (s.session ≠ 0 → s.area pa = .nowhere → Completes (.dbgMaRead word) s fun t => bit (t.rd .dbgMactl) 61 = false ∧
        bit (t.rd .dbgMactl) 60 = true ∧ t.mem = s.mem) ∧
      (∀ (v : BitVec 64) (tag : BitVec 4), lab → (s.area pa = .own ∧ s.pcBit pa = false) ∨ s.area pa = .unmirrored →
        Completes (.dbgMaWrite word v tag) s fun t => (∀ a, Memory.read t.mem a =
          if pa ≤ a ∧ a < pa + 8 then (toBytes 8 v.toNat).getD (a - pa) 0 else Memory.read s.mem a) ∧
        sget tRAW t.tags (pa / 8) = tag ∧ bit (t.rd .dbgMactl) 61 = true ∧ t.cores = s.cores)) ∧
    (∀ code : BitVec 8, s.dbg.powered = true → Completes (.tapUpdateIr code) s fun t => t = { s with dbg := t.dbg } ∧
      t.dbg = { s.dbg with ir := if code = 1 ∨ code = 2 ∨ code = 0x10 then code.toNat
        else if (code = 0 ∨ code = 3 ∨ code = 4) ∧ s.extestOk = true then code.toNat else 0xFF } ∧
      (code = 1 → t.captureDr = some (if s.fuses.big = true then 0x0960056B else 0x0940056B))) ∧
    (∀ (off : BitVec 24) (v : BitVec 64), s.dbg.powered = true → s.dbg.ir = 0x10 →
      (off.toNat % 8 ≠ 0 → ∀ wr, Completes (.dbgacc true wr off v) s fun t =>
        t = { s with dbg := { s.dbg with done := true, err := true, data := 0 } }) ∧
      (∀ r, CtlAddr.ofOffset mDBG (0x700000 + off.toNat) = .reg r → off.toNat % 8 = 0 → off.toNat < 0x100000 →
        (authReg r = true ∨ s.session ≠ 0 → Completes (.dbgacc true false off v) s fun t =>
          t.dbg = { s.dbg with done := true, err := false, data := readMask r.fields (s.regView r) }) ∧
        (authReg r = false → s.session = 0 → ∀ wr, Completes (.dbgacc true wr off v) s fun t =>
          t = { s with dbg := { s.dbg with done := true, err := true, data := 0 } })) ∧
      (∀ i : Fin 12, off.toNat + 0x700000 = Reg.offset (.dbgSig i) → Completes (.dbgacc true true off v) s fun t =>
        t.rd (.dbgSig i) = v ∧ t.dbg.done = true ∧ t.dbg.err = false ∧ ∀ r, r ≠ .dbgSig i → t.rd r = s.rd r)) ∧
    (∀ off : BitVec 20, s.session ≠ 0 → off.toNat * 8 % 2 ^ 23 = s.rf .trcRdptr 22 0 → bit (s.rd .trcCtl) 32 = true →
      let n := min 8 s.trc.unread
      Completes (.traceBufferRead off) s fun t => t.trc = { s.trc with unread := s.trc.unread - n } ∧
        t.rf .trcRdptr 22 0 = (s.rf .trcRdptr 22 0 + n) % 2 ^ 23 ∧ bit (t.rd .trcStatus) 23 = false) ∧
    (Completes .debugDomainReset s fun t => t.session = 0 ∧ t.dbg = { Dbg.cold with powered := true } ∧ t.trc = Trc.cold ∧
      (∀ c < 32, t.halted c = false) ∧ t.mem = s.mem ∧ t.cores = s.cores) ∧
    (Completes .vddDbgLoss s fun t => t.session = 0 ∧ t.dbg = Dbg.cold ∧ t.trc = Trc.cold ∧ (∀ c < 32, t.halted c = false) ∧
      t.mem = s.mem ∧ t.cores = s.cores) ∧
    (∀ (off : BitVec 48) (v : BitVec 64) (r : Reg),
      CtlAddr.ofOffset mMP off.toNat = .reg r → off.toNat % 8 = 0 → off.toNat < 0x1000000 →
      ((match r with
        | .tsqPeriod | .keyFkset | .cluSignal _ _ | .rstPart | .rstCtl | .devId | .npuStatus _ | .fmuLoss | .fabPctl _ => False
        | .mbxOwner m => m ≠ 0
        | .dbgAuthcmd => bit v 11 = false
        | .intQcfg q => ∀ x ∈ s.runs, x.queue = q → x.adopted = none → x.st = .journaled
        | _ => True) → Completes (.registerWrite .mp off v) s fun t => (∀ f ∈ r.fields, fld (t.rd r) f.hi f.lo =
          match f.acc with
          | .rw | .mpo => Reg.clamp r f.lo (fld v f.hi f.lo)
          | .w1c => fld (s.rd r) f.hi f.lo &&& (2 ^ (f.hi + 1 - f.lo) - 1 - fld v f.hi f.lo)
          | .w1s => fld (s.rd r) f.hi f.lo ||| fld v f.hi f.lo
          | _ => fld (s.rd r) f.hi f.lo) ∧ (∀ q, q ≠ r → t.rd q = s.rd q) ∧ t.cores = s.cores ∧ t.mem = s.mem) ∧
      (r = .mbxOwner 0 → Completes (.registerWrite .mp off v) s fun t => t = s) ∧
      (∀ q, r = .intQcfg q → (∃ x ∈ s.runs, x.queue = q ∧ x.adopted = none ∧ x.st ≠ .journaled) →
        Completes (.registerWrite .mp off v) s fun t => t.rf r 61 59 = s.rf r 61 59) ∧
      (∀ p : Fin 8, r = .fabPctl p → Completes (.registerWrite .mp off v) s fun t =>
        bit (t.rd r) 4 = bit v 4 ∧ t.rf (.fabPstatus p) 2 0 =
          if bit v 4 then (if s.rf (.fabPstatus p) 2 0 = 0 then 1 else s.rf (.fabPstatus p) 2 0) else 0) ∧
      (r ≠ .fmuLoss → Completes (.registerReadClear .mp off) s fun t => (∀ f ∈ r.fields, fld (t.rd r) f.hi f.lo =
        if f.acc = .rc then 0 else fld (s.rd r) f.hi f.lo) ∧ ∀ q, q ≠ r → t.rd q = s.rd q))

/-- R327, R352, R353, R493, R494, R497 to R502, R505, R511, R512, R527, R529: power, the hold-up store, clocks and temperature.
The power-fail sequence starts once, freezes the vault, starts the dump and holds every cluster in reset; the dump completes
into the other slot pair; a capacitance test gives the capacitance and ESR, and the energy estimate decides INT_STATUS.ENERGY;
regulators are read; a lost PLL lock is a MACHINE_CHECK on every unit and lone core of the cluster; the hottest sensor sets the thermal step and the Fawn condition. -/
def Obligations.PowerClocksAndTemperature : Prop :=
  ∀ s : State,
    let started (u t : State) := t.pfail = true ∧ t.rf .hupStatus 1 1 = 1 ∧ t.rf .hupStatus 2 2 = 0 ∧ t.rf .hupStatus 3 3 = 0 ∧
      t.vault = { s.vault with dumping := if s.vault.slotsLeft = 0 then none else some u.dumpImg } ∧ t.pwr = { u.pwr with v0 := none } ∧
      t.rf .vltStatus 61 60 = (if s.vault.slotsLeft = 0 then 1 else 2) ∧
      t.cluInReset = (List.range 32).filter s.clusterOn ∧ t.rf .tsqStatus 2 0 = 4 ∧ t.rf .hifLink 15 12 = 0 ∧
      (∀ p : Fin 8, t.rf (.fabPstatus p) 2 0 = 0) ∧ t.cores = s.cores ∧ t.mem = s.mem
    let vmin := s.rf .hupCfg 11 0 * 1000 + s.rf .hupCfg 39 32 * s.rf .hupMeas 31 16
    (s.pfail = false →
      Completes .pwrFail s (started s) ∧ Completes .vaultUndervoltage s (started s) ∧
      (∀ i, Completes (.railFault i) s fun t => started s t ∧ t.rf (.pwrRail i) 0 0 = 1) ∧
      (Completes .timerefLost s fun t => started s t ∧ t.rf .clkCtl 3 3 = 0) ∧
      (Completes .thermTrip s fun t => started { s with pwr := { s.pwr with thermTrip := true } } t)) ∧
    (s.pfail = true → (Completes .pwrFail s fun t => t = s) ∧ (Completes .vaultUndervoltage s fun t => t = s)) ∧
    (s.pfail = false → Completes .dumpComplete s fun t => t = s) ∧
    (∀ im, s.pfail = true → s.pwr.dumped = false → s.vault.dumping = some im → 2 ≤ s.vault.slotsLeft →
      Completes .dumpComplete s fun t => t.vault = { s.vault with
          slots := s.vault.newest.toList ++ [im], dumping := none } ∧
        t.pwr = { s.pwr with dumped := true } ∧ t.resets = { s.resets with cold := some 4, warm := none, parts := [] } ∧
        t.rf .vltStatus 61 60 = 3) ∧
    (s.pfail = true → s.pwr.dumped = true → 25 * s.pwr.volt ≤ vmin → Completes .vaultDomainPowerOff s fun t =>
      t.pwr = { s.pwr with vaultOn := false } ∧ t.vault.own = [] ∧ t.vault.ptn = [] ∧ t.vault.slots = s.vault.slots) ∧
    (∀ v0 : BitVec 16,
      let due := s.pwr.tested = false ∨ s.rf .hupMeas 1 0 = 1 ∨ s.rf .hupMeas 1 0 = 2 ∨
        ∃ d, s.pwr.test = some d ∧ 1400 * 5000000 * d ≤ (25 * s.pwr.volt) ^ 2 - vmin ^ 2
      (s.pfail = false → s.pwr.v0 = none → s.rf .hupCfg 23 12 * 40 ≤ v0.toNat → due → Completes (.capacitanceTest v0) s fun t =>
        t.pwr = { s.pwr with v0 := some v0.toNat, volt := v0.toNat } ∧ t.rf .hupStatus 3 3 = 1 ∧ t.rf .hupStatus 2 2 = 0) ∧
      (s.pfail = true ∨ v0.toNat < s.rf .hupCfg 23 12 * 40 ∨ ¬due → Completes (.capacitanceTest v0) s fun t => t = s)) ∧
    (∀ (v0 : Nat) (v1 v2 : BitVec 16),
      let d := v1.toNat - v2.toNat
      let e := v0 - v1.toNat
      let ended (t : State) := t.pwr.v0 = none ∧ t.rf .hupStatus 3 3 = 0 ∧ t.rf .hupStatus 2 2 = 1
      s.pwr.v0 = some v0 →
      (20 ≤ d → d ≤ 400 → e ≤ 200 → v1.toNat ≤ v0 → Completes (.capacitanceTestComplete v1 v2) s fun t => ended t ∧
        t.pwr.test = some d ∧ t.pwr.tested = true ∧ t.pwr.testAt = s.now ∧ t.rf .hupMeas 63 32 = (4000000 + d / 2) / d ∧
        t.rf .hupMeas 31 16 = 50 * e ∧ t.rf .hupMeas 1 0 = 0) ∧
      (d < 20 ∨ 400 < d ∨ 200 < e → Completes (.capacitanceTestComplete v1 v2) s fun t => ended t ∧
        t.rf .hupMeas 1 0 = s.rf .hupMeas 1 0 % 3 + 1 ∧
        (s.rf .hupMeas 1 0 = 2 → t.rf .hupMeas 63 32 = 0 ∧ t.pwr.test = none))) ∧
    (∀ v : BitVec 16,
      let span := (25 * v.toNat) ^ 2 - vmin ^ 2
      (∀ d, s.pwr.test = some d → Completes (.energyEstimate v) s fun t => t.rf .hupStatus 31 16 = v.toNat / 4 ∧
        t.rf .hupEst 15 0 = min 65535 ((span + 2500000 * d) / (5000000 * d)) ∧
        t.rf .intStatus 2 2 = b2n (decide (span < 6000000000 * d)) ∧ t.cores = s.cores ∧ t.mem = s.mem) ∧
      (s.pwr.test = none → Completes (.energyEstimate v) s fun t => t.rf .hupEst 15 0 = 0 ∧ t.rf .intStatus 2 2 = 1)) ∧
    (∀ stat : List Nat, Completes (.vrAlert stat) s fun t => ∀ i < 8, i < stat.length →
      t.rf (.pwrRail i) 31 16 = stat.getD i 0 % 65536 ∧ t.rf (.pwrRail i) 63 32 = s.rf (.pwrRail i) 63 32) ∧
    (∀ rs : List RailRead, Completes (.pmbusPoll rs) s fun t => ∀ i < 8, ∀ x, rs[i]? = some x →
      t.rf (.pwrRail i) 63 48 = x.vmv % 65536 ∧ t.rf (.pwrRail i) 47 32 = x.ida % 65536 ∧
      t.rf (.pwrRail i) 31 16 = x.stat % 65536 ∧ t.rf (.pwrRail i) 15 8 = x.tc % 256) ∧
    (Completes (.smbusClockLowTimeout true) s fun t => t = { s with pwr := { s.pwr with pmbRetry := !s.pwr.pmbRetry } }) ∧
    (Completes (.smbusClockLowTimeout false) s fun t => t = s) ∧
    (Completes .zqRecalibration s fun t => t = { s with pwr := { s.pwr with zqAt := s.now } }) ∧
    (∀ (c : Fin 32) (e : Nat), s.clusterOn c = true → e / 8 = c.val → s.unitOf e = none →
      (∀ k, k / 8 = c.val → (s.checkable k = true ↔ k = e)) →
      Completes (.pllLockLoss c) s fun t =>
        let u := s.wf (.clkCtl) (32 + c) (32 + c) 0
        let a := u.alarm sgMACHINE_CHECK (u.locOfExec e) (detExc (0x0501 * 65536 + restartBit 0x0501) vMACHINE_CHECK)
        t = a.takeExc e { s.core e with act := .run }
          ⟨vMACHINE_CHECK, 0x0501 * 65536 + restartBit 0x0501, none, false, false, false⟩ (s.core e).pc) ∧
    (∀ c : Fin 32,
      let head (e : Nat) := e / 8 = c.val ∧ s.checkable e = true ∧ ∀ sl, s.unitOf e = some sl → (s.slotCores c sl).head? = some e
      s.clusterOn c = true → (∀ e, head e → (s.core e).lev < 16 ∧ (s.vecEntry (s.core e).vbr 0).2.isSome = true ∧
        ∀ i ∈ s.unitCores e, s.unitOf i = s.unitOf e) →
      Completes (.pllLockLoss c) s fun t => t.rf .clkCtl (32 + c) (32 + c) = 0 ∧ ∀ e, head e → ∀ k ∈ s.unitCores e,
        let d := t.core k
        let i := (d.link 16).linfo
        d.lev = 16 ∧ (d.link 16).lpc = ⟨(s.core e).pc, tCODE⟩ ∧ fld i 63 56 = vMACHINE_CHECK ∧ fld i 50 48 = 5 ∧
        fld i 31 16 = 0x0501 ∧ fld i 0 0 = restartBit 0x0501 ∧
        ∀ ent, (s.vecEntry (s.core e).vbr 0).2 = some ent → d.pc = setFld 0 41 2 (fld ent 41 2)) ∧
    (∀ t0 t1 t2 : List Int,
      let a := dieTemp (t0.take 16)
      let b := dieTemp (t1.take 16)
      let d := dieTemp (t2.take 8)
      let hot := max a (max b d)
      let old := s.rf .tsqAdmit 17 16
      Completes (.temperatureSample t0 t1 t2) s fun t => t.rf .pwrTherm 35 24 = (a % 4096).toNat ∧
        t.rf .pwrTherm 47 36 = (b % 4096).toNat ∧ t.rf .pwrTherm 59 48 = (d % 4096).toNat ∧
        t.rf .pwrSensinv 15 0 = invMask (t0.take 16) ∧ t.rf .pwrSensinv 31 16 = invMask (t1.take 16) ∧
        t.rf .pwrSensinv 39 32 = invMask (t2.take 8) ∧ bit t.fmu.causes 2 = decide (400 ≤ hot) ∧
        (∀ j, 1 ≤ j → j ≤ 3 → let k := t.rf .tsqAdmit 17 16
          (thermBound j ≤ hot → j ≤ k) ∧ (hot ≤ thermBound j - 8 → k < j) ∧
          (hot < thermBound j → old < j → k < j) ∧ (thermBound j - 8 < hot → j ≤ old → j ≤ k)) ∧
        t.cores = s.cores ∧ t.mem = s.mem)

/-- R340, R355, R456, R506 to R510, R514: resets. A cold reset keeps the fuses, the dump slots and the boot flash, clears the
ledger unless the partner hands it over, leaves intake closed, and names its cause; without valid firmware nothing starts. A
warm reset is due after the first stage close since the request, waits for the flip writes, keeps memory, keys, accepted work and
the journal, and no tick runs until it resumes with the tick it is given. A partition reset aborts the partition's runs in the
tick. Intake opens when every condition holds. That the restored ledger of a
cold reset without a running partner is empty memory is DESIGN CHOICE of log 4. -/
def Obligations.Resets : Prop :=
  ∀ s : State,
    (s.mp.fwFail = false →
      (s.mp.fwSince + 1024 ≤ s.tick → Completes .firmwareCounterRaise s fun t => t = { s with mp := { s.mp with
        antiRollback := max s.mp.antiRollback (s.mp.fw.getD s.mp.running ⟨0, 0, false⟩).minver } }) ∧
      (s.tick < s.mp.fwSince + 1024 → Completes .firmwareCounterRaise s fun t => t = s)) ∧
    (∀ env : ColdEnv,
      (env.kind = .request → s.resets.cold = none → Completes (.coldReset env) s fun t => t = s) ∧
      (s.pfail = true → s.pwr.dumped = false → (env.kind = .request → s.resets.cold ≠ none) → Completes (.coldReset env) s fun t =>
        t = { s with resets := { s.resets with cold := some (if env.kind = .pin then 2 else 3), warm := none } }) ∧
      (s.pfail = false ∨ s.pwr.dumped = true → (env.kind = .request → s.resets.cold ≠ none) → Completes (.coldReset env) s fun t =>
        t.fuses = s.fuses ∧ t.vault.slots = s.vault.slots ∧ t.mp.fw = s.mp.fw ∧ t.mp.antiRollback = s.mp.antiRollback ∧
        t.mp.creds = s.mp.creds ∧ t.sched.isOpen = false ∧ t.tick = 0 ∧
        bit (t.rd .rstCause) 2 = decide (env.kind = .pin) ∧ bit (t.rd .rstCause) 4 = s.pfail ∧
        bit (t.rd .rstCause) 5 = s.pwr.thermTrip ∧ bit (t.rd .rstCause) 0 = false ∧ bit (t.rd .rstCause) 1 = false ∧
        (∀ n r m i, env.ptn ≠ .running n r m i → t.mem = []) ∧
        (s.mp.pickFw = none → t.mp.fwFail = true ∧ t.cores = [] ∧ t.runs = []) ∧
        ∀ i, s.mp.pickFw = some i → t.mp.fwFail = false ∧ t.mp.running = i)) ∧
    (s.mp.fwFail = false → s.rf .vltStatus 61 60 = 0 → s.sched.waitLoad = false → s.vault.key ≠ none →
      fld s.intStatusWord 7 1 = 0 → (∀ ch < 12, s.chanState ch ≠ 0 ∧ s.rf (.mcuStatus ch) 31 16 = s.rf (.mcuStatus 0) 31 16) →
      (∀ r ∈ s.runs, s.runReady r = true) →
      Completes .intakeOpen s fun t => t = { s with sched := { s.sched with isOpen := true } }) ∧
    (s.resets.warm = none → s.resets.cold = none → Completes .warmResetRequest s fun t =>
      t = { s with resets := { s.resets with warm := some 0, parts := [], due := false, partsDue := [] } }) ∧
    (s.resets.cold ≠ none → Completes .warmResetRequest s fun t => t = s) ∧
    (∀ (env : BootEnv) (cause : Nat), s.resets.warm = some cause →
      (s.resets.due = false ∨ s.pfail = true ∨ (s.sched.flipped = false ∧ s.vaultOk = true) →
        Completes (.warmReset env) s fun t => t = s) ∧
      (s.resets.due = true → s.sched.warm = false → s.pfail = false → s.sched.flipped = true ∨ s.vaultOk = false →
        Completes (.warmReset env) s fun t =>
        t.sched.warm = true ∧ t.resets = Resets.none ∧ t.rd .rstCause = setBit 0 cause true ∧ t.rf .tsqStatus 2 0 = 0 ∧
        t.mem = s.mem ∧ t.tags = s.tags ∧ t.keys = s.keys ∧ t.vault = s.vault ∧ t.fuses = s.fuses)) ∧
    (∀ tick : BitVec 48, s.sched.warm = true → s.mp.fwFail = false → Completes (.warmResetResume tick) s fun t =>
      t.sched.warm = false ∧ t.tick = tick.toNat) ∧
    (let ps := s.resets.partsDue;
      ps ≠ [] → s.rf .tsqStatus 2 0 = 2 → s.sched.flipped = false → (s.runs.map (·.isn)).Nodup →
      Completes .partitionReset s fun t =>
        t.resets = { s.resets with parts := s.resets.parts.filter fun p => !ps.contains p
                                   partsDue := []
                                   inv := s.resets.inv ++ ps } ∧ t.rf .rstPart 61 61 = 0 ∧
        t.mem = s.mem ∧ t.vault = s.vault ∧ (∀ r ∈ t.runs, r.part ∈ ps → r.pinned = false → r.st.inTick = false))

/-- R6, R57, R61, R78, R175, R177, R230, R232, R242, R255, R261, R328: after reset every field of every control-space register
holds the Cold value of its map, every core is in BOOT on level 0 with its registers at their Cold values, and no work, no
fault and no request exists. Registers whose Cold value depends on the fuses, the copy or the home cores are excepted, and the
program counter and CORE_LPC, of which the spec gives no value (log 3). -/
def Obligations.ResetValues : Prop :=
  let s := State.reset
  (∀ r : Reg, (match r with | .devId | .keyFnbind _ | .tsqExw | .intQcfg _ | .cluSlot _ _ => False | _ => True) →
    ∀ f ∈ r.fields, fld (s.rd r) f.hi f.lo = f.cold) ∧
  (∀ f, bit (s.rd (.keyFnbind f)) 63 = decide (f = 0)) ∧ (∀ q, s.rf (.intQcfg q) 61 59 = q % 8) ∧
  (∀ e, (s.core e).lev = 0 ∧ (s.core e).stateCode = csBOOT ∧ (s.core e).active = 1 ∧ (s.core e).lmask = 0xFFFE ∧
    (s.core e).keyctl = 0xFF02 ∧ (s.core e).vbr = 0 ∧ (s.core e).act = .run ∧ (s.core e).tlb = [] ∧
    ∀ b, ((s.core e).bank b).psw = 0x4000000) ∧
  s.tick = 0 ∧ s.period = 10000 ∧ s.runs = [] ∧ s.fmu.log = [] ∧ s.vault.own = [] ∧ s.sched.isOpen = false ∧ s.pending = []
end

