-- ==== Sys2Proof/Laws/Bits.lean ====
section
/-!
SUPPORT. Laws of the sparse maps: read after write, and that a write keeps the canonical form.
-/
namespace Sys2Proof.Machine

variable {α : Type}

theorem sget_sins (d : α) (m : SMap α) (k k' : Nat) (v : α) :
    sget d (sins m k v) k' = if k' = k then v else sget d m k' := by
  induction m with
  | nil => simp [sins, sget]
  | cons p r ih =>
    obtain ⟨a, b⟩ := p
    unfold sins
    split
    · simp [sget]
    · split
      · subst_vars; simp only [sget]; split <;> simp_all
      · simp only [sget, ih]
        split <;> split <;> simp_all

theorem sget_sdel (d : α) (m : SMap α) (k k' : Nat) :
    sget d (sdel m k) k' = if k' = k then d else sget d m k' := by
  induction m with
  | nil => simp [sdel, sget]
  | cons p r ih =>
    obtain ⟨a, b⟩ := p
    by_cases ha : a = k
    · subst ha
      have h : sdel ((a, b) :: r) a = sdel r a := by simp [sdel]
      rw [h, ih]
      by_cases hk : k' = a <;> simp [sget, hk]
    · have h : sdel ((a, b) :: r) k = (a, b) :: sdel r k := by simp [sdel, ha]
      rw [h]
      simp only [sget, ih]
      split <;> split <;> simp_all

/-- Read after write. -/
@[simp] theorem sget_sset [DecidableEq α] (d : α) (m : SMap α) (k k' : Nat) (v : α) :
    sget d (sset d m k v) k' = if k' = k then v else sget d m k' := by
  unfold sset
  split
  · subst_vars; exact sget_sdel _ m k k'
  · rw [sget_sins, sget_sdel]; split <;> rfl

theorem sdel_sins (m : SMap α) (k : Nat) (v : α) : sdel (sins m k v) k = sdel m k := by
  induction m with
  | nil => simp [sins, sdel]
  | cons p r ih =>
    obtain ⟨a, b⟩ := p
    unfold sins
    split
    · simp [sdel]
    · split
      · subst_vars; simp [sdel]
      · simp only [sdel, List.filter_cons] at ih ⊢
        rw [ih]

theorem sdel_sdel (m : SMap α) (k : Nat) : sdel (sdel m k) k = sdel m k := by
  simp [sdel, List.filter_filter]

/-- The later of two writes to a key stands. -/
@[simp] theorem sset_sset [DecidableEq α] (d : α) (m : SMap α) (k : Nat) (v v' : α) :
    sset d (sset d m k v) k v' = sset d m k v' := by
  have h : sdel (sset d m k v) k = sdel m k := by
    unfold sset
    split
    · exact sdel_sdel m k
    · rw [sdel_sins, sdel_sdel]
  simp only [sset] at h ⊢
  rw [h]

@[simp] theorem sget_nil (d : α) (k : Nat) : sget d [] k = d := rfl

/-- The canonical form, as a property of the entries. -/
theorem smapWf_iff [DecidableEq α] (d : α) (m : SMap α) :
    smapWf d m = true ↔ m.Pairwise (fun p q => p.1 < q.1) ∧ ∀ p ∈ m, p.2 ≠ d := by
  induction m with
  | nil => simp [smapWf]
  | cons p r ih =>
    obtain ⟨a, b⟩ := p
    cases r with
    | nil => simp [smapWf]
    | cons q t =>
      obtain ⟨c, e⟩ := q
      simp only [smapWf, Bool.and_eq_true, decide_eq_true_eq, ih, List.pairwise_cons, List.mem_cons,
        forall_eq_or_imp]
      constructor
      · rintro ⟨⟨hb, hac⟩, ⟨hc, ht⟩, he, hr⟩
        exact ⟨⟨⟨hac, fun x hx => Nat.lt_trans hac (hc x hx)⟩, hc, ht⟩, hb, he, hr⟩
      · rintro ⟨⟨⟨hac, -⟩, hc, ht⟩, hb, he, hr⟩
        exact ⟨⟨hb, hac⟩, ⟨hc, ht⟩, he, hr⟩

theorem sdel_wf [DecidableEq α] (d : α) (m : SMap α) (k : Nat) (h : smapWf d m = true) :
    smapWf d (sdel m k) = true := by
  rw [smapWf_iff] at h ⊢
  exact ⟨h.1.filter _, fun p hp => h.2 p (List.mem_filter.1 hp).1⟩

theorem mem_sins (m : SMap α) (k : Nat) (v : α) (p : Nat × α) (h : p ∈ sins m k v) : p = (k, v) ∨ p ∈ m := by
  induction m with
  | nil => simpa [sins] using h
  | cons q r ih =>
    obtain ⟨a, b⟩ := q
    unfold sins at h
    split at h
    · simpa using h
    · split at h
      · rcases List.mem_cons.1 h with h | h
        · exact .inl h
        · exact .inr (List.mem_cons_of_mem _ h)
      · rcases List.mem_cons.1 h with h | h
        · exact .inr (h ▸ List.mem_cons_self)
        · exact (ih h).imp id (List.mem_cons_of_mem _)

theorem sins_wf [DecidableEq α] (d : α) (m : SMap α) (k : Nat) (v : α) (h : smapWf d m = true) (hv : v ≠ d) :
    smapWf d (sins m k v) = true := by
  rw [smapWf_iff] at h ⊢
  refine ⟨?_, fun p hp => (mem_sins m k v p hp).elim (fun e => e ▸ hv) (h.2 p)⟩
  replace h := h.1
  induction m with
  | nil => simp [sins]
  | cons q r ih =>
    obtain ⟨a, b⟩ := q
    obtain ⟨ha, hr⟩ := List.pairwise_cons.1 h
    unfold sins
    split
    · refine List.pairwise_cons.2 ⟨fun p hp => ?_, h⟩
      rcases List.mem_cons.1 hp with rfl | hp
      · assumption
      · exact Nat.lt_trans ‹k < a› (ha p hp)
    · split
      · subst_vars; exact List.pairwise_cons.2 ⟨ha, hr⟩
      · refine List.pairwise_cons.2 ⟨fun p hp => ?_, ih hr⟩
        rcases mem_sins r k v p hp with rfl | hp
        · show a < k; omega
        · exact ha p hp

/-- A write keeps the canonical form. -/
theorem sset_wf [DecidableEq α] (d : α) (m : SMap α) (k : Nat) (v : α) (h : smapWf d m = true) :
    smapWf d (sset d m k v) = true := by
  unfold sset
  split
  · exact sdel_wf d m k h
  · exact sins_wf d _ k v (sdel_wf d m k h) ‹_›

end Sys2Proof.Machine
end

