-- ==== Sys2Proof/Laws/State.lean ====
section
/-!
SUPPORT. The small laws of State: for each named update and each field, what the field is after the update.
-/
namespace Sys2Proof.Machine

variable (s : State)

/-! wr -/

@[simp] theorem State.wr_fuses (r : Reg) (w : Word) : (s.wr r w).fuses = s.fuses := rfl
@[simp] theorem State.wr_cores (r : Reg) (w : Word) : (s.wr r w).cores = s.cores := rfl
@[simp] theorem State.wr_async (r : Reg) (w : Word) : (s.wr r w).async = s.async := rfl
@[simp] theorem State.wr_regs (r : Reg) (w : Word) : (s.wr r w).regs = regPut r w s.regs := rfl
@[simp] theorem State.wr_mem (r : Reg) (w : Word) : (s.wr r w).mem = s.mem := rfl
@[simp] theorem State.wr_tags (r : Reg) (w : Word) : (s.wr r w).tags = s.tags := rfl
@[simp] theorem State.wr_keys (r : Reg) (w : Word) : (s.wr r w).keys = s.keys := rfl
@[simp] theorem State.wr_postClass (r : Reg) (w : Word) : (s.wr r w).postClass = s.postClass := rfl
@[simp] theorem State.wr_shipWait (r : Reg) (w : Word) : (s.wr r w).shipWait = s.shipWait := rfl
@[simp] theorem State.wr_lines (r : Reg) (w : Word) : (s.wr r w).lines = s.lines := rfl
@[simp] theorem State.wr_fabTlb (r : Reg) (w : Word) : (s.wr r w).fabTlb = s.fabTlb := rfl
@[simp] theorem State.wr_chans (r : Reg) (w : Word) : (s.wr r w).chans = s.chans := rfl
@[simp] theorem State.wr_layout (r : Reg) (w : Word) : (s.wr r w).layout = s.layout := rfl
@[simp] theorem State.wr_npus (r : Reg) (w : Word) : (s.wr r w).npus = s.npus := rfl
@[simp] theorem State.wr_runs (r : Reg) (w : Word) : (s.wr r w).runs = s.runs := rfl
@[simp] theorem State.wr_sched (r : Reg) (w : Word) : (s.wr r w).sched = s.sched := rfl
@[simp] theorem State.wr_queues (r : Reg) (w : Word) : (s.wr r w).queues = s.queues := rfl
@[simp] theorem State.wr_takeQ (r : Reg) (w : Word) : (s.wr r w).takeQ = s.takeQ := rfl
@[simp] theorem State.wr_idem (r : Reg) (w : Word) : (s.wr r w).idem = s.idem := rfl
@[simp] theorem State.wr_idemPtn (r : Reg) (w : Word) : (s.wr r w).idemPtn = s.idemPtn := rfl
@[simp] theorem State.wr_vault (r : Reg) (w : Word) : (s.wr r w).vault = s.vault := rfl
@[simp] theorem State.wr_fab (r : Reg) (w : Word) : (s.wr r w).fab = s.fab := rfl
@[simp] theorem State.wr_hif (r : Reg) (w : Word) : (s.wr r w).hif = s.hif := rfl
@[simp] theorem State.wr_mp (r : Reg) (w : Word) : (s.wr r w).mp = s.mp := rfl
@[simp] theorem State.wr_fmu (r : Reg) (w : Word) : (s.wr r w).fmu = s.fmu := rfl
@[simp] theorem State.wr_repairWait (r : Reg) (w : Word) : (s.wr r w).repairWait = s.repairWait := rfl
@[simp] theorem State.wr_lineDead (r : Reg) (w : Word) : (s.wr r w).lineDead = s.lineDead := rfl
@[simp] theorem State.wr_slots (r : Reg) (w : Word) : (s.wr r w).slots = s.slots := rfl
@[simp] theorem State.wr_cluInReset (r : Reg) (w : Word) : (s.wr r w).cluInReset = s.cluInReset := rfl
@[simp] theorem State.wr_cluDrain (r : Reg) (w : Word) : (s.wr r w).cluDrain = s.cluDrain := rfl
@[simp] theorem State.wr_resets (r : Reg) (w : Word) : (s.wr r w).resets = s.resets := rfl
@[simp] theorem State.wr_dbg (r : Reg) (w : Word) : (s.wr r w).dbg = s.dbg := rfl
@[simp] theorem State.wr_trc (r : Reg) (w : Word) : (s.wr r w).trc = s.trc := rfl
@[simp] theorem State.wr_pwr (r : Reg) (w : Word) : (s.wr r w).pwr = s.pwr := rfl
@[simp] theorem State.wr_free (r : Reg) (w : Word) : (s.wr r w).free = s.free := rfl
@[simp] theorem State.wr_pending (r : Reg) (w : Word) : (s.wr r w).pending = s.pending := rfl

/-! setCore -/

@[simp] theorem State.setCore_fuses (e : Nat) (c : Core) : (s.setCore e c).fuses = s.fuses := rfl
@[simp] theorem State.setCore_cores (e : Nat) (c : Core) : (s.setCore e c).cores = sset Core.cold s.cores e c := rfl
@[simp] theorem State.setCore_async (e : Nat) (c : Core) : (s.setCore e c).async = s.async := rfl
@[simp] theorem State.setCore_regs (e : Nat) (c : Core) : (s.setCore e c).regs = s.regs := rfl
@[simp] theorem State.setCore_mem (e : Nat) (c : Core) : (s.setCore e c).mem = s.mem := rfl
@[simp] theorem State.setCore_tags (e : Nat) (c : Core) : (s.setCore e c).tags = s.tags := rfl
@[simp] theorem State.setCore_keys (e : Nat) (c : Core) : (s.setCore e c).keys = s.keys := rfl
@[simp] theorem State.setCore_postClass (e : Nat) (c : Core) : (s.setCore e c).postClass = s.postClass := rfl
@[simp] theorem State.setCore_shipWait (e : Nat) (c : Core) : (s.setCore e c).shipWait = s.shipWait := rfl
@[simp] theorem State.setCore_lines (e : Nat) (c : Core) : (s.setCore e c).lines = s.lines := rfl
@[simp] theorem State.setCore_fabTlb (e : Nat) (c : Core) : (s.setCore e c).fabTlb = s.fabTlb := rfl
@[simp] theorem State.setCore_chans (e : Nat) (c : Core) : (s.setCore e c).chans = s.chans := rfl
@[simp] theorem State.setCore_layout (e : Nat) (c : Core) : (s.setCore e c).layout = s.layout := rfl
@[simp] theorem State.setCore_npus (e : Nat) (c : Core) : (s.setCore e c).npus = s.npus := rfl
@[simp] theorem State.setCore_runs (e : Nat) (c : Core) : (s.setCore e c).runs = s.runs := rfl
@[simp] theorem State.setCore_sched (e : Nat) (c : Core) : (s.setCore e c).sched = s.sched := rfl
@[simp] theorem State.setCore_queues (e : Nat) (c : Core) : (s.setCore e c).queues = s.queues := rfl
@[simp] theorem State.setCore_takeQ (e : Nat) (c : Core) : (s.setCore e c).takeQ = s.takeQ := rfl
@[simp] theorem State.setCore_idem (e : Nat) (c : Core) : (s.setCore e c).idem = s.idem := rfl
@[simp] theorem State.setCore_idemPtn (e : Nat) (c : Core) : (s.setCore e c).idemPtn = s.idemPtn := rfl
@[simp] theorem State.setCore_vault (e : Nat) (c : Core) : (s.setCore e c).vault = s.vault := rfl
@[simp] theorem State.setCore_fab (e : Nat) (c : Core) : (s.setCore e c).fab = s.fab := rfl
@[simp] theorem State.setCore_hif (e : Nat) (c : Core) : (s.setCore e c).hif = s.hif := rfl
@[simp] theorem State.setCore_mp (e : Nat) (c : Core) : (s.setCore e c).mp = s.mp := rfl
@[simp] theorem State.setCore_fmu (e : Nat) (c : Core) : (s.setCore e c).fmu = s.fmu := rfl
@[simp] theorem State.setCore_repairWait (e : Nat) (c : Core) : (s.setCore e c).repairWait = s.repairWait := rfl
@[simp] theorem State.setCore_lineDead (e : Nat) (c : Core) : (s.setCore e c).lineDead = s.lineDead := rfl
@[simp] theorem State.setCore_slots (e : Nat) (c : Core) : (s.setCore e c).slots = s.slots := rfl
@[simp] theorem State.setCore_cluInReset (e : Nat) (c : Core) : (s.setCore e c).cluInReset = s.cluInReset := rfl
@[simp] theorem State.setCore_cluDrain (e : Nat) (c : Core) : (s.setCore e c).cluDrain = s.cluDrain := rfl
@[simp] theorem State.setCore_resets (e : Nat) (c : Core) : (s.setCore e c).resets = s.resets := rfl
@[simp] theorem State.setCore_dbg (e : Nat) (c : Core) : (s.setCore e c).dbg = s.dbg := rfl
@[simp] theorem State.setCore_trc (e : Nat) (c : Core) : (s.setCore e c).trc = s.trc := rfl
@[simp] theorem State.setCore_pwr (e : Nat) (c : Core) : (s.setCore e c).pwr = s.pwr := rfl
@[simp] theorem State.setCore_free (e : Nat) (c : Core) : (s.setCore e c).free = s.free := rfl
@[simp] theorem State.setCore_pending (e : Nat) (c : Core) : (s.setCore e c).pending = s.pending := rfl

/-! setCores -/

@[simp] theorem State.setCores_fuses (es : List Nat) (c : Core) : (s.setCores es c).fuses = s.fuses := rfl
@[simp] theorem State.setCores_cores (es : List Nat) (c : Core) : (s.setCores es c).cores = es.foldl (fun m e => sset Core.cold m e c) s.cores := rfl
@[simp] theorem State.setCores_async (es : List Nat) (c : Core) : (s.setCores es c).async = s.async := rfl
@[simp] theorem State.setCores_regs (es : List Nat) (c : Core) : (s.setCores es c).regs = s.regs := rfl
@[simp] theorem State.setCores_mem (es : List Nat) (c : Core) : (s.setCores es c).mem = s.mem := rfl
@[simp] theorem State.setCores_tags (es : List Nat) (c : Core) : (s.setCores es c).tags = s.tags := rfl
@[simp] theorem State.setCores_keys (es : List Nat) (c : Core) : (s.setCores es c).keys = s.keys := rfl
@[simp] theorem State.setCores_postClass (es : List Nat) (c : Core) : (s.setCores es c).postClass = s.postClass := rfl
@[simp] theorem State.setCores_shipWait (es : List Nat) (c : Core) : (s.setCores es c).shipWait = s.shipWait := rfl
@[simp] theorem State.setCores_lines (es : List Nat) (c : Core) : (s.setCores es c).lines = s.lines := rfl
@[simp] theorem State.setCores_fabTlb (es : List Nat) (c : Core) : (s.setCores es c).fabTlb = s.fabTlb := rfl
@[simp] theorem State.setCores_chans (es : List Nat) (c : Core) : (s.setCores es c).chans = s.chans := rfl
@[simp] theorem State.setCores_layout (es : List Nat) (c : Core) : (s.setCores es c).layout = s.layout := rfl
@[simp] theorem State.setCores_npus (es : List Nat) (c : Core) : (s.setCores es c).npus = s.npus := rfl
@[simp] theorem State.setCores_runs (es : List Nat) (c : Core) : (s.setCores es c).runs = s.runs := rfl
@[simp] theorem State.setCores_sched (es : List Nat) (c : Core) : (s.setCores es c).sched = s.sched := rfl
@[simp] theorem State.setCores_queues (es : List Nat) (c : Core) : (s.setCores es c).queues = s.queues := rfl
@[simp] theorem State.setCores_takeQ (es : List Nat) (c : Core) : (s.setCores es c).takeQ = s.takeQ := rfl
@[simp] theorem State.setCores_idem (es : List Nat) (c : Core) : (s.setCores es c).idem = s.idem := rfl
@[simp] theorem State.setCores_idemPtn (es : List Nat) (c : Core) : (s.setCores es c).idemPtn = s.idemPtn := rfl
@[simp] theorem State.setCores_vault (es : List Nat) (c : Core) : (s.setCores es c).vault = s.vault := rfl
@[simp] theorem State.setCores_fab (es : List Nat) (c : Core) : (s.setCores es c).fab = s.fab := rfl
@[simp] theorem State.setCores_hif (es : List Nat) (c : Core) : (s.setCores es c).hif = s.hif := rfl
@[simp] theorem State.setCores_mp (es : List Nat) (c : Core) : (s.setCores es c).mp = s.mp := rfl
@[simp] theorem State.setCores_fmu (es : List Nat) (c : Core) : (s.setCores es c).fmu = s.fmu := rfl
@[simp] theorem State.setCores_repairWait (es : List Nat) (c : Core) : (s.setCores es c).repairWait = s.repairWait := rfl
@[simp] theorem State.setCores_lineDead (es : List Nat) (c : Core) : (s.setCores es c).lineDead = s.lineDead := rfl
@[simp] theorem State.setCores_slots (es : List Nat) (c : Core) : (s.setCores es c).slots = s.slots := rfl
@[simp] theorem State.setCores_cluInReset (es : List Nat) (c : Core) : (s.setCores es c).cluInReset = s.cluInReset := rfl
@[simp] theorem State.setCores_cluDrain (es : List Nat) (c : Core) : (s.setCores es c).cluDrain = s.cluDrain := rfl
@[simp] theorem State.setCores_resets (es : List Nat) (c : Core) : (s.setCores es c).resets = s.resets := rfl
@[simp] theorem State.setCores_dbg (es : List Nat) (c : Core) : (s.setCores es c).dbg = s.dbg := rfl
@[simp] theorem State.setCores_trc (es : List Nat) (c : Core) : (s.setCores es c).trc = s.trc := rfl
@[simp] theorem State.setCores_pwr (es : List Nat) (c : Core) : (s.setCores es c).pwr = s.pwr := rfl
@[simp] theorem State.setCores_free (es : List Nat) (c : Core) : (s.setCores es c).free = s.free := rfl
@[simp] theorem State.setCores_pending (es : List Nat) (c : Core) : (s.setCores es c).pending = s.pending := rfl

/-! setNpu -/

@[simp] theorem State.setNpu_fuses (u : Nat) (n : Npu) : (s.setNpu u n).fuses = s.fuses := rfl
@[simp] theorem State.setNpu_cores (u : Nat) (n : Npu) : (s.setNpu u n).cores = s.cores := rfl
@[simp] theorem State.setNpu_async (u : Nat) (n : Npu) : (s.setNpu u n).async = s.async := rfl
@[simp] theorem State.setNpu_regs (u : Nat) (n : Npu) : (s.setNpu u n).regs = s.regs := rfl
@[simp] theorem State.setNpu_mem (u : Nat) (n : Npu) : (s.setNpu u n).mem = s.mem := rfl
@[simp] theorem State.setNpu_tags (u : Nat) (n : Npu) : (s.setNpu u n).tags = s.tags := rfl
@[simp] theorem State.setNpu_keys (u : Nat) (n : Npu) : (s.setNpu u n).keys = s.keys := rfl
@[simp] theorem State.setNpu_postClass (u : Nat) (n : Npu) : (s.setNpu u n).postClass = s.postClass := rfl
@[simp] theorem State.setNpu_shipWait (u : Nat) (n : Npu) : (s.setNpu u n).shipWait = s.shipWait := rfl
@[simp] theorem State.setNpu_lines (u : Nat) (n : Npu) : (s.setNpu u n).lines = s.lines := rfl
@[simp] theorem State.setNpu_fabTlb (u : Nat) (n : Npu) : (s.setNpu u n).fabTlb = s.fabTlb := rfl
@[simp] theorem State.setNpu_chans (u : Nat) (n : Npu) : (s.setNpu u n).chans = s.chans := rfl
@[simp] theorem State.setNpu_layout (u : Nat) (n : Npu) : (s.setNpu u n).layout = s.layout := rfl
@[simp] theorem State.setNpu_npus (u : Nat) (n : Npu) : (s.setNpu u n).npus = sset Npu.cold s.npus u n := rfl
@[simp] theorem State.setNpu_runs (u : Nat) (n : Npu) : (s.setNpu u n).runs = s.runs := rfl
@[simp] theorem State.setNpu_sched (u : Nat) (n : Npu) : (s.setNpu u n).sched = s.sched := rfl
@[simp] theorem State.setNpu_queues (u : Nat) (n : Npu) : (s.setNpu u n).queues = s.queues := rfl
@[simp] theorem State.setNpu_takeQ (u : Nat) (n : Npu) : (s.setNpu u n).takeQ = s.takeQ := rfl
@[simp] theorem State.setNpu_idem (u : Nat) (n : Npu) : (s.setNpu u n).idem = s.idem := rfl
@[simp] theorem State.setNpu_idemPtn (u : Nat) (n : Npu) : (s.setNpu u n).idemPtn = s.idemPtn := rfl
@[simp] theorem State.setNpu_vault (u : Nat) (n : Npu) : (s.setNpu u n).vault = s.vault := rfl
@[simp] theorem State.setNpu_fab (u : Nat) (n : Npu) : (s.setNpu u n).fab = s.fab := rfl
@[simp] theorem State.setNpu_hif (u : Nat) (n : Npu) : (s.setNpu u n).hif = s.hif := rfl
@[simp] theorem State.setNpu_mp (u : Nat) (n : Npu) : (s.setNpu u n).mp = s.mp := rfl
@[simp] theorem State.setNpu_fmu (u : Nat) (n : Npu) : (s.setNpu u n).fmu = s.fmu := rfl
@[simp] theorem State.setNpu_repairWait (u : Nat) (n : Npu) : (s.setNpu u n).repairWait = s.repairWait := rfl
@[simp] theorem State.setNpu_lineDead (u : Nat) (n : Npu) : (s.setNpu u n).lineDead = s.lineDead := rfl
@[simp] theorem State.setNpu_slots (u : Nat) (n : Npu) : (s.setNpu u n).slots = s.slots := rfl
@[simp] theorem State.setNpu_cluInReset (u : Nat) (n : Npu) : (s.setNpu u n).cluInReset = s.cluInReset := rfl
@[simp] theorem State.setNpu_cluDrain (u : Nat) (n : Npu) : (s.setNpu u n).cluDrain = s.cluDrain := rfl
@[simp] theorem State.setNpu_resets (u : Nat) (n : Npu) : (s.setNpu u n).resets = s.resets := rfl
@[simp] theorem State.setNpu_dbg (u : Nat) (n : Npu) : (s.setNpu u n).dbg = s.dbg := rfl
@[simp] theorem State.setNpu_trc (u : Nat) (n : Npu) : (s.setNpu u n).trc = s.trc := rfl
@[simp] theorem State.setNpu_pwr (u : Nat) (n : Npu) : (s.setNpu u n).pwr = s.pwr := rfl
@[simp] theorem State.setNpu_free (u : Nat) (n : Npu) : (s.setNpu u n).free = s.free := rfl
@[simp] theorem State.setNpu_pending (u : Nat) (n : Npu) : (s.setNpu u n).pending = s.pending := rfl

/-! setChan -/

@[simp] theorem State.setChan_fuses (u : Nat) (n : Chan) : (s.setChan u n).fuses = s.fuses := rfl
@[simp] theorem State.setChan_cores (u : Nat) (n : Chan) : (s.setChan u n).cores = s.cores := rfl
@[simp] theorem State.setChan_async (u : Nat) (n : Chan) : (s.setChan u n).async = s.async := rfl
@[simp] theorem State.setChan_regs (u : Nat) (n : Chan) : (s.setChan u n).regs = s.regs := rfl
@[simp] theorem State.setChan_mem (u : Nat) (n : Chan) : (s.setChan u n).mem = s.mem := rfl
@[simp] theorem State.setChan_tags (u : Nat) (n : Chan) : (s.setChan u n).tags = s.tags := rfl
@[simp] theorem State.setChan_keys (u : Nat) (n : Chan) : (s.setChan u n).keys = s.keys := rfl
@[simp] theorem State.setChan_postClass (u : Nat) (n : Chan) : (s.setChan u n).postClass = s.postClass := rfl
@[simp] theorem State.setChan_shipWait (u : Nat) (n : Chan) : (s.setChan u n).shipWait = s.shipWait := rfl
@[simp] theorem State.setChan_lines (u : Nat) (n : Chan) : (s.setChan u n).lines = s.lines := rfl
@[simp] theorem State.setChan_fabTlb (u : Nat) (n : Chan) : (s.setChan u n).fabTlb = s.fabTlb := rfl
@[simp] theorem State.setChan_chans (u : Nat) (n : Chan) : (s.setChan u n).chans = sset Chan.cold s.chans u n := rfl
@[simp] theorem State.setChan_layout (u : Nat) (n : Chan) : (s.setChan u n).layout = s.layout := rfl
@[simp] theorem State.setChan_npus (u : Nat) (n : Chan) : (s.setChan u n).npus = s.npus := rfl
@[simp] theorem State.setChan_runs (u : Nat) (n : Chan) : (s.setChan u n).runs = s.runs := rfl
@[simp] theorem State.setChan_sched (u : Nat) (n : Chan) : (s.setChan u n).sched = s.sched := rfl
@[simp] theorem State.setChan_queues (u : Nat) (n : Chan) : (s.setChan u n).queues = s.queues := rfl
@[simp] theorem State.setChan_takeQ (u : Nat) (n : Chan) : (s.setChan u n).takeQ = s.takeQ := rfl
@[simp] theorem State.setChan_idem (u : Nat) (n : Chan) : (s.setChan u n).idem = s.idem := rfl
@[simp] theorem State.setChan_idemPtn (u : Nat) (n : Chan) : (s.setChan u n).idemPtn = s.idemPtn := rfl
@[simp] theorem State.setChan_vault (u : Nat) (n : Chan) : (s.setChan u n).vault = s.vault := rfl
@[simp] theorem State.setChan_fab (u : Nat) (n : Chan) : (s.setChan u n).fab = s.fab := rfl
@[simp] theorem State.setChan_hif (u : Nat) (n : Chan) : (s.setChan u n).hif = s.hif := rfl
@[simp] theorem State.setChan_mp (u : Nat) (n : Chan) : (s.setChan u n).mp = s.mp := rfl
@[simp] theorem State.setChan_fmu (u : Nat) (n : Chan) : (s.setChan u n).fmu = s.fmu := rfl
@[simp] theorem State.setChan_repairWait (u : Nat) (n : Chan) : (s.setChan u n).repairWait = s.repairWait := rfl
@[simp] theorem State.setChan_lineDead (u : Nat) (n : Chan) : (s.setChan u n).lineDead = s.lineDead := rfl
@[simp] theorem State.setChan_slots (u : Nat) (n : Chan) : (s.setChan u n).slots = s.slots := rfl
@[simp] theorem State.setChan_cluInReset (u : Nat) (n : Chan) : (s.setChan u n).cluInReset = s.cluInReset := rfl
@[simp] theorem State.setChan_cluDrain (u : Nat) (n : Chan) : (s.setChan u n).cluDrain = s.cluDrain := rfl
@[simp] theorem State.setChan_resets (u : Nat) (n : Chan) : (s.setChan u n).resets = s.resets := rfl
@[simp] theorem State.setChan_dbg (u : Nat) (n : Chan) : (s.setChan u n).dbg = s.dbg := rfl
@[simp] theorem State.setChan_trc (u : Nat) (n : Chan) : (s.setChan u n).trc = s.trc := rfl
@[simp] theorem State.setChan_pwr (u : Nat) (n : Chan) : (s.setChan u n).pwr = s.pwr := rfl
@[simp] theorem State.setChan_free (u : Nat) (n : Chan) : (s.setChan u n).free = s.free := rfl
@[simp] theorem State.setChan_pending (u : Nat) (n : Chan) : (s.setChan u n).pending = s.pending := rfl

/-! raiseOne -/

@[simp] theorem State.raiseOne_fuses (i d e : Nat) : (s.raiseOne i d e).fuses = s.fuses := rfl
@[simp] theorem State.raiseOne_cores (i d e : Nat) : (s.raiseOne i d e).cores = s.cores := rfl
@[simp] theorem State.raiseOne_regs (i d e : Nat) : (s.raiseOne i d e).regs = s.regs := rfl
@[simp] theorem State.raiseOne_mem (i d e : Nat) : (s.raiseOne i d e).mem = s.mem := rfl
@[simp] theorem State.raiseOne_tags (i d e : Nat) : (s.raiseOne i d e).tags = s.tags := rfl
@[simp] theorem State.raiseOne_keys (i d e : Nat) : (s.raiseOne i d e).keys = s.keys := rfl
@[simp] theorem State.raiseOne_postClass (i d e : Nat) : (s.raiseOne i d e).postClass = s.postClass := rfl
@[simp] theorem State.raiseOne_shipWait (i d e : Nat) : (s.raiseOne i d e).shipWait = s.shipWait := rfl
@[simp] theorem State.raiseOne_lines (i d e : Nat) : (s.raiseOne i d e).lines = s.lines := rfl
@[simp] theorem State.raiseOne_fabTlb (i d e : Nat) : (s.raiseOne i d e).fabTlb = s.fabTlb := rfl
@[simp] theorem State.raiseOne_chans (i d e : Nat) : (s.raiseOne i d e).chans = s.chans := rfl
@[simp] theorem State.raiseOne_layout (i d e : Nat) : (s.raiseOne i d e).layout = s.layout := rfl
@[simp] theorem State.raiseOne_npus (i d e : Nat) : (s.raiseOne i d e).npus = s.npus := rfl
@[simp] theorem State.raiseOne_runs (i d e : Nat) : (s.raiseOne i d e).runs = s.runs := rfl
@[simp] theorem State.raiseOne_sched (i d e : Nat) : (s.raiseOne i d e).sched = s.sched := rfl
@[simp] theorem State.raiseOne_queues (i d e : Nat) : (s.raiseOne i d e).queues = s.queues := rfl
@[simp] theorem State.raiseOne_takeQ (i d e : Nat) : (s.raiseOne i d e).takeQ = s.takeQ := rfl
@[simp] theorem State.raiseOne_idem (i d e : Nat) : (s.raiseOne i d e).idem = s.idem := rfl
@[simp] theorem State.raiseOne_idemPtn (i d e : Nat) : (s.raiseOne i d e).idemPtn = s.idemPtn := rfl
@[simp] theorem State.raiseOne_vault (i d e : Nat) : (s.raiseOne i d e).vault = s.vault := rfl
@[simp] theorem State.raiseOne_fab (i d e : Nat) : (s.raiseOne i d e).fab = s.fab := rfl
@[simp] theorem State.raiseOne_hif (i d e : Nat) : (s.raiseOne i d e).hif = s.hif := rfl
@[simp] theorem State.raiseOne_mp (i d e : Nat) : (s.raiseOne i d e).mp = s.mp := rfl
@[simp] theorem State.raiseOne_fmu (i d e : Nat) : (s.raiseOne i d e).fmu = s.fmu := rfl
@[simp] theorem State.raiseOne_repairWait (i d e : Nat) : (s.raiseOne i d e).repairWait = s.repairWait := rfl
@[simp] theorem State.raiseOne_lineDead (i d e : Nat) : (s.raiseOne i d e).lineDead = s.lineDead := rfl
@[simp] theorem State.raiseOne_slots (i d e : Nat) : (s.raiseOne i d e).slots = s.slots := rfl
@[simp] theorem State.raiseOne_cluInReset (i d e : Nat) : (s.raiseOne i d e).cluInReset = s.cluInReset := rfl
@[simp] theorem State.raiseOne_cluDrain (i d e : Nat) : (s.raiseOne i d e).cluDrain = s.cluDrain := rfl
@[simp] theorem State.raiseOne_resets (i d e : Nat) : (s.raiseOne i d e).resets = s.resets := rfl
@[simp] theorem State.raiseOne_dbg (i d e : Nat) : (s.raiseOne i d e).dbg = s.dbg := rfl
@[simp] theorem State.raiseOne_trc (i d e : Nat) : (s.raiseOne i d e).trc = s.trc := rfl
@[simp] theorem State.raiseOne_pwr (i d e : Nat) : (s.raiseOne i d e).pwr = s.pwr := rfl
@[simp] theorem State.raiseOne_free (i d e : Nat) : (s.raiseOne i d e).free = s.free := rfl
@[simp] theorem State.raiseOne_pending (i d e : Nat) : (s.raiseOne i d e).pending = s.pending := rfl

/-! modFab -/

@[simp] theorem State.modFab_fuses (f : Fab → Fab) : (s.modFab f).fuses = s.fuses := rfl
@[simp] theorem State.modFab_cores (f : Fab → Fab) : (s.modFab f).cores = s.cores := rfl
@[simp] theorem State.modFab_async (f : Fab → Fab) : (s.modFab f).async = s.async := rfl
@[simp] theorem State.modFab_regs (f : Fab → Fab) : (s.modFab f).regs = s.regs := rfl
@[simp] theorem State.modFab_mem (f : Fab → Fab) : (s.modFab f).mem = s.mem := rfl
@[simp] theorem State.modFab_tags (f : Fab → Fab) : (s.modFab f).tags = s.tags := rfl
@[simp] theorem State.modFab_keys (f : Fab → Fab) : (s.modFab f).keys = s.keys := rfl
@[simp] theorem State.modFab_postClass (f : Fab → Fab) : (s.modFab f).postClass = s.postClass := rfl
@[simp] theorem State.modFab_shipWait (f : Fab → Fab) : (s.modFab f).shipWait = s.shipWait := rfl
@[simp] theorem State.modFab_lines (f : Fab → Fab) : (s.modFab f).lines = s.lines := rfl
@[simp] theorem State.modFab_fabTlb (f : Fab → Fab) : (s.modFab f).fabTlb = s.fabTlb := rfl
@[simp] theorem State.modFab_chans (f : Fab → Fab) : (s.modFab f).chans = s.chans := rfl
@[simp] theorem State.modFab_layout (f : Fab → Fab) : (s.modFab f).layout = s.layout := rfl
@[simp] theorem State.modFab_npus (f : Fab → Fab) : (s.modFab f).npus = s.npus := rfl
@[simp] theorem State.modFab_runs (f : Fab → Fab) : (s.modFab f).runs = s.runs := rfl
@[simp] theorem State.modFab_sched (f : Fab → Fab) : (s.modFab f).sched = s.sched := rfl
@[simp] theorem State.modFab_queues (f : Fab → Fab) : (s.modFab f).queues = s.queues := rfl
@[simp] theorem State.modFab_takeQ (f : Fab → Fab) : (s.modFab f).takeQ = s.takeQ := rfl
@[simp] theorem State.modFab_idem (f : Fab → Fab) : (s.modFab f).idem = s.idem := rfl
@[simp] theorem State.modFab_idemPtn (f : Fab → Fab) : (s.modFab f).idemPtn = s.idemPtn := rfl
@[simp] theorem State.modFab_vault (f : Fab → Fab) : (s.modFab f).vault = s.vault := rfl
@[simp] theorem State.modFab_fab (f : Fab → Fab) : (s.modFab f).fab = f s.fab := rfl
@[simp] theorem State.modFab_hif (f : Fab → Fab) : (s.modFab f).hif = s.hif := rfl
@[simp] theorem State.modFab_mp (f : Fab → Fab) : (s.modFab f).mp = s.mp := rfl
@[simp] theorem State.modFab_fmu (f : Fab → Fab) : (s.modFab f).fmu = s.fmu := rfl
@[simp] theorem State.modFab_repairWait (f : Fab → Fab) : (s.modFab f).repairWait = s.repairWait := rfl
@[simp] theorem State.modFab_lineDead (f : Fab → Fab) : (s.modFab f).lineDead = s.lineDead := rfl
@[simp] theorem State.modFab_slots (f : Fab → Fab) : (s.modFab f).slots = s.slots := rfl
@[simp] theorem State.modFab_cluInReset (f : Fab → Fab) : (s.modFab f).cluInReset = s.cluInReset := rfl
@[simp] theorem State.modFab_cluDrain (f : Fab → Fab) : (s.modFab f).cluDrain = s.cluDrain := rfl
@[simp] theorem State.modFab_resets (f : Fab → Fab) : (s.modFab f).resets = s.resets := rfl
@[simp] theorem State.modFab_dbg (f : Fab → Fab) : (s.modFab f).dbg = s.dbg := rfl
@[simp] theorem State.modFab_trc (f : Fab → Fab) : (s.modFab f).trc = s.trc := rfl
@[simp] theorem State.modFab_pwr (f : Fab → Fab) : (s.modFab f).pwr = s.pwr := rfl
@[simp] theorem State.modFab_free (f : Fab → Fab) : (s.modFab f).free = s.free := rfl
@[simp] theorem State.modFab_pending (f : Fab → Fab) : (s.modFab f).pending = s.pending := rfl

/-! modSched -/

@[simp] theorem State.modSched_fuses (f : Sched → Sched) : (s.modSched f).fuses = s.fuses := rfl
@[simp] theorem State.modSched_cores (f : Sched → Sched) : (s.modSched f).cores = s.cores := rfl
@[simp] theorem State.modSched_async (f : Sched → Sched) : (s.modSched f).async = s.async := rfl
@[simp] theorem State.modSched_regs (f : Sched → Sched) : (s.modSched f).regs = s.regs := rfl
@[simp] theorem State.modSched_mem (f : Sched → Sched) : (s.modSched f).mem = s.mem := rfl
@[simp] theorem State.modSched_tags (f : Sched → Sched) : (s.modSched f).tags = s.tags := rfl
@[simp] theorem State.modSched_keys (f : Sched → Sched) : (s.modSched f).keys = s.keys := rfl
@[simp] theorem State.modSched_postClass (f : Sched → Sched) : (s.modSched f).postClass = s.postClass := rfl
@[simp] theorem State.modSched_shipWait (f : Sched → Sched) : (s.modSched f).shipWait = s.shipWait := rfl
@[simp] theorem State.modSched_lines (f : Sched → Sched) : (s.modSched f).lines = s.lines := rfl
@[simp] theorem State.modSched_fabTlb (f : Sched → Sched) : (s.modSched f).fabTlb = s.fabTlb := rfl
@[simp] theorem State.modSched_chans (f : Sched → Sched) : (s.modSched f).chans = s.chans := rfl
@[simp] theorem State.modSched_layout (f : Sched → Sched) : (s.modSched f).layout = s.layout := rfl
@[simp] theorem State.modSched_npus (f : Sched → Sched) : (s.modSched f).npus = s.npus := rfl
@[simp] theorem State.modSched_runs (f : Sched → Sched) : (s.modSched f).runs = s.runs := rfl
@[simp] theorem State.modSched_sched (f : Sched → Sched) : (s.modSched f).sched = f s.sched := rfl
@[simp] theorem State.modSched_queues (f : Sched → Sched) : (s.modSched f).queues = s.queues := rfl
@[simp] theorem State.modSched_takeQ (f : Sched → Sched) : (s.modSched f).takeQ = s.takeQ := rfl
@[simp] theorem State.modSched_idem (f : Sched → Sched) : (s.modSched f).idem = s.idem := rfl
@[simp] theorem State.modSched_idemPtn (f : Sched → Sched) : (s.modSched f).idemPtn = s.idemPtn := rfl
@[simp] theorem State.modSched_vault (f : Sched → Sched) : (s.modSched f).vault = s.vault := rfl
@[simp] theorem State.modSched_fab (f : Sched → Sched) : (s.modSched f).fab = s.fab := rfl
@[simp] theorem State.modSched_hif (f : Sched → Sched) : (s.modSched f).hif = s.hif := rfl
@[simp] theorem State.modSched_mp (f : Sched → Sched) : (s.modSched f).mp = s.mp := rfl
@[simp] theorem State.modSched_fmu (f : Sched → Sched) : (s.modSched f).fmu = s.fmu := rfl
@[simp] theorem State.modSched_repairWait (f : Sched → Sched) : (s.modSched f).repairWait = s.repairWait := rfl
@[simp] theorem State.modSched_lineDead (f : Sched → Sched) : (s.modSched f).lineDead = s.lineDead := rfl
@[simp] theorem State.modSched_slots (f : Sched → Sched) : (s.modSched f).slots = s.slots := rfl
@[simp] theorem State.modSched_cluInReset (f : Sched → Sched) : (s.modSched f).cluInReset = s.cluInReset := rfl
@[simp] theorem State.modSched_cluDrain (f : Sched → Sched) : (s.modSched f).cluDrain = s.cluDrain := rfl
@[simp] theorem State.modSched_resets (f : Sched → Sched) : (s.modSched f).resets = s.resets := rfl
@[simp] theorem State.modSched_dbg (f : Sched → Sched) : (s.modSched f).dbg = s.dbg := rfl
@[simp] theorem State.modSched_trc (f : Sched → Sched) : (s.modSched f).trc = s.trc := rfl
@[simp] theorem State.modSched_pwr (f : Sched → Sched) : (s.modSched f).pwr = s.pwr := rfl
@[simp] theorem State.modSched_free (f : Sched → Sched) : (s.modSched f).free = s.free := rfl
@[simp] theorem State.modSched_pending (f : Sched → Sched) : (s.modSched f).pending = s.pending := rfl

/-! modVault -/

@[simp] theorem State.modVault_fuses (f : Vault → Vault) : (s.modVault f).fuses = s.fuses := rfl
@[simp] theorem State.modVault_cores (f : Vault → Vault) : (s.modVault f).cores = s.cores := rfl
@[simp] theorem State.modVault_async (f : Vault → Vault) : (s.modVault f).async = s.async := rfl
@[simp] theorem State.modVault_regs (f : Vault → Vault) : (s.modVault f).regs = s.regs := rfl
@[simp] theorem State.modVault_mem (f : Vault → Vault) : (s.modVault f).mem = s.mem := rfl
@[simp] theorem State.modVault_tags (f : Vault → Vault) : (s.modVault f).tags = s.tags := rfl
@[simp] theorem State.modVault_keys (f : Vault → Vault) : (s.modVault f).keys = s.keys := rfl
@[simp] theorem State.modVault_postClass (f : Vault → Vault) : (s.modVault f).postClass = s.postClass := rfl
@[simp] theorem State.modVault_shipWait (f : Vault → Vault) : (s.modVault f).shipWait = s.shipWait := rfl
@[simp] theorem State.modVault_lines (f : Vault → Vault) : (s.modVault f).lines = s.lines := rfl
@[simp] theorem State.modVault_fabTlb (f : Vault → Vault) : (s.modVault f).fabTlb = s.fabTlb := rfl
@[simp] theorem State.modVault_chans (f : Vault → Vault) : (s.modVault f).chans = s.chans := rfl
@[simp] theorem State.modVault_layout (f : Vault → Vault) : (s.modVault f).layout = s.layout := rfl
@[simp] theorem State.modVault_npus (f : Vault → Vault) : (s.modVault f).npus = s.npus := rfl
@[simp] theorem State.modVault_runs (f : Vault → Vault) : (s.modVault f).runs = s.runs := rfl
@[simp] theorem State.modVault_sched (f : Vault → Vault) : (s.modVault f).sched = s.sched := rfl
@[simp] theorem State.modVault_queues (f : Vault → Vault) : (s.modVault f).queues = s.queues := rfl
@[simp] theorem State.modVault_takeQ (f : Vault → Vault) : (s.modVault f).takeQ = s.takeQ := rfl
@[simp] theorem State.modVault_idem (f : Vault → Vault) : (s.modVault f).idem = s.idem := rfl
@[simp] theorem State.modVault_idemPtn (f : Vault → Vault) : (s.modVault f).idemPtn = s.idemPtn := rfl
@[simp] theorem State.modVault_vault (f : Vault → Vault) : (s.modVault f).vault = f s.vault := rfl
@[simp] theorem State.modVault_fab (f : Vault → Vault) : (s.modVault f).fab = s.fab := rfl
@[simp] theorem State.modVault_hif (f : Vault → Vault) : (s.modVault f).hif = s.hif := rfl
@[simp] theorem State.modVault_mp (f : Vault → Vault) : (s.modVault f).mp = s.mp := rfl
@[simp] theorem State.modVault_fmu (f : Vault → Vault) : (s.modVault f).fmu = s.fmu := rfl
@[simp] theorem State.modVault_repairWait (f : Vault → Vault) : (s.modVault f).repairWait = s.repairWait := rfl
@[simp] theorem State.modVault_lineDead (f : Vault → Vault) : (s.modVault f).lineDead = s.lineDead := rfl
@[simp] theorem State.modVault_slots (f : Vault → Vault) : (s.modVault f).slots = s.slots := rfl
@[simp] theorem State.modVault_cluInReset (f : Vault → Vault) : (s.modVault f).cluInReset = s.cluInReset := rfl
@[simp] theorem State.modVault_cluDrain (f : Vault → Vault) : (s.modVault f).cluDrain = s.cluDrain := rfl
@[simp] theorem State.modVault_resets (f : Vault → Vault) : (s.modVault f).resets = s.resets := rfl
@[simp] theorem State.modVault_dbg (f : Vault → Vault) : (s.modVault f).dbg = s.dbg := rfl
@[simp] theorem State.modVault_trc (f : Vault → Vault) : (s.modVault f).trc = s.trc := rfl
@[simp] theorem State.modVault_pwr (f : Vault → Vault) : (s.modVault f).pwr = s.pwr := rfl
@[simp] theorem State.modVault_free (f : Vault → Vault) : (s.modVault f).free = s.free := rfl
@[simp] theorem State.modVault_pending (f : Vault → Vault) : (s.modVault f).pending = s.pending := rfl

/-! modHif -/

@[simp] theorem State.modHif_fuses (f : Hif → Hif) : (s.modHif f).fuses = s.fuses := rfl
@[simp] theorem State.modHif_cores (f : Hif → Hif) : (s.modHif f).cores = s.cores := rfl
@[simp] theorem State.modHif_async (f : Hif → Hif) : (s.modHif f).async = s.async := rfl
@[simp] theorem State.modHif_regs (f : Hif → Hif) : (s.modHif f).regs = s.regs := rfl
@[simp] theorem State.modHif_mem (f : Hif → Hif) : (s.modHif f).mem = s.mem := rfl
@[simp] theorem State.modHif_tags (f : Hif → Hif) : (s.modHif f).tags = s.tags := rfl
@[simp] theorem State.modHif_keys (f : Hif → Hif) : (s.modHif f).keys = s.keys := rfl
@[simp] theorem State.modHif_postClass (f : Hif → Hif) : (s.modHif f).postClass = s.postClass := rfl
@[simp] theorem State.modHif_shipWait (f : Hif → Hif) : (s.modHif f).shipWait = s.shipWait := rfl
@[simp] theorem State.modHif_lines (f : Hif → Hif) : (s.modHif f).lines = s.lines := rfl
@[simp] theorem State.modHif_fabTlb (f : Hif → Hif) : (s.modHif f).fabTlb = s.fabTlb := rfl
@[simp] theorem State.modHif_chans (f : Hif → Hif) : (s.modHif f).chans = s.chans := rfl
@[simp] theorem State.modHif_layout (f : Hif → Hif) : (s.modHif f).layout = s.layout := rfl
@[simp] theorem State.modHif_npus (f : Hif → Hif) : (s.modHif f).npus = s.npus := rfl
@[simp] theorem State.modHif_runs (f : Hif → Hif) : (s.modHif f).runs = s.runs := rfl
@[simp] theorem State.modHif_sched (f : Hif → Hif) : (s.modHif f).sched = s.sched := rfl
@[simp] theorem State.modHif_queues (f : Hif → Hif) : (s.modHif f).queues = s.queues := rfl
@[simp] theorem State.modHif_takeQ (f : Hif → Hif) : (s.modHif f).takeQ = s.takeQ := rfl
@[simp] theorem State.modHif_idem (f : Hif → Hif) : (s.modHif f).idem = s.idem := rfl
@[simp] theorem State.modHif_idemPtn (f : Hif → Hif) : (s.modHif f).idemPtn = s.idemPtn := rfl
@[simp] theorem State.modHif_vault (f : Hif → Hif) : (s.modHif f).vault = s.vault := rfl
@[simp] theorem State.modHif_fab (f : Hif → Hif) : (s.modHif f).fab = s.fab := rfl
@[simp] theorem State.modHif_hif (f : Hif → Hif) : (s.modHif f).hif = f s.hif := rfl
@[simp] theorem State.modHif_mp (f : Hif → Hif) : (s.modHif f).mp = s.mp := rfl
@[simp] theorem State.modHif_fmu (f : Hif → Hif) : (s.modHif f).fmu = s.fmu := rfl
@[simp] theorem State.modHif_repairWait (f : Hif → Hif) : (s.modHif f).repairWait = s.repairWait := rfl
@[simp] theorem State.modHif_lineDead (f : Hif → Hif) : (s.modHif f).lineDead = s.lineDead := rfl
@[simp] theorem State.modHif_slots (f : Hif → Hif) : (s.modHif f).slots = s.slots := rfl
@[simp] theorem State.modHif_cluInReset (f : Hif → Hif) : (s.modHif f).cluInReset = s.cluInReset := rfl
@[simp] theorem State.modHif_cluDrain (f : Hif → Hif) : (s.modHif f).cluDrain = s.cluDrain := rfl
@[simp] theorem State.modHif_resets (f : Hif → Hif) : (s.modHif f).resets = s.resets := rfl
@[simp] theorem State.modHif_dbg (f : Hif → Hif) : (s.modHif f).dbg = s.dbg := rfl
@[simp] theorem State.modHif_trc (f : Hif → Hif) : (s.modHif f).trc = s.trc := rfl
@[simp] theorem State.modHif_pwr (f : Hif → Hif) : (s.modHif f).pwr = s.pwr := rfl
@[simp] theorem State.modHif_free (f : Hif → Hif) : (s.modHif f).free = s.free := rfl
@[simp] theorem State.modHif_pending (f : Hif → Hif) : (s.modHif f).pending = s.pending := rfl

/-! modMp -/

@[simp] theorem State.modMp_fuses (f : MpState → MpState) : (s.modMp f).fuses = s.fuses := rfl
@[simp] theorem State.modMp_cores (f : MpState → MpState) : (s.modMp f).cores = s.cores := rfl
@[simp] theorem State.modMp_async (f : MpState → MpState) : (s.modMp f).async = s.async := rfl
@[simp] theorem State.modMp_regs (f : MpState → MpState) : (s.modMp f).regs = s.regs := rfl
@[simp] theorem State.modMp_mem (f : MpState → MpState) : (s.modMp f).mem = s.mem := rfl
@[simp] theorem State.modMp_tags (f : MpState → MpState) : (s.modMp f).tags = s.tags := rfl
@[simp] theorem State.modMp_keys (f : MpState → MpState) : (s.modMp f).keys = s.keys := rfl
@[simp] theorem State.modMp_postClass (f : MpState → MpState) : (s.modMp f).postClass = s.postClass := rfl
@[simp] theorem State.modMp_shipWait (f : MpState → MpState) : (s.modMp f).shipWait = s.shipWait := rfl
@[simp] theorem State.modMp_lines (f : MpState → MpState) : (s.modMp f).lines = s.lines := rfl
@[simp] theorem State.modMp_fabTlb (f : MpState → MpState) : (s.modMp f).fabTlb = s.fabTlb := rfl
@[simp] theorem State.modMp_chans (f : MpState → MpState) : (s.modMp f).chans = s.chans := rfl
@[simp] theorem State.modMp_layout (f : MpState → MpState) : (s.modMp f).layout = s.layout := rfl
@[simp] theorem State.modMp_npus (f : MpState → MpState) : (s.modMp f).npus = s.npus := rfl
@[simp] theorem State.modMp_runs (f : MpState → MpState) : (s.modMp f).runs = s.runs := rfl
@[simp] theorem State.modMp_sched (f : MpState → MpState) : (s.modMp f).sched = s.sched := rfl
@[simp] theorem State.modMp_queues (f : MpState → MpState) : (s.modMp f).queues = s.queues := rfl
@[simp] theorem State.modMp_takeQ (f : MpState → MpState) : (s.modMp f).takeQ = s.takeQ := rfl
@[simp] theorem State.modMp_idem (f : MpState → MpState) : (s.modMp f).idem = s.idem := rfl
@[simp] theorem State.modMp_idemPtn (f : MpState → MpState) : (s.modMp f).idemPtn = s.idemPtn := rfl
@[simp] theorem State.modMp_vault (f : MpState → MpState) : (s.modMp f).vault = s.vault := rfl
@[simp] theorem State.modMp_fab (f : MpState → MpState) : (s.modMp f).fab = s.fab := rfl
@[simp] theorem State.modMp_hif (f : MpState → MpState) : (s.modMp f).hif = s.hif := rfl
@[simp] theorem State.modMp_mp (f : MpState → MpState) : (s.modMp f).mp = f s.mp := rfl
@[simp] theorem State.modMp_fmu (f : MpState → MpState) : (s.modMp f).fmu = s.fmu := rfl
@[simp] theorem State.modMp_repairWait (f : MpState → MpState) : (s.modMp f).repairWait = s.repairWait := rfl
@[simp] theorem State.modMp_lineDead (f : MpState → MpState) : (s.modMp f).lineDead = s.lineDead := rfl
@[simp] theorem State.modMp_slots (f : MpState → MpState) : (s.modMp f).slots = s.slots := rfl
@[simp] theorem State.modMp_cluInReset (f : MpState → MpState) : (s.modMp f).cluInReset = s.cluInReset := rfl
@[simp] theorem State.modMp_cluDrain (f : MpState → MpState) : (s.modMp f).cluDrain = s.cluDrain := rfl
@[simp] theorem State.modMp_resets (f : MpState → MpState) : (s.modMp f).resets = s.resets := rfl
@[simp] theorem State.modMp_dbg (f : MpState → MpState) : (s.modMp f).dbg = s.dbg := rfl
@[simp] theorem State.modMp_trc (f : MpState → MpState) : (s.modMp f).trc = s.trc := rfl
@[simp] theorem State.modMp_pwr (f : MpState → MpState) : (s.modMp f).pwr = s.pwr := rfl
@[simp] theorem State.modMp_free (f : MpState → MpState) : (s.modMp f).free = s.free := rfl
@[simp] theorem State.modMp_pending (f : MpState → MpState) : (s.modMp f).pending = s.pending := rfl

/-! modFmu -/

@[simp] theorem State.modFmu_fuses (f : Fmu → Fmu) : (s.modFmu f).fuses = s.fuses := rfl
@[simp] theorem State.modFmu_cores (f : Fmu → Fmu) : (s.modFmu f).cores = s.cores := rfl
@[simp] theorem State.modFmu_async (f : Fmu → Fmu) : (s.modFmu f).async = s.async := rfl
@[simp] theorem State.modFmu_regs (f : Fmu → Fmu) : (s.modFmu f).regs = s.regs := rfl
@[simp] theorem State.modFmu_mem (f : Fmu → Fmu) : (s.modFmu f).mem = s.mem := rfl
@[simp] theorem State.modFmu_tags (f : Fmu → Fmu) : (s.modFmu f).tags = s.tags := rfl
@[simp] theorem State.modFmu_keys (f : Fmu → Fmu) : (s.modFmu f).keys = s.keys := rfl
@[simp] theorem State.modFmu_postClass (f : Fmu → Fmu) : (s.modFmu f).postClass = s.postClass := rfl
@[simp] theorem State.modFmu_shipWait (f : Fmu → Fmu) : (s.modFmu f).shipWait = s.shipWait := rfl
@[simp] theorem State.modFmu_lines (f : Fmu → Fmu) : (s.modFmu f).lines = s.lines := rfl
@[simp] theorem State.modFmu_fabTlb (f : Fmu → Fmu) : (s.modFmu f).fabTlb = s.fabTlb := rfl
@[simp] theorem State.modFmu_chans (f : Fmu → Fmu) : (s.modFmu f).chans = s.chans := rfl
@[simp] theorem State.modFmu_layout (f : Fmu → Fmu) : (s.modFmu f).layout = s.layout := rfl
@[simp] theorem State.modFmu_npus (f : Fmu → Fmu) : (s.modFmu f).npus = s.npus := rfl
@[simp] theorem State.modFmu_runs (f : Fmu → Fmu) : (s.modFmu f).runs = s.runs := rfl
@[simp] theorem State.modFmu_sched (f : Fmu → Fmu) : (s.modFmu f).sched = s.sched := rfl
@[simp] theorem State.modFmu_queues (f : Fmu → Fmu) : (s.modFmu f).queues = s.queues := rfl
@[simp] theorem State.modFmu_takeQ (f : Fmu → Fmu) : (s.modFmu f).takeQ = s.takeQ := rfl
@[simp] theorem State.modFmu_idem (f : Fmu → Fmu) : (s.modFmu f).idem = s.idem := rfl
@[simp] theorem State.modFmu_idemPtn (f : Fmu → Fmu) : (s.modFmu f).idemPtn = s.idemPtn := rfl
@[simp] theorem State.modFmu_vault (f : Fmu → Fmu) : (s.modFmu f).vault = s.vault := rfl
@[simp] theorem State.modFmu_fab (f : Fmu → Fmu) : (s.modFmu f).fab = s.fab := rfl
@[simp] theorem State.modFmu_hif (f : Fmu → Fmu) : (s.modFmu f).hif = s.hif := rfl
@[simp] theorem State.modFmu_mp (f : Fmu → Fmu) : (s.modFmu f).mp = s.mp := rfl
@[simp] theorem State.modFmu_fmu (f : Fmu → Fmu) : (s.modFmu f).fmu = f s.fmu := rfl
@[simp] theorem State.modFmu_repairWait (f : Fmu → Fmu) : (s.modFmu f).repairWait = s.repairWait := rfl
@[simp] theorem State.modFmu_lineDead (f : Fmu → Fmu) : (s.modFmu f).lineDead = s.lineDead := rfl
@[simp] theorem State.modFmu_slots (f : Fmu → Fmu) : (s.modFmu f).slots = s.slots := rfl
@[simp] theorem State.modFmu_cluInReset (f : Fmu → Fmu) : (s.modFmu f).cluInReset = s.cluInReset := rfl
@[simp] theorem State.modFmu_cluDrain (f : Fmu → Fmu) : (s.modFmu f).cluDrain = s.cluDrain := rfl
@[simp] theorem State.modFmu_resets (f : Fmu → Fmu) : (s.modFmu f).resets = s.resets := rfl
@[simp] theorem State.modFmu_dbg (f : Fmu → Fmu) : (s.modFmu f).dbg = s.dbg := rfl
@[simp] theorem State.modFmu_trc (f : Fmu → Fmu) : (s.modFmu f).trc = s.trc := rfl
@[simp] theorem State.modFmu_pwr (f : Fmu → Fmu) : (s.modFmu f).pwr = s.pwr := rfl
@[simp] theorem State.modFmu_free (f : Fmu → Fmu) : (s.modFmu f).free = s.free := rfl
@[simp] theorem State.modFmu_pending (f : Fmu → Fmu) : (s.modFmu f).pending = s.pending := rfl

/-! modDbg -/

@[simp] theorem State.modDbg_fuses (f : Dbg → Dbg) : (s.modDbg f).fuses = s.fuses := rfl
@[simp] theorem State.modDbg_cores (f : Dbg → Dbg) : (s.modDbg f).cores = s.cores := rfl
@[simp] theorem State.modDbg_async (f : Dbg → Dbg) : (s.modDbg f).async = s.async := rfl
@[simp] theorem State.modDbg_regs (f : Dbg → Dbg) : (s.modDbg f).regs = s.regs := rfl
@[simp] theorem State.modDbg_mem (f : Dbg → Dbg) : (s.modDbg f).mem = s.mem := rfl
@[simp] theorem State.modDbg_tags (f : Dbg → Dbg) : (s.modDbg f).tags = s.tags := rfl
@[simp] theorem State.modDbg_keys (f : Dbg → Dbg) : (s.modDbg f).keys = s.keys := rfl
@[simp] theorem State.modDbg_postClass (f : Dbg → Dbg) : (s.modDbg f).postClass = s.postClass := rfl
@[simp] theorem State.modDbg_shipWait (f : Dbg → Dbg) : (s.modDbg f).shipWait = s.shipWait := rfl
@[simp] theorem State.modDbg_lines (f : Dbg → Dbg) : (s.modDbg f).lines = s.lines := rfl
@[simp] theorem State.modDbg_fabTlb (f : Dbg → Dbg) : (s.modDbg f).fabTlb = s.fabTlb := rfl
@[simp] theorem State.modDbg_chans (f : Dbg → Dbg) : (s.modDbg f).chans = s.chans := rfl
@[simp] theorem State.modDbg_layout (f : Dbg → Dbg) : (s.modDbg f).layout = s.layout := rfl
@[simp] theorem State.modDbg_npus (f : Dbg → Dbg) : (s.modDbg f).npus = s.npus := rfl
@[simp] theorem State.modDbg_runs (f : Dbg → Dbg) : (s.modDbg f).runs = s.runs := rfl
@[simp] theorem State.modDbg_sched (f : Dbg → Dbg) : (s.modDbg f).sched = s.sched := rfl
@[simp] theorem State.modDbg_queues (f : Dbg → Dbg) : (s.modDbg f).queues = s.queues := rfl
@[simp] theorem State.modDbg_takeQ (f : Dbg → Dbg) : (s.modDbg f).takeQ = s.takeQ := rfl
@[simp] theorem State.modDbg_idem (f : Dbg → Dbg) : (s.modDbg f).idem = s.idem := rfl
@[simp] theorem State.modDbg_idemPtn (f : Dbg → Dbg) : (s.modDbg f).idemPtn = s.idemPtn := rfl
@[simp] theorem State.modDbg_vault (f : Dbg → Dbg) : (s.modDbg f).vault = s.vault := rfl
@[simp] theorem State.modDbg_fab (f : Dbg → Dbg) : (s.modDbg f).fab = s.fab := rfl
@[simp] theorem State.modDbg_hif (f : Dbg → Dbg) : (s.modDbg f).hif = s.hif := rfl
@[simp] theorem State.modDbg_mp (f : Dbg → Dbg) : (s.modDbg f).mp = s.mp := rfl
@[simp] theorem State.modDbg_fmu (f : Dbg → Dbg) : (s.modDbg f).fmu = s.fmu := rfl
@[simp] theorem State.modDbg_repairWait (f : Dbg → Dbg) : (s.modDbg f).repairWait = s.repairWait := rfl
@[simp] theorem State.modDbg_lineDead (f : Dbg → Dbg) : (s.modDbg f).lineDead = s.lineDead := rfl
@[simp] theorem State.modDbg_slots (f : Dbg → Dbg) : (s.modDbg f).slots = s.slots := rfl
@[simp] theorem State.modDbg_cluInReset (f : Dbg → Dbg) : (s.modDbg f).cluInReset = s.cluInReset := rfl
@[simp] theorem State.modDbg_cluDrain (f : Dbg → Dbg) : (s.modDbg f).cluDrain = s.cluDrain := rfl
@[simp] theorem State.modDbg_resets (f : Dbg → Dbg) : (s.modDbg f).resets = s.resets := rfl
@[simp] theorem State.modDbg_dbg (f : Dbg → Dbg) : (s.modDbg f).dbg = f s.dbg := rfl
@[simp] theorem State.modDbg_trc (f : Dbg → Dbg) : (s.modDbg f).trc = s.trc := rfl
@[simp] theorem State.modDbg_pwr (f : Dbg → Dbg) : (s.modDbg f).pwr = s.pwr := rfl
@[simp] theorem State.modDbg_free (f : Dbg → Dbg) : (s.modDbg f).free = s.free := rfl
@[simp] theorem State.modDbg_pending (f : Dbg → Dbg) : (s.modDbg f).pending = s.pending := rfl

/-! modPwr -/

@[simp] theorem State.modPwr_fuses (f : Pwr → Pwr) : (s.modPwr f).fuses = s.fuses := rfl
@[simp] theorem State.modPwr_cores (f : Pwr → Pwr) : (s.modPwr f).cores = s.cores := rfl
@[simp] theorem State.modPwr_async (f : Pwr → Pwr) : (s.modPwr f).async = s.async := rfl
@[simp] theorem State.modPwr_regs (f : Pwr → Pwr) : (s.modPwr f).regs = s.regs := rfl
@[simp] theorem State.modPwr_mem (f : Pwr → Pwr) : (s.modPwr f).mem = s.mem := rfl
@[simp] theorem State.modPwr_tags (f : Pwr → Pwr) : (s.modPwr f).tags = s.tags := rfl
@[simp] theorem State.modPwr_keys (f : Pwr → Pwr) : (s.modPwr f).keys = s.keys := rfl
@[simp] theorem State.modPwr_postClass (f : Pwr → Pwr) : (s.modPwr f).postClass = s.postClass := rfl
@[simp] theorem State.modPwr_shipWait (f : Pwr → Pwr) : (s.modPwr f).shipWait = s.shipWait := rfl
@[simp] theorem State.modPwr_lines (f : Pwr → Pwr) : (s.modPwr f).lines = s.lines := rfl
@[simp] theorem State.modPwr_fabTlb (f : Pwr → Pwr) : (s.modPwr f).fabTlb = s.fabTlb := rfl
@[simp] theorem State.modPwr_chans (f : Pwr → Pwr) : (s.modPwr f).chans = s.chans := rfl
@[simp] theorem State.modPwr_layout (f : Pwr → Pwr) : (s.modPwr f).layout = s.layout := rfl
@[simp] theorem State.modPwr_npus (f : Pwr → Pwr) : (s.modPwr f).npus = s.npus := rfl
@[simp] theorem State.modPwr_runs (f : Pwr → Pwr) : (s.modPwr f).runs = s.runs := rfl
@[simp] theorem State.modPwr_sched (f : Pwr → Pwr) : (s.modPwr f).sched = s.sched := rfl
@[simp] theorem State.modPwr_queues (f : Pwr → Pwr) : (s.modPwr f).queues = s.queues := rfl
@[simp] theorem State.modPwr_takeQ (f : Pwr → Pwr) : (s.modPwr f).takeQ = s.takeQ := rfl
@[simp] theorem State.modPwr_idem (f : Pwr → Pwr) : (s.modPwr f).idem = s.idem := rfl
@[simp] theorem State.modPwr_idemPtn (f : Pwr → Pwr) : (s.modPwr f).idemPtn = s.idemPtn := rfl
@[simp] theorem State.modPwr_vault (f : Pwr → Pwr) : (s.modPwr f).vault = s.vault := rfl
@[simp] theorem State.modPwr_fab (f : Pwr → Pwr) : (s.modPwr f).fab = s.fab := rfl
@[simp] theorem State.modPwr_hif (f : Pwr → Pwr) : (s.modPwr f).hif = s.hif := rfl
@[simp] theorem State.modPwr_mp (f : Pwr → Pwr) : (s.modPwr f).mp = s.mp := rfl
@[simp] theorem State.modPwr_fmu (f : Pwr → Pwr) : (s.modPwr f).fmu = s.fmu := rfl
@[simp] theorem State.modPwr_repairWait (f : Pwr → Pwr) : (s.modPwr f).repairWait = s.repairWait := rfl
@[simp] theorem State.modPwr_lineDead (f : Pwr → Pwr) : (s.modPwr f).lineDead = s.lineDead := rfl
@[simp] theorem State.modPwr_slots (f : Pwr → Pwr) : (s.modPwr f).slots = s.slots := rfl
@[simp] theorem State.modPwr_cluInReset (f : Pwr → Pwr) : (s.modPwr f).cluInReset = s.cluInReset := rfl
@[simp] theorem State.modPwr_cluDrain (f : Pwr → Pwr) : (s.modPwr f).cluDrain = s.cluDrain := rfl
@[simp] theorem State.modPwr_resets (f : Pwr → Pwr) : (s.modPwr f).resets = s.resets := rfl
@[simp] theorem State.modPwr_dbg (f : Pwr → Pwr) : (s.modPwr f).dbg = s.dbg := rfl
@[simp] theorem State.modPwr_trc (f : Pwr → Pwr) : (s.modPwr f).trc = s.trc := rfl
@[simp] theorem State.modPwr_pwr (f : Pwr → Pwr) : (s.modPwr f).pwr = f s.pwr := rfl
@[simp] theorem State.modPwr_free (f : Pwr → Pwr) : (s.modPwr f).free = s.free := rfl
@[simp] theorem State.modPwr_pending (f : Pwr → Pwr) : (s.modPwr f).pending = s.pending := rfl

/-! send -/

@[simp] theorem State.send_fuses (d : Nat) (p b : Bool) (m : Msg) : (s.send d p b m).fuses = s.fuses := rfl
@[simp] theorem State.send_cores (d : Nat) (p b : Bool) (m : Msg) : (s.send d p b m).cores = s.cores := rfl
@[simp] theorem State.send_async (d : Nat) (p b : Bool) (m : Msg) : (s.send d p b m).async = s.async := rfl
@[simp] theorem State.send_regs (d : Nat) (p b : Bool) (m : Msg) : (s.send d p b m).regs = s.regs := rfl
@[simp] theorem State.send_mem (d : Nat) (p b : Bool) (m : Msg) : (s.send d p b m).mem = s.mem := rfl
@[simp] theorem State.send_tags (d : Nat) (p b : Bool) (m : Msg) : (s.send d p b m).tags = s.tags := rfl
@[simp] theorem State.send_keys (d : Nat) (p b : Bool) (m : Msg) : (s.send d p b m).keys = s.keys := rfl
@[simp] theorem State.send_postClass (d : Nat) (p b : Bool) (m : Msg) : (s.send d p b m).postClass = s.postClass := rfl
@[simp] theorem State.send_shipWait (d : Nat) (p b : Bool) (m : Msg) : (s.send d p b m).shipWait = s.shipWait := rfl
@[simp] theorem State.send_lines (d : Nat) (p b : Bool) (m : Msg) : (s.send d p b m).lines = s.lines := rfl
@[simp] theorem State.send_fabTlb (d : Nat) (p b : Bool) (m : Msg) : (s.send d p b m).fabTlb = s.fabTlb := rfl
@[simp] theorem State.send_chans (d : Nat) (p b : Bool) (m : Msg) : (s.send d p b m).chans = s.chans := rfl
@[simp] theorem State.send_layout (d : Nat) (p b : Bool) (m : Msg) : (s.send d p b m).layout = s.layout := rfl
@[simp] theorem State.send_npus (d : Nat) (p b : Bool) (m : Msg) : (s.send d p b m).npus = s.npus := rfl
@[simp] theorem State.send_runs (d : Nat) (p b : Bool) (m : Msg) : (s.send d p b m).runs = s.runs := rfl
@[simp] theorem State.send_sched (d : Nat) (p b : Bool) (m : Msg) : (s.send d p b m).sched = s.sched := rfl
@[simp] theorem State.send_queues (d : Nat) (p b : Bool) (m : Msg) : (s.send d p b m).queues = s.queues := rfl
@[simp] theorem State.send_takeQ (d : Nat) (p b : Bool) (m : Msg) : (s.send d p b m).takeQ = s.takeQ := rfl
@[simp] theorem State.send_idem (d : Nat) (p b : Bool) (m : Msg) : (s.send d p b m).idem = s.idem := rfl
@[simp] theorem State.send_idemPtn (d : Nat) (p b : Bool) (m : Msg) : (s.send d p b m).idemPtn = s.idemPtn := rfl
@[simp] theorem State.send_vault (d : Nat) (p b : Bool) (m : Msg) : (s.send d p b m).vault = s.vault := rfl
@[simp] theorem State.send_hif (d : Nat) (p b : Bool) (m : Msg) : (s.send d p b m).hif = s.hif := rfl
@[simp] theorem State.send_mp (d : Nat) (p b : Bool) (m : Msg) : (s.send d p b m).mp = s.mp := rfl
@[simp] theorem State.send_fmu (d : Nat) (p b : Bool) (m : Msg) : (s.send d p b m).fmu = s.fmu := rfl
@[simp] theorem State.send_repairWait (d : Nat) (p b : Bool) (m : Msg) : (s.send d p b m).repairWait = s.repairWait := rfl
@[simp] theorem State.send_lineDead (d : Nat) (p b : Bool) (m : Msg) : (s.send d p b m).lineDead = s.lineDead := rfl
@[simp] theorem State.send_slots (d : Nat) (p b : Bool) (m : Msg) : (s.send d p b m).slots = s.slots := rfl
@[simp] theorem State.send_cluInReset (d : Nat) (p b : Bool) (m : Msg) : (s.send d p b m).cluInReset = s.cluInReset := rfl
@[simp] theorem State.send_cluDrain (d : Nat) (p b : Bool) (m : Msg) : (s.send d p b m).cluDrain = s.cluDrain := rfl
@[simp] theorem State.send_resets (d : Nat) (p b : Bool) (m : Msg) : (s.send d p b m).resets = s.resets := rfl
@[simp] theorem State.send_dbg (d : Nat) (p b : Bool) (m : Msg) : (s.send d p b m).dbg = s.dbg := rfl
@[simp] theorem State.send_trc (d : Nat) (p b : Bool) (m : Msg) : (s.send d p b m).trc = s.trc := rfl
@[simp] theorem State.send_pwr (d : Nat) (p b : Bool) (m : Msg) : (s.send d p b m).pwr = s.pwr := rfl
@[simp] theorem State.send_free (d : Nat) (p b : Bool) (m : Msg) : (s.send d p b m).free = s.free := rfl
@[simp] theorem State.send_pending (d : Nat) (p b : Bool) (m : Msg) : (s.send d p b m).pending = s.pending := rfl

/-! takeFree -/

@[simp] theorem State.takeFree_fuses : (s.takeFree).fuses = s.fuses := rfl
@[simp] theorem State.takeFree_cores : (s.takeFree).cores = s.cores := rfl
@[simp] theorem State.takeFree_async : (s.takeFree).async = s.async := rfl
@[simp] theorem State.takeFree_regs : (s.takeFree).regs = s.regs := rfl
@[simp] theorem State.takeFree_mem : (s.takeFree).mem = s.mem := rfl
@[simp] theorem State.takeFree_tags : (s.takeFree).tags = s.tags := rfl
@[simp] theorem State.takeFree_keys : (s.takeFree).keys = s.keys := rfl
@[simp] theorem State.takeFree_postClass : (s.takeFree).postClass = s.postClass := rfl
@[simp] theorem State.takeFree_shipWait : (s.takeFree).shipWait = s.shipWait := rfl
@[simp] theorem State.takeFree_lines : (s.takeFree).lines = s.lines := rfl
@[simp] theorem State.takeFree_fabTlb : (s.takeFree).fabTlb = s.fabTlb := rfl
@[simp] theorem State.takeFree_chans : (s.takeFree).chans = s.chans := rfl
@[simp] theorem State.takeFree_layout : (s.takeFree).layout = s.layout := rfl
@[simp] theorem State.takeFree_npus : (s.takeFree).npus = s.npus := rfl
@[simp] theorem State.takeFree_runs : (s.takeFree).runs = s.runs := rfl
@[simp] theorem State.takeFree_sched : (s.takeFree).sched = s.sched := rfl
@[simp] theorem State.takeFree_queues : (s.takeFree).queues = s.queues := rfl
@[simp] theorem State.takeFree_takeQ : (s.takeFree).takeQ = s.takeQ := rfl
@[simp] theorem State.takeFree_idem : (s.takeFree).idem = s.idem := rfl
@[simp] theorem State.takeFree_idemPtn : (s.takeFree).idemPtn = s.idemPtn := rfl
@[simp] theorem State.takeFree_vault : (s.takeFree).vault = s.vault := rfl
@[simp] theorem State.takeFree_fab : (s.takeFree).fab = s.fab := rfl
@[simp] theorem State.takeFree_hif : (s.takeFree).hif = s.hif := rfl
@[simp] theorem State.takeFree_mp : (s.takeFree).mp = s.mp := rfl
@[simp] theorem State.takeFree_fmu : (s.takeFree).fmu = s.fmu := rfl
@[simp] theorem State.takeFree_repairWait : (s.takeFree).repairWait = s.repairWait := rfl
@[simp] theorem State.takeFree_lineDead : (s.takeFree).lineDead = s.lineDead := rfl
@[simp] theorem State.takeFree_slots : (s.takeFree).slots = s.slots := rfl
@[simp] theorem State.takeFree_cluInReset : (s.takeFree).cluInReset = s.cluInReset := rfl
@[simp] theorem State.takeFree_cluDrain : (s.takeFree).cluDrain = s.cluDrain := rfl
@[simp] theorem State.takeFree_resets : (s.takeFree).resets = s.resets := rfl
@[simp] theorem State.takeFree_dbg : (s.takeFree).dbg = s.dbg := rfl
@[simp] theorem State.takeFree_trc : (s.takeFree).trc = s.trc := rfl
@[simp] theorem State.takeFree_pwr : (s.takeFree).pwr = s.pwr := rfl
@[simp] theorem State.takeFree_free : (s.takeFree).free = s.free + 1 := rfl
@[simp] theorem State.takeFree_pending : (s.takeFree).pending = s.pending := rfl

/-! modSrc -/

@[simp] theorem State.modSrc_fuses (e : Nat) (f : TrcSrc → TrcSrc) : (s.modSrc e f).fuses = s.fuses := rfl
@[simp] theorem State.modSrc_cores (e : Nat) (f : TrcSrc → TrcSrc) : (s.modSrc e f).cores = s.cores := rfl
@[simp] theorem State.modSrc_async (e : Nat) (f : TrcSrc → TrcSrc) : (s.modSrc e f).async = s.async := rfl
@[simp] theorem State.modSrc_regs (e : Nat) (f : TrcSrc → TrcSrc) : (s.modSrc e f).regs = s.regs := rfl
@[simp] theorem State.modSrc_mem (e : Nat) (f : TrcSrc → TrcSrc) : (s.modSrc e f).mem = s.mem := rfl
@[simp] theorem State.modSrc_tags (e : Nat) (f : TrcSrc → TrcSrc) : (s.modSrc e f).tags = s.tags := rfl
@[simp] theorem State.modSrc_keys (e : Nat) (f : TrcSrc → TrcSrc) : (s.modSrc e f).keys = s.keys := rfl
@[simp] theorem State.modSrc_postClass (e : Nat) (f : TrcSrc → TrcSrc) : (s.modSrc e f).postClass = s.postClass := rfl
@[simp] theorem State.modSrc_shipWait (e : Nat) (f : TrcSrc → TrcSrc) : (s.modSrc e f).shipWait = s.shipWait := rfl
@[simp] theorem State.modSrc_lines (e : Nat) (f : TrcSrc → TrcSrc) : (s.modSrc e f).lines = s.lines := rfl
@[simp] theorem State.modSrc_fabTlb (e : Nat) (f : TrcSrc → TrcSrc) : (s.modSrc e f).fabTlb = s.fabTlb := rfl
@[simp] theorem State.modSrc_chans (e : Nat) (f : TrcSrc → TrcSrc) : (s.modSrc e f).chans = s.chans := rfl
@[simp] theorem State.modSrc_layout (e : Nat) (f : TrcSrc → TrcSrc) : (s.modSrc e f).layout = s.layout := rfl
@[simp] theorem State.modSrc_npus (e : Nat) (f : TrcSrc → TrcSrc) : (s.modSrc e f).npus = s.npus := rfl
@[simp] theorem State.modSrc_runs (e : Nat) (f : TrcSrc → TrcSrc) : (s.modSrc e f).runs = s.runs := rfl
@[simp] theorem State.modSrc_sched (e : Nat) (f : TrcSrc → TrcSrc) : (s.modSrc e f).sched = s.sched := rfl
@[simp] theorem State.modSrc_queues (e : Nat) (f : TrcSrc → TrcSrc) : (s.modSrc e f).queues = s.queues := rfl
@[simp] theorem State.modSrc_takeQ (e : Nat) (f : TrcSrc → TrcSrc) : (s.modSrc e f).takeQ = s.takeQ := rfl
@[simp] theorem State.modSrc_idem (e : Nat) (f : TrcSrc → TrcSrc) : (s.modSrc e f).idem = s.idem := rfl
@[simp] theorem State.modSrc_idemPtn (e : Nat) (f : TrcSrc → TrcSrc) : (s.modSrc e f).idemPtn = s.idemPtn := rfl
@[simp] theorem State.modSrc_vault (e : Nat) (f : TrcSrc → TrcSrc) : (s.modSrc e f).vault = s.vault := rfl
@[simp] theorem State.modSrc_fab (e : Nat) (f : TrcSrc → TrcSrc) : (s.modSrc e f).fab = s.fab := rfl
@[simp] theorem State.modSrc_hif (e : Nat) (f : TrcSrc → TrcSrc) : (s.modSrc e f).hif = s.hif := rfl
@[simp] theorem State.modSrc_mp (e : Nat) (f : TrcSrc → TrcSrc) : (s.modSrc e f).mp = s.mp := rfl
@[simp] theorem State.modSrc_fmu (e : Nat) (f : TrcSrc → TrcSrc) : (s.modSrc e f).fmu = s.fmu := rfl
@[simp] theorem State.modSrc_repairWait (e : Nat) (f : TrcSrc → TrcSrc) : (s.modSrc e f).repairWait = s.repairWait := rfl
@[simp] theorem State.modSrc_lineDead (e : Nat) (f : TrcSrc → TrcSrc) : (s.modSrc e f).lineDead = s.lineDead := rfl
@[simp] theorem State.modSrc_slots (e : Nat) (f : TrcSrc → TrcSrc) : (s.modSrc e f).slots = s.slots := rfl
@[simp] theorem State.modSrc_cluInReset (e : Nat) (f : TrcSrc → TrcSrc) : (s.modSrc e f).cluInReset = s.cluInReset := rfl
@[simp] theorem State.modSrc_cluDrain (e : Nat) (f : TrcSrc → TrcSrc) : (s.modSrc e f).cluDrain = s.cluDrain := rfl
@[simp] theorem State.modSrc_resets (e : Nat) (f : TrcSrc → TrcSrc) : (s.modSrc e f).resets = s.resets := rfl
@[simp] theorem State.modSrc_dbg (e : Nat) (f : TrcSrc → TrcSrc) : (s.modSrc e f).dbg = s.dbg := rfl
@[simp] theorem State.modSrc_pwr (e : Nat) (f : TrcSrc → TrcSrc) : (s.modSrc e f).pwr = s.pwr := rfl
@[simp] theorem State.modSrc_free (e : Nat) (f : TrcSrc → TrcSrc) : (s.modSrc e f).free = s.free := rfl
@[simp] theorem State.modSrc_pending (e : Nat) (f : TrcSrc → TrcSrc) : (s.modSrc e f).pending = s.pending := rfl

/-! setLine -/

@[simp] theorem State.setLine_fuses (pa : Nat) (v : LineSt) : (s.setLine pa v).fuses = s.fuses := rfl
@[simp] theorem State.setLine_cores (pa : Nat) (v : LineSt) : (s.setLine pa v).cores = s.cores := rfl
@[simp] theorem State.setLine_async (pa : Nat) (v : LineSt) : (s.setLine pa v).async = s.async := rfl
@[simp] theorem State.setLine_regs (pa : Nat) (v : LineSt) : (s.setLine pa v).regs = s.regs := rfl
@[simp] theorem State.setLine_mem (pa : Nat) (v : LineSt) : (s.setLine pa v).mem = s.mem := rfl
@[simp] theorem State.setLine_tags (pa : Nat) (v : LineSt) : (s.setLine pa v).tags = s.tags := rfl
@[simp] theorem State.setLine_keys (pa : Nat) (v : LineSt) : (s.setLine pa v).keys = s.keys := rfl
@[simp] theorem State.setLine_postClass (pa : Nat) (v : LineSt) : (s.setLine pa v).postClass = s.postClass := rfl
@[simp] theorem State.setLine_shipWait (pa : Nat) (v : LineSt) : (s.setLine pa v).shipWait = s.shipWait := rfl
@[simp] theorem State.setLine_lines (pa : Nat) (v : LineSt) : (s.setLine pa v).lines = sset .ok s.lines (pa / 64) v := rfl
@[simp] theorem State.setLine_fabTlb (pa : Nat) (v : LineSt) : (s.setLine pa v).fabTlb = s.fabTlb := rfl
@[simp] theorem State.setLine_chans (pa : Nat) (v : LineSt) : (s.setLine pa v).chans = s.chans := rfl
@[simp] theorem State.setLine_layout (pa : Nat) (v : LineSt) : (s.setLine pa v).layout = s.layout := rfl
@[simp] theorem State.setLine_npus (pa : Nat) (v : LineSt) : (s.setLine pa v).npus = s.npus := rfl
@[simp] theorem State.setLine_runs (pa : Nat) (v : LineSt) : (s.setLine pa v).runs = s.runs := rfl
@[simp] theorem State.setLine_sched (pa : Nat) (v : LineSt) : (s.setLine pa v).sched = s.sched := rfl
@[simp] theorem State.setLine_queues (pa : Nat) (v : LineSt) : (s.setLine pa v).queues = s.queues := rfl
@[simp] theorem State.setLine_takeQ (pa : Nat) (v : LineSt) : (s.setLine pa v).takeQ = s.takeQ := rfl
@[simp] theorem State.setLine_idem (pa : Nat) (v : LineSt) : (s.setLine pa v).idem = s.idem := rfl
@[simp] theorem State.setLine_idemPtn (pa : Nat) (v : LineSt) : (s.setLine pa v).idemPtn = s.idemPtn := rfl
@[simp] theorem State.setLine_vault (pa : Nat) (v : LineSt) : (s.setLine pa v).vault = s.vault := rfl
@[simp] theorem State.setLine_fab (pa : Nat) (v : LineSt) : (s.setLine pa v).fab = s.fab := rfl
@[simp] theorem State.setLine_hif (pa : Nat) (v : LineSt) : (s.setLine pa v).hif = s.hif := rfl
@[simp] theorem State.setLine_mp (pa : Nat) (v : LineSt) : (s.setLine pa v).mp = s.mp := rfl
@[simp] theorem State.setLine_fmu (pa : Nat) (v : LineSt) : (s.setLine pa v).fmu = s.fmu := rfl
@[simp] theorem State.setLine_repairWait (pa : Nat) (v : LineSt) : (s.setLine pa v).repairWait = s.repairWait := rfl
@[simp] theorem State.setLine_lineDead (pa : Nat) (v : LineSt) : (s.setLine pa v).lineDead = s.lineDead := rfl
@[simp] theorem State.setLine_slots (pa : Nat) (v : LineSt) : (s.setLine pa v).slots = s.slots := rfl
@[simp] theorem State.setLine_cluInReset (pa : Nat) (v : LineSt) : (s.setLine pa v).cluInReset = s.cluInReset := rfl
@[simp] theorem State.setLine_cluDrain (pa : Nat) (v : LineSt) : (s.setLine pa v).cluDrain = s.cluDrain := rfl
@[simp] theorem State.setLine_resets (pa : Nat) (v : LineSt) : (s.setLine pa v).resets = s.resets := rfl
@[simp] theorem State.setLine_dbg (pa : Nat) (v : LineSt) : (s.setLine pa v).dbg = s.dbg := rfl
@[simp] theorem State.setLine_trc (pa : Nat) (v : LineSt) : (s.setLine pa v).trc = s.trc := rfl
@[simp] theorem State.setLine_pwr (pa : Nat) (v : LineSt) : (s.setLine pa v).pwr = s.pwr := rfl
@[simp] theorem State.setLine_free (pa : Nat) (v : LineSt) : (s.setLine pa v).free = s.free := rfl
@[simp] theorem State.setLine_pending (pa : Nat) (v : LineSt) : (s.setLine pa v).pending = s.pending := rfl

/-! setFrameKey -/

@[simp] theorem State.setFrameKey_fuses (pa k : Nat) (fp : Bool) : (s.setFrameKey pa k fp).fuses = s.fuses := rfl
@[simp] theorem State.setFrameKey_cores (pa k : Nat) (fp : Bool) : (s.setFrameKey pa k fp).cores = s.cores := rfl
@[simp] theorem State.setFrameKey_async (pa k : Nat) (fp : Bool) : (s.setFrameKey pa k fp).async = s.async := rfl
@[simp] theorem State.setFrameKey_regs (pa k : Nat) (fp : Bool) : (s.setFrameKey pa k fp).regs = s.regs := rfl
@[simp] theorem State.setFrameKey_mem (pa k : Nat) (fp : Bool) : (s.setFrameKey pa k fp).mem = s.mem := rfl
@[simp] theorem State.setFrameKey_tags (pa k : Nat) (fp : Bool) : (s.setFrameKey pa k fp).tags = s.tags := rfl
@[simp] theorem State.setFrameKey_postClass (pa k : Nat) (fp : Bool) : (s.setFrameKey pa k fp).postClass = s.postClass := rfl
@[simp] theorem State.setFrameKey_shipWait (pa k : Nat) (fp : Bool) : (s.setFrameKey pa k fp).shipWait = s.shipWait := rfl
@[simp] theorem State.setFrameKey_lines (pa k : Nat) (fp : Bool) : (s.setFrameKey pa k fp).lines = s.lines := rfl
@[simp] theorem State.setFrameKey_fabTlb (pa k : Nat) (fp : Bool) : (s.setFrameKey pa k fp).fabTlb = s.fabTlb := rfl
@[simp] theorem State.setFrameKey_chans (pa k : Nat) (fp : Bool) : (s.setFrameKey pa k fp).chans = s.chans := rfl
@[simp] theorem State.setFrameKey_layout (pa k : Nat) (fp : Bool) : (s.setFrameKey pa k fp).layout = s.layout := rfl
@[simp] theorem State.setFrameKey_npus (pa k : Nat) (fp : Bool) : (s.setFrameKey pa k fp).npus = s.npus := rfl
@[simp] theorem State.setFrameKey_runs (pa k : Nat) (fp : Bool) : (s.setFrameKey pa k fp).runs = s.runs := rfl
@[simp] theorem State.setFrameKey_sched (pa k : Nat) (fp : Bool) : (s.setFrameKey pa k fp).sched = s.sched := rfl
@[simp] theorem State.setFrameKey_queues (pa k : Nat) (fp : Bool) : (s.setFrameKey pa k fp).queues = s.queues := rfl
@[simp] theorem State.setFrameKey_takeQ (pa k : Nat) (fp : Bool) : (s.setFrameKey pa k fp).takeQ = s.takeQ := rfl
@[simp] theorem State.setFrameKey_idem (pa k : Nat) (fp : Bool) : (s.setFrameKey pa k fp).idem = s.idem := rfl
@[simp] theorem State.setFrameKey_idemPtn (pa k : Nat) (fp : Bool) : (s.setFrameKey pa k fp).idemPtn = s.idemPtn := rfl
@[simp] theorem State.setFrameKey_vault (pa k : Nat) (fp : Bool) : (s.setFrameKey pa k fp).vault = s.vault := rfl
@[simp] theorem State.setFrameKey_fab (pa k : Nat) (fp : Bool) : (s.setFrameKey pa k fp).fab = s.fab := rfl
@[simp] theorem State.setFrameKey_hif (pa k : Nat) (fp : Bool) : (s.setFrameKey pa k fp).hif = s.hif := rfl
@[simp] theorem State.setFrameKey_mp (pa k : Nat) (fp : Bool) : (s.setFrameKey pa k fp).mp = s.mp := rfl
@[simp] theorem State.setFrameKey_fmu (pa k : Nat) (fp : Bool) : (s.setFrameKey pa k fp).fmu = s.fmu := rfl
@[simp] theorem State.setFrameKey_repairWait (pa k : Nat) (fp : Bool) : (s.setFrameKey pa k fp).repairWait = s.repairWait := rfl
@[simp] theorem State.setFrameKey_lineDead (pa k : Nat) (fp : Bool) : (s.setFrameKey pa k fp).lineDead = s.lineDead := rfl
@[simp] theorem State.setFrameKey_slots (pa k : Nat) (fp : Bool) : (s.setFrameKey pa k fp).slots = s.slots := rfl
@[simp] theorem State.setFrameKey_cluInReset (pa k : Nat) (fp : Bool) : (s.setFrameKey pa k fp).cluInReset = s.cluInReset := rfl
@[simp] theorem State.setFrameKey_cluDrain (pa k : Nat) (fp : Bool) : (s.setFrameKey pa k fp).cluDrain = s.cluDrain := rfl
@[simp] theorem State.setFrameKey_resets (pa k : Nat) (fp : Bool) : (s.setFrameKey pa k fp).resets = s.resets := rfl
@[simp] theorem State.setFrameKey_dbg (pa k : Nat) (fp : Bool) : (s.setFrameKey pa k fp).dbg = s.dbg := rfl
@[simp] theorem State.setFrameKey_trc (pa k : Nat) (fp : Bool) : (s.setFrameKey pa k fp).trc = s.trc := rfl
@[simp] theorem State.setFrameKey_pwr (pa k : Nat) (fp : Bool) : (s.setFrameKey pa k fp).pwr = s.pwr := rfl
@[simp] theorem State.setFrameKey_free (pa k : Nat) (fp : Bool) : (s.setFrameKey pa k fp).free = s.free := rfl
@[simp] theorem State.setFrameKey_pending (pa k : Nat) (fp : Bool) : (s.setFrameKey pa k fp).pending = s.pending := rfl

/-! setQueue -/

@[simp] theorem State.setQueue_fuses (q : Nat) (x : Queue) : (s.setQueue q x).fuses = s.fuses := rfl
@[simp] theorem State.setQueue_cores (q : Nat) (x : Queue) : (s.setQueue q x).cores = s.cores := rfl
@[simp] theorem State.setQueue_async (q : Nat) (x : Queue) : (s.setQueue q x).async = s.async := rfl
@[simp] theorem State.setQueue_regs (q : Nat) (x : Queue) : (s.setQueue q x).regs = s.regs := rfl
@[simp] theorem State.setQueue_mem (q : Nat) (x : Queue) : (s.setQueue q x).mem = s.mem := rfl
@[simp] theorem State.setQueue_tags (q : Nat) (x : Queue) : (s.setQueue q x).tags = s.tags := rfl
@[simp] theorem State.setQueue_keys (q : Nat) (x : Queue) : (s.setQueue q x).keys = s.keys := rfl
@[simp] theorem State.setQueue_postClass (q : Nat) (x : Queue) : (s.setQueue q x).postClass = s.postClass := rfl
@[simp] theorem State.setQueue_shipWait (q : Nat) (x : Queue) : (s.setQueue q x).shipWait = s.shipWait := rfl
@[simp] theorem State.setQueue_lines (q : Nat) (x : Queue) : (s.setQueue q x).lines = s.lines := rfl
@[simp] theorem State.setQueue_fabTlb (q : Nat) (x : Queue) : (s.setQueue q x).fabTlb = s.fabTlb := rfl
@[simp] theorem State.setQueue_chans (q : Nat) (x : Queue) : (s.setQueue q x).chans = s.chans := rfl
@[simp] theorem State.setQueue_layout (q : Nat) (x : Queue) : (s.setQueue q x).layout = s.layout := rfl
@[simp] theorem State.setQueue_npus (q : Nat) (x : Queue) : (s.setQueue q x).npus = s.npus := rfl
@[simp] theorem State.setQueue_runs (q : Nat) (x : Queue) : (s.setQueue q x).runs = s.runs := rfl
@[simp] theorem State.setQueue_sched (q : Nat) (x : Queue) : (s.setQueue q x).sched = s.sched := rfl
@[simp] theorem State.setQueue_queues (q : Nat) (x : Queue) : (s.setQueue q x).queues = sset Queue.cold s.queues q x := rfl
@[simp] theorem State.setQueue_takeQ (q : Nat) (x : Queue) : (s.setQueue q x).takeQ = s.takeQ := rfl
@[simp] theorem State.setQueue_idem (q : Nat) (x : Queue) : (s.setQueue q x).idem = s.idem := rfl
@[simp] theorem State.setQueue_idemPtn (q : Nat) (x : Queue) : (s.setQueue q x).idemPtn = s.idemPtn := rfl
@[simp] theorem State.setQueue_vault (q : Nat) (x : Queue) : (s.setQueue q x).vault = s.vault := rfl
@[simp] theorem State.setQueue_fab (q : Nat) (x : Queue) : (s.setQueue q x).fab = s.fab := rfl
@[simp] theorem State.setQueue_hif (q : Nat) (x : Queue) : (s.setQueue q x).hif = s.hif := rfl
@[simp] theorem State.setQueue_mp (q : Nat) (x : Queue) : (s.setQueue q x).mp = s.mp := rfl
@[simp] theorem State.setQueue_fmu (q : Nat) (x : Queue) : (s.setQueue q x).fmu = s.fmu := rfl
@[simp] theorem State.setQueue_repairWait (q : Nat) (x : Queue) : (s.setQueue q x).repairWait = s.repairWait := rfl
@[simp] theorem State.setQueue_lineDead (q : Nat) (x : Queue) : (s.setQueue q x).lineDead = s.lineDead := rfl
@[simp] theorem State.setQueue_slots (q : Nat) (x : Queue) : (s.setQueue q x).slots = s.slots := rfl
@[simp] theorem State.setQueue_cluInReset (q : Nat) (x : Queue) : (s.setQueue q x).cluInReset = s.cluInReset := rfl
@[simp] theorem State.setQueue_cluDrain (q : Nat) (x : Queue) : (s.setQueue q x).cluDrain = s.cluDrain := rfl
@[simp] theorem State.setQueue_resets (q : Nat) (x : Queue) : (s.setQueue q x).resets = s.resets := rfl
@[simp] theorem State.setQueue_dbg (q : Nat) (x : Queue) : (s.setQueue q x).dbg = s.dbg := rfl
@[simp] theorem State.setQueue_trc (q : Nat) (x : Queue) : (s.setQueue q x).trc = s.trc := rfl
@[simp] theorem State.setQueue_pwr (q : Nat) (x : Queue) : (s.setQueue q x).pwr = s.pwr := rfl
@[simp] theorem State.setQueue_free (q : Nat) (x : Queue) : (s.setQueue q x).free = s.free := rfl
@[simp] theorem State.setQueue_pending (q : Nat) (x : Queue) : (s.setQueue q x).pending = s.pending := rfl

/-! toHost -/

@[simp] theorem State.toHost_fuses (o : HostOut) : (s.toHost o).fuses = s.fuses := rfl
@[simp] theorem State.toHost_cores (o : HostOut) : (s.toHost o).cores = s.cores := rfl
@[simp] theorem State.toHost_async (o : HostOut) : (s.toHost o).async = s.async := rfl
@[simp] theorem State.toHost_regs (o : HostOut) : (s.toHost o).regs = s.regs := rfl
@[simp] theorem State.toHost_mem (o : HostOut) : (s.toHost o).mem = s.mem := rfl
@[simp] theorem State.toHost_tags (o : HostOut) : (s.toHost o).tags = s.tags := rfl
@[simp] theorem State.toHost_keys (o : HostOut) : (s.toHost o).keys = s.keys := rfl
@[simp] theorem State.toHost_postClass (o : HostOut) : (s.toHost o).postClass = s.postClass := rfl
@[simp] theorem State.toHost_shipWait (o : HostOut) : (s.toHost o).shipWait = s.shipWait := rfl
@[simp] theorem State.toHost_lines (o : HostOut) : (s.toHost o).lines = s.lines := rfl
@[simp] theorem State.toHost_fabTlb (o : HostOut) : (s.toHost o).fabTlb = s.fabTlb := rfl
@[simp] theorem State.toHost_chans (o : HostOut) : (s.toHost o).chans = s.chans := rfl
@[simp] theorem State.toHost_layout (o : HostOut) : (s.toHost o).layout = s.layout := rfl
@[simp] theorem State.toHost_npus (o : HostOut) : (s.toHost o).npus = s.npus := rfl
@[simp] theorem State.toHost_runs (o : HostOut) : (s.toHost o).runs = s.runs := rfl
@[simp] theorem State.toHost_sched (o : HostOut) : (s.toHost o).sched = s.sched := rfl
@[simp] theorem State.toHost_queues (o : HostOut) : (s.toHost o).queues = s.queues := rfl
@[simp] theorem State.toHost_takeQ (o : HostOut) : (s.toHost o).takeQ = s.takeQ := rfl
@[simp] theorem State.toHost_idem (o : HostOut) : (s.toHost o).idem = s.idem := rfl
@[simp] theorem State.toHost_idemPtn (o : HostOut) : (s.toHost o).idemPtn = s.idemPtn := rfl
@[simp] theorem State.toHost_vault (o : HostOut) : (s.toHost o).vault = s.vault := rfl
@[simp] theorem State.toHost_fab (o : HostOut) : (s.toHost o).fab = s.fab := rfl
@[simp] theorem State.toHost_mp (o : HostOut) : (s.toHost o).mp = s.mp := rfl
@[simp] theorem State.toHost_fmu (o : HostOut) : (s.toHost o).fmu = s.fmu := rfl
@[simp] theorem State.toHost_repairWait (o : HostOut) : (s.toHost o).repairWait = s.repairWait := rfl
@[simp] theorem State.toHost_lineDead (o : HostOut) : (s.toHost o).lineDead = s.lineDead := rfl
@[simp] theorem State.toHost_slots (o : HostOut) : (s.toHost o).slots = s.slots := rfl
@[simp] theorem State.toHost_cluInReset (o : HostOut) : (s.toHost o).cluInReset = s.cluInReset := rfl
@[simp] theorem State.toHost_cluDrain (o : HostOut) : (s.toHost o).cluDrain = s.cluDrain := rfl
@[simp] theorem State.toHost_resets (o : HostOut) : (s.toHost o).resets = s.resets := rfl
@[simp] theorem State.toHost_dbg (o : HostOut) : (s.toHost o).dbg = s.dbg := rfl
@[simp] theorem State.toHost_trc (o : HostOut) : (s.toHost o).trc = s.trc := rfl
@[simp] theorem State.toHost_pwr (o : HostOut) : (s.toHost o).pwr = s.pwr := rfl
@[simp] theorem State.toHost_free (o : HostOut) : (s.toHost o).free = s.free := rfl
@[simp] theorem State.toHost_pending (o : HostOut) : (s.toHost o).pending = s.pending := rfl

end Sys2Proof.Machine
end

