-- ==== Sys2Proof/Laws/Regs.lean ====
section
/-!
SUPPORT. What the shared reads give after the shared writes: registers, cores, bit fields.
-/
namespace Sys2Proof.Machine

theorem regFind_regPut (r r' : Reg) (w : Word) (l : List (Reg × Word)) :
    regFind r' (regPut r w l) = if r' = r then some w else regFind r' l := by
  induction l with
  | nil => simp [regPut, regFind]
  | cons p l ih =>
    obtain ⟨a, b⟩ := p
    unfold regPut
    split
    · simp only [regFind]; split <;> simp_all
    · simp only [regFind, ih]
      split <;> split <;> simp_all

/-- A register read after a register write. -/
@[simp] theorem State.rd_wr (s : State) (r r' : Reg) (w : Word) :
    (s.wr r w).rd r' = if r' = r then w else s.rd r' := by
  simp only [State.rd, State.wr, regFind_regPut]
  split <;> simp

/-- A field write is a register write. -/
theorem State.wf_eq (s : State) (r : Reg) (hi lo v : Nat) : s.wf r hi lo v = s.wr r (setFld (s.rd r) hi lo v) := rfl

theorem State.count_eq (s : State) (r : Reg) (hi lo n : Nat) :
    s.count r hi lo n = s.wf r hi lo (satAdd (hi + 1 - lo) (s.rf r hi lo) n) := rfl

/-- Registers depend on the listed values and the fuses alone. -/
theorem State.rd_congr (s t : State) (r : Reg) (h : t.regs = s.regs) (hf : t.fuses = s.fuses) : t.rd r = s.rd r := by
  simp [State.rd, h, hf]

/-- A core read after a core write. -/
@[simp] theorem State.core_setCore (s : State) (e k : Nat) (c : Core) :
    (s.setCore e c).core k = if k = e then c else s.core k := by
  simp [State.core, State.setCore]

@[simp] theorem State.core_modCore (s : State) (e k : Nat) (f : Core → Core) :
    (s.modCore e f).core k = if k = e then f (s.core e) else s.core k := by
  simp [State.modCore]

theorem sget_foldl_sset {α : Type} [DecidableEq α] (d v : α) (es : List Nat) (m : SMap α) (k : Nat) :
    sget d (es.foldl (fun m e => sset d m e v) m) k = if k ∈ es then v else sget d m k := by
  induction es generalizing m with
  | nil => simp
  | cons a l ih =>
    simp only [List.foldl_cons, ih, List.mem_cons, sget_sset]
    by_cases h1 : k ∈ l <;> by_cases h2 : k = a <;> simp [h1, h2]

/-- Every core of a list holds what was written, every other core what it held. -/
@[simp] theorem State.core_setCores (s : State) (es : List Nat) (c : Core) (k : Nat) :
    (s.setCores es c).core k = if k ∈ es then c else s.core k := by
  simp [State.core, State.setCores, sget_foldl_sset]

theorem State.core_congr (s t : State) (k : Nat) (h : t.cores = s.cores) : t.core k = s.core k := by
  simp [State.core, h]

theorem testBit_setFld (w : Word) (hi lo v i : Nat) (h : lo ≤ hi) (_ : hi < 64) (hi' : i < 64) :
    bit (setFld w hi lo v) i = if lo ≤ i ∧ i ≤ hi then v.testBit (i - lo) else bit w i := by
  have hw := w.isLt
  unfold bit setFld
  simp only [BitVec.getLsbD_ofNat, hi', decide_true, Bool.true_and]
  have e : (w.toNat / 2 ^ (hi + 1)) * 2 ^ (hi + 1)
      = 2 ^ lo * (2 ^ (hi + 1 - lo) * (w.toNat / 2 ^ (hi + 1))) := by
    rw [← Nat.mul_assoc, ← Nat.pow_add, Nat.add_sub_of_le (by omega), Nat.mul_comm]
  rw [e, Nat.add_assoc, Nat.mul_comm (v % _), ← Nat.mul_add, Nat.add_comm]
  rw [Nat.testBit_two_pow_mul_add _ (Nat.mod_lt _ (Nat.two_pow_pos _))]
  rw [Nat.add_comm (v % _), Nat.testBit_two_pow_mul_add _ (Nat.mod_lt _ (Nat.two_pow_pos _))]
  simp only [Nat.testBit_mod_two_pow, Nat.testBit_div_two_pow, BitVec.getLsbD]
  by_cases h1 : i < lo
  · simp [h1, show ¬ lo ≤ i by omega]
  · by_cases h2 : i ≤ hi
    · simp [h1, show lo ≤ i by omega, h2, show i - lo < hi + 1 - lo by omega]
    · simp only [h1, h2, if_false, and_false, show ¬ (i - lo < hi + 1 - lo) by omega, decide_false]
      congr 1; omega

/-- A flag bit after a bit write. -/
theorem bit_setBit (w : Word) (i j : Nat) (b : Bool) (hi : i < 64) (hj : j < 64) :
    bit (setBit w i b) j = if j = i then b else bit w j := by
  unfold setBit
  rw [testBit_setFld w i i _ j (Nat.le_refl _) hi hj]
  by_cases h : j = i
  · subst h; cases b <;> simp [b2n]
  · rw [if_neg (by omega), if_neg h]

/-- A field reads what was written to it, cut to its width. -/
theorem fld_setFld (w : Word) (hi lo v : Nat) (h : lo ≤ hi) (hhi : hi < 64) :
    fld (setFld w hi lo v) hi lo = v % 2 ^ (hi + 1 - lo) := by
  apply Nat.eq_of_testBit_eq
  intro i
  simp only [fld, Nat.testBit_mod_two_pow, Nat.testBit_div_two_pow]
  by_cases hi1 : i < hi + 1 - lo
  · have := testBit_setFld w hi lo v (i + lo) h hhi (by omega)
    simp only [bit, BitVec.getLsbD] at this
    rw [this, if_pos ⟨by omega, by omega⟩, Nat.add_sub_cancel]
  · simp [hi1]

/-- A field is not changed by a write to another field. -/
theorem fld_setFld_ne (w : Word) (hi lo v hi' lo' : Nat) (h : lo ≤ hi) (hhi : hi < 64) (hhi' : hi' < 64)
    (hd : hi' < lo ∨ hi < lo') : fld (setFld w hi lo v) hi' lo' = fld w hi' lo' := by
  apply Nat.eq_of_testBit_eq
  intro i
  simp only [fld, Nat.testBit_mod_two_pow, Nat.testBit_div_two_pow]
  by_cases hi1 : i < hi' + 1 - lo'
  · have := testBit_setFld w hi lo v (lo' + i) h hhi (by omega)
    simp only [bit, BitVec.getLsbD] at this
    simp only [hi1, decide_true, Bool.true_and]
    rw [Nat.add_comm i lo', this, if_neg (by omega)]
  · simp [hi1]

end Sys2Proof.Machine
end

