-- ==== Sys2Proof/Laws/Course.lean ====
section
/-!
SUPPORT. The course of an instruction: trace and steps leave everything beside them as it was, and what the device is
once an instruction has retired or waits.
-/
namespace Sys2Proof.Machine

/-- t differs from u at most in trace and the debug step. -/
def State.Quiet (t u : State) : Prop := t.Beside u ∧ t.cores = u.cores

theorem State.Beside.refl (s : State) : s.Beside s := ⟨rfl, fun _ _ _ _ => rfl⟩

theorem State.Beside.trans {s t u : State} (h : s.Beside t) (g : t.Beside u) : s.Beside u :=
  ⟨h.1.trans g.1, fun r a b c => (h.2 r a b c).trans (g.2 r a b c)⟩

theorem State.Quiet.refl (s : State) : s.Quiet s := ⟨.refl s, rfl⟩

theorem State.Quiet.trans {s t u : State} (h : s.Quiet t) (g : t.Quiet u) : s.Quiet u :=
  ⟨h.1.trans g.1, h.2.trans g.2⟩

theorem wr_quiet (s : State) (r : Reg) (w : Word) (h : r = .trcStatus ∨ r = .trcRdptr ∨ r = .dbgStep) :
    (s.wr r w).Quiet s := by
  refine ⟨⟨rfl, fun q h1 h2 h3 => ?_⟩, rfl⟩
  rw [State.rd_wr, if_neg]
  rintro rfl
  rcases h with h | h | h <;> contradiction

theorem modSrc_quiet (s : State) (e : Nat) (f : TrcSrc → TrcSrc) : (s.modSrc e f).Quiet s :=
  ⟨⟨rfl, fun _ _ _ _ => rfl⟩, rfl⟩

theorem trcStore_quiet (s : State) (bs : List Byte) : (s.trcStore bs).Quiet s := by
  unfold State.trcStore
  refine (wr_quiet _ _ _ (.inl rfl)).trans ?_
  dsimp only
  split
  · exact (wr_quiet _ _ _ (.inr (.inl rfl))).trans
      ((wr_quiet _ _ _ (.inl rfl)).trans ⟨⟨rfl, fun _ _ _ _ => rfl⟩, rfl⟩)
  · exact (wr_quiet _ _ _ (.inl rfl)).trans ⟨⟨rfl, fun _ _ _ _ => rfl⟩, rfl⟩

theorem trcRaw_quiet (s : State) (e : Nat) (bs : List Byte) : (s.trcRaw e bs).Quiet s := by
  unfold State.trcRaw
  split
  · exact (modSrc_quiet _ _ _).trans (trcStore_quiet _ _)
  · exact (modSrc_quiet _ _ _).trans ((wr_quiet _ _ _ (.inl rfl)).trans (wr_quiet _ _ _ (.inl rfl)))

theorem trcSync_quiet (s : State) (e : Nat) (pc : Word) : (s.trcSync e pc).Quiet s :=
  (modSrc_quiet _ _ _).trans (trcRaw_quiet _ _ _)

theorem trcGap_quiet (s : State) (e : Nat) (pc : Word) : (s.trcGap e pc).Quiet s := by
  unfold State.trcGap
  dsimp only
  split
  · exact .refl s
  · exact (trcSync_quiet _ _ _).trans ((trcRaw_quiet _ _ _).trans (modSrc_quiet _ _ _))

theorem trcFlush_quiet (s : State) (e : Nat) (pc : Word) : (s.trcFlush e pc).Quiet s := by
  unfold State.trcFlush
  dsimp only
  split
  · exact .refl s
  · exact (trcRaw_quiet _ _ _).trans ((trcGap_quiet _ _ _).trans (modSrc_quiet _ _ _))

theorem trcEmit_quiet (s : State) (e : Nat) (pc : Word) (bs : List Byte) : (s.trcEmit e pc bs).Quiet s :=
  (trcRaw_quiet _ _ _).trans ((trcGap_quiet _ _ _).trans (trcFlush_quiet _ _ _))

theorem trcAtom_quiet (s : State) (e : Nat) (pc : Word) (b : Bool) : (s.trcAtom e pc b).Quiet s := by
  unfold State.trcAtom
  dsimp only
  split
  · exact (trcFlush_quiet _ _ _).trans (modSrc_quiet _ _ _)
  · exact modSrc_quiet _ _ _

theorem trcInd_quiet (s : State) (e : Nat) (pc t : Word) : (s.trcInd e pc t).Quiet s :=
  (trcEmit_quiet _ _ _ _).trans (trcAtom_quiet _ _ _ _)

theorem trcBegin_quiet (s : State) (e : Nat) (pc : Word) : (s.trcBegin e pc).Quiet s := by
  unfold State.trcBegin
  dsimp only
  split
  · exact (trcSync_quiet _ _ _).trans (modSrc_quiet _ _ _)
  · split
    · exact (trcSync_quiet _ _ _).trans (trcFlush_quiet _ _ _)
    · exact .refl s

theorem trcSleep_quiet (s : State) (e n : Nat) : (s.trcSleep e n).Quiet s := by
  unfold State.trcSleep
  split
  · exact .refl s
  · split
    · exact .refl s
    · exact (modSrc_quiet _ _ _).trans ((trcEmit_quiet _ _ _ _).trans (trcBegin_quiet _ _ _))

/-- Trace before an instruction leaves everything else as it was. -/
theorem preTrace_quiet (s : State) (e : Nat) : (s.preTrace e).Quiet s := by
  unfold State.preTrace
  split
  · exact trcBegin_quiet _ _ _
  · exact .refl s

theorem traceIns_quiet (s : State) (pre : Core) (e w : Nat) : (s.traceIns pre e w).Quiet s := by
  unfold State.traceIns
  split
  · exact .refl s
  · dsimp only
    split
    · exact trcSleep_quiet _ _ _
    split
    · exact .refl s
    split
    · split
      · exact trcAtom_quiet _ _ _ _
      · exact trcInd_quiet _ _ _ _
    split
    · split
      · exact trcEmit_quiet _ _ _ _
      · exact trcInd_quiet _ _ _ _
    · exact .refl s

theorem endStep_quiet (s : State) (b : Bool) : (s.endStep b).Quiet s :=
  State.Quiet.trans (t := (s.wf .dbgStep 9 9 1).wf .dbgStep 10 10 (b2n b)) ⟨⟨rfl, fun _ _ _ _ => rfl⟩, rfl⟩
    ((wr_quiet _ _ _ (.inr (.inr rfl))).trans (wr_quiet _ _ _ (.inr (.inr rfl))))

/-- Trace and the end of a step after an instruction leave everything else as it was. -/
theorem postTrace_quiet (s : State) (pre : Core) (e w : Nat) (b : Bool) : (s.postTrace pre e w b).Quiet s := by
  unfold State.postTrace
  dsimp only
  split
  · exact (endStep_quiet _ _).trans (traceIns_quiet _ _ _ _)
  · exact traceIns_quiet _ _ _ _

theorem State.Quiet.core {t u : State} (h : t.Quiet u) (k : Nat) : t.core k = u.core k := State.core_congr _ _ _ h.2

theorem State.Quiet.free {t u : State} (h : t.Quiet u) : t.free = u.free := by have := congrArg State.free h.1.1; exact this

theorem State.Quiet.mem {t u : State} (h : t.Quiet u) : t.mem = u.mem := by have := congrArg State.mem h.1.1; exact this

theorem State.Beside.mem {t u : State} (h : t.Beside u) : t.mem = u.mem := by have := congrArg State.mem h.1; exact this

theorem State.Beside.tags {t u : State} (h : t.Beside u) : t.tags = u.tags := by have := congrArg State.tags h.1; exact this

/-- The core in which an instruction starts is the core as it was. -/
theorem start_c (s : State) (e w : Nat) : (s.start e w).c = s.core e := (preTrace_quiet s e).core e

@[simp] theorem start_cost (s : State) (e w : Nat) : (s.start e w).cost = 1 := rfl
@[simp] theorem start_ent (s : State) (e w : Nat) : (s.start e w).ent = none := rfl
@[simp] theorem start_e (s : State) (e w : Nat) : (s.start e w).e = e := rfl

theorem setCores_unit (u : State) (e : Nat) (c : Core) : (u.setCores (u.unitCores e) c).Unit u e c :=
  ⟨fun k => State.core_setCores u _ c k, rfl, fun _ _ _ _ => rfl⟩

theorem State.Quiet.unit {t v u : State} {e : Nat} {c : Core} (h : t.Quiet v) (g : v.Unit u e c) : t.Unit u e c :=
  ⟨fun k => (h.core k).trans (g.1 k), h.1.trans g.2⟩

/-- An instruction that issues runs its operation in the context in which it starts. -/
theorem runIns_eq (s : State) (e w : Nat) (ok : Bool) (body : Op Unit) (h : s.issues e w ok = true) :
    s.runIns e w ok body
      = (finishOp e s.free (body (s.start e w))).postTrace (s.core e) e w (s.stepping e) := by
  simp only [State.issues, Bool.and_eq_true, Bool.not_eq_true', bne_iff_ne, ne_eq] at h
  obtain ⟨⟨⟨⟨h1, h2⟩, h3⟩, h4⟩, h5⟩ := h
  have hf := (preTrace_quiet s e).free
  have hc : ((s.preTrace e).startCx e w (insLen w)).c = s.core e := start_c s e w
  simp only [State.runIns, h1, Bool.not_true, Bool.false_eq_true, if_false, State.around, h2, h3, h4,
    hc, h5, hf]
  rfl

/-- What the device is once an instruction has retired. -/
theorem runIns_retires {s : State} {e w : Nat} {ok : Bool} {body : Op Unit} {y : Cx} (h : s.issues e w ok = true)
    (hb : body (s.start e w) = .ok () y) : Retires s (s.runIns e w ok body) e y := by
  rw [runIns_eq s e w ok body h, hb]
  exact (postTrace_quiet _ _ _ _ _).unit (setCores_unit _ _ _)

/-- What the device is while an instruction waits. -/
theorem runIns_waits {s : State} {e w : Nat} {ok : Bool} {body : Op Unit} {y : Cx} {a : Act}
    (h : s.issues e w ok = true) (hb : body (s.start e w) = .error (.wait a) y) :
    Waits (s.runIns e w ok body) e y a := by
  rw [runIns_eq s e w ok body h, hb]
  exact (postTrace_quiet _ _ _ _ _).unit (setCores_unit _ _ _)

/-- What the device is once an instruction has raised an exception: beside trace and the debug step, what taking the
exception makes of it. -/
theorem runIns_raises {s : State} {e w : Nat} {ok : Bool} {body : Op Unit} {y : Cx} {q : Exc}
    (h : s.issues e w ok = true) (hb : body (s.start e w) = .error (.exc q) y) :
    (s.runIns e w ok body).Quiet (finishOp e s.free (.error (.exc q) y)) := by
  rw [runIns_eq s e w ok body h, hb]
  exact postTrace_quiet _ _ _ _ _

end Sys2Proof.Machine
end

