-- ==== Sys2Proof/Laws/Report.lean ====
section
/-!
SUPPORT. What a fault report can change: the fault-management state and the pending requests of cores, nothing else. And
what raising a request changes.
-/
namespace Sys2Proof.Machine

/-- t differs from s at most in the fault-management state and the pending requests. -/
def State.Told (s t : State) : Prop := ∃ f a, t = { s with fmu := f, async := a }

theorem State.Told.refl (s : State) : s.Told s := ⟨s.fmu, s.async, rfl⟩

theorem State.Told.trans {s t u : State} (h : s.Told t) (h' : t.Told u) : s.Told u := by
  obtain ⟨f, a, rfl⟩ := h
  obtain ⟨g, b, rfl⟩ := h'
  exact ⟨g, b, rfl⟩

theorem State.Told.fmu (s : State) (f : Fmu) : s.Told { s with fmu := f } := ⟨f, s.async, rfl⟩

/-- A relation that every element of a fold keeps holds over the fold. -/
theorem foldl_rel {α σ : Type} (R : σ → σ → Prop) (refl : ∀ s, R s s) (trans : ∀ s t u, R s t → R t u → R s u)
    (f : σ → α → σ) (step : ∀ s a, R s (f s a)) (l : List α) (s : σ) : R s (l.foldl f s) := by
  induction l generalizing s with
  | nil => exact refl s
  | cons a l ih => exact trans _ _ _ (step s a) (ih _)

theorem State.told_foldl {α : Type} (f : State → α → State) (step : ∀ (s : State) (a : α), s.Told (f s a)) (l : List α)
    (s : State) :
    s.Told (l.foldl f s) :=
  foldl_rel State.Told State.Told.refl (fun _ _ _ => State.Told.trans) f step l s

/-- A request that is raised changes the pending requests alone. -/
theorem State.raise_async (s : State) (i d e : Nat) : ∃ a, s.raise i d e = { s with async := a } :=
  foldl_rel (fun s t : State => ∃ a, t = { s with async := a }) (fun s => ⟨s.async, rfl⟩)
    (fun _ _ _ h h' => by obtain ⟨_, rfl⟩ := h; obtain ⟨a, rfl⟩ := h'; exact ⟨a, rfl⟩) _ (fun _ _ => ⟨_, rfl⟩) _ s

theorem State.raise_told (s : State) (i d e : Nat) : s.Told (s.raise i d e) := by
  obtain ⟨a, h⟩ := s.raise_async i d e
  exact ⟨s.fmu, a, h⟩

theorem State.route_told (s : State) (r : Rec) : s.Told (s.route r) := by
  refine State.told_foldl _ (fun s i => ?_) _ s
  dsimp only
  split
  · exact State.raise_told _ _ _ _
  · exact State.Told.refl _

theorem State.logWrite_told (s : State) (r : Rec) : s.Told (s.logWrite r).1 := by
  unfold State.logWrite
  dsimp only
  split
  · split
    · exact (State.Told.fmu s _).trans (State.route_told _ _)
    · exact State.Told.refl s
  · split
    · exact (State.Told.fmu s _).trans (State.route_told _ _)
    · exact State.Told.fmu s _

theorem State.toLog_told (s : State) (r : Rec) : s.Told (s.toLog r).1 := by
  have key : ∀ (x : State × Bool) (fresh : Bool) (g : State → Fmu), s.Told x.1 →
      s.Told (if !x.2 then (s, false) else if fresh then ({ x.1 with fmu := g x.1 }, true) else (x.1, true)).1 := by
    intro x fresh g h
    cases x.2
    · exact State.Told.refl s
    · cases fresh
      · exact h
      · exact h.trans (State.Told.fmu _ _)
  unfold State.toLog
  exact key (s.logWrite _) _ (fun t => { t.fmu with rseq := t.fmu.rseq + 1, aggs := _ }) (s.logWrite_told _)

theorem State.passUp_told (ks : List Nat) (bm : Nat) (r : Rec) (s : State) : s.Told (State.passUp ks bm r s) := by
  induction ks generalizing bm r s with
  | nil =>
    unfold State.passUp
    dsimp only
    split
    · exact s.toLog_told r
    · exact State.Told.fmu s _
  | cons k ks ih =>
    unfold State.passUp
    dsimp only
    split
    · exact State.Told.fmu s _
    · exact (State.Told.fmu s _).trans (State.told_foldl _ (fun t u => ih _ u t) _ _)

/-- A report changes the fault-management state and the pending requests, nothing else. -/
theorem State.report_told (s : State) (sig cls : Nat) (root first : Loc) (d : Nat) :
    s.Told (s.report sig cls root first d) := State.passUp_told _ _ _ s

theorem State.alarm_told (s : State) (sig : Nat) (l : Loc) (d : Nat) : s.Told (s.alarm sig l d) := s.report_told ..
theorem State.event_told (s : State) (sig : Nat) (l : Loc) (d : Nat) : s.Told (s.event sig l d) := s.report_told ..

variable {s t : State}

theorem State.Told.regs (h : s.Told t) : t.regs = s.regs := by obtain ⟨_, _, rfl⟩ := h; rfl
theorem State.Told.mem (h : s.Told t) : t.mem = s.mem := by obtain ⟨_, _, rfl⟩ := h; rfl
theorem State.Told.rd (h : s.Told t) (r : Reg) : t.rd r = s.rd r := by obtain ⟨_, _, rfl⟩ := h; rfl
theorem State.Told.core (h : s.Told t) (e : Nat) : t.core e = s.core e := by obtain ⟨_, _, rfl⟩ := h; rfl

@[simp] theorem State.alarm_fuses (s : State) (sig : Nat) (l : Loc) (d : Nat) : (s.alarm sig l d).fuses = s.fuses := by
  obtain ⟨_, _, h⟩ := s.alarm_told sig l d; rw [h]
@[simp] theorem State.alarm_cores (s : State) (sig : Nat) (l : Loc) (d : Nat) : (s.alarm sig l d).cores = s.cores := by
  obtain ⟨_, _, h⟩ := s.alarm_told sig l d; rw [h]
@[simp] theorem State.alarm_regs (s : State) (sig : Nat) (l : Loc) (d : Nat) : (s.alarm sig l d).regs = s.regs := by
  obtain ⟨_, _, h⟩ := s.alarm_told sig l d; rw [h]
@[simp] theorem State.alarm_mem (s : State) (sig : Nat) (l : Loc) (d : Nat) : (s.alarm sig l d).mem = s.mem := by
  obtain ⟨_, _, h⟩ := s.alarm_told sig l d; rw [h]
@[simp] theorem State.alarm_tags (s : State) (sig : Nat) (l : Loc) (d : Nat) : (s.alarm sig l d).tags = s.tags := by
  obtain ⟨_, _, h⟩ := s.alarm_told sig l d; rw [h]
@[simp] theorem State.alarm_keys (s : State) (sig : Nat) (l : Loc) (d : Nat) : (s.alarm sig l d).keys = s.keys := by
  obtain ⟨_, _, h⟩ := s.alarm_told sig l d; rw [h]
@[simp] theorem State.alarm_postClass (s : State) (sig : Nat) (l : Loc) (d : Nat) : (s.alarm sig l d).postClass = s.postClass := by
  obtain ⟨_, _, h⟩ := s.alarm_told sig l d; rw [h]
@[simp] theorem State.alarm_shipWait (s : State) (sig : Nat) (l : Loc) (d : Nat) : (s.alarm sig l d).shipWait = s.shipWait := by
  obtain ⟨_, _, h⟩ := s.alarm_told sig l d; rw [h]
@[simp] theorem State.alarm_lines (s : State) (sig : Nat) (l : Loc) (d : Nat) : (s.alarm sig l d).lines = s.lines := by
  obtain ⟨_, _, h⟩ := s.alarm_told sig l d; rw [h]
@[simp] theorem State.alarm_fabTlb (s : State) (sig : Nat) (l : Loc) (d : Nat) : (s.alarm sig l d).fabTlb = s.fabTlb := by
  obtain ⟨_, _, h⟩ := s.alarm_told sig l d; rw [h]
@[simp] theorem State.alarm_chans (s : State) (sig : Nat) (l : Loc) (d : Nat) : (s.alarm sig l d).chans = s.chans := by
  obtain ⟨_, _, h⟩ := s.alarm_told sig l d; rw [h]
@[simp] theorem State.alarm_layout (s : State) (sig : Nat) (l : Loc) (d : Nat) : (s.alarm sig l d).layout = s.layout := by
  obtain ⟨_, _, h⟩ := s.alarm_told sig l d; rw [h]
@[simp] theorem State.alarm_npus (s : State) (sig : Nat) (l : Loc) (d : Nat) : (s.alarm sig l d).npus = s.npus := by
  obtain ⟨_, _, h⟩ := s.alarm_told sig l d; rw [h]
@[simp] theorem State.alarm_runs (s : State) (sig : Nat) (l : Loc) (d : Nat) : (s.alarm sig l d).runs = s.runs := by
  obtain ⟨_, _, h⟩ := s.alarm_told sig l d; rw [h]
@[simp] theorem State.alarm_sched (s : State) (sig : Nat) (l : Loc) (d : Nat) : (s.alarm sig l d).sched = s.sched := by
  obtain ⟨_, _, h⟩ := s.alarm_told sig l d; rw [h]
@[simp] theorem State.alarm_queues (s : State) (sig : Nat) (l : Loc) (d : Nat) : (s.alarm sig l d).queues = s.queues := by
  obtain ⟨_, _, h⟩ := s.alarm_told sig l d; rw [h]
@[simp] theorem State.alarm_takeQ (s : State) (sig : Nat) (l : Loc) (d : Nat) : (s.alarm sig l d).takeQ = s.takeQ := by
  obtain ⟨_, _, h⟩ := s.alarm_told sig l d; rw [h]
@[simp] theorem State.alarm_idem (s : State) (sig : Nat) (l : Loc) (d : Nat) : (s.alarm sig l d).idem = s.idem := by
  obtain ⟨_, _, h⟩ := s.alarm_told sig l d; rw [h]
@[simp] theorem State.alarm_idemPtn (s : State) (sig : Nat) (l : Loc) (d : Nat) : (s.alarm sig l d).idemPtn = s.idemPtn := by
  obtain ⟨_, _, h⟩ := s.alarm_told sig l d; rw [h]
@[simp] theorem State.alarm_vault (s : State) (sig : Nat) (l : Loc) (d : Nat) : (s.alarm sig l d).vault = s.vault := by
  obtain ⟨_, _, h⟩ := s.alarm_told sig l d; rw [h]
@[simp] theorem State.alarm_fab (s : State) (sig : Nat) (l : Loc) (d : Nat) : (s.alarm sig l d).fab = s.fab := by
  obtain ⟨_, _, h⟩ := s.alarm_told sig l d; rw [h]
@[simp] theorem State.alarm_hif (s : State) (sig : Nat) (l : Loc) (d : Nat) : (s.alarm sig l d).hif = s.hif := by
  obtain ⟨_, _, h⟩ := s.alarm_told sig l d; rw [h]
@[simp] theorem State.alarm_mp (s : State) (sig : Nat) (l : Loc) (d : Nat) : (s.alarm sig l d).mp = s.mp := by
  obtain ⟨_, _, h⟩ := s.alarm_told sig l d; rw [h]
@[simp] theorem State.alarm_repairWait (s : State) (sig : Nat) (l : Loc) (d : Nat) : (s.alarm sig l d).repairWait = s.repairWait := by
  obtain ⟨_, _, h⟩ := s.alarm_told sig l d; rw [h]
@[simp] theorem State.alarm_lineDead (s : State) (sig : Nat) (l : Loc) (d : Nat) : (s.alarm sig l d).lineDead = s.lineDead := by
  obtain ⟨_, _, h⟩ := s.alarm_told sig l d; rw [h]
@[simp] theorem State.alarm_slots (s : State) (sig : Nat) (l : Loc) (d : Nat) : (s.alarm sig l d).slots = s.slots := by
  obtain ⟨_, _, h⟩ := s.alarm_told sig l d; rw [h]
@[simp] theorem State.alarm_cluInReset (s : State) (sig : Nat) (l : Loc) (d : Nat) : (s.alarm sig l d).cluInReset = s.cluInReset := by
  obtain ⟨_, _, h⟩ := s.alarm_told sig l d; rw [h]
@[simp] theorem State.alarm_cluDrain (s : State) (sig : Nat) (l : Loc) (d : Nat) : (s.alarm sig l d).cluDrain = s.cluDrain := by
  obtain ⟨_, _, h⟩ := s.alarm_told sig l d; rw [h]
@[simp] theorem State.alarm_resets (s : State) (sig : Nat) (l : Loc) (d : Nat) : (s.alarm sig l d).resets = s.resets := by
  obtain ⟨_, _, h⟩ := s.alarm_told sig l d; rw [h]
@[simp] theorem State.alarm_dbg (s : State) (sig : Nat) (l : Loc) (d : Nat) : (s.alarm sig l d).dbg = s.dbg := by
  obtain ⟨_, _, h⟩ := s.alarm_told sig l d; rw [h]
@[simp] theorem State.alarm_trc (s : State) (sig : Nat) (l : Loc) (d : Nat) : (s.alarm sig l d).trc = s.trc := by
  obtain ⟨_, _, h⟩ := s.alarm_told sig l d; rw [h]
@[simp] theorem State.alarm_pwr (s : State) (sig : Nat) (l : Loc) (d : Nat) : (s.alarm sig l d).pwr = s.pwr := by
  obtain ⟨_, _, h⟩ := s.alarm_told sig l d; rw [h]
@[simp] theorem State.alarm_free (s : State) (sig : Nat) (l : Loc) (d : Nat) : (s.alarm sig l d).free = s.free := by
  obtain ⟨_, _, h⟩ := s.alarm_told sig l d; rw [h]
@[simp] theorem State.alarm_pending (s : State) (sig : Nat) (l : Loc) (d : Nat) : (s.alarm sig l d).pending = s.pending := by
  obtain ⟨_, _, h⟩ := s.alarm_told sig l d; rw [h]
@[simp] theorem State.alarm_rd (s : State) (sig : Nat) (l : Loc) (d : Nat) (r : Reg) : (s.alarm sig l d).rd r = s.rd r :=
  (s.alarm_told sig l d).rd r
@[simp] theorem State.alarm_core (s : State) (sig : Nat) (l : Loc) (d e : Nat) : (s.alarm sig l d).core e = s.core e :=
  (s.alarm_told sig l d).core e

@[simp] theorem State.event_fuses (s : State) (sig : Nat) (l : Loc) (d : Nat) : (s.event sig l d).fuses = s.fuses := by
  obtain ⟨_, _, h⟩ := s.event_told sig l d; rw [h]
@[simp] theorem State.event_cores (s : State) (sig : Nat) (l : Loc) (d : Nat) : (s.event sig l d).cores = s.cores := by
  obtain ⟨_, _, h⟩ := s.event_told sig l d; rw [h]
@[simp] theorem State.event_regs (s : State) (sig : Nat) (l : Loc) (d : Nat) : (s.event sig l d).regs = s.regs := by
  obtain ⟨_, _, h⟩ := s.event_told sig l d; rw [h]
@[simp] theorem State.event_mem (s : State) (sig : Nat) (l : Loc) (d : Nat) : (s.event sig l d).mem = s.mem := by
  obtain ⟨_, _, h⟩ := s.event_told sig l d; rw [h]
@[simp] theorem State.event_tags (s : State) (sig : Nat) (l : Loc) (d : Nat) : (s.event sig l d).tags = s.tags := by
  obtain ⟨_, _, h⟩ := s.event_told sig l d; rw [h]
@[simp] theorem State.event_keys (s : State) (sig : Nat) (l : Loc) (d : Nat) : (s.event sig l d).keys = s.keys := by
  obtain ⟨_, _, h⟩ := s.event_told sig l d; rw [h]
@[simp] theorem State.event_postClass (s : State) (sig : Nat) (l : Loc) (d : Nat) : (s.event sig l d).postClass = s.postClass := by
  obtain ⟨_, _, h⟩ := s.event_told sig l d; rw [h]
@[simp] theorem State.event_shipWait (s : State) (sig : Nat) (l : Loc) (d : Nat) : (s.event sig l d).shipWait = s.shipWait := by
  obtain ⟨_, _, h⟩ := s.event_told sig l d; rw [h]
@[simp] theorem State.event_lines (s : State) (sig : Nat) (l : Loc) (d : Nat) : (s.event sig l d).lines = s.lines := by
  obtain ⟨_, _, h⟩ := s.event_told sig l d; rw [h]
@[simp] theorem State.event_fabTlb (s : State) (sig : Nat) (l : Loc) (d : Nat) : (s.event sig l d).fabTlb = s.fabTlb := by
  obtain ⟨_, _, h⟩ := s.event_told sig l d; rw [h]
@[simp] theorem State.event_chans (s : State) (sig : Nat) (l : Loc) (d : Nat) : (s.event sig l d).chans = s.chans := by
  obtain ⟨_, _, h⟩ := s.event_told sig l d; rw [h]
@[simp] theorem State.event_layout (s : State) (sig : Nat) (l : Loc) (d : Nat) : (s.event sig l d).layout = s.layout := by
  obtain ⟨_, _, h⟩ := s.event_told sig l d; rw [h]
@[simp] theorem State.event_npus (s : State) (sig : Nat) (l : Loc) (d : Nat) : (s.event sig l d).npus = s.npus := by
  obtain ⟨_, _, h⟩ := s.event_told sig l d; rw [h]
@[simp] theorem State.event_runs (s : State) (sig : Nat) (l : Loc) (d : Nat) : (s.event sig l d).runs = s.runs := by
  obtain ⟨_, _, h⟩ := s.event_told sig l d; rw [h]
@[simp] theorem State.event_sched (s : State) (sig : Nat) (l : Loc) (d : Nat) : (s.event sig l d).sched = s.sched := by
  obtain ⟨_, _, h⟩ := s.event_told sig l d; rw [h]
@[simp] theorem State.event_queues (s : State) (sig : Nat) (l : Loc) (d : Nat) : (s.event sig l d).queues = s.queues := by
  obtain ⟨_, _, h⟩ := s.event_told sig l d; rw [h]
@[simp] theorem State.event_takeQ (s : State) (sig : Nat) (l : Loc) (d : Nat) : (s.event sig l d).takeQ = s.takeQ := by
  obtain ⟨_, _, h⟩ := s.event_told sig l d; rw [h]
@[simp] theorem State.event_idem (s : State) (sig : Nat) (l : Loc) (d : Nat) : (s.event sig l d).idem = s.idem := by
  obtain ⟨_, _, h⟩ := s.event_told sig l d; rw [h]
@[simp] theorem State.event_idemPtn (s : State) (sig : Nat) (l : Loc) (d : Nat) : (s.event sig l d).idemPtn = s.idemPtn := by
  obtain ⟨_, _, h⟩ := s.event_told sig l d; rw [h]
@[simp] theorem State.event_vault (s : State) (sig : Nat) (l : Loc) (d : Nat) : (s.event sig l d).vault = s.vault := by
  obtain ⟨_, _, h⟩ := s.event_told sig l d; rw [h]
@[simp] theorem State.event_fab (s : State) (sig : Nat) (l : Loc) (d : Nat) : (s.event sig l d).fab = s.fab := by
  obtain ⟨_, _, h⟩ := s.event_told sig l d; rw [h]
@[simp] theorem State.event_hif (s : State) (sig : Nat) (l : Loc) (d : Nat) : (s.event sig l d).hif = s.hif := by
  obtain ⟨_, _, h⟩ := s.event_told sig l d; rw [h]
@[simp] theorem State.event_mp (s : State) (sig : Nat) (l : Loc) (d : Nat) : (s.event sig l d).mp = s.mp := by
  obtain ⟨_, _, h⟩ := s.event_told sig l d; rw [h]
@[simp] theorem State.event_repairWait (s : State) (sig : Nat) (l : Loc) (d : Nat) : (s.event sig l d).repairWait = s.repairWait := by
  obtain ⟨_, _, h⟩ := s.event_told sig l d; rw [h]
@[simp] theorem State.event_lineDead (s : State) (sig : Nat) (l : Loc) (d : Nat) : (s.event sig l d).lineDead = s.lineDead := by
  obtain ⟨_, _, h⟩ := s.event_told sig l d; rw [h]
@[simp] theorem State.event_slots (s : State) (sig : Nat) (l : Loc) (d : Nat) : (s.event sig l d).slots = s.slots := by
  obtain ⟨_, _, h⟩ := s.event_told sig l d; rw [h]
@[simp] theorem State.event_cluInReset (s : State) (sig : Nat) (l : Loc) (d : Nat) : (s.event sig l d).cluInReset = s.cluInReset := by
  obtain ⟨_, _, h⟩ := s.event_told sig l d; rw [h]
@[simp] theorem State.event_cluDrain (s : State) (sig : Nat) (l : Loc) (d : Nat) : (s.event sig l d).cluDrain = s.cluDrain := by
  obtain ⟨_, _, h⟩ := s.event_told sig l d; rw [h]
@[simp] theorem State.event_resets (s : State) (sig : Nat) (l : Loc) (d : Nat) : (s.event sig l d).resets = s.resets := by
  obtain ⟨_, _, h⟩ := s.event_told sig l d; rw [h]
@[simp] theorem State.event_dbg (s : State) (sig : Nat) (l : Loc) (d : Nat) : (s.event sig l d).dbg = s.dbg := by
  obtain ⟨_, _, h⟩ := s.event_told sig l d; rw [h]
@[simp] theorem State.event_trc (s : State) (sig : Nat) (l : Loc) (d : Nat) : (s.event sig l d).trc = s.trc := by
  obtain ⟨_, _, h⟩ := s.event_told sig l d; rw [h]
@[simp] theorem State.event_pwr (s : State) (sig : Nat) (l : Loc) (d : Nat) : (s.event sig l d).pwr = s.pwr := by
  obtain ⟨_, _, h⟩ := s.event_told sig l d; rw [h]
@[simp] theorem State.event_free (s : State) (sig : Nat) (l : Loc) (d : Nat) : (s.event sig l d).free = s.free := by
  obtain ⟨_, _, h⟩ := s.event_told sig l d; rw [h]
@[simp] theorem State.event_pending (s : State) (sig : Nat) (l : Loc) (d : Nat) : (s.event sig l d).pending = s.pending := by
  obtain ⟨_, _, h⟩ := s.event_told sig l d; rw [h]
@[simp] theorem State.event_rd (s : State) (sig : Nat) (l : Loc) (d : Nat) (r : Reg) : (s.event sig l d).rd r = s.rd r :=
  (s.event_told sig l d).rd r
@[simp] theorem State.event_core (s : State) (sig : Nat) (l : Loc) (d e : Nat) : (s.event sig l d).core e = s.core e :=
  (s.event_told sig l d).core e

end Sys2Proof.Machine
end

