-- ==== Sys2Proof/Laws/Memory.lean ====
section
/-!
SUPPORT. The laws of memory: read after write, and that every operation on memory keeps its canonical form.
-/
namespace Sys2Proof.Machine

/-! Bytes. -/

/-- Read after write of one byte. -/
@[simp] theorem Memory.read_write (m : List Host.Cell) (a a' : Nat) (b : Byte) :
    Memory.read (Memory.write m a b) a' = if a' = a then b else Memory.read m a' := by
  simp [Memory.read, Memory.write]

/-- Read after a write of consecutive bytes: inside the bytes what was written, outside what was there. -/
theorem Memory.read_writeBytes (m : List Host.Cell) (a a' : Nat) (bs : List Byte) :
    Memory.read (Memory.writeBytes m a bs) a' =
      if a ≤ a' ∧ a' < a + bs.length then bs.getD (a' - a) 0 else Memory.read m a' := by
  induction bs generalizing m a with
  | nil => simp only [Memory.writeBytes, List.length_nil]; rw [if_neg (by omega)]
  | cons b bs ih =>
    simp only [Memory.writeBytes, ih, Memory.read_write, List.length_cons]
    by_cases h : a' = a
    · subst h
      rw [if_neg (by omega), if_pos rfl, if_pos (by omega)]; simp
    · rw [if_neg h]
      by_cases h1 : a + 1 ≤ a' ∧ a' < a + 1 + bs.length
      · rw [if_pos h1, if_pos (by omega), show a' - a = (a' - (a + 1)) + 1 by omega]; simp
      · rw [if_neg h1, if_neg (by omega)]

/-- A write of consecutive bytes leaves every other byte alone. -/
theorem Memory.read_writeBytes_ne (m : List Host.Cell) (a a' : Nat) (bs : List Byte)
    (h : a' < a ∨ a + bs.length ≤ a') : Memory.read (Memory.writeBytes m a bs) a' = Memory.read m a' := by
  rw [Memory.read_writeBytes, if_neg (by omega)]

/-- The bytes just written are read back. -/
theorem Memory.readBytes_writeBytes (m : List Host.Cell) (a : Nat) (bs : List Byte) :
    Memory.readBytes (Memory.writeBytes m a bs) a bs.length = bs := by
  have key : ∀ (cs ds : List Byte) (b : Nat), (∀ i < cs.length, Memory.read (Memory.writeBytes m a bs) (b + i) = cs.getD i 0)
      → Memory.readBytes (Memory.writeBytes m a bs) b cs.length = cs := by
    intro cs _
    induction cs with
    | nil => intros; rfl
    | cons c cs ih =>
      intro b h
      have h0 := h 0 (by simp)
      simp only [Nat.add_zero, List.getD_cons_zero] at h0
      simp only [List.length_cons, Memory.readBytes, h0]
      rw [ih (b + 1) fun i hi => by have := h (i + 1) (by simpa using hi); simpa [Nat.add_comm, Nat.add_left_comm] using this]
  refine key bs [] a fun i hi => ?_
  rw [Memory.read_writeBytes, if_pos (by omega), Nat.add_sub_cancel_left]

/-! The canonical form. -/

theorem Memory.write_wf (m : List Host.Cell) (a : Nat) (b : Byte) (h : Memory.wf m = true) :
    Memory.wf (Memory.write m a b) = true := sset_wf _ _ _ _ h

theorem Memory.writeBytes_wf (m : List Host.Cell) (a : Nat) (bs : List Byte) (h : Memory.wf m = true) :
    Memory.wf (Memory.writeBytes m a bs) = true := by
  induction bs generalizing m a with
  | nil => exact h
  | cons b bs ih => exact ih _ _ (Memory.write_wf m a b h)

/-- The memory of s is in canonical form. -/
def State.MemOk (s : State) : Prop := Memory.wf s.mem = true

theorem State.MemOk.of_mem {s t : State} (h : s.MemOk) (e : t.mem = s.mem) : t.MemOk := by
  unfold State.MemOk; rw [e]; exact h

theorem State.otherWrite_mem (s : State) (pa : Nat) : (s.otherWrite pa).mem = s.mem := rfl

theorem State.putWord_memOk (s : State) (pa : Nat) (v : TWord) (h : s.MemOk) : (s.putWord pa v).MemOk :=
  Memory.writeBytes_wf _ _ _ h

theorem State.storeWord_memOk (s : State) (pa : Nat) (v : TWord) (h : s.MemOk) : (s.storeWord pa v).MemOk :=
  State.putWord_memOk _ _ _ h

theorem State.storeByte_memOk (s : State) (pa : Nat) (b : Byte) (h : s.MemOk) : (s.storeByte pa b).MemOk :=
  Memory.write_wf _ _ _ h

theorem State.storeBytes_memOk (s : State) (pa : Nat) (bs : List Byte) (h : s.MemOk) : (s.storeBytes pa bs).MemOk := by
  induction bs generalizing s pa with
  | nil => exact h
  | cons b bs ih => exact ih _ _ (s.storeByte_memOk pa b h)

theorem State.clearArea_memOk (s : State) (a n : Nat) (h : s.MemOk) : (s.clearArea a n).MemOk := by
  have h := (smapWf_iff _ _).1 h
  exact (smapWf_iff _ _).2 ⟨h.1.filter _, fun p hp => h.2 p (List.mem_filter.1 hp).1⟩

theorem State.poisonLine_memOk (s : State) (pa : Nat) (h : s.MemOk) : (s.poisonLine pa).MemOk := h
theorem State.setFrameKey_memOk (s : State) (pa k : Nat) (fp : Bool) (h : s.MemOk) : (s.setFrameKey pa k fp).MemOk := h

/-- A fold over operations that keep the canonical form keeps it. -/
theorem State.memOk_foldl {α : Type} (f : State → α → State) (step : ∀ s a, s.MemOk → (f s a).MemOk) (l : List α)
    (s : State) (h : s.MemOk) : (l.foldl f s).MemOk := by
  induction l generalizing s with
  | nil => exact h
  | cons a l ih => exact ih _ (step s a h)

theorem reset_memOk : State.reset.MemOk := rfl

/-! Words. -/

/-- A word that is put into memory, byte by byte. -/
theorem State.putWord_read (s : State) (pa : Nat) (v : TWord) (a : Nat) :
    Memory.read (s.putWord pa v).mem a =
      if pa / 8 * 8 ≤ a ∧ a < pa / 8 * 8 + (toBytes 8 v.val.toNat).length then (toBytes 8 v.val.toNat).getD (a - pa / 8 * 8) 0
      else Memory.read s.mem a :=
  Memory.read_writeBytes _ _ _ _

/-- The tags after a word is put into memory. -/
theorem State.putWord_tags (s : State) (pa : Nat) (v : TWord) (n : Nat) :
    sget tRAW (s.putWord pa v).tags n = if n = pa / 8 then v.tag else sget tRAW s.tags n := by
  simp [State.putWord]

end Sys2Proof.Machine
end

