-- ==== Sys2Proof/Laws/Op.lean ====
section
/-!
SUPPORT. How the operations of an instruction compute: the laws of the operation monad, of the small operations, and of
the bank that an instruction changes.
-/
namespace Sys2Proof.Machine

variable {α β : Type}

theorem op_bind (a : Op α) (f : α → Op β) (x : Cx) :
    (a >>= f) x = match a x with | .ok v y => f v y | .error r y => .error r y := by
  simp only [bind, EStateM.bind]
  cases a x <;> rfl

@[simp] theorem op_pure (v : α) (x : Cx) : (pure v : Op α) x = .ok v x := rfl
@[simp] theorem op_throw (r : Stop) (x : Cx) : (throw r : Op α) x = .error r x := rfl
@[simp] theorem op_get (x : Cx) : (get : Op Cx) x = .ok x x := rfl
@[simp] theorem op_set (x y : Cx) : (set y : Op PUnit) x = .ok ⟨⟩ y := rfl
@[simp] theorem op_modify (f : Cx → Cx) (x : Cx) : (modify f : Op PUnit) x = .ok ⟨⟩ (f x) := rfl
@[simp] theorem op_cx (x : Cx) : cx x = .ok x x := rfl
@[simp] theorem op_modC (f : Core → Core) (x : Cx) : modC f x = .ok () { x with c := f x.c } := rfl
@[simp] theorem op_modS (f : State → State) (x : Cx) : modS f x = .ok () { x with s := f x.s } := rfl
@[simp] theorem op_modB (f : Bank → Bank) (x : Cx) : modB f x = .ok () { x with c := x.c.setCur (f x.c.cur) } := rfl
@[simp] theorem op_curB (x : Cx) : curB x = .ok x.c.cur x := rfl
@[simp] theorem op_privNow (x : Cx) : privNow x = .ok (pPRIV x.c.cur.psw) x := rfl
@[simp] theorem op_addCost (n : Nat) (x : Cx) : addCost n x = .ok () { x with cost := x.cost + n } := rfl
@[simp] theorem op_setCost (n : Nat) (x : Cx) : setCost n x = .ok () { x with cost := n } := rfl
@[simp] theorem op_done (n : Nat) (x : Cx) :
    done n x = .ok () { x with cost := x.cost + (n - 1), xcost := x.cost + (n - 1) } := rfl
@[simp] theorem op_goTo (pc : Word) (x : Cx) : goTo pc x = .ok () { x with npc := pc } := rfl
@[simp] theorem op_baseUpdate (w n : Nat) (x : Cx) :
    baseUpdate w n x = .ok () { x with c := x.c.setCur (x.c.cur.based w n) } := rfl
@[simp] theorem op_baseUpdateFrom (w n : Nat) (b0 : Bank) (x : Cx) :
    baseUpdateFrom w n b0 x = .ok () { x with c := x.c.setCur (Bank.basedFrom w n b0 x.c.cur) } := rfl
@[simp] theorem op_raiseExc (q : Exc) (x : Cx) : (raiseExc q : Op α) x = .error (.exc q) x := rfl
@[simp] theorem op_raiseV (v d : Nat) (x : Cx) :
    (raiseV v d : Op α) x = .error (.exc ⟨v, d, none, false, false, false⟩) x := rfl
@[simp] theorem op_raiseA (v d a : Nat) (wr sp : Bool) (x : Cx) :
    (raiseA v d a wr sp : Op α) x = .error (.exc ⟨v, d, some a, wr, sp, false⟩) x := rfl
@[simp] theorem op_illegal (x : Cx) :
    (illegal : Op α) x = .error (.exc ⟨vILLEGAL_OPCODE, x.w, none, false, false, false⟩) x := rfl
@[simp] theorem op_privFault (x : Cx) :
    (privFault : Op α) x = .error (.exc ⟨vPRIVILEGE, x.w, none, false, false, false⟩) x := rfl
@[simp] theorem op_setFlag (i : Nat) (b : Bool) (x : Cx) :
    setFlag i b x = .ok () { x with c := x.c.setCur { x.c.cur with psw := setBit x.c.cur.psw i b } } := rfl
@[simp] theorem op_flagsZN (z n : Bool) (x : Cx) :
    flagsZN z n x = .ok () { x with c := x.c.setCur { x.c.cur with psw := pswZN x.c.cur.psw z n } } := rfl
@[simp] theorem op_flagsZNV (z n v : Bool) (x : Cx) :
    flagsZNV z n v x = .ok () { x with c := x.c.setCur { x.c.cur with psw := pswZNV x.c.cur.psw z n v } } := rfl
@[simp] theorem op_flagsZNCV (z n c v : Bool) (x : Cx) :
    flagsZNCV z n c v x = .ok () { x with c := x.c.setCur { x.c.cur with psw := pswZNCV x.c.cur.psw z n c v } } := rfl

/-- The tag checks of an operand pass for a tag that is permitted. -/
theorem needTag_ok (t : Tag) (b : Bool) (n : Nat) (hb : b = true) (hp : t ≠ tPOISON) (hr : tagReserved t = false) :
    needTag t b n = pure () := by
  simp [needTag, hb, hp, hr]

@[simp] theorem needTag_int (n : Nat) : needTag tINT true n = pure () := rfl
@[simp] theorem needTag_ptr (n : Nat) : needTag tPTR true n = pure () := rfl
@[simp] theorem needTag_code (n : Nat) : needTag tCODE true n = pure () := rfl
@[simp] theorem needTag_desc (n : Nat) : needTag tDESC true n = pure () := rfl
@[simp] theorem needTag_raw (n : Nat) : needTag tRAW true n = pure () := rfl

/-! The bank that an instruction changes. -/

@[simp] theorem bank_setBank (c : Core) (a b : Nat) (v : Bank) :
    (c.setBank a v).bank b = if b = a then v else c.bank b := by
  simp [Core.bank, Core.setBank]

@[simp] theorem cur_setCur (c : Core) (v : Bank) : (c.setCur v).cur = v := by
  simp only [Core.cur, Core.setCur]
  rw [show (c.setBank c.lev v).lev = c.lev from rfl, bank_setBank, if_pos rfl]

@[simp] theorem setCur_setCur (c : Core) (v v' : Bank) : (c.setCur v).setCur v' = c.setCur v' := by
  simp [Core.setCur, Core.setBank]

@[simp] theorem lev_setCur (c : Core) (v : Bank) : (c.setCur v).lev = c.lev := rfl

@[simp] theorem basedFrom_psw (w n : Nat) (b0 b : Bank) : (Bank.basedFrom w n b0 b).psw = b.psw := by
  unfold Bank.basedFrom; split
  · rfl
  · split <;> rfl

@[simp] theorem based_psw (w n : Nat) (b : Bank) : (b.based w n).psw = b.psw := basedFrom_psw w n b b

@[simp] theorem basedFrom_acc (w n : Nat) (b0 b : Bank) : (Bank.basedFrom w n b0 b).acc = b.acc := by
  unfold Bank.basedFrom; split
  · rfl
  · split <;> rfl

@[simp] theorem based_acc (w n : Nat) (b : Bank) : (b.based w n).acc = b.acc := basedFrom_acc w n b b

@[simp] theorem basedFrom_aex (w n : Nat) (b0 b : Bank) : (Bank.basedFrom w n b0 b).aex = b.aex := by
  unfold Bank.basedFrom; split
  · rfl
  · split <;> rfl

@[simp] theorem based_aex (w n : Nat) (b : Bank) : (b.based w n).aex = b.aex := basedFrom_aex w n b b

/-- The word operand of an instruction, where its tag is the required one. -/
theorem memOperandTag_ok {w x : BitVec 32} {ok : Tag → Bool} {y z : Cx} {v : TWord}
    (h : memOperand w x y = .ok v z) (hok : ok v.tag = true) : memOperandTag w x ok y = .ok v z := by
  simp only [memOperand, memOperandTag, op_bind] at h ⊢
  split at h
  · rename_i a u _
    cases hl : loadWord a u with
    | ok q r => rw [hl] at h; change EStateM.Result.ok q r = _ at h; cases h; dsimp only; rw [if_pos hok]; rfl
    | error q r => rw [hl] at h; cases h
  · cases h

/-! What an operation keeps. -/

/-- Whatever the operation answers, its context before and after are related by R. -/
def Within (R : Cx → Cx → Prop) (a : Op α) : Prop :=
  ∀ x, match a x with | .ok _ y => R x y | .error _ y => R x y

theorem Within.ok {R : Cx → Cx → Prop} {a : Op α} (h : Within R a) {x y : Cx} {v : α} (e : a x = .ok v y) : R x y := by
  have := h x; rwa [e] at this

theorem Within.error {R : Cx → Cx → Prop} {a : Op α} (h : Within R a) {x y : Cx} {r : Stop} (e : a x = .error r y) :
    R x y := by
  have := h x; rwa [e] at this

/-- A relation that holds of a context and itself, and is transitive. -/
structure Preorder' (R : Cx → Cx → Prop) : Prop where
  refl : ∀ x, R x x
  trans : ∀ x y z, R x y → R y z → R x z

theorem within_bind {R : Cx → Cx → Prop} (hR : Preorder' R) {a : Op α} {f : α → Op β} (ha : Within R a)
    (hf : ∀ v, Within R (f v)) : Within R (a >>= f) := by
  intro x
  rw [op_bind]
  have h1 := ha x
  cases e : a x with
  | error r y => rw [e] at h1; exact h1
  | ok v y =>
    rw [e] at h1
    have h2 := hf v y
    cases e2 : f v y with
    | error r z => rw [e2] at h2; simp only [e2]; exact hR.trans _ _ _ h1 h2
    | ok u z => rw [e2] at h2; simp only [e2]; exact hR.trans _ _ _ h1 h2

theorem within_pure {R : Cx → Cx → Prop} (hR : Preorder' R) (v : α) : Within R (pure v : Op α) := fun x => hR.refl x
theorem within_throw {R : Cx → Cx → Prop} (hR : Preorder' R) (r : Stop) : Within R (throw r : Op α) :=
  fun x => hR.refl x
theorem within_raiseExc {R : Cx → Cx → Prop} (hR : Preorder' R) (q : Exc) : Within R (raiseExc q : Op α) :=
  fun x => hR.refl x
theorem within_raiseV {R : Cx → Cx → Prop} (hR : Preorder' R) (v d : Nat) : Within R (raiseV v d : Op α) :=
  fun x => hR.refl x
theorem within_raiseA {R : Cx → Cx → Prop} (hR : Preorder' R) (v d a : Nat) (w s : Bool) :
    Within R (raiseA v d a w s : Op α) := fun x => hR.refl x
theorem within_cx {R : Cx → Cx → Prop} (hR : Preorder' R) : Within R cx := fun x => hR.refl x

theorem within_needTag {R : Cx → Cx → Prop} (hR : Preorder' R) (t : Tag) (b : Bool) (n : Nat) :
    Within R (needTag t b n) := by
  unfold needTag
  split
  · exact within_raiseV hR _ _
  split
  · exact within_raiseV hR _ _
  · exact within_pure hR _

theorem eq_preorder : Preorder' Eq := ⟨fun _ => rfl, fun _ _ _ => Eq.trans⟩

/-- Forming an address reads the core and changes nothing. -/
theorem within_formEa {R : Cx → Cx → Prop} (hR : Preorder' R) (w : Nat) (d : Int) (n : Nat) (wr : Bool) :
    Within R (formEa w d n wr) := by
  unfold formEa
  refine within_bind hR (within_cx hR) fun x => ?_
  dsimp only
  repeat' first
    | exact within_pure hR _
    | exact within_raiseExc hR _
    | exact within_raiseA hR _ _ _ _ _
    | refine within_bind hR (within_needTag hR _ _ _) fun _ => ?_
    | split

theorem formEa_ok {w : Nat} {d : Int} {n : Nat} {wr : Bool} {x y : Cx} {ea : Nat}
    (h : formEa w d n wr x = .ok ea y) : y = x :=
  ((within_formEa eq_preorder w d n wr).ok h).symm

/-- Forming an address for an A-format instruction reads the core and changes nothing. -/
theorem within_formA {R : Cx → Cx → Prop} (hR : Preorder' R) (w : Nat) (d : Int) : Within R (formA w d) := by
  unfold formA
  refine within_bind hR (within_cx hR) fun x => ?_
  dsimp only
  split
  · exact within_raiseA hR _ _ _ _ _
  · exact within_pure hR _

theorem formA_ok {w : Nat} {d : Int} {x y : Cx} {ea : Nat} (h : formA w d x = .ok ea y) : y = x :=
  ((within_formA eq_preorder w d).ok h).symm

end Sys2Proof.Machine
end

