-- ==== Sys2Proof/WellFormed.lean ====
section
/-!
DEFINITION. Which commands are well formed: a core instruction carries a word of its own opcode (R148), an extension word only
in the long form (R74), and what comes from outside has the length that its rule gives. exec takes every command; an ill-formed
one is no command that the spec's device receives.
-/
namespace Sys2Proof

open Sys2Proof.Machine

/-- The words of a core instruction and the opcodes of its row (R148), first and last: a floating-point row has one per
format, the customer slots sixteen. -/
def Instr.words : Instr → Option (BitVec 32 × BitVec 32 × Nat × Nat)
  | .nop _ w x => some (w, x, 0x01, 0x01)
  | .jmp _ w x => some (w, x, 0x02, 0x02)
  | .call _ w x => some (w, x, 0x03, 0x03)
  | .ret _ w x => some (w, x, 0x04, 0x04)
  | .retl _ w x => some (w, x, 0x05, 0x05)
  | .svc _ w x => some (w, x, 0x06, 0x06)
  | .sync _ w x => some (w, x, 0x07, 0x07)
  | .wait _ w x => some (w, x, 0x08, 0x08)
  | .dispatch _ w x => some (w, x, 0x09, 0x09)
  | .yieldEnd _ w x => some (w, x, 0x0A, 0x0A)
  | .yieldSus _ w x => some (w, x, 0x0B, 0x0B)
  | .rep _ _ w x _ => some (w, x, fOPC w.toNat, fOPC w.toNat)
  | .csrr _ w x => some (w, x, 0x0D, 0x0D)
  | .csrw _ w x => some (w, x, 0x0E, 0x0E)
  | .invt _ w x => some (w, x, 0x0F, 0x0F)
  | .invta _ w x => some (w, x, 0x2F, 0x2F)
  | .ld _ w x => some (w, x, 0x10, 0x10)
  | .st _ w x => some (w, x, 0x11, 0x11)
  | .lde _ w x => some (w, x, 0x12, 0x12)
  | .ste _ w x => some (w, x, 0x13, 0x13)
  | .lea _ w x => some (w, x, 0x14, 0x14)
  | .add _ w x => some (w, x, 0x15, 0x15)
  | .sub _ w x => some (w, x, 0x16, 0x16)
  | .cmp _ w x => some (w, x, 0x17, 0x17)
  | .andAcc _ w x => some (w, x, 0x18, 0x18)
  | .orAcc _ w x => some (w, x, 0x19, 0x19)
  | .xor _ w x => some (w, x, 0x1A, 0x1A)
  | .shl _ w x => some (w, x, 0x1B, 0x1B)
  | .shr _ w x => some (w, x, 0x1C, 0x1C)
  | .sar _ w x => some (w, x, 0x1D, 0x1D)
  | .mul _ w x => some (w, x, 0x1E, 0x1E)
  | .mulu _ w x => some (w, x, 0x1F, 0x1F)
  | .div _ w x => some (w, x, 0x20, 0x20)
  | .divu _ w x => some (w, x, 0x21, 0x21)
  | .stm _ w x => some (w, x.ext, 0x22, 0x22)
  | .ldm _ w x => some (w, x.ext, 0x23, 0x23)
  | .mov _ w x => some (w, x, 0x30, 0x30)
  | .ldi _ w x => some (w, x, 0x31, 0x31)
  | .xadd _ w x => some (w, x, 0x32, 0x32)
  | .xsub _ w x => some (w, x, 0x33, 0x33)
  | .xcmp _ w x => some (w, x, 0x34, 0x34)
  | .ttst _ w x => some (w, x, 0x40, 0x40)
  | .tagset _ w x => some (w, x, 0x41, 0x41)
  | .ttstm _ w x => some (w, x, 0x42, 0x42)
  | .tagsetm _ w x => some (w, x, 0x43, 0x43)
  | .dadd _ w x => some (w, x, 0x50, 0x50)
  | .dsub _ w x => some (w, x, 0x51, 0x51)
  | .dmul _ w x => some (w, x, 0x52, 0x52)
  | .ddiv _ w x => some (w, x, 0x53, 0x53)
  | .dcmp _ w x => some (w, x, 0x54, 0x54)
  | .dset _ w x => some (w, x, 0x55, 0x55)
  | .dsrp _ w x => some (w, x, 0x56, 0x56)
  | .dadj _ w x => some (w, x, 0x57, 0x57)
  | .pack _ w x => some (w, x, 0x58, 0x58)
  | .unpk _ w x => some (w, x, 0x59, 0x59)
  | .dcvb _ w x => some (w, x, 0x5A, 0x5A)
  | .dcvd _ w x => some (w, x, 0x5B, 0x5B)
  | .mvs _ w x => some (w, x, 0x60, 0x60)
  | .mvsr _ w x => some (w, x, 0x61, 0x61)
  | .cms _ w x => some (w, x, 0x62, 0x62)
  | .trn _ w x => some (w, x, 0x63, 0x63)
  | .trt _ w x => some (w, x, 0x64, 0x64)
  | .srch _ w x => some (w, x, 0x65, 0x65)
  | .edit _ w x => some (w, x, 0x66, 0x66)
  | .edmk _ w x => some (w, x, 0x67, 0x67)
  | .post _ w x => some (w, x, 0x70, 0x70)
  | .postr _ w x => some (w, x, 0x71, 0x71)
  | .pread _ w x => some (w, x, 0x72, 0x72)
  | .rread _ w x => some (w, x, 0x73, 0x73)
  | .fadd _ w x => some (w, x, 0x80, 0x83)
  | .fsub _ w x => some (w, x, 0x84, 0x87)
  | .fmul _ w x => some (w, x, 0x88, 0x8B)
  | .fdiv _ w x => some (w, x, 0x8C, 0x8F)
  | .fmad _ w x => some (w, x, 0x90, 0x93)
  | .fsqrt _ w x => some (w, x, 0x94, 0x97)
  | .fcmp _ w x => some (w, x, 0x98, 0x9B)
  | .fcmps _ w x => some (w, x, 0x9C, 0x9F)
  | .fcvt _ w x => some (w, x, 0xA0, 0xA3)
  | .fcvti _ w x => some (w, x, 0xA4, 0xA7)
  | .fcvtf _ w x => some (w, x, 0xA8, 0xAB)
  | .fneg _ w x => some (w, x, 0xAC, 0xAF)
  | .fabs _ w x => some (w, x, 0xB0, 0xB3)
  | .customerInstruction _ w x => some (w, x, 0xF0, 0xFF)
  | _ => none

/-- The word has an opcode of its row (R148). -/
def Instr.opcodeOk (i : Instr) : Bool :=
  match i with
  | .rep _ r _ _ _ => fOPC r.toNat == 0x0C
  | _ => match i.words with
    | some (w, _, lo, hi) => decide (lo ≤ fOPC w.toNat) && decide (fOPC w.toNat ≤ hi)
    | none => true

/-- A word in the short form has no extension word (R74): it is given as 0. -/
def Instr.extensionOk (i : Instr) : Bool :=
  match i.words with
  | some (w, x, _, _) => fL w.toNat || x == 0
  | none => true

/-- An image of a frame holds 4,096 bytes and 512 tags (R280). -/
def frameImgOk (f : FrameImg) : Bool := f.bytes.length == 4096 && f.tags.length == 512

/-- A descriptor that was read has 512 bytes (R329), a line 8 words and a frame 512 (R279), a frame image its size (R280), and a host buffer
that was read at least DLEN bytes (R457). -/
def Instr.lengthsOk : Instr → Bool
  | .descriptorFetch _ ok bytes => !ok || bytes.length == 512
  | .repairComplete _ ws => ws.length == 8 || ws.length == 512
  | .tables _ t => t.frames.all frameImgOk
  | .restore _ t _ => t.frames.all frameImgOk
  | .postlog _ (.tick p) => p.images.all frameImgOk
  | .omiLedgerLoad _ _ _ image => image.all frameImgOk
  | .omiMicrocodeLoad _ rq env => !env.dmaOk || decide (rq.dlen ≤ env.buf.length)
  | .omiCredentialEnroll _ rq env => !env.dmaOk || decide (rq.dlen ≤ env.buf.length)
  | .omiTablesShip _ rq env => !env.dmaOk || decide (rq.dlen ≤ env.buf.length)
  | .vrAlert stat => decide (stat.length ≤ 8)
  | .pmbusPoll rs => decide (rs.length ≤ 8)
  | .temperatureSample t0 t1 t2 => decide (t0.length ≤ 16) && decide (t1.length ≤ 16) && decide (t2.length ≤ 8)
  | .coldReset env => decide (env.dimms.length ≤ 12) && decide (env.micro.length ≤ 16384) && decide (env.nano.length ≤ 2048)
  | .vendorReleaseRoll _ _ micro nano _ => decide (micro.length ≤ 16384) && decide (nano.length ≤ 2048)
  | _ => true

/-- Positions are those of a slot, at most three (R359), and members those of the management processor (R455). -/
def Instr.positionsOk : Instr → Bool
  | .lockstepMismatch _ _ _ _ (some p) => decide (p < 3)
  | .sampleDisagree _ _ (some p) => decide (p < 3)
  | .triageComplete _ _ failed => failed.all (· < 3)
  | .mpPairMismatch failed => failed.all (· < 3)
  | .clusterReset c fail _ => fail.all fun e => e / 8 == c.val
  | _ => true

/-- The command is well formed. -/
def Instr.wellFormed (i : Instr) : Bool := i.opcodeOk && i.extensionOk && i.lengthsOk && i.positionsOk

end Sys2Proof
end

