-- ==== Sys2Proof/Tests/Slice0.lean ====
section
/-!
SUPPORT. Tests: an ill-formed command for each check of WellFormed, small steps against values worked out from the rules, and for
each statement states and operands that meet its hypotheses (names beginning witness_).
-/
namespace Sys2Proof.Tests

open Sys2Proof.Machine

set_option Elab.async false

/-! Small states. -/

/-- The result of an operation is a value and a context that p accepts. -/
def okP {α : Type} (r : EStateM.Result Stop Cx α) (p : α → Cx → Bool) : Bool :=
  match r with
  | .ok v z => p v z
  | .error _ _ => false

theorem okP_spec {α : Type} {r : EStateM.Result Stop Cx α} {p : α → Cx → Bool} (h : okP r p = true) :
    ∃ v z, r = .ok v z ∧ p v z = true := by
  cases r with
  | ok v z => exact ⟨v, z, rfl, h⟩
  | error r z => cases h

/-- The word of an opcode with the other fields of its format. -/
def ins (opc low : Nat) : BitVec 32 := BitVec.ofNat 32 (opc * 2 ^ 20 + low)

/-- The long form with a displacement alone: the address is the extension word. -/
def long (opc : Nat) : BitVec 32 := ins opc 0x80000

/-- A device with some memory: 64 GiB installed, half of it own ledger, 1 MiB unmirrored. -/
def device (ws : List (Nat × TWord)) : State :=
  ws.foldl (fun s p => s.putWord p.1 p.2) { State.reset with layout := ⟨2 ^ 36, 2 ^ 35, 2 ^ 20, 0⟩ }

/-- A core in service with a bank at level 0, privilege P0 and translation off: addresses are physical. -/
def coreWith (b : Bank) : Core := { Core.cold with banks := [(0, b)], mode := 2 }

/-- The unit of cores 0 and 1 holds this core. -/
def onUnit (s : State) (c : Core) : State := s.setCores [0, 1] c

def raw (n : Nat) : TWord := ⟨BitVec.ofNat 64 n, tRAW⟩

def int (n : Nat) : TWord := ⟨BitVec.ofNat 64 n, tINT⟩

/-- Core 0 with a and h in ACC and AEX, and one word of memory at 0x1000. -/
def unitOf (a h v : TWord) : State := onUnit (device [(0x1000, v)]) (coreWith { Bank.cold with acc := a, aex := h })


/-! Witnesses: instructions of a core. -/

theorem test_reset_issues : State.reset.issues 0 (long 0x10).toNat (fmtOk .m (long 0x10).toNat) = true := by decide +kernel

theorem witness_StepRunsTheFrontCommand : ∃ s : State, s.pending = [] := ⟨State.reset, rfl⟩

theorem witness_StepKeepsMemoryCanonical : ∃ s t : State, Memory.wf s.mem = true ∧ step s = .next t :=
  ⟨State.reset, State.reset, by decide +kernel, rfl⟩

/-- Z = 0 in the reset PSW: condition 1 does not hold, in each of the four formats. -/
theorem witness_FalseConditionOnlyRetires : ∀ p ∈ [(Fmt.a, 0x02), (.m, 0x11), (.m, 0x70), (.i, 0x06)],
    let w := ins p.2 0x10000000
    State.reset.issuesNow 0 = true ∧ (State.reset.stepping 0 && stepBlocked w.toNat) = false ∧ fCOND w.toNat ≠ 15 ∧
    condHolds (fCOND w.toNat) (State.reset.core 0).cur.psw = false ∧ fmtOk p.1 w.toNat = true := by decide +kernel

theorem witness_RetiringChangesOnlyTheCourse : Core.cold.ctx = none ∧ { Core.cold with ctx := some ⟨1, 1, 0, false⟩ }.ctx ≠ none := by
  decide +kernel

theorem witness_FlagWritesKeepTheOtherBits : (63 : Nat) < 64 ∧ (0 : Nat) < 64 := by decide

def addr (am : Nat) : BitVec 32 := ins 0x10 (am * 1024 + (if am = 3 then 0x10000 else 0))

def x1At (v : Nat) : State :=
  onUnit State.reset (coreWith { Bank.cold with x1 := ⟨BitVec.ofNat 64 v, tPTR⟩, mb := 0x2000, ml := 0x100 })

/-- The direct, modulo and pre-decrement modes each form an address; the last at the lowest address. -/
theorem witness_AddressesAndBaseUpdate : ∀ p ∈ [(0, 5, 0x5), (1, 5, 0x2005), (3, 0, 0x0)],
    okP (formEa (addr p.1).toNat p.2.1 8 false ((x1At 8).start 0 (addr p.1).toNat)) (fun ea _ => ea == p.2.2) = true := by
  decide +kernel

theorem witness_AddressesAndBaseUpdate_bases :
    fAM (addr 0).toNat ≠ 3 ∧ fAM (addr 3).toNat = 3 ∧ fBASE (addr 3).toNat = 1 ∧
    ∀ b ∈ [1, 2, 3], fAM (ins 0x10 (b * 65536 + 3072)).toNat = 3 ∧ fBASE (ins 0x10 (b * 65536 + 3072)).toNat = b := by
  decide +kernel

/-- The A format at the last address of the space and at the first beyond it. -/
theorem witness_AddressesAndBaseUpdate_formA : ∀ am ∈ [0, 3],
    let x := (x1At 8).start 0 (addr am).toNat
    okP (formA (addr am).toNat 5 x) (fun ea _ => ea == if am = 0 then 5 else 13) = true ∧
    2 ^ 42 ≤ (baseVal x.c.cur x.ia (addr 0).toNat + (idxVal x.c.cur (addr 0).toNat <<< fSCL (addr 0).toNat) + ofInt (2 ^ 42)).toNat := by
  decide +kernel

theorem witness_ReadingAWordKeepsRegistersAndMemory : ∃ (va : Nat) (x y z : Cx) (tg : Target) (v : TWord),
    access .read va false x = .ok tg y ∧ (∀ off, tg ≠ .ctl off) ∧ loadWord va x = .ok v z := by
  let x := (unitOf raw0 raw0 (int 5)).start 0 0
  obtain ⟨tg, y, h, h1⟩ := okP_spec (r := access .read 0x1000 false x) (p := fun t _ => t == .mem 0x1000 false) (by decide +kernel)
  obtain ⟨v, z, h', -⟩ := okP_spec (r := loadWord 0x1000 x) (p := fun v _ => v == int 5) (by decide +kernel)
  exact ⟨0x1000, x, y, z, tg, v, h, by rw [eq_of_beq h1]; simp, h'⟩

theorem witness_WordLoads : ∃ (e : Fin 256) (w x : BitVec 32) (s : State) (v : TWord) (z : Cx),
    s.issues e w.toNat (fmtOk .m w.toNat) = true ∧ memOperand w x (s.start e w.toNat) = .ok v z := by
  obtain ⟨v, z, h, -⟩ := okP_spec (r := memOperand (long 0x10) 0x1000 ((unitOf raw0 raw0 (int 5)).start 0 (long 0x10).toNat))
    (p := fun v _ => v == int 5) (by decide +kernel)
  exact ⟨0, long 0x10, 0x1000, unitOf raw0 raw0 (int 5), v, z, by decide +kernel, h⟩

/-- ST and STE of an INT word at the last word of a frame; below, a TCM word and a register of control space. -/
theorem witness_WordStores : ∀ p ∈ [(0, 0x11), (1, 0x13)],
    let s := unitOf (int 5) (int 6) raw0
    let y := s.start 0 (long p.2).toNat
    let v := (s.core 0).cur.reg p.1
    s.issues 0 (long p.2).toNat (fmtOk .m (long p.2).toNat) = true ∧ v.tag ≠ tPOISON ∧ tagReserved v.tag = false ∧ v.tag ≠ tSEAL ∧
    okP (formEa (long p.2).toNat (dispOf (long p.2).toNat 0xFF8) 8 true y) (fun ea _ => ea == 0xFF8) = true ∧
    okP (access .write 0xFF8 false y) (fun tg z => tg == .mem 0xFF8 false && targetTag z tg != tSEAL) = true := by
  decide +kernel

/-- A leaf entry of level 3 for a frame: valid, readable and writable. -/
def leaf (frame : Nat) : Nat := 2 ^ 63 + 2 ^ 61 + frame * 4096

/-- A posting-frame leaf. -/
def pfLeaf (frame : Nat) : Nat := 2 ^ 63 + 2 ^ 58 + frame * 4096

/-- A unit whose core translates through tables at 0x2000, 0x4000 and 0x6000: frame 1 of the address space has this leaf. -/
def paged (b : Bank) (lf : Nat) (ws : List (Nat × TWord)) : State :=
  onUnit (device ([(0x2000, int (2 ^ 63 + 0x4000)), (0x4000, int (2 ^ 63 + 0x6000)), (0x6008, int lf)] ++ ws))
    { coreWith b with tbase := 0x2001 }

/-- The TCM window of a core is at 0x40000 × 2^18 after reset; a data block at its start. -/
def tcmUnit (b : Bank) : State :=
  onUnit (device []) { coreWith b with tcmblk := [(0, 0x8000000000000000)], tcmwin := 0x40000 }

theorem witness_WordStores_other_targets :
    (let s := tcmUnit { Bank.cold with acc := int 5 }
     okP (access .write 0x40000 false (s.start 0 0)) (fun tg _ => tg == .tcm 0) = true) ∧
    (let s := paged { Bank.cold with acc := int 5 } (leaf 0xF000000000) []
     okP (access .write 0x1000 false (s.start 0 0)) (fun tg z => tg == .ctl 0 &&
       ((z.s.setCores (z.s.unitCores 0) z.c).ctlWrite 0 0 5).2) = true) := by
  decide +kernel

/-- The operand of a long-form instruction at 0x1000 of core 0. -/
def opM (opc : Nat) (s : State) : EStateM.Result Stop Cx TWord := memOperand (long opc) 0x1000 (s.start 0 (long opc).toNat)

theorem witness_IntegerArithmetic : ∀ t ∈ [tINT, tPTR],
    let s := unitOf ⟨0x7FFFFFFFFFFFFFFF, t⟩ raw0 ⟨1, t⟩
    s.issues 0 (long 0x15).toNat (fmtOk .m (long 0x15).toNat) = true ∧ (s.core 0).cur.acc.tag = t ∧
    okP (opM 0x15 s) (fun v _ => v.tag == t) = true := by decide +kernel

/-- A zero divisor; a quotient that fits; the smallest positive quotient that does not, signed and unsigned. -/
theorem witness_IntegerDivision : ∀ p ∈ [(0, 5, 0), (0, 100, 7), (0, 2 ^ 63, 1), (1, 0, 1)],
    let s := unitOf (int p.2.1) (int p.1) (int p.2.2)
    s.issues 0 (long 0x20).toNat (fmtOk .m (long 0x20).toNat) = true ∧ (s.core 0).cur.acc.tag = tINT ∧
    (s.core 0).cur.aex.tag = tINT ∧ okP (opM 0x20 s) (fun v z => v.tag == tINT && v.val == BitVec.ofNat 64 p.2.2 &&
      z.c.cur.acc == int p.2.1 && z.c.cur.aex == int p.1) = true := by decide +kernel

theorem witness_IntegerDivision_cases :
    (2 ^ 63 : Int).tdiv 1 = 2 ^ 63 ∧ ¬((-2 ^ 63 : Int) ≤ 2 ^ 63 ∧ (2 ^ 63 : Int) < 2 ^ 63) ∧ 2 ^ 64 ≤ 2 ^ 64 / 1 ∧ (2 ^ 63 : Nat) / 1 < 2 ^ 64 := by
  decide +kernel

theorem witness_LogicalInstructions : ∀ a ∈ [tRAW, tINT], ∀ b ∈ [tRAW, tINT],
    let s := unitOf ⟨6, a⟩ raw0 ⟨3, b⟩
    s.issues 0 (long 0x18).toNat (fmtOk .m (long 0x18).toNat) = true ∧ (s.core 0).cur.acc.tag = a ∧
    okP (opM 0x18 s) (fun v _ => v.tag == b) = true := by decide +kernel

theorem witness_ShiftsAndAddressLoad : ∀ ea ∈ [0, 1, 63, 64], ∀ t ∈ [tRAW, tINT],
    let s := unitOf ⟨6, t⟩ raw0 raw0
    s.issues 0 (long 0x1B).toNat (fmtOk .a (long 0x1B).toNat) = true ∧ (s.core 0).cur.acc.tag = t ∧
    okP (formA (long 0x1B).toNat (dispOf (long 0x1B).toNat ea) (s.start 0 (long 0x1B).toNat)) (fun e _ => e == ea)
      = true := by decide +kernel

/-- Format R with RD and RS. -/
def rr (opc rd rs imm : Nat) : BitVec 32 := ins opc (rd * 32768 + rs * 2048 + imm)

/-- RD at 2 and 5, RS at 0, 7 and 15, with the tags that each of the instructions takes. -/
theorem witness_RegisterInstructions :
    let s := onUnit State.reset (coreWith { Bank.cold with acc := int 1, aex := int 1, x1 := int 1, x2 := ⟨4, tPTR⟩ })
    s.issues 0 (ins 0x01 0).toNat (fmtOk .n (ins 0x01 0).toNat) = true ∧
    (∀ rd ∈ [2, 3, 4, 5], ∀ rs ∈ [0, 3, 4, 7, 15],
      let w := (rr 0x30 rd rs 0).toNat
      s.issues 0 w (fmtOk .r w) = true ∧ fRD w = rd ∧ fRS w = rs) ∧
    (∀ rd ∈ [2, 3], ((s.core 0).cur.reg rd).tag = tPTR ∨ ((s.core 0).cur.reg rd).tag = tINT) ∧
    (∀ rs ∈ [0, 1, 2], ((s.core 0).cur.reg rs).tag = tINT) := by
  decide +kernel

theorem witness_PermittedTagChanges : (tPOISON = tPOISON ∨ tagReserved tPOISON = true) ∧ tagChange 2 tRAW tDFP = none ∧
    tagChange 2 tRAW tRAW = none ∧ tagChange 1 tINT tRAW = none := by decide +kernel

theorem witness_TagInstructions :
    let s := unitOf (int 3) raw0 raw0
    let w := (rr 0x40 0 15 0).toNat
    s.issues 0 w (tagFormOk w 0) = true ∧ tagChange (pPRIV (s.core 0).cur.psw) ((s.core 0).cur.reg (fRD w)).tag (tagImm w 0) = none ∧
    s.issues 0 (long 0x43).toNat (fmtOk .m (long 0x43).toNat) = true ∧ (s.core 0).cur.acc.tag = tINT ∧
    okP (opM 0x43 s) (fun _ _ => true) = true := by decide +kernel

/-- TAGSETM of a word whose tag stays, and of one whose tag changes. -/
theorem witness_TagInstructions_memory : ∀ t ∈ [tRAW, tPTR],
    let s := unitOf (int 3) raw0 ⟨9, t⟩
    let w := (long 0x43).toNat
    let m : Tag := (s.core 0).cur.acc.val.setWidth 4
    okP (formEa w (dispOf w 0x1000) 8 true (s.start 0 w)) (fun ea _ => ea == 0x1000) = true ∧
    okP (access .write 0x1000 false (s.start 0 w)) (fun tg y => tg == .mem 0x1000 false &&
      okP (targetWord tg 0x1000 false y) fun v z => v.tag == t && tagChange (pPRIV z.c.cur.psw) v.tag m == none &&
        okP (writeTarget tg 0x1000 ⟨v.val, m⟩ z) fun _ _ => true) = true ∧ (m = tPTR) := by decide +kernel

/-- Format K with all nine registers, and with ACC alone, at 0x1000. -/
def multi (m : Nat) : State × Nat :=
  (onUnit (device ((List.range 9).map fun r => (0x1000 + 8 * r, Bank.cold.reg r))) (coreWith Bank.cold),
    (ins 0x22 (0x80000 + m * 2)).toNat)

theorem witness_MultipleTransfers : ∀ m ∈ [1, 511],
    let (s, w) := multi m
    let y := s.start 0 w
    let n := 8 * (maskRegs (fMASK w)).length
    s.issues 0 w (fmtOk .k w && fMASK w != 0 && !maskUses w) = true ∧
    (maskRegs (fMASK w)).all (fun p => let g := (y.c.cur.reg p.1).tag
      g != tPOISON && !tagReserved g && g != tSEAL) = true ∧
    okP (formEa w (dispK w 0x1000) n true y) (fun ea _ => ea == 0x1000) = true ∧
    okP (formEa w (dispK w 0x1000) n false y) (fun ea _ => ea == 0x1000) = true ∧
    okP (eachReg stmElem 0x1000 (maskRegs (fMASK w)) y) (fun _ _ => true) = true ∧
    okP (eachReg ldmElem 0x1000 (maskRegs (fMASK w)) y) (fun _ _ => true) = true := by decide +kernel

/-- The registers of the mask 0x103, transferred one by one: ACC, AEX and the PSW, with no stop and with one before the PSW. -/
theorem witness_MultipleTransfers_stop : ∀ stop ∈ [none, some 2],
    let (s, w) := multi 0x103
    let y := { s.start 0 w with lim := stop }
    maskRegs (fMASK w) = [(0, 0), (1, 1), (8, 2)] ∧ y.lim ≠ some 0 ∧
    okP ((stmElem 0 0x1000 >>= fun _ => regDone 0) y) (fun _ y => y.lim != some 0 && bit y.c.cur.psw 55 &&
      okP ((stmElem 1 0x1008 >>= fun _ => regDone 1) y) fun _ y => (y.lim == some 0) == stop.isSome &&
        !bit y.c.cur.psw 63 && okP (stmElem 8 0x1010 y) fun _ _ => true) = true := by decide +kernel

/-- JMP, CALL and RET of core 0 in the given state, with one entry on the return stack and depth entries on the shadow stack. -/
def calling (state depth top : Nat) (shadow : TWord) : State :=
  let c := { (coreWith Bank.cold) with rstk := [(0, ⟨BitVec.ofNat 64 top, tCODE⟩)], rsctl := 0x101 }
  onUnit (device []) { c with mode := BitVec.ofNat 64 state, shstk := setFld c.shstk 40 32 depth,
                              tcm := sset raw0 c.tcm (shadowWord c (depth - 1)) shadow }

theorem witness_JumpCallReturn : ∀ a ∈ [0x1000, 0x1002],
    let s := calling csSERVICE 0 a raw0
    let w := (long 0x02).toNat
    let n := (ins 0x04 0).toNat
    s.issues 0 w (fmtOk .a w) = true ∧ s.issues 0 n (fmtOk .n n) = true ∧
    okP (formA w (dispOf w a) (s.start 0 w)) (fun ea _ => ea == a) = true ∧
    fld (s.core 0).rsctl 5 0 ≠ 32 ∧ fld (s.core 0).rsctl 5 0 ≠ 0 ∧ (s.core 0).stateCode = csSERVICE ∧
    (let r := sget raw0 (s.core 0).rstk ((fld (s.core 0).rsctl 12 8 + 31) % 32)
     r.tag = tCODE ∧ r.val.toNat % 4 = a % 4) := by decide +kernel

/-- With the Markhor check: a shadow entry that agrees, one that does not, no entry, and no room. -/
theorem witness_JumpCallReturn_shadow : ∀ p ∈ [(1, 0x1000), (1, 0x2000), (0, 0), (256, 0)],
    let s := calling csTEST p.1 0x1000 ⟨BitVec.ofNat 64 p.2, tCODE⟩
    let w := (long 0x02).toNat
    let n := (ins 0x04 0).toNat
    let sd := fld (s.core 0).shstk 40 32
    let sh := sget raw0 (s.core 0).tcm (shadowWord (s.core 0) (sd - 1))
    s.issues 0 w (fmtOk .a w) = true ∧ s.issues 0 n (fmtOk .n n) = true ∧ (s.core 0).stateCode = csTEST ∧
    sd = p.1 ∧ sh.tag ≠ tPOISON ∧ (p.1 = 1 → sh.val.toNat = p.2) := by decide +kernel

/-- A full and an empty return stack without WRAP. -/
theorem witness_JumpCallReturn_bounds : ∀ d ∈ [0, 32],
    let s := onUnit (device []) { (coreWith Bank.cold) with rsctl := BitVec.ofNat 64 d }
    (s.start 0 (long 0x03).toNat).v.wrap = false ∧ fld (s.core 0).rsctl 5 0 = d := by decide +kernel

/-- A core on level 0 whose vector table at 0x800 delivers vector v to level k with the handler at 0x100. -/
def vectored (c : Core) (v k : Nat) : State :=
  onUnit (device [(0x800 + 8 * v, raw (k * 2 ^ 60 + 0x100))]) { c with vbr := 0x800 }

theorem witness_SupervisorCall :
    let s := vectored { coreWith Bank.cold with lmask := 0 } vSVC 1
    let s := s.setCores [0, 1] ((s.core 0).setBank 0 { Bank.cold with psw := 0 })
    let y := s.start 0 (ins 0x06 5).toNat
    let c := s.core 0
    s.issues 0 (ins 0x06 5).toNat (fmtOk .i (ins 0x06 5).toNat) = true ∧ c.lev < 16 ∧
    (y.s.vecEntry c.vbr vSVC).2 = some 0x1000000000000100 ∧ c.lev < fld (0x1000000000000100 : Word) 63 60 ∧
    masked c.lmask c.cur.psw 1 = false := by decide +kernel

theorem witness_EscalationToTheGuardLevel :
    let s := vectored (coreWith Bank.cold) 0 0
    let c := s.core 0
    let o := (s.vecEntry c.vbr vSVC).2
    c.lev < 16 ∧ escOf c vSVC o ≠ 0 ∧ escOf c vSVC o ≠ 4 ∧ ((s.vecEntry c.vbr vSVC).1.vecEntry c.vbr 0).2 = some 0x100 ∧
    (0xFFFFFFFF : Nat) < 2 ^ 32 ∧ vSVC < 256 := by decide +kernel

/-- Core 0 on level 1 above level 0, with a link to a; level 0 stands in a DISPATCH, after an abort or not. -/
def onLevelOne (a : Nat) (dead aborted : Bool) : State :=
  let s := vectored { coreWith Bank.cold with lmask := 0 } 0x21 2
  let c := (((s.core 0).setBank 0 { Bank.cold with psw := 0 }).setBank 1 { Bank.cold with psw := 0 }).setLink 1
    ⟨⟨BitVec.ofNat 64 a, tCODE⟩, 0, 0⟩
  s.setCores [0, 1] { c with lev := 1, active := 3, dead0 := dead, aborted0 := aborted }

/-- RETL of core 0: the level to return to and what it chains into. -/
def retlPick (s : State) : Option (Nat × Word) :=
  let c := s.core 0
  let lret := fld (c.link c.lev).linfo 55 51
  let out := { c.sync with active := setBit c.active c.lev false }
  ((s.start 0 (ins 0x05 0).toNat).s.dropInvalid 0).pick 0 out.lmask lret (out.bank lret).psw out.vbr

theorem witness_ReturnFromLevel :
    (∀ p ∈ [(0x40, false, false), (0x42, false, false), (0x40, true, false), (0x40, true, true)],
      let s := onLevelOne p.1 p.2.1 p.2.2
      let c := s.core 0
      let l := c.link c.lev
      s.issues 0 (ins 0x05 0).toNat (fmtOk .n (ins 0x05 0).toNat) = true ∧ c.lev ≠ 0 ∧ l.lpc.tag = tCODE ∧
      fld l.linfo 55 51 = 0 ∧ retlPick s = none ∧ c.dead0 = p.2.1 ∧ c.aborted0 = p.2.2 ∧ l.lpc.val.toNat % 4 = p.1 % 4) ∧
    (retlPick { onLevelOne 0x40 false false with
      async := [(0, { Async.cold with pend := 2 }), (1, { Async.cold with pend := 2 })] }).isSome = true := by
  decide +kernel

/-- WAIT as the first instruction of a handler retires over a request that waits for it (R181). -/
theorem witness_SyncAndWait :
    let s := onUnit State.reset (coreWith Bank.cold)
    let n := (ins 0x07 0).toNat
    let y := s.start 0 n
    let r := { onLevelOne 0x40 false false with async := [(0, { Async.cold with pend := 2 })] }
    let f := r.setCores [0, 1] { r.core 0 with entering := some ⟨0x21, 0, 0x40⟩ }
    let z := f.start 0 n
    s.issues 0 n (fmtOk .n n) = true ∧ (s.core 0).tx = false ∧ pPRIV (s.core 0).cur.psw < 2 ∧
    (y.s.dropInvalid 0).pick 0 y.v.lmask 0 (s.core 0).cur.psw (s.core 0).vbr = none ∧
    f.issues 0 n (fmtOk .n n) = true ∧
    ((z.s.dropInvalid 0).pick 0 z.v.lmask 1 (f.core 0).cur.psw (f.core 0).vbr).isSome = true ∧
    (∀ q ∈ [onUnit s { (s.core 0) with act := .c1p }, onUnit r { (r.core 0) with act := .c1 }],
      let c := q.core 0
      (q.halted 0 && !q.stepping 0) = false ∧ (c.act = .c1p ∨ (c.act = .c1 ∧
        ((q.dropInvalid 0).pick 0 (effVal q.free 0x14 c.lmask c.delayed) c.lev c.cur.psw c.vbr).isSome = true))) := by
  decide +kernel

/-- CSRR and CSRW of an extension register and of one that is none, and CSRW of a read-only one. -/
theorem witness_ControlRegisterAccess :
    let s := unitOf (int 3) raw0 raw0
    let w := (ins 0x0D 0).toNat
    s.issues 0 w (fmtOk .c w) = true ∧
    (∃ n < 256, (Csr.of n).any (fun k => k.isExt && !k.readOnly && pPRIV (s.core 0).cur.psw ≤ k.writePriv &&
      okP (csrwCheck k n (int 3) (s.start 0 w)) (fun _ _ => true) &&
      okP (extUse true (s.start 0 w)) fun _ z => okP (csrwStore k (int 3) z) fun _ _ => true) = true) ∧
    (∃ n < 256, (Csr.of n).any (fun k => !k.isExt && !k.readOnly && pPRIV (s.core 0).cur.psw ≤ k.writePriv &&
      okP (csrwCheck k n (int 3) (s.start 0 w)) (fun _ _ => true) &&
      okP (csrwStore k (int 3) (s.start 0 w)) fun _ _ => true) = true) ∧
    (∃ n < 256, (Csr.of n).any (fun k => k.readOnly && pPRIV (s.core 0).cur.psw ≤ k.writePriv) = true) := by decide +kernel

/-- A touch of the word at 0x1000 waits in posting unit 1. -/
def queued (s : State) : State := s.setNpu 1 { Npu.cold with queue := [.touch 1 0x1000] }

theorem witness_TranslationInvalidation :
    let s := unitOf (int 1023) raw0 raw0
    let w := (long 0x0F).toNat
    let n := (ins 0x2F 0).toNat
    pPRIV (s.core 0).cur.psw < 2 ∧ (s.core 0).cur.acc.tag = tINT ∧ (s.core 0).cur.acc.val.toNat ≤ 1023 ∧
    s.issues 0 w (fmtOk .a w) = true ∧ s.issues 0 n (fmtOk .n n) = true ∧
    okP (formA w (dispOf w 0x1000) (s.start 0 w)) (fun _ _ => true) = true ∧
    (s.start 0 w).invHeld (invtKeeps 1023 0x1000) = false ∧ (s.start 0 n).invHeld (fun i => i.part != 1023) = false ∧
    (let s := { (queued s) with fabTlb := [⟨1023, 0, 1, 0x8000000000001003, 0, false, 0⟩] }
     s.issues 0 w (fmtOk .a w) = true ∧ (s.start 0 w).invHeld (invtKeeps 1023 0x1000) = true ∧
     (s.start 0 n).invHeld (fun i => i.part != 1023) = true) := by decide +kernel

theorem witness_DispatchAndYield :
    let s := onUnit (device []) { coreWith Bank.cold with ctx := some ⟨1, 1, 0x2000, false⟩ }
    let w := (long 0x0A).toNat
    let n := (ins 0x09 0).toNat
    let y := s.start 0 w
    (s.core 0).lev = 0 ∧ s.issues 0 n (fmtOk .n n) = true ∧ pPRIV (s.core 0).cur.psw < 2 ∧ s.issues 0 w (fmtOk .m w) = true ∧
    okP (formEa w (dispOf w 0x1000) 64 false y) (fun ea _ => ea == 0x1000) = true ∧
    okP (loadWords (recordAddrs 0x1000) (fun _ => true) y) (fun ws _ => ws.length == 8) = true ∧
    y.s.physOk 0x2000 = true ∧ y.s.physOk (0x2000 + 0x57) = true ∧ 0x2000 % 8 = 0 := by decide +kernel

/-! Witnesses: decimal, string, posting, floating-point and customer instructions. -/

/-- A word of eight bytes. -/
def bytesOf (bs : List Nat) : TWord := raw (ofBytes (bs.map (BitVec.ofNat 8)))

/-- A DESC word: kind, length and address. -/
def desc (kind len a : Nat) : TWord := ⟨BitVec.ofNat 64 (a * 4096 + (len - 1) * 64 + kind), tDESC⟩

/-- Field 1 at 0x2000 in ACC, field 2 at 0x3000 named by the word at 0x1000; CORE_DECCTL ctl. -/
def fields (k1 l1 k2 l2 ctl : Nat) (f1 f2 : List Nat) : State :=
  onUnit (device [(0x1000, desc k2 l2 0x3000), (0x2000, bytesOf f1), (0x3000, bytesOf f2)])
    { coreWith { Bank.cold with acc := desc k1 l1 0x2000 } with decctl := BitVec.ofNat 64 ctl }

/-- FieldsRead holds, with p of the fields, their bytes and the context. -/
def readsFields (opc : Nat) (s : State) (p : FDesc → FDesc → List Byte → List Byte → List (Target × Nat) → Cx → Bool) : Bool :=
  okP (twoDescs (long opc).toNat 0x1000 kPACKED kPACKED (s.start 0 (long opc).toNat)) fun d y1 =>
    okP (readField d.2.addr d.2.len y1) fun b2 y2 => okP (readField d.1.addr d.1.len y2) fun b1 y3 =>
      okP (checkField d.1.addr d.1.len y3) fun tg z => p d.1 d.2 b1 b2 tg z

theorem readsFields_spec {opc : Nat} {s : State} {p : FDesc → FDesc → List Byte → List Byte → List (Target × Nat) → Cx → Bool}
    (h : readsFields opc s p = true) : ∃ d1 d2 b1 b2 tg z,
      FieldsRead (long opc).toNat 0x1000 kPACKED kPACKED (s.start 0 (long opc).toNat) d1 d2 b1 b2 tg z ∧
      p d1 d2 b1 b2 tg z = true := by
  obtain ⟨d, y1, h1, h⟩ := okP_spec h
  obtain ⟨b2, y2, h2, h⟩ := okP_spec h
  obtain ⟨b1, y3, h3, h⟩ := okP_spec h
  obtain ⟨tg, z, h4, h⟩ := okP_spec h
  exact ⟨d.1, d.2, b1, b2, tg, z, ⟨y1, y2, y3, h1, h2, h3, h4⟩, h⟩

/-- 99 + 1: the sum fits two bytes (999) and, in one byte, overflows; an invalid digit. -/
theorem witness_DecimalArithmetic :
    (fields kPACKED 2 kPACKED 1 2 [] []).issues 0 (long 0x50).toNat (fmtOk .m (long 0x50).toNat) = true ∧
    readsFields 0x50 (fields kPACKED 2 kPACKED 1 2 [0x09, 0x9C, 0, 0, 0, 0, 0, 0] [0x1C, 0, 0, 0, 0, 0, 0, 0])
      (fun d1 d2 b1 b2 tg z => badIndex d1.kind b1 == none && badIndex d2.kind b2 == none && d1.fits 100 &&
        okP (writePieces tg (d1.encode z.c.decctl 100) z) fun _ _ => true) = true ∧
    readsFields 0x50 (fields kPACKED 1 kPACKED 1 2 [0x9C, 0, 0, 0, 0, 0, 0, 0] [0x1C, 0, 0, 0, 0, 0, 0, 0])
      (fun d1 d2 b1 b2 tg z => badIndex d1.kind b1 == none && badIndex d2.kind b2 == none && !d1.fits 10 &&
        bit z.c.decctl 1 && okP (writePieces tg (d1.encode z.c.decctl 10) z) fun _ _ => true) = true ∧
    readsFields 0x50 (fields kPACKED 1 kPACKED 1 1 [0xAC, 0, 0, 0, 0, 0, 0, 0] [0x1C, 0, 0, 0, 0, 0, 0, 0])
      (fun d1 _ b1 _ _ z => badIndex d1.kind b1 != none && bit z.c.decctl 0) = true := by decide +kernel

/-- 7 / 2 in a field of two bytes; a dividend no longer than the divisor. -/
theorem witness_DecimalDivideAndCompare :
    let dq : FDesc := ⟨kPACKED, 0x2000, 1⟩
    (fields kPACKED 2 kPACKED 1 2 [] []).issues 0 (long 0x53).toNat (fmtOk .m (long 0x53).toNat) = true ∧
    readsFields 0x53 (fields kPACKED 2 kPACKED 1 2 [0, 0x7C, 0, 0, 0, 0, 0, 0] [0x2C, 0, 0, 0, 0, 0, 0, 0])
      (fun d1 d2 b1 b2 tg z => badIndex d1.kind b1 == none && badIndex d2.kind b2 == none && fieldVal d2.kind b2 == 2 &&
        d2.len < d1.len && dq.fits 3 &&
        okP (writePieces tg (dq.encode z.c.decctl 3 ++ d2.encode z.c.decctl 1) z) fun _ _ => true) = true ∧
    readsFields 0x53 (fields kPACKED 1 kPACKED 1 2 [0x7C, 0, 0, 0, 0, 0, 0, 0] [0x2C, 0, 0, 0, 0, 0, 0, 0])
      (fun d1 d2 b1 b2 _ z => badIndex d1.kind b1 == none && badIndex d2.kind b2 == none && d1.len ≤ d2.len &&
        fieldVal d2.kind b2 == 2 && bit z.c.decctl 1) = true := by decide +kernel

/-- DSET, PACK and UNPK of 7; DADJ of a field of each kind. -/
theorem witness_DecimalMoves :
    (∀ p ∈ [(0x55, kPACKED, kPACKED, 0x7D), (0x58, kPACKED, kZONED, 0xD7), (0x59, kZONED, kPACKED, 0x7D)],
      let s := fields p.2.1 1 p.2.2.1 1 0 [0, 0, 0, 0, 0, 0, 0, 0] [p.2.2.2, 0, 0, 0, 0, 0, 0, 0]
      let w := (long p.1).toNat
      s.issues 0 w (fmtOk .m w) = true ∧ okP (twoDescs w 0x1000 p.2.1 p.2.2.1 (s.start 0 w)) (fun d y1 =>
        okP (readField d.2.addr d.2.len y1) fun b2 y2 => okP (checkField d.1.addr d.1.len y2) fun tg z =>
          badIndex d.2.kind b2 == none && fieldVal d.2.kind b2 == -7 && d.1.fits (-7) &&
          okP (writePieces tg (d.1.encode z.c.decctl (-7)) z) fun _ _ => true) = true) ∧
    (∀ p ∈ [(kPACKED, 0x7A), (kZONED, 0xA7)],
      let s := fields p.1 1 p.1 1 0 [p.2, 0, 0, 0, 0, 0, 0, 0] []
      let w := (ins 0x57 0).toNat
      s.issues 0 w (fmtOk .n w) = true ∧ (s.core 0).cur.acc.tag = tDESC ∧
      okP (needDesc (s.core 0).cur.acc.val (fun k => k == kPACKED || k == kZONED) 0 none (s.start 0 w)) (fun d y =>
        okP (readField d.addr d.len y) fun bs y1 => okP (checkField d.addr d.len y1) fun tg z =>
          badIndex d.kind bs == none && fieldVal d.kind bs == 7 && d.fits 7 &&
          okP (writePieces tg (d.encode z.c.decctl 7) z) fun _ _ => true) = true) := by decide +kernel

/-- Shift counts 31, −1 and −32; rounding digits 9 and 10; both settings of DDM. -/
theorem witness_ShiftAndRound :
    (31 % 64 = 31 ∧ 31 < 32) ∧ (63 % 64 = 64 - 1 ∧ 1 ≤ 1) ∧ (32 % 64 = 64 - 32 ∧ 32 ≤ 32) ∧
    (∀ ctl ∈ [0, 1], ∀ ea ∈ [0x901, 0xA01], let s := fields kPACKED 2 kPACKED 1 ctl [0, 0x7C, 0, 0, 0, 0, 0, 0] []
      let w := (long 0x56).toNat
      s.issues 0 w (fmtOk .a w) = true ∧ (s.core 0).cur.acc.tag = tDESC ∧ bit (s.core 0).decctl 0 = decide (ctl = 1) ∧
      okP (formA w (dispOf w ea) (s.start 0 w)) (fun a _ => a == ea) = true ∧
      okP (needDesc (s.core 0).cur.acc.val (· == kPACKED) 0 none (s.start 0 w)) (fun d y =>
          okP (readField d.addr d.len y) fun bs y1 => okP (checkField d.addr d.len y1) fun tg z =>
            badIndex d.kind bs == none && d.fits (srpVal (fieldVal d.kind bs) ea) &&
            okP (writePieces tg (d.encode z.c.decctl (srpVal (fieldVal d.kind bs) ea)) z) fun _ _ => true) = true) := by
  decide +kernel

theorem witness_DecimalBinaryConversion :
    let s := onUnit (device [(0x1000, desc kPACKED 2 0x2000), (0x2000, bytesOf [0x99, 0x9D, 0, 0, 0, 0, 0, 0])])
      (coreWith { Bank.cold with acc := int 999, aex := int 0 })
    let w := (long 0x5A).toNat
    s.issues 0 w (fmtOk .m w) = true ∧ (s.core 0).cur.acc.tag = tINT ∧ (s.core 0).cur.aex.tag = tINT ∧
    okP (descWord w 0x1000 (· == kPACKED) (s.start 0 w)) (fun d y1 => d.fits 999 &&
      (okP (readField d.addr d.len y1) fun bs _ => badIndex d.kind bs == none && fieldVal d.kind bs == -999) &&
      okP (checkField d.addr d.len y1) fun tg z => okP (writePieces tg (d.encode z.c.decctl 999) z) fun _ _ => true) = true := by
  decide +kernel

theorem witness_WrittenFieldHoldsTheValue : ∀ k ∈ [kPACKED, kZONED], 1 ≤ 1 ∧ (⟨k, 0, 1⟩ : FDesc).fits 9 = true := by decide +kernel

/-- Cursors at 0x2000 and 0x3000, CNT n, and a table at 0x4000 or a search argument at 0x3000 named by the word at 0x1000. -/
def strings (n : Nat) (d : TWord) (a b t : Nat) : State :=
  onUnit (device [(0x1000, d), (0x2000, bytesOf [a, 0, 0, 0, 0, 0, 0, 0]), (0x3000, bytesOf [b, 0, 0, 0, 0, 0, 0, 0]),
      (0x4000, bytesOf [t, t, t, t, t, t, t, t])])
    (coreWith { Bank.cold with x1 := ⟨0x2000, tPTR⟩, x2 := ⟨0x3000, tPTR⟩, cnt := BitVec.ofNat 64 n })

/-- MVS, MVSR and CMS of one byte, equal and different. -/
theorem witness_StringElements : ∀ p ∈ [(5, 5), (5, 6)],
    let s := strings 1 raw0 p.1 p.2 0
    let w := (ins 0x60 0).toNat
    let y := s.start 0 w
    (s.core 0).cur.x1.tag = tPTR ∧ (s.core 0).cur.x2.tag = tPTR ∧ (s.core 0).cur.cnt ≠ 0 ∧ s.issues 0 w (fmtOk .n w) = true ∧
    okP (readByte 0x2000 y) (fun v y1 => v.toNat == p.1 && okP (readByte 0x3000 y1) fun u _ => u.toNat == p.2) = true ∧
    okP (readByte 0x2000 y) (fun v y1 => okP (checkByte 0x3000 y1) fun tg y2 => okP (writePieces tg [v] y2) fun _ _ => true) = true ∧
    okP (readByte 0x1FFF y) (fun v y1 => okP (checkByte 0x2FFF y1) fun tg y2 => okP (writePieces tg [v] y2) fun _ _ => true) = true := by
  decide +kernel

/-- TRN and TRT through a table whose bytes are 0 and 7. -/
theorem witness_StringElements_table : ∀ t ∈ [0, 7],
    let s := strings 1 (desc kTABLE 1 0x4000) 5 6 t
    let w := (long 0x63).toNat
    let y := s.start 0 w
    s.issues 0 w (fmtOk .m w) = true ∧ okP (descWord w 0x1000 (· == kTABLE) y) (fun d y0 => y0.c.cur == (s.core 0).cur &&
      y0.lim == y.lim && okP (readByte 0x2000 y0) fun v y1 => okP (readByte (d.addr + v.toNat) y1) fun u y2 => u.toNat == t &&
        okP (checkByte 0x3000 y2) fun tg y3 => okP (writePieces tg [u] y3) fun _ _ => true) = true := by decide +kernel

/-- SRCH with an argument of two bytes and CNT 1 and 2; equal bytes and different ones. -/
theorem witness_StringElements_search : ∀ p ∈ [(5, 5), (5, 6)],
    let s := strings 2 (desc kCHAR 2 0x3000) p.1 p.2 0
    let w := (long 0x65).toNat
    let y := s.start 0 w
    s.issues 0 w (fmtOk .m w) = true ∧ okP (descWord w 0x1000 (· == kCHAR) y) (fun d y0 => y0.c.cur == (s.core 0).cur &&
      y0.lim == y.lim && d.len == 2 && decide ((1 : Word).toNat < d.len) &&
      okP (accessPieces .read (fieldPieces 0x2000 d.len) false y0) fun vs y1 =>
        okP (accessPieces .read (fieldPieces d.addr d.len) false y1) fun as y2 => okP (fetchPieces vs y2) fun bs y3 =>
          okP (fetchPieces as y3) fun ar _ => decide (bs = ar) == decide (p.1 = p.2)) = true := by decide +kernel

/-- Each kind of pattern byte, with digits that show, that do not, and above 9; and a length of 0. -/
theorem witness_EditInstructions : ∀ mark : Bool,
    ∀ p ∈ [(0x10, 0x57, 1), (0x10, 0x07, 1), (0x11, 0x9C, 1), (0x10, 0xA1, 1), (0x12, 0, 1), (0x13, 0, 1), (0x2C, 0, 1), (0x10, 0, 0)],
    let s := strings p.2.2 raw0 p.2.1 p.1 0
    let w := (ins (if mark then 0x67 else 0x66) 0).toNat
    let b := (s.core 0).cur
    s.issues 0 w (fmtOk .n w) = true ∧ b.x1.tag = tPTR ∧ b.x2.tag = tPTR ∧ b.acc.tag = tRAW ∧ fld b.cnt 59 0 = p.2.2 ∧
    b.x1.val.toNat = 0x2000 ∧ b.x2.val.toNat = 0x3000 ∧ bit b.cnt 63 = false ∧
    okP (readByte 0x3000 (s.start 0 w)) (fun q y1 => q.toNat == p.1 && okP (readByte 0x2000 y1) fun sb y2 =>
      sb.toNat == p.2.1 && decide (9 < sb.toNat / 16) == decide (p.2.1 = 0xA1) && okP (checkByte 0x3000 y2) fun tg y3 =>
        okP (writePieces tg [0x35] y3) fun _ _ => true) = true := by decide +kernel

/-- REP MVS of two bytes, whole and interrupted after one. -/
theorem witness_RepeatedInstructions :
    let s := strings 2 raw0 5 6 0
    let r := (ins 0x0C 0).toNat
    let w := (ins 0x60 0).toNat
    s.issues 0 r (repOk r w) = true ∧ fOPC w = 0x60 ∧ (s.repStart 0 r w none).lim = none ∧
    (s.repStart 0 r w (some 1)).lim = some 1 ∧ 1 < (s.core 0).cur.cnt.toNat ∧
    okP (repBody w 0 (s.repStart 0 r w none)) (fun _ _ => true) = true ∧
    okP (strLoop (elemMove none) 2 (s.repStart 0 r w none)) (fun b _ => !b) = true ∧
    okP (strLoop (elemMove none) 1 (s.repStart 0 r w (some 1))) (fun b _ => !b) = true ∧
    (let q := strings 1 raw0 5 6 0; okP (elemCompare (q.start 0 w)) (fun b _ => b) = true) := by decide +kernel

/-- The first frame of the unmirrored area is a posting frame; with cached, posting unit 8 holds its first word. -/
def posting (floor cached : Bool) : State :=
  let s := paged { Bank.cold with acc := ⟨pdecOf (-50), tPDEC⟩, aex := if floor then ⟨pdecOf 0, tPDEC⟩ else raw0 } (pfLeaf 0x800000)
    [(0x800000000, ⟨pdecOf 100, tPDEC⟩)]
  if cached then s.setNpu 8 { s.npu 8 with
    cache := [⟨0x800000000, ⟨pdecOf 100, tPDEC⟩, ⟨pdecOf 100, tPDEC⟩, 0xFFFF, .clean, [], none, true⟩] } else s

/-- A posting unit that answers at once, and one that has to fetch the word. -/
theorem witness_PostAndPread : ∀ floor cached : Bool,
    let s := posting floor cached
    let w := (long 0x70).toNat
    let y := s.start 0 w
    s.issues 0 w (fmtOk .m w) = true ∧ (s.core 0).cur.acc.tag = tPDEC ∧ (pdecVal (s.core 0).cur.acc.val).isSome = true ∧
    ((s.core 0).cur.aex.tag = tPDEC ∨ (s.core 0).cur.aex.tag = tRAW) ∧
    ((s.core 0).cur.aex.tag = tPDEC → (pdecVal (s.core 0).cur.aex.val).isSome = true) ∧
    okP (formEa w (dispOf w 0x1000) 8 true y) (fun ea _ => ea == 0x1000) = true ∧
    okP (formEa w (dispOf w 0x1000) 8 false y) (fun ea _ => ea == 0x1000) = true ∧
    okP (postAccess .post 0x1000 y) (fun pa y1 => pa == 0x800000000 && !y1.s.npuBehind pa false &&
      (okP (runOf y1) fun r _ => r == (0, 0, false)) &&
      (match (y1.s.npuPost 0 0 pa (s.core 0).cur.acc.val (if floor then some (pdecOf 0) else none)).2 with
        | .done .. => cached | .wait => !cached | _ => false)) = true ∧
    okP (postAccess .pread 0x1000 y) (fun pa y1 => !y1.s.npuBehind pa false && (match (y1.s.npuPread 0 0 pa).2 with
        | .done .. => cached | .wait => !cached | _ => false)) = true := by decide +kernel

/-- A request for the same word stands in the unit's queue. -/
theorem witness_PostAndPread_behind :
    let q := posting true true
    let s := q.setNpu 8 { q.npu 8 with queue := [.pread 4 0 0x1000 3 3 0x800000000 false] }
    let w := (long 0x70).toNat
    let y := s.start 0 w
    s.issues 0 w (fmtOk .m w) = true ∧
    okP (postAccess .post 0x1000 y) (fun pa y1 => y1.s.npuBehind pa false && (okP (runOf y1) fun r _ => r == (0, 0, false))) = true ∧
    okP (postAccess .pread 0x1000 y) (fun pa y1 => y1.s.npuBehind pa false) = true := by decide +kernel

/-- A synchronised device whose port 0 is UP and carries path A to device 5; core 0 with X1 at remote address 5 × 2^52. -/
def remote (floor : Bool) : State :=
  let fl := if floor then ⟨pdecOf 0, tPDEC⟩ else raw0
  let b := { Bank.cold with acc := ⟨pdecOf 50, tPDEC⟩, aex := fl, x1 := ⟨BitVec.ofNat 64 (5 * 2 ^ 52), tPTR⟩ }
  let s := onUnit (device []) (coreWith b)
  ((s.wf .tsqStatus 4 4 1).wf (.fabPstatus 0) 2 0 3).wr (.fabRoute 5) 0x8000000000000000

theorem witness_RemoteOperationsAreSent : ∀ floor : Bool,
    let s := remote floor
    let w := (ins 0x71 0).toNat
    let y := s.start 0 w
    let b := (s.core 0).cur
    s.issues 0 w (fmtOk .n w) = true ∧ b.x1.tag = tPTR ∧ okP (runOf y) (fun r _ => r == (0, 0, false)) = true ∧
    bit (y.s.rd .tsqStatus) 4 = true ∧ y.s.rf .tsqStatus 2 0 = 0 ∧ y.s.sched.unsealed = [] ∧ raDev b.x1.val.toNat ≠ y.s.devId ∧
    (y.s.reaches (raDev b.x1.val.toNat)).2 = true ∧ b.acc.tag = tPDEC ∧ (b.aex.tag = tPDEC ∨ b.aex.tag = tRAW) ∧
    (pdecVal b.acc.val).isSome = true ∧ (b.aex.tag = tPDEC → (pdecVal b.aex.val).isSome = true) := by decide +kernel

/-- A core with an operand of format f in ACC (and AEX) and operands in memory: 1, or a NaN. -/
def floats (f : Nat) (nan : Bool) : State :=
  let v := fpEncode f (if nan then .nan false false 3 else .num false (if f < 2 then 2 ^ (if f = 0 then 23 else 52) else 1) (if f < 2 then (if f = 0 then -23 else -52) else 0))
  let hi : TWord := ⟨BitVec.ofNat 64 (v / 2 ^ 64), tDFP⟩
  let lo : TWord := ⟨BitVec.ofNat 64 v, fpTag f⟩
  onUnit (device (if f = 3 then [(0x1000, hi), (0x1008, lo), (0x1010, hi), (0x1018, lo)] else [(0x1000, lo), (0x1008, lo)]))
    (coreWith { Bank.cold with acc := lo, aex := if f = 3 then hi else raw0 })

/-- The exact result of a square root or a sum, or the NaN of the operands. -/
def exactOf (f n : Nat) (vs : List FV) : Exact :=
  match firstNan vs with
  | some v => .special v false false
  | none => if n = 0 then fSqrt (FFmt.of f) (opd vs 0) else fAdd (FFmt.of f).radix 0 (opd vs 0) (opd vs 1)

/-- Every format, with and without memory operands, and a NaN among them. -/
theorem witness_FloatArithmetic : ∀ f ∈ [0, 1, 2, 3], ∀ nan : Bool, ∀ n ∈ [0, 1, 2],
    let s := floats f nan
    let w := (if n = 0 then ins (0x94 + f) 0 else long (0x80 + f)).toNat
    let y := s.start 0 w
    fpF w = f ∧ fld (s.core 0).cur.psw 34 32 ≤ 4 ∧ (s.core 0).cur.acc.tag = fpTag f ∧ (f = 3 → (s.core 0).cur.aex.tag = tDFP) ∧
    s.issues 0 w (fmtOk (if n = 0 then .n else .m) w) = true ∧
    okP (if n = 0 then EStateM.Result.ok [] y else fpMem w 0x1000 f n y) (fun ms y1 => okP (extUse false y1) fun _ y2 =>
      okP (fpOperands f (fpDecode f (fpFirstBits f y2.c.cur) :: ms) false y2) fun vs y3 =>
        (firstNan vs.1).isSome == nan &&
        okP (fpRound f (exactOf f n vs.1) y3) fun _ _ => true) = true := by decide +kernel

/-- Conversion of 1, and of a NaN, to an integer and from each format to the other of its radix or to binary. -/
theorem witness_FloatCompareAndConvert : ∀ f ∈ [0, 1, 2, 3],
    let s := floats f false
    let g := convSource f
    let t := floats g false
    let u := onUnit (device []) (coreWith { Bank.cold with acc := int 7 })
    let w := (ins (0xA0 + f) 0).toNat
    let m := (long (0x98 + f)).toNat
    s.issues 0 w (fmtOk .n w) = true ∧ s.issues 0 m (fmtOk .m m) = true ∧ (t.core 0).cur.acc.tag = fpTag g ∧ (u.core 0).cur.acc.tag = tINT ∧
    okP (fpMem m 0x1000 f 1 (s.start 0 m)) (fun ms y1 => okP (extUse false y1) fun _ y2 =>
      okP (fpOperands f (fpDecode f (fpFirstBits f y2.c.cur) :: ms) true y2) fun _ _ => true) = true ∧
    okP (extUse false (s.start 0 w)) (fun _ y2 => okP (fpOperands f [fpDecode f (fpFirstBits f y2.c.cur)] false y2) fun vs y3 =>
      bit y3.c.cur.psw 31 == false && bit y3.c.cur.psw 27 == false && !(toInteger (FFmt.of f).radix 0 (opd vs.1 0)).2.1) = true ∧
    okP (extUse false (t.start 0 w)) (fun _ y2 => okP (fpOperands g [fpDecode g (fpFirstBits g y2.c.cur)] false y2) fun vs y3 =>
      okP (fpRound f (fConv (opd vs.1 0)) y3) fun _ _ => true) = true ∧
    okP (extUse false (u.start 0 w)) (fun _ y2 => y2.c.cur == (u.core 0).cur && okP (fpRound f (.rat false 7 1 0 0) y2) fun _ _ => true)
      = true := by decide +kernel

/-- The decode entry of customer opcode 0 names the word END at address 0; without and with an effective address and a use
of the extension state. -/
theorem witness_CustomerInstructionRuns : ∀ d ∈ [0x9000000500000000, 0xA000000500000000],
    let c := { coreWith Bank.cold with ucstat := 1, dectab := [(0, BitVec.ofNat 64 d)], cstore := [(0, 0x80000000)] }
    let s := onUnit (device []) c
    let w := (ins 0xC0 0).toNat
    let y := s.start 0 w
    let n := fld (decEntry (s.core 0) w) 43 32
    s.issues 0 w (customerOk (s.core 0) w) = true ∧ (s.core 0).parity.contains (0x0104, decAddr (s.core 0) w) = false ∧
    pPRIV (s.core 0).cur.psw ≤ fld (decEntry (s.core 0) w) 59 58 ∧ okP (formA w (dispU w 0) y) (fun ea _ => ea == 0) = true ∧
    okP (if bit (decEntry (s.core 0) w) 61 then extUse false y else .ok () y) (fun _ y1 =>
      okP (uRun 4096 (mseqStart y1.c y1.s.free 0) 0 1 { y1 with cost := n, xcost := n, path := some (2 + (y1.cost - y.cost)) })
        fun m y2 => okP (uRetire m y2) fun _ _ => true) = true := by decide +kernel

/-- The word END alone, and UADD ACC, ACC, ACC with END. -/
theorem witness_CustomerInstructionRuns_oneWord : ∀ p ∈ [((0x80000000 : BitVec 32), 0), (0x84000000, 1)],
    let c := { coreWith Bank.cold with ucstat := 1, dectab := [(0, 0x9000000500000000)], cstore := [(0, p.1)] }
    let s := onUnit (device []) c
    let w := (ins 0xC0 0).toNat
    let d := decEntry c w
    let u := sget 0 c.cstore (fld d 11 0)
    s.core 0 = c ∧ s.issues 0 w (customerOk c w) = true ∧ pPRIV c.cur.psw ≤ fld d 59 58 ∧ bit d 60 = true ∧ bit d 61 = false ∧
    c.parity = [] ∧ uEND u = true ∧ uOP u = p.2 ∧ uD u < 8 ∧ uA u < 8 ∧ uB u < 8 ∧
    tagReserved (c.cur.reg (uA u)).tag = false ∧ (c.cur.reg (uA u)).tag ≠ tPOISON := by decide +kernel

/-- It retires with ACC doubled and 4 cc of path cost (R214, R219). -/
theorem test_customer_one_word :
    let b := { Bank.cold with acc := ⟨21, tINT⟩ }
    let c := { coreWith b with ucstat := 1, dectab := [(0, 0x9000000500000000)], cstore := [(0, 0x84000000)] }
    (match exec (.customerInstruction 0 (ins 0xC0 0) 0) (onUnit (device []) c) with
    | .next t => decide ((t.core 0).cur.acc = ⟨42, tINT⟩ ∧ (t.core 1).pc = (c.pc + 4) ∧ (t.core 0).retired = 1)
    | _ => false) = true := by decide +kernel
/-! Witnesses: the device beside the instructions of a core. Each clause with hypotheses has its own. -/

/-- Level 0 with translation, interrupts and every mask open. -/
def openLevel (s : State) : State := s.setCores [0, 1] ((s.core 0).setBank 0 { (s.core 0).bank 0 with psw := 0 })

/-- Request 1 pends on the unit of core 0, whose vector goes to level 2. -/
def requested : State :=
  let s := openLevel (vectored { coreWith Bank.cold with lmask := 0 } 0x21 2)
  { s with async := [(0, { Async.cold with pend := 2 }), (1, { Async.cold with pend := 2 })] }

theorem witness_LevelEntriesAndRequests_requests :
    State.reset.listens 0 = true ∧ requested.atBoundary 0 = true ∧
    (let u := requested.dropInvalid 0
     requested.budgetDue 0 = false ∧ u.requestDue 0 = some (1, 0x2000000000000100)) := by decide +kernel

theorem witness_LevelEntriesAndRequests_causes :
    (0x0501 < 0x8000 ∧ ¬(0x0101 ≤ 0x0501 ∧ 0x0501 ≤ 0x0104)) ∧ (requested.core 0).lev < 16 ∧
    (let s := vectored (coreWith Bank.cold) 0 0
     (s.core 0).lev < 16 ∧ (s.vecEntry (s.core 0).vbr 0).2 = some 0x100) ∧
    State.reset.issuesNow 0 = true ∧ State.reset.stepping 0 = false ∧ (device []).area 0x40 = .own ∧
    (let s := openLevel (vectored { coreWith Bank.cold with lmask := 0, ctx := some ⟨1, 1, 0x2000, false⟩, armed := true, budget := 0x700000000 }
       vBUDGET_EXCEEDED 3)
     let c := s.core 0
     s.canIssue 0 = true ∧ s.budgetDue 0 = true ∧ 0 < 3 ∧
     (s.vecEntry c.vbr vBUDGET_EXCEEDED).2 = some 0x3000000000000100 ∧ masked c.lmask c.cur.psw 3 = false) := by decide +kernel

/-- The PC lies in a frame that no table maps: the fetch itself faults. -/
theorem witness_LevelEntriesAndRequests_fetch :
    let s := openLevel (paged Bank.cold (leaf 8) [])
    let s := s.setCores [0, 1] ({ s.core 0 with pc := 0x3000 }.setBank 0 { Bank.cold with psw := 0x10 })
    s.issuesNow 0 = true ∧ (match fetchOp (s.startCx 0 0 4) with
      | .error (.exc q) _ => !q.after && q.vec != vMACHINE_CHECK
      | _ => false) = true := by decide +kernel

/-! Posting units. Unit 7 serves the word at 0x7000. -/

/-- The word's entry: committed 100, running value 80. -/
def postEntry (st : NSt) : NEntry := ⟨0x7000, ⟨pdecOf 100, tPDEC⟩, ⟨pdecOf 80, tPDEC⟩, 0xFFFF, st, [], none, true⟩

/-- One POST of -20 by the run with ISN 1. -/
def postLog : List LogE := [⟨1, 0, 0xFFFF, .post, false, false, 0x7000, pdecOf (-20), pdecOf 80, 1, none⟩]

/-- A unit waits for posting unit 7, whose queue holds these requests. -/
def waitsFor (q : List NReq) (log : List LogE) : State :=
  (onUnit (device []) { coreWith Bank.cold with act := .reply, ctx := some ⟨1, 1, 0x2000, false⟩ }).setNpu 7
    { Npu.cold with cache := [postEntry .clean], queue := q, log := log }

/-- A debit by device 5 of 50 that has taken its place, with a floor of 20. -/
def remoteDebit : LogE := ⟨1, 0, 0xFFFF, .remote, false, true, 0x7000, pdecOf (-50), pdecOf 50, 0, some (pdecOf 20)⟩

/-- 80 - 20 is done; 80 - 100 below a floor of 0 is refused; a sum of sixteen digits overflows; with a REMOTE entry, so does a
POST that takes the low bound below its floor, and one that takes it below fifteen digits. -/
theorem witness_PostingUnitAppliesPosts :
    ∀ p ∈ [(80, -20, some 0, false, PostSt.done), (80, -100, some 0, false, .floor), (999999999999990, 100, none, false, .overflow),
      (80, -31, none, true, .floor), (0, -999999999999999, none, true, .overflow)],
    let s := (device []).setNpu 7 { Npu.cold with
      cache := [{ postEntry .clean with r := ⟨pdecOf p.1, tPDEC⟩, c := ⟨pdecOf (if p.1 = 0 then -100 else 100), tPDEC⟩ }]
      log := if p.2.2.2.1 then [remoteDebit] else [] }
    (match s.npuEntry 1 0x7000 true true with
      | (s1, .inr (u, x)) => u == 7 && x.r.tag == tPDEC && pdecVal x.r.val == some p.1 &&
          postStatus (s1.npu u).log 0x7000 p.1 (wordVal x.c.val) (wordVal (pdecOf p.2.1)) (p.2.2.1.map fun f => wordVal (pdecOf f)) == p.2.2.2.2
      | _ => false) = true := by decide +kernel

theorem witness_PostingUnitServesRequests_queue :
    (let s := waitsFor [.post 0 0 0x7000 1 1 0x7000 (pdecOf 10) none false] []
     match (s.setNpu 7 ((s.npu 7).pull 0)).npuPost 1 1 0x7000 (pdecOf 10) none with
      | (s1, .done v false false) => v == pdecOf 90 && s1.sameRun 0 1
      | _ => false) = true ∧
    (let s := waitsFor [.pread 0 0 0x7000 1 1 0x7000 false] []
     match (s.setNpu 7 ((s.npu 7).pull 0)).npuPread 1 1 0x7000 with
      | (s1, .done v false false) => v == pdecOf 80 && s1.sameRun 0 1
      | _ => false) = true ∧
    (let s := waitsFor [.touch 1 0x7000] []
     match (s.setNpu 7 ((s.npu 7).pull 0)).npuEntry 1 0x7000 false false with
      | (_, .inr (v, _)) => v == 7
      | _ => false) = true := by decide +kernel

theorem witness_PostingUnitServesRequests_background :
    (let s := (device []).setNpu 7 { Npu.cold with fills := [0x7000] }
     0x7000 ∈ (s.npu 7).fills ∧ s.chanState (chanOf 0x7000) ≠ 3 ∧ s.line 0x7000 = .ok ∧ s.lineDead = [] ∧
     (s.npu 7).find 0x7000 = none ∧ ((s.npu 7).cache.filter (·.addr != 0x7000)).length < 2048) ∧
    (∀ test : Bool, ∀ q ∈ [[], [NReq.touch 1 0x7000]], let s := (waitsFor q []).wf .fmuStctl 0 0 1
     let s := s.setNpu 7 { s.npu 7 with test := test }
     bit (s.rd .fmuStctl) 0 = true ∧ s.fawn = false ∧ s.served 7 ≠ [] ∧ (s.npu 7).test = test ∧ ((s.npu 7).queue = [] ↔ q = [])) ∧
    (let s := { waitsFor [] postLog with runs := [⟨1, 0, 0, 0, 0, 0, [], 0, 0, 0, 0, false, 1, .aborted, 0, 0, false, 0, 0, 0, [], 0, 0, 0, none, 0, false, false, false, none, none⟩] }
     (s.npu 7).log.any (fun y => y.kind == .post && (s.run y.owner).any fun r => r.st == .aborted) = true) := by decide +kernel

/-! Memory. -/

/-- Channel 2 is up with 6 GiB: some failures and repairs are on record. -/
def channel (state ppr : Nat) : State :=
  let s := (((device [(0x40, int 5)]).wf (.mcuStatus 2) 2 0 state).wf (.mcuStatus 2) 31 16 6).wf (.mcuPpr 2) 31 16 ppr
  { s with chans := [(2, { Chan.cold with patrol := 7, ueRows := [(0, 1, 2), (1, 5, 5)], failed := [(1, 0)] })] }

/-- Line 128 is in this state, and the unit of core 0 waits for it. -/
def lineIs (x : LineSt) : State :=
  { onUnit ((channel 1 0).setLine 0x2000 x) { coreWith Bank.cold with act := .reply } with repairWait := [(0, 128), (5, 7)] }

/-- A device with a replica area and the mirror partner 5. -/
def withReplica : State :=
  let s : State := { (device [(2 ^ 35 + 2 ^ 20, int 9)]) with layout := ⟨2 ^ 36, 2 ^ 35, 2 ^ 20, 2 ^ 20⟩ }
  (s.wf .fabPartner 63 63 1).wf .fabPartner 43 32 5

/-- No error, one symbol of one device, and nine devices in error, outside a protected frame. -/
theorem witness_MemoryChannels_patrol :
    let s := channel 1 3
    let a := 64 * chanLine 2 ((s.chan 2).patrol % s.chanLines 2)
    s.chanLines 2 ≠ 0 ∧ s.chanState 2 ≠ 3 ∧ s.area a = .own ∧ a < s.layout.d ∧ s.pcBit a = false ∧
    (s.chan 2).corrects ⟨0, 0, [(1, 1)]⟩ = true ∧ (s.chan 2).corrects ⟨0, 0, (List.range 9).map (·, 1)⟩ = false ∧
    (0, 1, 2) ∈ (s.chan 2).ueRows ∧ s.chanState 2 ≠ 0 ∧ (1, 7) ∉ (s.chan 2).failed ∧ (2, 0) ∉ (s.chan 2).failed ∧
    (7 : Fin 12).val ∈ s.served 7 := by decide +kernel

/-- The line that patrol reads next lies in a PC = 1 frame, and the device has a partner. -/
theorem witness_MemoryChannels_fetch :
    let c := channel 1 3
    let a := 64 * chanLine 2 ((c.chan 2).patrol % c.chanLines 2)
    let s := { c.wr .fabPartner 0x8006000500000000 with postClass := [(a / 4096, true)] }
    s.area a = .own ∧ s.pcBit a = true ∧ s.line a ≠ .fetching ∧ s.hasPartner = true ∧ s.chanState 2 ≠ 3 := by decide +kernel

theorem witness_MemoryChannels_lines :
    (lineIs .fetching).line 0x2000 = .fetching ∧ (lineIs .stale).line 0x2000 = .stale ∧ (0, 128) ∈ (lineIs .fetching).repairWait ∧
    (lineIs .fetching).awaits 0 = true ∧ 0 ∈ (lineIs .fetching).unitCores 0 ∧ ((List.range 8).map int).length = 8 ∧
    withReplica.hasPartner = true ∧ withReplica.partnerId = (5 : Fin 4096) ∧
    withReplica.area (withReplica.replicaLine 0) = .replica ∧ withReplica.line (withReplica.replicaLine 0) = .ok := by decide +kernel

/-! The tick. -/

/-- A staged, a clean and a flipped entry. -/
def tickNpu : Npu :=
  { Npu.cold with
    cache := [postEntry .staged, { postEntry .clean with addr := 0x7008 }, { postEntry .flipped with addr := 0x7010 }], log := postLog }

/-- Mirrored with partner 5 and witness 6. -/
def mirrored (s : State) : State := (s.wr .fabPartner 0x8006000500000000).wf .fabLease 63 61 1

theorem witness_TickPhases : ∀ ph ∈ [0, 1, 2, 3],
    let s := (((device []).setNpu 7 tickNpu).wf .tsqStatus 2 0 ph).wf .vltStatus 61 60 0
    bit (s.rd .hupStatus) 0 = false ∧ s.rf .tsqStatus 2 0 = ph ∧ s.vaultOk = true ∧ s.sched.flipped = false ∧ s.sched.warm = false ∧
    { s with sched := { s.sched with warm := true } }.sched.warm = true ∧ (mirrored s).sealsAlone = false ∧
    ((s.npu 7).flip.flipped.map (·.addr) = [0x7000, 0x7010]) ∧ s.chanState (chanOf 0x7000) ≠ 3 := by decide +kernel

theorem witness_TickPhases_entries :
    tickNpu.cache[0]? = some (postEntry .staged) ∧ tickNpu.cache[1]? = some { postEntry .clean with addr := 0x7008 } ∧
    tickNpu.cache[2]? = some { postEntry .flipped with addr := 0x7010 } := by decide +kernel

theorem witness_TimedEvents :
    (mirrored State.reset).hasPartner = true ∧ (mirrored State.reset).quiet = false ∧ (mirrored State.reset).rf .fabLease 63 61 = 1 ∧
    State.reset.rf .tsqPeriod 47 0 ≤ State.reset.tick ∧ (State.reset.wf .tsqPeriod 47 0 1).tick < (State.reset.wf .tsqPeriod 47 0 1).rf .tsqPeriod 47 0 ∧
    ((mirrored State.reset).wf .fabLease 63 61 4).rf .fabLease 63 61 = 4 ∧
    (∀ i ∈ [3, 4, 5, 6], let s := State.reset.wf .intStatus i i 1
      (bit s.intStatusWord 3 || bit s.intStatusWord 4 || bit s.intStatusWord 5 || bit s.intStatusWord 6) = true) ∧
    bit (State.reset.wf .intStatus 2 2 1).intStatusWord 2 = true := by decide +kernel

/-! Witnesses: scheduling and the fabric. -/

/-- A device in service: intake open, partition 1 with program 1 (entry 0x100) at 0x8040 and sixteen frames from 0x10000,
queue 1 of function 0 bound to it with one descriptor waiting, mirror partner 5 on port 0 and witness 6. -/
def inService : State :=
  let s := device [(0x8040, raw 0x100), (0x8048, int 7), (0x8050, raw (2 ^ 32 * 5000)), (0x8058, raw (2 ^ 48 + 3 * 2 ^ 56))]
  let s := ((s.wr (.keyPtctl 1) 0x8000000000000000).wr (.intProgtab 1) 0x8000).wr (.intRqarea 1) 0x10010
  let s := (s.wr (.keyQbind 1) 0x8000000000000001).wr (.intQcfg 1) 0x8045000000000000
  let s := ((s.wr .devId 0x10001).wr .intStatus 0).wr .fabPartner 0x8006000500000000
  let s := ((s.wf .vltStatus 61 60 0).wf (.fabPstatus 0) 2 0 3).wr (.fabRoute 5) 0x8000000000000000
  { s with sched := { s.sched with isOpen := true } }.setQueue 1 { Queue.cold with sqTail := 1 }

/-- A request of queue 1 and partition 1. -/
def request (isn : Nat) (st : RunSt) : Run :=
  ⟨isn, 1, 1, 0, 1, 0, [], 9, 0, 0x10000, 0x2000, false, isn, st, 0, 0, false, 0, 0, 0, [], 0, 0, 0, none, 0, false, false, false, none, none⟩

def withRuns (rs : List Run) (s : State) : State := { s with runs := rs }

def inFawn (n : Nat) (s : State) : State := s.wf .fmuStatus 61 60 n

def atTick (n : Nat) (s : State) : State := s.wf .tsqTick 47 0 n

def withFab (f : Fab → Fab) (s : State) : State := { s with fab := f s.fab }

theorem witness_IntakeAndScheduling_fawn :
    (let s := { inService with mp := { inService.mp with members := [0] } }; s.causes ≠ 0 ∧ s.rf .fmuStatus 61 60 = 0) ∧
    inService.causes = 0 ∧
    (let s := atTick 9999999 (inFawn 1 (withRuns [request 1 .accepted] inService))
     s.rf .fmuStatus 61 60 = 1 ∧ s.sched.drainSince + s.rf .fmuDegcfg 31 16 ≤ s.tick ∧ s.runs.any Run.unreleased = true) := by
  decide +kernel

theorem witness_IntakeAndScheduling_release :
    (∀ r ∈ [request 1 .isSealed, { request 1 .isSealed with isRepeat := true, result := [1, 2] }],
      let s := atTick 1 (withRuns [r] inService)
      s.releases = true ∧ s.outQueue r = some 1 ∧ s.releasable 1 = [r] ∧ s.cqOpen 1 = true) ∧
    (let s := inService.setQueue 1 { inService.queue 1 with acc := [.refusal 3 0x103 9] }
     s.vaultOk = true ∧ s.cqOpen 1 = true ∧ (s.queue 1).acc = [.refusal 3 0x103 9]) := by decide +kernel

theorem witness_IntakeAndScheduling_doorbells :
    let s := withRuns [request 1 .released, request 5 .released] (inService.setQueue 1 { Queue.cold with sqTail := 1, cqTail := 2, relKey := some 5 })
    bit (s.rd (.keyQbind 1)) 63 = true ∧ fld (s.rd (.keyQbind 1)) 55 48 = (0 : Fin 256) ∧ bit (s.rd (.intQcfg 1)) 63 = true ∧
    (s.queue 1).held = false ∧ s.sqSize 1 = 16 ∧ s.cqSize 1 = 32 ∧
    (∀ j ∈ [1, 15], let x := s.queue 1; (x.sqTail + 16 - x.fetch) % 16 ≤ (j + 16 - x.fetch) % 16) ∧
    (∀ h ∈ [0, 2], let x := s.queue 1; (h + 32 - x.cqHead) % 32 ≤ (x.cqTail + 32 - x.cqHead) % 32) ∧
    (∀ key ∈ [1, 5], s.runs.all (fun r => !(s.outQueue r == some 1 && r.okey ≤ key && (r.st == .committed || r.st == .isSealed))) = true ∧
      key ≤ (s.queue 1).relKey.getD 0 ∧ s.retiring 1 key ≠ [] ∧ s.vaultOk = true) := by decide +kernel

/-- A descriptor of program 1 with no payload, and one of an empty program. -/
def descBytes (prog : BitVec 8) : List Byte := [9] ++ List.replicate 16 0 ++ [prog] ++ List.replicate 494 0

theorem witness_IntakeAndScheduling_fetch :
    let d := Desc.of (descBytes 1)
    inService.fetches 1 = true ∧ inService.fawn = false ∧ (descBytes 1).length = 512 ∧ (descBytes 3).length = 512 ∧
    inService.descOk (inService.queuePart 1) (Desc.of (descBytes 3)) = false ∧ inService.descOk (inService.queuePart 1) d = true ∧
    inService.idem = [] ∧ inService.freeFrame 1 = some 0x10000 ∧
    (∀ m ∈ [0, 1], bit ((inService.wf (.keyPtctl 1) 62 62 m).rd (.keyPtctl 1)) 62 = decide (m = 1)) := by decide +kernel

/-- With an empty table every key is new and has room. -/
theorem witness_IntakeAndScheduling_idem (s : State) (part key check : Nat) :
    s.idemFind [] part key check = none ∧ (s.idemRoom [] part key).isSome = true := by
  constructor
  · exact List.find?_eq_none.2 fun i _ => by simp [State.idemKey, sget, Idem.free]
  · unfold State.idemRoom idemPlaces idemBuckets
    rw [List.find?_isSome]
    exact ⟨_, List.mem_flatMap.2 ⟨_, List.mem_cons_self, List.mem_map.2 ⟨0, by simp, rfl⟩⟩, rfl⟩

/-- The program table entry of program 1. -/
def program : Prog := ⟨0x100, 7, 5000, 0, 3, 0, 0⟩

theorem witness_IntakeAndScheduling_delivery :
    (let r := { request 1 .staging with exact := true, prg := some program }
     let s := (withRuns [r] inService).wf (.cluSlot 0 0) 27 27 1
     s.lane (0 : Fin 8) = some (0, 0) ∧ s.runs.any (Run.onLane 0) = false ∧ s.rf .tsqStatus 2 0 < 2 ∧
     sortRuns (·.okey) (s.runs.filter fun r => r.st == .staging && r.xregion == 0) = [r] ∧ s.touching 1 = false) ∧
    (let s := onUnit (withRuns [request 1 .queued] inService) { coreWith Bank.cold with act := .disp }
     s.runs.find? (fun q => q.isn % 2 ^ 64 == 1 % 2 ^ 64 && s.deliverable 0 q) = some (request 1 .queued) ∧
     s.takesRun 0 (request 1 .queued) = true ∧ s.overtakes 0 (request 1 .queued) = false ∧
     s.deliveryFault (request 1 .queued) = none ∧ s.progOf (request 1 .queued) = some program) ∧
    (let s := (withFab (fun f => { f with granted := some true }) inService).wf .fabLease 63 61 2
     s.fab.granted = some true ∧ s.rf .fabLease 63 61 = 2) ∧
    (let s := withFab (fun f => { f with handTaken := true }) inService; s.fab.handTaken = true ∧ s.fab.custody = false) := by
  decide +kernel

/-- A core of the device executes DISPATCH, and the run is delivered to it. -/
theorem witness_DispatchAndYield_delivery :
    let s := onUnit (withRuns [request 1 .queued] inService) (coreWith Bank.cold)
    let w := ins 0x09 0
    (s.core 0).lev = 0 ∧ s.issues 0 w.toNat (fmtOk .n w.toNat) = true ∧
    (match exec (.dispatch 0 w 0) s with
      | .next u => u.runs.find? (fun q => q.isn % 2 ^ 64 == 1 % 2 ^ 64 && u.deliverable 0 q) == some (request 1 .queued) &&
          u.takesRun 0 (request 1 .queued) && !u.overtakes 0 (request 1 .queued) && u.deliveryFault (request 1 .queued) == none &&
          u.progOf (request 1 .queued) == some program
      | _ => false) = true ∧ (request 1 .queued).pblk = none ∧ (request 1 .queued).exact = false := by decide +kernel

/-- Device 1 of serial 3 with manager and time priority 5, and on port 0 a neighbour with these values. -/
def candidate (state : Nat) (x : PortX) : State :=
  let s := (inService.wf .fabRole 31 24 5).wf .fabRole 23 16 5
  let s : State := { s with fuses := { s.fuses with serial := 3 }, fab := { s.fab with ports := [(0, x)] } }
  s.wf (.fabPstatus 0) 2 0 state

/-- A beacon of serial 9 with priorities pri, these roles and this best serial. -/
def beaconOf9 (pri roles best : Nat) : PortX := { PortX.cold with beacon := some ⟨9, 1, 0x8007, 3, roles, pri, 0, best⟩ }

theorem witness_FabricRolesAndLinks_elections :
    (let s := candidate 3 (beaconOf9 0x0303 0 3)
     s.portUp 0 = true ∧ bit (s.rd .fabRole) 63 = false ∧ bit (s.rd .fabRole) 62 = false ∧ s.rf .fabRole 31 24 ≠ 0 ∧ s.rf .fabRole 23 16 ≠ 0 ∧
     s.bestCand 5 Beacon.mpri = s.fuses.serial.toNat ∧ s.bestCand 5 Beacon.tpri = s.fuses.serial.toNat ∧
     (s.upPorts.filterMap fun q => (s.port q).beacon).all (fun b => b.best == s.fuses.serial.toNat) = true) ∧
    (let s := candidate 3 (beaconOf9 0x0909 12 9)
     s.isStandby 5 2 Beacon.mpri = true ∧ s.isStandby 5 3 Beacon.tpri = true) ∧
    bit ((inService.wr .devId 0).rd .devId) 16 = false ∧ (0 : Fin 4096).val = inService.rf .fabRole 59 48 := by decide +kernel

theorem witness_FabricRolesAndLinks_links :
    (∀ h ∈ [0, 1], let f : Transit := ⟨0x11, 0, 5, false, h⟩
     typeKnown f.typ.toNat = true ∧ inService.isMine f.dst = false ∧ inService.portUp (0 : Fin 8) = true ∧ f.typ ≠ 1 ∧ f.typ ≠ 3) ∧
    (let r := inService.routeOf 5; bit r.2 63 = true ∧ r.1.portUp (fld r.2 2 0) = true) ∧
    (∀ n ∈ [14, 15], let s := candidate 3 { PortX.cold with retryFrame := 2, retryTimes := List.replicate n 0 }
     s.portUp 0 = true ∧ ((s.port 0).retryTimes.filter fun i => decide (s.now < i + 1000000)).length = n) ∧
    (∀ st ∈ [0, 1], let s := (candidate st PortX.cold).wf (.fabPctl 0) 4 4 1
     s.rf (.fabPstatus 0) 2 0 < 2 ∧ bit (s.rd (.fabPctl 0)) 4 = true) ∧
    (candidate 2 PortX.cold).rf (.fabPstatus 0) 2 0 = 2 := by decide +kernel

theorem witness_TimeLeaseAndHandover_time :
    inService.portUp (0 : Fin 8) = true ∧ bit ((inService.wf .fabRole 62 62 1).rd .fabRole) 62 = true ∧
    50 < (51 : BitVec 16).toInt.natAbs ∧ 50 < (0xFFCD : BitVec 16).toInt.natAbs ∧ (0xFFCE : BitVec 16).toInt.natAbs ≤ 50 ∧
    State.reset.neverTicked = true ∧ (atTick 5 inService).neverTicked = false := by decide +kernel

theorem witness_TimeLeaseAndHandover_lease :
    inService.hasPartner = true ∧ (5 : Fin 4096).val = inService.partnerId ∧ (6 : Fin 4096).val = inService.witnessId ∧
    (5, 5, 0) ∉ inService.fab.seen ∧ (5, 7, 0) ∉ inService.fab.seen ∧ (6, 6, 0) ∉ inService.fab.seen ∧
    ¬(6, 6, 0) ∉ (withFab (fun f => { f with seen := [(6, 6, 0)] }) inService).fab.seen ∧ inService.fab.granted ≠ some true ∧
    (let s := (withFab (fun f => { f with hbMiss := 2 }) inService).wf .fabLease 63 61 1
     2 ≤ s.fab.hbMiss ∧ s.fab.asked = false ∧ s.rf .fabLease 63 61 = 1) ∧
    (let s := withFab (fun f => { f with wit := [⟨0, 5, some 0, 7⟩] }) inService; s.deposed 5 = true ∧ s.deposed 0 = false ∧ s.deposed 6 = false) ∧
    (withFab (fun f => { f with asked := true }) inService).fab.asked = true ∧
    (withFab (fun f => { f with granted := some false }) inService).fab.granted = some false := by decide +kernel

theorem witness_TimeLeaseAndHandover_handover :
    inService.fawn = false ∧ inService.fab.asked = false ∧ (inFawn 1 inService).fawn = true ∧
    (let s := inFawn 2 inService
     s.rf .fmuStatus 61 60 = 2 ∧ s.sched.unsealed = [] ∧ s.fab.handAck = false ∧ s.mirrorUp = true) ∧
    (withFab (fun f => { f with handSent := true }) (inFawn 2 inService)).fab.handSent = true := by decide +kernel

/-! Witnesses: messages, records, registers. -/

def jrec (n : Nat) (b : JBody) : JRec := ⟨n, 0, 0, b⟩

/-- A request of the own journal waits for partner 5, whose ledger area is mirrored here. -/
def mirroring : State :=
  { (inService.putWord (2 ^ 35 + 2 ^ 20) (int 9)) with
    layout := ⟨2 ^ 36, 2 ^ 35, 2 ^ 20, 2 ^ 35 - 2 ^ 20 - 2 ^ 24⟩
    vault := { inService.vault with key := some (0, 7), own := [jrec 3 (.accept 1 9 1 1 1 0 0 [] 0), jrec 4 (.retire 1 1)], unacked := [(3, 0), (4, 2)] }
    runs := [request 1 .journaled, request 2 .queued] }

/-- A remote operation of device 3 on posting unit 7 in this tick. -/
def remoteLog (s : State) : State :=
  s.setNpu 7 { Npu.cold with
    cache := [postEntry .clean], log := [⟨1, 1, 0xFFFF, .remote, false, false, 0x7000, pdecOf 7, pdecOf 87, 3, none⟩] }

/-- Partition 1 maps 0x1000 to posting frame 7 and grants it to partition 2 of device 3. -/
def target (s : State) : State :=
  let s := ((s.putWord 0x2000 (int (2 ^ 63 + 0x4000))).putWord 0x4000 (int (2 ^ 63 + 0x6000))).putWord 0x6008 (int (pfLeaf 7 + 2 ^ 59))
  let s := ((s.wr (.keyPtctl 1) 0xC000000000000000).wr (.keyPtroot 1) 0x2000).wr (.keyGrant 0) (BitVec.ofNat 64 (15 * 2 ^ 60 + 2 * 2 ^ 24 + 1))
  (remoteLog s).wf .tsqStatus 4 4 1

/-- A record signed under the key of its epoch, and one of an epoch whose key is gone. -/
theorem witness_MirrorAndRemoteMessages_signed (v : Vault) (h : v.key = some (0, 7)) (h' : v.prevKey = none) :
    let r := jrec 9 (.retire 1 1)
    v.verifies 5 { r with tag := r.tagOf 7 5 } = true ∧ v.verifies 5 ⟨9, 1, 0, .retire 1 1⟩ = false := by
  refine ⟨?_, ?_⟩
  · simp only [Vault.verifies, Vault.keyOf, h, jrec]
    exact beq_self_eq_true _
  · simp only [Vault.verifies, Vault.keyOf, h, h']
    rfl

theorem witness_MirrorAndRemoteMessages_partner :
    let s := mirroring
    s.vault.key = some (0, 7) ∧ s.vault.prevKey = none ∧
    s.isPartner 5 = true ∧ s.vaultOk = true ∧ s.quiet = false ∧ request 1 .journaled ∈ s.runs ∧
    jrec 3 (.accept 1 9 1 1 1 0 0 [] 0) ∈ s.vault.own ∧ s.vault.ptn.all (fun x => x.rsn != 9) = true ∧
    2 ^ 21 + recBytes s.vault.ptn ≤ vaultHalf ∧ s.vault.badRsn.any (· < 9) = false ∧ s.vault.early = [] ∧
    { s.vault with badRsn := [8] }.badRsn.any (· < 9) = true ∧ 0x7000 < s.layout.p ∧ s.chanState (chanOf (s.replicaBase + 0x7000)) ≠ 3 ∧
    (5, 0x12, 0) ∉ s.fab.seen ∧ (5, 0x13, 0) ∉ s.fab.seen ∧ s.vault.badRsn = [] ∧ s.vault.unacked.find? (·.1 == 3) = some (3, 0) ∧ s.vault.unacked.find? (·.1 == 4) = some (4, 2) ∧
    s.vault.own.find? (·.rsn == 4) = some (jrec 4 (.retire 1 1)) := by decide +kernel

theorem witness_MirrorAndRemoteMessages_rollback :
    let s := remoteLog mirroring
    (3, 8, 0) ∉ s.fab.seen ∧ s.isPartner 3 = false ∧ s.sched.flipped = false ∧
    (s.npu 7).log.any (fun x => x.kind == .remote && x.owner == 3 && !([9].contains x.okey)) = true ∧
    (3, 9, 0) ∉ s.fab.seen ∧ (3, 10, 0) ∉ s.fab.seen ∧ s.rf .tsqStatus 2 0 = 0 ∧ s.run 2 = some (request 2 .queued) ∧
    (request 2 .queued).st.inTick = true ∧ (request 2 .queued).pinned = false ∧ (request 2 .queued).okey < 2 ^ 80 := by decide +kernel

/-- Records that fill the partner half but for less than 2 MiB. -/
def fill (n : Nat) : List JRec := [jrec 1 (.result 1 1 0 1 (List.replicate n 0) [])]

theorem recBytes_fill (n : Nat) (h : 64 ≤ n) : recBytes (fill n) = 64 + n := by
  simp [recBytes, fill, jrec, JBody.len, JBody.parts, padTo, entryBytes]; omega

theorem witness_MirrorAndRemoteMessages_full :
    (∃ n, vaultHalf < 2 ^ 21 + recBytes (fill n) ∧ (fill n).all (fun x => x.rsn != 2) = true) ∧
    (JBody.accept 2 9 1 1 1 0 0 [] 0).typ = 1 :=
  ⟨⟨vaultHalf, by rw [recBytes_fill vaultHalf (by decide)]; decide, rfl⟩, rfl⟩

/-- The operations of device 3: refused while this device is not in sync; applied, and read. -/
theorem witness_MirrorAndRemoteMessages_operations :
    let rq : RReq := ⟨2 ^ 42 + 0x1000, pdecOf 5, none, 77, 2, 11, 0⟩
    let s := target (mirroring.wf .fabPartner 63 63 0)
    (3 : Fin 4096).val ≠ s.devId ∧ mirroring.remoteGate false = some rsNOT_SYNCED ∧ s.remoteGate false = none ∧ s.hasPartner = false ∧
    s.remoteGate true = none ∧ rq.tick = s.tick ∧ s.tick < { rq with tick := s.tick + 1 }.tick ∧
    (let s := atTick 5 s; s.remoteGate true = none ∧ s.remoteGate false = none ∧ rq.tick < s.tick) ∧
    (match s.remoteCheck 3 rq false with
      | (s1, .inr pa) => pa == 0x7000 && !s1.npuBehind pa false && (s1.npuRemote 3 77 pa rq.amount rq.floor).2.isSome
      | _ => false) = true ∧
    (match (s.putWord 0x7000 ⟨pdecOf 100, tPDEC⟩).remoteCheck 3 rq true with
      | (s1, .inr pa) => decide (s1.lineRead pa (.remote 3 rq.rid) = (s1, .good)) && (s1.committed pa).tag == tPDEC && (pdecVal (s1.committed pa).val).isSome
      | _ => false) = true := by decide +kernel

theorem witness_MirrorAndRemoteMessages_reply :
    let s := onUnit (withFab (fun f => { f with waits := [(11, ⟨0, 0, 5, 7, true, 0, none⟩)] }) inService) { coreWith Bank.cold with act := .reply }
    s.fab.waits.find? (·.1 == 11) = some (11, ⟨0, 0, 5, 7, true, 0, none⟩) ∧ 0 ≤ s.tick ∧ s.awaits 0 = true ∧
    (s.core 0).ctx.all (fun k => k.isn == 5) = true := by decide +kernel

/-- R392, R393: a signature's class, whatever the record says. -/
theorem test_class : (Rec.fixed { Rec.empty with sig := sgMEM_UE, cls := clTRACE }).cls = clALARM ∧
    (Rec.fixed { Rec.empty with sig := sgPF_AREA }).cls = clEVENT ∧ sigClass sgTRACE_GAP = some clTRACE := by decide

/-- An EVENT record of signature 7, a reserved code. -/
def eventRec (time n : Nat) : Rec := ⟨clEVENT, false, false, 1, 7, 8, 0, n, time, time, 0, 0, 0⟩

def aggregated (k : Nat) (r : Rec) (s : State) : State := { s with fmu := { s.fmu with aggs := [(k, ⟨[r], false, 0⟩)] } }

theorem witness_RecordsMembersAndHostLink_records :
    (let a := sget Agg.cold inService.fmu.aggs (aggKey 1 0)
     (sigClass (eventRec 5 1).sig).getD (eventRec 5 1).cls = clEVENT ∧ aggFind a (eventRec 5 1) = none ∧ a.evLost = false ∧ aggCount a false < 64 ∧
     inService.fmu.log.length - (inService.fmu.log.filter fun p => p.2.cls == clALARM).length < 3072) ∧
    (∀ level ∈ [1, 5], ∀ t ∈ [0, 2 ^ 40], let s := aggregated (aggKey level 0) (eventRec t 1) (inService.wr .fabTime 70000)
      (sget Agg.cold s.fmu.aggs (aggKey level 0)).entries.find? (fun x => x.sig == 7 && x.root == 8) = some (eventRec t 1) ∧
      s.fmu.waiting = [] ∧ (t + (7 - level) * s.period ≤ s.now ↔ t = 0)) ∧
    (let s := { inService with fmu := { inService.fmu with forward := [eventRec 5 1] } }
     s.fmu.forward = [eventRec 5 1] ∧ bit (s.rd .fabRole) 63 = false) := by decide +kernel

theorem witness_RecordsMembersAndHostLink_members :
    (let s := { inService with mp := { inService.mp with members := [0, 1, 2] } }; s.mp.members.length = 3 ∧ (2 : Fin 3).val ∈ s.mp.members) ∧
    (let s := { inService with mp := { inService.mp with members := [0, 2] } }; s.mp.members.length = 2) ∧
    bit (inService.rd (.keyQbind 1)) 63 = true ∧ fld (inService.rd (.keyQbind 1)) 55 48 = (0 : Fin 256) ∧
    (∀ k ∈ [0, 31], let s := inService.modFn 0 fun x => { x with table := [(k, ⟨0xFEE00000, 7, true⟩)], pend := [k] }
      sget MsixEntry.cold (s.fn 0).table k = ⟨0xFEE00000, 7, true⟩ ∧ k < (s.fnVecs 0).2 ∧ k ∈ (s.fn 0).pend) := by decide +kernel

/-- Cores 0 to 5 of cluster 0 are in service, 6 and 7 spare. -/
def manned (s : State) : State :=
  let put (n : Nat) (s : State) (e : Nat) : State := s.modCore e fun c => c.setStateCode n
  [6, 7].foldl (put csSPARE) ([0, 1, 2, 3, 4, 5].foldl (put csSERVICE) s)

theorem witness_RegisterCommands_device :
    bit ((inService.wf .devId 16 16 0).rd .devId) 16 = false ∧ bit (inService.rd .devId) 16 = true ∧ inService.devId = 1 ∧
    (queued inService).accessQueued (· == (1 : BitVec 40).toNat) = true ∧ inService.accessQueued (· == (1 : BitVec 40).toNat) = false ∧
    (queued inService).area 0x1000 = .own ∧ inService.resets.cold = none ∧ (atTick 100 inService).tick = 100 := by decide +kernel

def coldRequested : State := { inService with resets := ⟨some 3, none, [], [], false, []⟩ }

theorem witness_RegisterCommands_reset : coldRequested.resets.cold = some 3 := rfl

theorem witness_RegisterCommands_cores :
    let s := manned inService
    Csr.of 0x3A = some .budget ∧ Csr.of 0x44 = some (.xscr 0) ∧ Csr.of 0x243 = some (.laddr 16) ∧
    s.clusterOn 0 = true ∧ s.offline 0 = false ∧ (∀ e ∈ [0, 5], s.coreState e ≠ csRETIRED ∧ s.coreState e ≠ csSPARE ∧ (s.core e).c6 = false) ∧
    s.area 0x10000 = .own ∧ s.area (2 ^ 35 + 4096) = .unmirrored ∧
    bit ({ Core.cold with xown := 1 }.xown) 0 = true ∧
    (let q := s.setCores [0, 1] { s.core 0 with tbase := 2 ^ 54 }; fld ((q.core 0).view q.free).tbase 63 54 ≠ 0) := by decide +kernel

/-! Witnesses: lockstep. -/

/-- The cores of slot 0 wait for a descriptor, on their first level. -/
def idling (es : List Nat) (s : State) : State :=
  es.foldl (fun s e => s.modCore e fun c => { c.setStateCode csSERVICE with act := .disp, banks := [] }) s

def inSlot (f : SlotX → SlotX) (st : Nat) (s : State) : State := (s.setSlotState 0 0 st).modSlotX 0 0 f

/-- Cluster 0 in triad mode: slots 3 and 4 hold three cores each. -/
def triads : State := manned (inService.assign 0 1)

theorem witness_LockstepAndClusters_mismatch :
    (let s := manned inService
     s.compared 0 0 = true ∧ s.copyLost 0 0 = false ∧ s.copyLost 0 1 = false ∧ s.slotCores 0 0 = [0, 1] ∧ s.unitOf 0 = some 0) ∧
    (triads.compared 0 3 = true ∧ (triads.slotCores 0 3).length = 3 ∧ triads.posCore 0 3 0 = some 0 ∧ triads.posCore 0 3 2 = some 2) := by
  decide +kernel

theorem witness_LockstepAndClusters_triage :
    (∀ evt ∈ [1, 5], ∀ tick ∈ [2000, 2001],
      let s := atTick tick (inSlot (fun x => { x with evt := evt, trans := [977, 1999] }) slTRIAGE (manned inService))
      s.slotState 0 0 = slTRIAGE ∧ (s.slotX 0 0).parity = [] ∧
      ((s.slotX 0 0).trans.filter fun i => decide (s.tick < i + 1024)) = if tick = 2000 then [977, 1999] else [1999]) ∧
    (let s := (idling [0, 1] (manned inService)).wf .tsqStatus 2 0 3
     s.slotState 0 0 = slACTIVE ∧ (s.slotX 0 0).captured = false ∧ (s.core 0).idle = true ∧ 2 ≤ s.rf .tsqStatus 2 0 ∧ s.slotCores 0 0 ≠ [] ∧
     ((List.range (slotSize 0)).all fun i => (s.posCore 0 0 i).any fun _ => true) = true) ∧
    (let s := inSlot (fun x => { x with copied := true, reqs := { Async.cold with pend := 0x22 } }) slRESYNC (manned inService)
     s.slotState 0 0 = slRESYNC ∧ (s.slotX 0 0).copied = true ∧ s.copyLost 0 0 = false ∧ bit (s.slotX 0 0).reqs.pend 5 = true ∧
     (s.slotCores 0 0).all (fun k => (s.core k).parity == []) = true ∧
     ((s.modCore 1 fun c => { c with parity := [(0x0101, 7)] }).core 1).parity ≠ [] ∧ 1 ∈ s.slotCores 0 0) := by decide +kernel

theorem witness_LockstepAndClusters_selftests :
    (let s := ((idling [0, 1] (manned inService)).wf .fmuStctl 0 0 1).wf .fmuStctl 23 8 0x0101
     bit (s.rd .fmuStctl) 0 = true ∧ s.fawn = false ∧ s.rf .fmuStctl 23 16 ≠ 0 ∧ s.rf .fmuStctl 15 8 ≠ 0 ∧ 0 ∈ s.usedSlots 0 ∧
     (s.slotCores 0 0).all (fun k => (s.core k).idle) = true ∧ s.clusterOn 0 = true ∧ s.coreState 6 = csSPARE ∧ (s.core 6).c6 = false) ∧
    ((manned inService).modCore 6 fun c => c.setStateCode csTEST).spareTest 6 = true := by decide +kernel

theorem witness_LockstepAndClusters_changes :
    (let s := atTick 5 (inSlot (fun x => { x with splitAt := some 5 }) slACTIVE (idling [0, 1] (manned inService)))
     (s.slotX 0 0).splitAt = some 5 ∧ 5 ≤ s.tick ∧ s.slotState 0 0 = slACTIVE ∧ (s.slotCores 0 0).all (fun k => (s.core k).idle) = true) ∧
    (let s := atTick 5 (inSlot (fun x => { x with rejoinAt := some 5 }) slSPLIT (idling [0, 1] (manned inService)))
     (s.slotX 0 0).rejoinAt = some 5 ∧ 5 ≤ s.tick ∧ s.slotState 0 0 = slSPLIT ∧ (s.slotCores 0 0).all (fun k => (s.core k).idle) = true ∧
     ((List.range (slotSize 0)).all fun i => (s.posCore 0 0 i).any fun k => s.coreState k != csRETIRED) = true) ∧
    (let s := { idling [0, 1, 2, 3, 4, 5] (manned inService) with cluDrain := [(0, 0)] }
     s.clusterOn 0 = true ∧ s.drained 0 = true ∧
     (s.usedSlots 0).all (fun i => (s.slotCores 0 i).all fun k => (s.core k).idle) = true) ∧
    (let s := idling [0, 1] (manned inService)
     let s := atTick 7 { s with mp := { s.mp with image := some (7, [1, 2]), code := [(3, 0xC000000000000000, [int 5, raw 6], 7)], codeDue := [(0, 3)] } }
     s.mp.image = some (7, [1, 2]) ∧ 7 ≤ s.tick ∧ (s.core 0).act = .disp ∧
     s.mp.code.filter (fun x => s.mp.codeDue.contains (0, x.1) && decide (x.2.2.2 ≤ s.tick)) = [(3, 0xC000000000000000, [int 5, raw 6], 7)]) := by
  decide +kernel

/-! Witnesses: the command interface. -/

/-- A request with these parameters: size and value of each. -/
def omi (dlen : Nat) (ps : List (Nat × Nat)) : OmiReq := ⟨0, 1, 0x5000, dlen, ps.flatMap fun p => toBytes p.1 p.2, 0, 0⟩

/-- Mailbox m has taken this request. -/
def rung (m cmd : Nat) (rq : OmiReq) (s : State) : State := s.mbxTake m cmd rq

/-- Whether the common checks pass for a request of mailbox 0. -/
def taken (s : State) (src : OmiSrc) (rq : OmiReq) (cmd : Nat) (who : List OmiWho) (fawn : Bool) (plen : Nat) (rsv : List (Nat × Nat))
    (names : List Nat) : Bool :=
  match s.omiTake src cmd rq with
  | some u => who.contains (u.omiWho src) && (!u.fawn || fawn) && rq.params.length == plen && rq.rsvA == 0 && rq.rsvB == 0 && rsv.all (fun p => bytesAt rq.params p.1 p.2 == 0)
      && u.mp.busy.all fun b => !names.contains b.obj
  | none => false

theorem taken_spec {s : State} {src : OmiSrc} {rq : OmiReq} {cmd : Nat} {who : List OmiWho} {fawn : Bool} {plen : Nat}
    {rsv : List (Nat × Nat)} {names : List Nat} (h : taken s src rq cmd who fawn plen rsv names = true) :
    ∃ u, Taken s u src rq cmd who fawn plen rsv names := by
  unfold taken at h
  split at h
  · next u hu =>
    refine ⟨u, hu, ?_⟩
    simp only [Bool.and_eq_true, List.contains_iff_mem, beq_iff_eq, List.all_eq_true, Bool.not_eq_true'] at h
    obtain ⟨⟨⟨⟨⟨⟨h1, h2⟩, h3⟩, ha⟩, hb'⟩, h4⟩, h5⟩ := h
    refine ⟨h1, fun hf => by simpa [hf] using h2, h3, ha, hb', fun p hp => h4 p hp, fun b hb => ?_⟩
    have := h5 b hb
    simpa [← Bool.not_eq_true] using this
  · cases h

/-- No queue is bound, no request is there. -/
def quietDevice : State := withRuns [] (inService.wr (.keyQbind 1) 0)

/-- The command is the owner's and passes the checks before it. -/
def owned (s : State) (rq : OmiReq) (cmd plen : Nat) (rsv : List (Nat × Nat)) (names : List Nat) : Bool :=
  taken (rung 0 cmd rq s) (.mbx 0) rq cmd [.owner] false plen rsv names

theorem witness_MailboxAndSetupCommands_doorbell :
    inService.mp.fwFail = false ∧ inService.rf (.mbxStatus 0) 63 32 = 0 ∧ inService.rf (.mbxStatus 0) 1 0 = 0 ∧
    inService.rf (.mbxOwner 0) 7 0 = 0 ∧ omiAssigned 0x10 = true ∧ omiAssigned 0x77 = false ∧
    (∀ c ∈ [0x10, 0x77], (inService.mbxWrite 0 0x40 8 (BitVec.ofNat 64 (c * 2 ^ 48 + 1))).areaReq 0 = (c, ⟨0, 1, 0, 0, [], 0, 0⟩)) ∧
    (inService.wf (.mbxStatus 0) 1 0 1).rf (.mbxStatus 0) 1 0 = 1 ∧ (inService.wf (.mbxStatus 0) 1 0 2).rf (.mbxStatus 0) 1 0 = 2 ∧
    taken (rung 0 1 (omi 0 []) inService) (.mbx 0) (omi 0 []) 0x01 [.owner, .vf, .fabric] true 0 [] [] = true ∧
    taken (rung 0 2 (omi 640 [(8, 1), (2, 5), (6, 0)]) inService) (.mbx 0) (omi 640 [(8, 1), (2, 5), (6, 0)]) 0x02 [.owner, .vf, .fabric] true 16 [(10, 6)] [] = true ∧
    (omi 640 [(8, 1), (2, 5), (6, 0)]).flags.testBit 0 = false := by decide +kernel

theorem witness_MailboxAndSetupCommands_partition : ∀ m ∈ [0, 1],
    let rq := omi 0 [(2, 3), (1, m), (1, 0), (1, 7), (1, 1), (2, 0), (8, 0x4000), (8, 0x40), (8, 0x10000), (2, 16), (6, 0)]
    let s := ((withFab (fun f => { f with ports := [(0, beaconOf9 0 0 0)] }) quietDevice).wf (.fabPstatus 0) 43 32 5).wf (.fabPstatus 0) 2 0 3
    owned s rq 0x10 40 [(6, 2), (34, 6)] [obPart 3] = true ∧ rq.p 0 2 = 3 ∧ rq.p 2 1 = m ∧ rq.p 8 8 % 8192 = 0 ∧ rq.p 16 8 % 64 = 0 ∧
    rq.p 24 8 % 65536 = 0 ∧ rq.p 32 2 ≤ 16384 ∧ s.partActive 3 = false ∧ s.partnerValid = true := by decide +kernel

/-- Partitions 0 and 1 are active; a request of partition 1 may be in flight. -/
theorem witness_MailboxAndSetupCommands_replacement : ∀ p ∈ [0, 1],
    let rq := omi 0 [(2, p), (1, 0), (1, 0), (1, 9), (1, 0), (2, 0), (8, 0x4000), (8, 0x40), (8, 0x10000), (2, 16), (6, 0)]
    let s := quietDevice.wf (.keyPtctl 0) 63 63 1
    let busy := s.wr (.intRqarea p) rq.rqarea
    owned s rq 0x10 40 [(6, 2), (34, 6)] [obPart p] = true ∧ s.partActive p = true ∧ s.rf (.keyPtctl p) 62 62 = 0 ∧
    s.rf (.keyPtctl p) 61 61 = 0 ∧ s.partBusy p = false ∧ busy.rd (.intRqarea p) = rq.rqarea := by decide +kernel

theorem witness_MailboxAndSetupCommands_binding :
    (let rq := omi 0 [(2, 1), (6, 0)]
     let s := quietDevice
     owned s rq 0x11 8 [(2, 6)] [obPart 1] = true ∧ s.partActive 1 = true ∧ s.partBusy 1 = false ∧ s.grantsOf 1 = [] ∧
     s.regs.all (fun r => match r.1 with
       | .keyQbind _ => !(bit r.2 63 && fld r.2 9 0 == 1) | .keyFnbind _ => !(bit r.2 63 && fld r.2 9 0 == 1) | _ => true) = true) ∧
    (let rq := omi 0 [(1, 4), (1, 0), (2, 1), (2, 2016), (2, 0)]
     let s := quietDevice
     owned s rq 0x12 8 [(1, 1), (6, 2)] [obFn 4, obPart 1] = true ∧ s.partActive 1 = true ∧ s.freeVecs 4 (rq.p 4 2) = some 32 ∧
     s.runs = [] ∧
     s.regs.all (fun r => match r.1 with | .keyQbind _ => !(bit r.2 63 && fld r.2 55 48 == 4) | _ => true) = true) ∧
    (let rq := omi 0 [(2, 2), (1, 0), (1, 1), (1, 7), (1, 4), (1, 17), (1, 0), (2, 31), (6, 0), (8, 0x200), (8, 0x80), (8, 99)]
     let s := quietDevice
     owned s rq 0x13 40 [(7, 1), (10, 6)] [obQueue 2, obFn 0] = true ∧ rq.p 4 1 ≤ 7 ∧ rq.p 5 1 = 4 ∧ rq.p 6 1 = 17 ∧ rq.p 16 8 % 512 = 0 ∧
     rq.p 24 8 % 128 = 0 ∧ rq.p 2 1 = 0 ∧ rq.p 8 2 < (s.fnVecs 0).2 ∧ (s.fnVecs 0).2 ≤ 2048 ∧ bit (s.rd (.intQcfg 2)) 63 = false) ∧
    (let rq := omi 0 [(2, 1), (6, 0)]
     owned quietDevice rq 0x14 8 [(2, 6)] [obQueue 1] = true ∧ bit (quietDevice.rd (.intQcfg 1)) 63 = true ∧ quietDevice.queueBusy 1 = false) := by
  decide +kernel

theorem witness_MailboxAndSetupCommands_tables :
    (let rq := omi 0 [(2, 5), (6, 0), (8, 2 ^ 63 + 1)]
     let w := BitVec.ofNat 64 (rq.p 8 8)
     owned quietDevice rq 0x15 16 [(2, 6)] [obPart 1] = true ∧ fld w 59 48 = 0 ∧ fld w 35 34 = 0 ∧ fld w 15 10 = 0) ∧
    (let rq := omi 16 [(2, 2), (6, 0)]
     let s := quietDevice.wr (.keyPtctl 2) 0xC000000000000000
     let as_ := (List.range ((rq.data ⟨List.replicate 6 0 ++ [0x10, 0] ++ List.replicate 8 0, true, true⟩).length / 8)).map fun i =>
       bytesAt (rq.data ⟨List.replicate 6 0 ++ [0x10, 0] ++ List.replicate 8 0, true, true⟩) (8 * i) 8
     owned s rq 0x16 8 [(2, 6)] [obPart 2] = true ∧ rq.dlen % 8 = 0 ∧ s.partActive 2 = true ∧ bit (s.rd (.keyPtctl 2)) 62 = true ∧
     as_ = [0x1000, 0] ∧ as_.all (fun a => a % 4096 == 0 && s.physOk a) = true ∧ s.hasPartner = true) ∧
    (let rq := omi 0 [(1, 63), (1, 0), (2, 1), (1, 9), (1, 1), (2, 0), (8, 0x8000)]
     owned quietDevice rq 0x17 16 [(1, 1), (6, 2)] [obPart 1] = true ∧ rq.p 0 1 = 63 ∧ rq.p 5 1 ≤ 1 ∧ quietDevice.physOk (rq.p 8 8) = true ∧
     quietDevice.partActive 1 = true) ∧
    (let rq := omi 0 [(8, 2 ^ 34), (8, 2 ^ 20)]
     let s := quietDevice.wr (.keyPtctl 1) 0
     owned s rq 0x18 16 [] [obLayout] = true ∧ rq.p 0 8 + rq.p 8 8 ≤ s.layout.d ∧
     s.regs.all (fun r => match r.1 with | .keyPtctl p => p == 0 || !bit r.2 63 | _ => true) = true) := by decide +kernel

/-- Whatever key a credential unwraps to: kind 5 is enrolled, no epoch precedes. -/
theorem witness_MailboxAndSetupCommands_journalKey :
    let s := { quietDevice with mp := { quietDevice.mp with creds := [⟨5, 0, 3⟩] } }
    owned s (omi 0 [(1, 6), (7, 0), (40, 7)]) 0x19 48 [(1, 7)] [] = true ∧ s.mp.creds.find? (fun c => c.kind == 5) = some ⟨5, 0, 3⟩ ∧
    s.vault.prevKey = none ∧
    owned s (omi 0 [(2, 4095), (2, 1), (4, 0)]) 0x1A 8 [(4, 4)] [obQueue 1] = true ∧ bit (s.rd (.intQcfg 1)) 63 = true ∧
    owned s (omi 0 [(2, 77), (6, 0)]) 0x1B 8 [(2, 6)] [] = true := by decide +kernel

/-- Slot 0 and cluster 0 of this device, as locators. -/
def slotLoc : Nat := (inService.locOfExec 0).word

def clusterLoc : Nat := (inService.locCluster 0).word

theorem witness_SystemCommands_units :
    (let l := Loc.of slotLoc
     l.clusterDw = 0 ∧ l.slot = 0 ∧ l.depth = 5 ∧ l.dev = quietDevice.devId ∧ quietDevice.locValid slotLoc = true ∧
     (∀ m ∈ [0, 1], owned quietDevice (omi 0 [(4, slotLoc), (1, m), (3, 0), (8, 7)]) 0x20 16 [(5, 3)] [obSlot 0 0, obCluster 0] = true) ∧
     quietDevice.slotState 0 0 = slACTIVE ∧ quietDevice.cluMode 0 = 0 ∧ bit (quietDevice.rd (.cluSlot 0 0)) 27 = false ∧
     (∀ st ∈ [slSPLIT, slHELD], let s := quietDevice.setSlotState 0 0 st
       s.slotState 0 0 = st ∧ (s.slotCores 0 0).all (fun e => s.coreState e != csRETIRED) = true)) ∧
    (let l := Loc.of clusterLoc
     l.clusterDw = 0 ∧ l.depth = 4 ∧ l.dev = quietDevice.devId ∧ quietDevice.locValid clusterLoc = true ∧
     owned quietDevice (omi 0 [(4, clusterLoc), (1, 1), (3, 0)]) 0x21 8 [(5, 3)] (obCluster 0 :: (List.range 5).map (obSlot 0)) = true ∧
     (List.range 5).all (fun i => quietDevice.slotState 0 i != slSPLIT) = true) := by decide +kernel

/-- An image of one word, END, which opcode 0 starts, with an empty signature. -/
def image : List Byte :=
  toBytes 4 0x55434D31 ++ toBytes 4 1 ++ toBytes 2 1 ++ toBytes 2 0 ++ toBytes 4 0 ++ toBytes 8 0x9000000500000000 ++ List.replicate 504 0 ++
    toBytes 4 0x80000000 ++ List.replicate 96 0

/-- The image passes every check that follows its signature (R223), 16 ticks ahead; whether a signature verifies is free. -/
theorem witness_SystemCommands_image (k : Nat) (h : imgSigned k image = true) :
    imgReason (some k) image (0, 0) false (decide (100 < 84 + 16)) = none := by
  have h1 : imgShape image = true ∧ (imgWords image).all uWordOk = true := by decide +kernel
  have h2 : let ws := imgWords image
      let es := imgEntries image
      let starts := ((es.filter fun e => bit e 63).map fun e => fld e 11 0).eraseDups
      imgBranches ws starts = true ∧ imgSlots ws starts = true ∧ imgDistances ws starts = true ∧ imgStores ws starts = true ∧
      imgLimits ws = true ∧ es.all (imgCost ws (uLongest ws fun _ => 1)) = true ∧ (freeBase (0, 0) ws.length).isNone = false := by
    decide +kernel
  unfold imgReason
  simp [h, h1, h2]

theorem witness_SystemCommands_images :
    (let s := { quietDevice with mp := { quietDevice.mp with creds := [⟨2, 0, 8⟩, ⟨0, 0, 9⟩], image := none } }
     owned s (omi 704 [(8, 100)]) 0x22 8 [] [obStores] = true ∧ s.mp.ucode = (0, 0) ∧ s.mp.image.isSome = false ∧
     s.mp.creds.find? (fun k => k.kind == 2 && k.index == bytesAt image 0xC 4) = some ⟨2, 0, 8⟩ ∧
     owned s (omi 300 [(1, 3), (1, 3), (6, 0)]) 0x24 8 [(2, 6)] [] = true ∧ s.mp.creds.find? (fun k => k.kind == 0) = some ⟨0, 0, 9⟩ ∧
     96 < image.length ∧
     owned s (omi 300 []) 0x23 0 [] [] = true ∧ s.mp.antiRollback ≤ 2) := by decide +kernel

/-- The source is the fabric manager 9. -/
def managed : State := quietDevice.wf .fabRole 59 48 9

def fabric (s : State) (rq : OmiReq) (cmd plen : Nat) (rsv : List (Nat × Nat)) (names : List Nat) : Bool :=
  taken s (.fm 9) rq cmd [.fabric] false plen rsv names

theorem witness_SystemCommands_device :
    (let s := { quietDevice with mp := { quietDevice.mp with ledger := [⟨slotLoc, 7, 9, 0⟩] } }
     let rq := omi 0 [(4, slotLoc), (2, 7), (2, 0)]
     taken (rung 0 0x25 rq s) (.mbx 0) rq 0x25 [.owner] true 8 [(6, 2)] (s.obLoc slotLoc) = true ∧ s.locValid slotLoc = true ∧
     s.mp.ledger.any (fun d => d.loc == slotLoc && d.sig == 7) = true) ∧
    (let s := inFawn 1 quietDevice
     taken (rung 0 0x26 (omi 0 []) s) (.mbx 0) (omi 0 []) 0x26 [.owner] true 0 [] [] = true ∧ s.fawn = true ∧ s.causes = 0 ∧ s.fab.handAck = false ∧
     s.rf .fabLease 63 61 ≠ 5) ∧
    (∀ m ∈ [1, 31], owned quietDevice (omi 0 [(1, m), (1, 4), (6, 0)]) 0x27 8 [(2, 6)] [obFn 4] = true ∧ quietDevice.rf (.mbxStatus m) 1 0 ≠ 1) ∧
    owned quietDevice (omi 0 [(1, 255), (1, 0), (6, 0)]) 0x28 8 [(2, 6)] [] = true ∧
    (let s := { quietDevice with sched := { quietDevice.sched with waitLoad := true } }
     owned s (omi 0 [(8, 0)]) 0x32 8 [] [] = true ∧ s.sched.waitLoad = true ∧ (s.rd .vltRtick).toNat ≤ 0) := by decide +kernel

theorem witness_SystemCommands_fabric :
    fabric managed (omi 0 [(2, 4095), (2, 0), (1, 7), (3, 0)]) 0x30 8 [(5, 3)] [obPartner] = true ∧ managed.devId = 1 ∧
    (let s := withFab (fun f => { f with custody := true }) managed
     taken s (.fm 9) (omi 0 [(8, 7)]) 0x31 [.owner, .fabric] true 8 [] [obPartner] = true ∧ s.fab.custody = true) ∧
    (let s := withFab (fun f => { f with ids := [(3, 7), (4, 5)] }) managed
     fabric s (omi 0 [(8, 3)]) 0x33 8 [] [] = true ∧ s.fab.ids.find? (fun i => i.1 == 3) = some (3, 7) ∧
     ¬(s.hasPartner = true ∧ s.partnerId = 7)) ∧
    (∀ n ∈ [4, 64], fabric managed (omi 0 [(1, n), (7, 0), (8, 16)]) 0x34 16 [(1, 7)] [] = true ∧ managed.tick + 16 ≤ 16) := by
  decide +kernel

/-! Witnesses: debug, power, reset. -/

/-- A powered debug domain with a session of this level. -/
def session (n : Nat) : State :=
  let s := (manned inService).wf .dbgStatus 3 2 n
  { s with dbg := { s.dbg with powered := true, ir := 0x10 } }

/-- With LOCKED, without; the failures counted before; a credential of kind 4 and index 2 that the signature fits. -/
theorem witness_DebugDomain_authentication :
    bit ((session 0).rd .dbgStatus) 6 = false ∧ bit (((session 0).wf .dbgStatus 6 6 1).rd .dbgStatus) 6 = true ∧
    (session 0).dbg.powered = true ∧ (session 1).session ≠ 0 ∧ (session 2).session = 2 ∧ (session 0).session = 0 ∧
    (session 0).dbg.creds.getD [] = [] := by decide +kernel

/-- Whichever signatures verify: one that does opens a session. -/
theorem witness_DebugDomain_signature (s : State) (h : s.dbg.creds = some [⟨4, 2, 6⟩])
    (h' : Config.ecdsaVerify 6 (s.challenge 2 2 (b2n false)) s.sigNumber = true) :
    ∃ c ∈ s.dbg.creds.getD [], c.index = 2 ∧ (c.kind = 4 ∨ (c.kind = 3 ∧ 2 = 1)) ∧
      Config.ecdsaVerify c.key (s.challenge 2 2 (b2n false)) s.sigNumber = true :=
  ⟨⟨4, 2, 6⟩, by simp [h], rfl, .inl rfl, h'⟩

theorem witness_DebugDomain_lab :
    (let s := session 2
     s.clusterOn 0 = true ∧ s.offline 0 = false ∧ s.halted 0 = false) ∧
    (let s := (session 2).wf .dbgHalt 32 32 1
     s.halted 0 = true ∧ s.clusterOn 0 = true ∧ s.coreState 0 ≠ csRETIRED ∧ s.coreState 0 ≠ csSPARE ∧ (s.core 0).act ≠ .disp ∧
     s.coreState 7 = csSPARE) ∧
    (let s := session 2
     let l : Loc := ⟨1, 6, 0, 0, 0, 0, 0, 0⟩
     (Loc.of l.word).coreDw = 0 ∧ bit (s.rd .dbgReq) 63 = false ∧ (Loc.of l.word).depth = 6 ∧ s.locValid l.word = true ∧ (Loc.of l.word).dev = s.devId ∧
     (s.core 0).c6 = false) ∧
    (let s := session 2
     s.area 0x8000 = .own ∧ s.pcBit 0x8000 = false ∧ s.area (2 ^ 35) = .unmirrored ∧ s.area (2 ^ 36) = .nowhere) := by decide +kernel

theorem witness_DebugDomain_access :
    (0 : BitVec 24).toNat % 8 = 0 ∧ (4 : BitVec 24).toNat % 8 ≠ 0 ∧
    CtlAddr.ofOffset mDBG (0x700000 + 0x10) = .reg (.dbgNonce 0) ∧ authReg (.dbgNonce 0) = true ∧
    CtlAddr.ofOffset mDBG (0x700000 + 0x80000) = .reg .trcCtl ∧ authReg .trcCtl = false ∧ 72 + 0x700000 = Reg.offset (.dbgSig 0) ∧
    160 + 0x700000 = Reg.offset (.dbgSig 11) ∧
    (let s := (((session 2).wf .trcCtl 32 32 1).wf .trcRdptr 22 0 0x7FFFF8)
     (0xFFFFF : BitVec 20).toNat * 8 % 2 ^ 23 = s.rf .trcRdptr 22 0 ∧ bit (s.rd .trcCtl) 32 = true) ∧
    CtlAddr.ofOffset mMP 0x10008 = .reg .fmuDegcfg ∧ 0x10008 % 8 = 0 ∧ CtlAddr.ofOffset mMP 0x510000 = .reg (.mbxOwner 0) ∧
    CtlAddr.ofOffset mMP 0x110000 = .reg (.intQcfg 0) ∧ CtlAddr.ofOffset mMP 0x370008 = .reg (.fabPctl (7 : Fin 8)) := by decide +kernel

theorem witness_DebugDomain_queue :
    ∃ x ∈ (withRuns [request 1 .queued] inService).runs, x.queue = 1 ∧ x.adopted = none ∧ x.st ≠ .journaled :=
  ⟨request 1 .queued, by decide, by decide, by decide, by decide⟩

/-- Only core 1 of cluster 0 is in service and in no slot. -/
def loneCore : State :=
  let s := [0, 1, 2, 3, 4, 5, 6, 7].foldl (fun (s : State) e => s.modCore e fun c => c.setStateCode (if e = 1 then csSERVICE else csRETIRED)) inService
  s.setSlotState 0 0 slEMPTY

def failing : State := inService.wf .hupStatus 0 0 1

/-- An image that the vault's dump writes. -/
def dump : DumpImg := State.dumpImg inService

theorem witness_PowerClocksAndTemperature_sequence :
    inService.pfail = false ∧ failing.pfail = true ∧ inService.vault.slotsLeft ≠ 0 ∧
    (let s := { failing with vault := { failing.vault with dumping := some dump } }
     s.pfail = true ∧ s.pwr.dumped = false ∧ 2 ≤ s.vault.slotsLeft) ∧
    (let s := ({ failing with pwr := { failing.pwr with dumped := true, volt := 1 } }).wf .hupCfg 11 0 100
     s.pfail = true ∧ s.pwr.dumped = true ∧ 25 * s.pwr.volt ≤ s.rf .hupCfg 11 0 * 1000 + s.rf .hupCfg 39 32 * s.rf .hupMeas 31 16) := by
  decide +kernel

theorem witness_PowerClocksAndTemperature_dump :
    { failing with vault := { failing.vault with dumping := some dump } }.vault.dumping = some dump := rfl

theorem witness_PowerClocksAndTemperature_tests :
    (let s := inService.wf .hupCfg 23 12 1
     s.pfail = false ∧ s.pwr.v0 = none ∧ s.rf .hupCfg 23 12 * 40 ≤ 40 ∧ 39 < s.rf .hupCfg 23 12 * 40 ∧ s.pwr.tested = false) ∧
    (∀ v ∈ [(300, 290, 270), (300, 300, 280), (600, 400, 0)], 20 ≤ v.2.1 - v.2.2 ∧ v.2.1 - v.2.2 ≤ 400 ∧ v.1 - v.2.1 ≤ 200 ∧ v.2.1 ≤ v.1) ∧
    ({ inService with pwr := { inService.pwr with v0 := some 300, test := some 77 } }).pwr.v0 = some 300 ∧ inService.pwr.test = none := by
  decide +kernel

theorem witness_PowerClocksAndTemperature_lock :
    let s := loneCore
    s.clusterOn 0 = true ∧ s.unitOf 1 = none ∧
    (∀ k ∈ List.range 8, (s.coreState k ≠ csSPARE ∧ s.coreState k ≠ csRETIRED ∧ (s.core k).c6 = false ↔ k = 1)) := by decide +kernel

/-- The unit of cores 0 and 1, whose vector table at 0x800 has a machine check handler. -/
theorem witness_PowerClocksAndTemperature_units :
    let s := ((device [(0x800, raw 0x100)]).setCores [0, 1] { coreWith Bank.cold with vbr := 0x800 })
    s.clusterOn 0 = true ∧ s.unitOf 0 = some 0 ∧ (s.slotCores 0 0).head? = some 0 ∧
    s.coreState 0 ≠ csSPARE ∧ s.coreState 0 ≠ csRETIRED ∧ (s.core 0).c6 = false ∧ (s.core 0).lev < 16 ∧
    (s.vecEntry (s.core 0).vbr 0).2 = some 0x100 ∧ (s.unitCores 0).all (fun i => s.unitOf i == s.unitOf 0) = true := by
  decide +kernel

theorem witness_Resets_cold :
    inService.mp.fwFail = false ∧ (atTick 1024 inService).mp.fwSince + 1024 ≤ (atTick 1024 inService).tick ∧
    inService.tick < inService.mp.fwSince + 1024 ∧ inService.resets.cold = none ∧ coldRequested.resets.cold ≠ none ∧
    failing.pwr.dumped = false ∧ inService.mp.pickFw = some 0 ∧
    ({ inService with mp := { inService.mp with fw := [⟨1, 1, false⟩, ⟨0, 1, true⟩] } }).mp.pickFw = none := by decide +kernel

/-- Every channel holds 64 GiB, and the journal key is set. -/
def ready : State :=
  let s := (List.range 12).foldl (fun (s : State) ch => (s.wf (.mcuStatus ch) 2 0 1).wf (.mcuStatus ch) 31 16 64) inService
  { s with vault := { s.vault with key := some (1, 2) }, sched := { s.sched with isOpen := false } }

theorem witness_Resets_intake :
    ready.mp.fwFail = false ∧ ready.rf .vltStatus 61 60 = 0 ∧ ready.sched.waitLoad = false ∧ ready.vault.key ≠ none ∧
    fld ready.intStatusWord 7 1 = 0 ∧ (∀ ch ∈ List.range 12, ready.chanState ch ≠ 0 ∧ ready.rf (.mcuStatus ch) 31 16 = 64) ∧
    ready.runs = [] := by decide +kernel

theorem witness_Resets_warm :
    inService.resets.warm = none ∧ inService.resets.cold = none ∧
    (∀ due flipped : Bool,
      let s := { inService with resets := ⟨none, some 1, [], [], due, []⟩, sched := { inService.sched with flipped := flipped } }
      s.resets.warm = some 1 ∧ s.resets.due = due ∧ s.sched.warm = false ∧ s.sched.flipped = flipped ∧ s.vaultOk = true ∧
      s.pfail = false) ∧
    ({ inService with sched := { inService.sched with warm := true } }).sched.warm = true ∧
    (let s := (withRuns [request 1 .accepted, request 2 .executed] { inService with resets := ⟨none, none, [1, 2], [], false, [1]⟩ }).wf .tsqStatus 2 0 2
     s.resets.partsDue ≠ [] ∧ s.rf .tsqStatus 2 0 = 2 ∧ s.sched.flipped = false ∧ (s.runs.map (·.isn)) = [1, 2]) := by decide +kernel
/-! Ill-formed commands: one for each check. -/

theorem test_wellFormed_accepts :
    (Instr.ld 0 (long 0x10) 0x1000).wellFormed = true ∧ (Instr.lockstepMismatch 0 0 1 2 (some 2)).wellFormed = true ∧
    (Instr.vrAlert [1, 2]).wellFormed = true := by decide +kernel

/-- The word of an LD in a command ST. -/
theorem test_opcodeOk_refuses : (Instr.st 0 (long 0x10) 0).opcodeOk = false ∧ (Instr.st 0 (long 0x10) 0).wellFormed = false := by decide +kernel

/-- An extension word beside a short form. -/
theorem test_extensionOk_refuses : (Instr.ld 0 (ins 0x10 0) 5).extensionOk = false ∧ (Instr.ld 0 (ins 0x10 0) 5).wellFormed = false := by
  decide +kernel

/-- A line of repair data has eight words; nine regulators. -/
theorem test_lengthsOk_refuses :
    (Instr.repairComplete 0 [int 1]).lengthsOk = false ∧ (Instr.vrAlert (List.replicate 9 0)).wellFormed = false := by decide +kernel

/-- A slot has at most three positions. -/
theorem test_positionsOk_refuses :
    (Instr.lockstepMismatch 0 0 1 2 (some 3)).positionsOk = false ∧ (Instr.lockstepMismatch 0 0 1 2 (some 3)).wellFormed = false := by
  decide +kernel

/-! The worked example of 06_instruction_reference.md: its words, values and results. -/

/-- The command answers a next state that p accepts. -/
def next (o : Out) (p : State → Bool) : Bool :=
  match o with
  | .next s => p s
  | _ => false

theorem test_example_words :
    (fCOND 0x01010008 = 0 ∧ fOPC 0x01010008 = 0x10 ∧ fBASE 0x01010008 = 1 ∧ fAM 0x01010008 = 0) ∧
    (fOPC 0x01210010 = 0x12 ∧ fBASE 0x01210010 = 1) ∧ (fOPC 0x07020100 = 0x70 ∧ fBASE 0x07020100 = 2) ∧
    (fCOND 0x70240040 = 7 ∧ fOPC 0x70240040 = 0x02 ∧ fBASE 0x70240040 = 4) := by decide +kernel

/-- LD 0x008(X1) and LDE 0x010(X1): the amount and the floor. -/
def exampleCore : State :=
  onUnit (device [(0x1008, ⟨0x50000D, tPDEC⟩), (0x1010, ⟨0xC, tPDEC⟩)])
    { coreWith { Bank.cold with x1 := ⟨0x1000, tPTR⟩, psw := 0x4000004 } with pc := 0x4240C }

theorem test_example_loads :
    next (exec (.ld 0 0x01010008 0) exampleCore) (fun s => (s.core 0).cur.acc == ⟨0x50000D, tPDEC⟩ && (s.core 1).pc == 0x42410) = true ∧
    next (exec (.lde 0 0x01210010 0) exampleCore) (fun s => (s.core 0).cur.aex == ⟨0xC, tPDEC⟩) = true := by decide +kernel

/-- C is 1: JMP.CS 0x040(PC) goes to 0x4244C; with C = 0 it goes on. -/
theorem test_example_jump :
    next (exec (.jmp 0 0x70240040 0) exampleCore) (fun s => (s.core 0).pc == 0x4244C) = true ∧
    (let s := exampleCore.setCores [0, 1] ((exampleCore.core 0).setBank 0 { (exampleCore.core 0).cur with psw := 0x4000000 })
     next (exec (.jmp 0 0x70240040 0) s) (fun s => (s.core 0).pc == 0x42410) = true) := by decide +kernel

/-- The first POST stages 300.00, the second is refused at the floor and answers the running value with C = 1. -/
theorem test_example_posts :
    (let s := (device []).setNpu 7 { Npu.cold with cache := [{ postEntry .clean with c := ⟨0x150000C, tPDEC⟩, r := ⟨0x150000C, tPDEC⟩ }] }
     let r1 := s.npuPost 1 1 0x7000 0x120000D (some 0xC)
     let r2 := r1.1.npuPost 2 2 0x7000 0x50000D (some 0xC)
     r1.2 = .done 0x30000C false false ∧ r2.2 = .done 0x30000C true false ∧ (r2.1.npu 7).log.map (·.kind) = [.post, .refused]) := by
  decide +kernel

/-- The worked example of the mailboxes: the request of OMI_QUEUE_CREATE at BAR0 0x3040, its doorbell at 0x3000, and the
response at 0x3800 (R457, R458). -/
def mailbox3 : State := (State.reset.wr (.mbxStatus 3) 0x2900000002)

def writeWords (o : Nat) (ws : List Nat) (s : State) : State :=
  (ws.zipIdx).foldl (fun s p => s.bar0Write 0 8 (o + 8 * p.2) (BitVec.ofNat 64 p.1)) s

def exampleRequest : State := writeWords 0x3040
  [0x001300000000002A, 0x0028000000000000, 0, 0, 0x02C1050105080900, 0x000C000000000000, 0x104A000000, 0x104A020000, 0x104A01FFC0] mailbox3

theorem test_example_request :
    let rq := (exampleRequest.areaReq 3).2
    (exampleRequest.areaReq 3).1 = 0x13 ∧ rq.seq = 42 ∧ rq.params.length = 40 ∧ rq.p 0 2 = 0x2C1 ∧ rq.p 2 1 = 5 ∧ rq.p 3 1 = 1 ∧
    rq.p 5 1 = 8 ∧ rq.p 6 1 = 9 ∧ rq.p 8 2 = 12 ∧ rq.p 16 8 = 0x104A000000 ∧ rq.p 32 8 = 0x104A01FFC0 ∧ rq.rsvA = 0 ∧ rq.rsvB = 0 := by
  decide +kernel

theorem test_example_doorbell :
    next (exec (.mbxDoorbell 3 42 0 8) exampleRequest) (fun s => s.rd (.mbxStatus 3) == 0x2A00000001 && s.hif.taken == [3]) = true ∧
    next (exec (.mbxDoorbell 3 42 5 8) exampleRequest) (fun s => s.rd (.mbxStatus 3) == 0x2900000002) = true ∧
    (let s := mailbox3.omiEnd (.mbx 3) 0x13 42 false (stOK, 0, [])
     (List.range 16).map (fun i => s.bar0Byte 0 (0x3800 + i)) = [0, 0x13, 0, 0, 0, 0, 0, 0x2A, 0, 0, 0, 0, 0, 0, 0, 0]) := by
  decide +kernel

end Sys2Proof.Tests
end

section
/-!
PROOFS. The cold values of the register maps, and the device after reset.
-/
namespace Sys2Proof.Machine

/-! Fields of a register map and the word of its cold values (R6). -/

/-- A field lies within the word, and its cold value fits it. -/
def Fld.fits (f : Fld) : Bool :=
  decide (f.lo ≤ f.hi) && decide (f.hi < 64) && decide (f.cold < 2 ^ (f.hi + 1 - f.lo))

/-- Two fields share no bit. -/
def Fld.apart (f g : Fld) : Bool := decide (f.hi < g.lo) || decide (g.hi < f.lo)

/-- The fields of a map fit the word and share no bit. -/
def mapOk : List Fld → Bool
  | [] => true
  | f :: fs => f.fits && fs.all f.apart && mapOk fs

theorem Fld.fits_iff (f : Fld) :
    f.fits = true ↔ f.lo ≤ f.hi ∧ f.hi < 64 ∧ f.cold < 2 ^ (f.hi + 1 - f.lo) := by
  simp [Fld.fits, and_assoc]

theorem Fld.apart_iff (f g : Fld) : f.apart g = true ↔ f.hi < g.lo ∨ g.hi < f.lo := by simp [Fld.apart]

theorem mapOk_cons (f : Fld) (fs : List Fld) :
    mapOk (f :: fs) = true ↔ f.fits = true ∧ (∀ g ∈ fs, f.apart g = true) ∧ mapOk fs = true := by
  simp [mapOk, and_assoc]

theorem fits_of_mapOk {fs : List Fld} (h : mapOk fs = true) : ∀ f ∈ fs, f.fits = true := by
  induction fs with
  | nil => simp
  | cons g gs ih =>
    obtain ⟨hg, -, hgs⟩ := (mapOk_cons g gs).mp h
    simpa [hg] using ih hgs

/-- Setting fields that share no bit with f leaves f as it was. -/
theorem fld_coldFrom_apart (f : Fld) (hf : f.fits = true) (fs : List Fld) (hfs : ∀ g ∈ fs, g.fits = true)
    (ha : ∀ g ∈ fs, f.apart g = true) (w : Word) :
    fld (fs.foldl (fun w g => setFld w g.hi g.lo g.cold) w) f.hi f.lo = fld w f.hi f.lo := by
  induction fs generalizing w with
  | nil => rfl
  | cons g gs ih =>
    obtain ⟨-, hf64, -⟩ := f.fits_iff.mp hf
    obtain ⟨hg, hg64, -⟩ := g.fits_iff.mp (hfs g (by simp))
    have hfg := (f.apart_iff g).mp (ha g (by simp))
    rw [List.foldl_cons, ih (fun x hx => hfs x (by simp [hx])) fun x hx => ha x (by simp [hx])]
    exact fld_setFld_ne w g.hi g.lo g.cold f.hi f.lo hg hg64 hf64 hfg

/-- Every field of a well-formed map reads its cold value in the word of the cold values, whatever word they are put
into. -/
theorem fld_coldFrom (fs : List Fld) (h : mapOk fs = true) (w : Word) (f : Fld) (hf : f ∈ fs) :
    fld (fs.foldl (fun w g => setFld w g.hi g.lo g.cold) w) f.hi f.lo = f.cold := by
  induction fs generalizing w with
  | nil => simp at hf
  | cons g gs ih =>
    obtain ⟨hg, hapart, hgs⟩ := (mapOk_cons g gs).mp h
    rw [List.foldl_cons]
    rcases List.mem_cons.mp hf with rfl | hf
    · obtain ⟨hlo, h64, hcold⟩ := f.fits_iff.mp hg
      rw [fld_coldFrom_apart f hg gs (fits_of_mapOk hgs) hapart, fld_setFld _ _ _ _ hlo h64, Nat.mod_eq_of_lt hcold]
    · exact ih hgs _ hf

/-- The map of every control-space register is well-formed. -/
theorem Reg.fields_mapOk (r : Reg) : mapOk r.fields = true := by cases r <;> rfl

theorem Reg.fld_coldWord (r : Reg) (f : Fld) (hf : f ∈ r.fields) : fld (coldWord r.fields) f.hi f.lo = f.cold :=
  fld_coldFrom r.fields r.fields_mapOk 0 f hf

/-! The device after reset. -/

@[simp] theorem reset_rd (r : Reg) : State.reset.rd r = r.cold State.resetFuses := rfl
@[simp] theorem reset_core (e : Nat) : State.reset.core e = Core.cold := rfl
@[simp] theorem bank_cold (b : Nat) : Core.cold.bank b = Bank.cold := rfl

theorem reset_tick : State.reset.tick = 0 := by decide
theorem reset_period : State.reset.period = 10000 := by decide

/-- KEY_FNBIND binds function 0 alone (R272). -/
theorem reset_keyFnbind (f : Nat) : bit (State.reset.rd (.keyFnbind f)) 63 = decide (f = 0) := by
  show bit (setFld 0 63 63 (b2n (f == 0))) 63 = decide (f = 0)
  by_cases h : f = 0
  · subst h; decide
  · simp only [h, beq_eq_false_iff_ne.mpr h, decide_false]; decide

/-- INT_QCFG.REGION of queue q (R358). -/
theorem reset_intQcfg_region (q : Nat) : State.reset.rf (.intQcfg q) 61 59 = q % 8 := by
  have h := fld_setFld (coldWord (Reg.intQcfg q).fields) 61 59 (q % 8) (by decide) (by decide)
  exact h.trans (Nat.mod_mod q 8)

/-- Settles O60: a register at reset is the word of its map's cold values, which the fields of a well-formed map read back. -/
theorem resetValues : Obligations.ResetValues := by
  unfold Obligations.ResetValues
  refine ⟨fun r hr f hf => ?_, reset_keyFnbind, reset_intQcfg_region, fun e => ?_, reset_tick, reset_period,
    rfl, rfl, rfl, rfl, rfl⟩
  · have hcold : r.cold State.resetFuses = coldWord r.fields := by
      unfold Reg.cold
      split
      case h_6 => rfl
      all_goals exact hr.elim
    rw [reset_rd, hcold]
    exact r.fld_coldWord f hf
  · rw [reset_core]
    exact ⟨rfl, by decide, rfl, rfl, rfl, rfl, rfl, rfl, fun b => by rw [bank_cold]; rfl⟩

end Sys2Proof.Machine
end

section
/-!
PROOFS. The debug domain: what releasing a halt can do to the cores.
-/
namespace Sys2Proof.Machine

/-! A halt that is released while a reply is held (R479, log 126). -/

/-- Core 0 waits for the value of an RREAD to device 1. The reply came while debug, in a LAB session, held the clocks of
cluster 0, so the endpoint keeps it until they run (log 126). -/
def State.replyHeld : State :=
  let waiting : RWait := ⟨0, 0, 1, 2 ^ 52, true, 0, some ⟨0, rsDONE, 0, 0, 0x1C, 0⟩⟩
  { State.reset with
    regs := [(.dbgStatus, setFld 0 3 2 2), (.dbgHalt, setBit (setBit 0 0 true) 32 true)]
    cores := [(0, { Core.cold.setStateCode csSERVICE with act := .reply })]
    fab := { Fab.cold with waits := [(0, waiting)] } }

theorem replyHeld_lab : State.replyHeld.session = 2 := by decide +kernel

theorem replyHeld_halted : State.replyHeld.halted 0 = true := by decide +kernel

theorem replyHeld_waits : (State.replyHeld.core 0).act = .reply := by decide +kernel

/-- The release delivers the held reply: core 0 completes its RREAD, with the value in ACC. -/
theorem haltRelease_replyHeld_resumes :
    ((State.replyHeld.haltRelease 0).core 0).act = .run ∧
    ((State.replyHeld.haltRelease 0).core 0).cur.acc = ⟨0x1C, tPDEC⟩ := by decide +kernel

theorem haltRelease_replyHeld_cores : (State.replyHeld.haltRelease 0).cores ≠ State.replyHeld.cores := by
  intro h
  obtain ⟨hrun, -⟩ := haltRelease_replyHeld_resumes
  rw [State.core_congr _ _ 0 h, replyHeld_waits] at hrun
  exact absurd hrun (by decide)

/-- In a LAB session DBG_HALT_RELEASE restarts the clocks of its cluster (R479). -/
theorem exec_dbgHaltRelease_of_lab {s : State} (h : s.session = 2) (c : Fin 32) :
    exec (.dbgHaltRelease c) s = .next (s.haltRelease c) :=
  congrArg Host.Outcome.next (if_pos h)

/-- Refutes O57: the clause on DBG_HALT_RELEASE says that a release leaves the cores as they are, but a reply from another
device that came while the clocks were stopped is delivered when they run (log 126), and the core that waited for it goes on. -/
theorem not_debugDomain : ¬ Obligations.DebugDomain := by
  unfold Obligations.DebugDomain
  intro h
  obtain ⟨-, -, -, -, -, hhalt, -⟩ := h State.replyHeld
  obtain ⟨t, hexec, -, -, -, hcores, -⟩ := (hhalt replyHeld_lab 0).2 replyHeld_halted
  rw [exec_dbgHaltRelease_of_lab replyHeld_lab] at hexec
  cases hexec
  exact haltRelease_replyHeld_cores hcores

end Sys2Proof.Machine
end

section
/-!
PROOFS. Registers after the shared writes: what a field write leaves of the register and of the others, and the updates
that touch no register.
-/
namespace Sys2Proof.Machine

variable (s : State)

/-! Fields. -/

@[simp] theorem State.rd_wf (r r' : Reg) (hi lo v : Nat) :
    (s.wf r hi lo v).rd r' = if r' = r then setFld (s.rd r) hi lo v else s.rd r' := by
  rw [State.wf_eq, State.rd_wr]

/-- A field reads what was written to it, cut to its width. -/
theorem State.rf_wf_same (r : Reg) (hi lo v : Nat) (h : lo ≤ hi) (h64 : hi < 64) :
    (s.wf r hi lo v).rf r hi lo = v % 2 ^ (hi + 1 - lo) := by
  rw [State.rf, State.rd_wf, if_pos rfl, fld_setFld _ _ _ _ h h64]

/-- The fields of another register keep their values. -/
theorem State.rf_wf_ne {r r' : Reg} (h : r' ≠ r) (hi lo v hi' lo' : Nat) :
    (s.wf r hi lo v).rf r' hi' lo' = s.rf r' hi' lo' := by
  rw [State.rf, State.rd_wf, if_neg h, ← State.rf]

/-- Another field of the register keeps its value. -/
theorem State.rf_wf_apart (r : Reg) (hi lo v hi' lo' : Nat) (h : lo ≤ hi) (h64 : hi < 64) (h64' : hi' < 64)
    (hd : hi' < lo ∨ hi < lo') : (s.wf r hi lo v).rf r hi' lo' = s.rf r hi' lo' := by
  rw [State.rf, State.rd_wf, if_pos rfl, fld_setFld_ne _ _ _ _ _ _ h h64 h64' hd, ← State.rf]

@[simp] theorem State.rd_count_ne {r r' : Reg} (h : r' ≠ r) (hi lo n : Nat) :
    (s.count r hi lo n).rd r' = s.rd r' := by
  rw [State.count_eq, State.rd_wf, if_neg h]

/-! Updates that touch no register. -/

@[simp] theorem State.rd_modFab (f : Fab → Fab) (r : Reg) : (s.modFab f).rd r = s.rd r := rfl
@[simp] theorem State.rd_modSched (f : Sched → Sched) (r : Reg) : (s.modSched f).rd r = s.rd r := rfl
theorem State.rd_modCore (e : Nat) (f : Core → Core) (r : Reg) : (s.modCore e f).rd r = s.rd r := rfl
theorem State.rd_repairWait (w : List (Nat × Nat)) (n : Nat) (r : Reg) :
    State.rd { s with repairWait := w, free := n } r = s.rd r := rfl
theorem State.rd_runs (rs : List Run) (r : Reg) : State.rd { s with runs := rs } r = s.rd r := rfl
@[simp] theorem State.rd_setNpu (u : Nat) (n : Npu) (r : Reg) : (s.setNpu u n).rd r = s.rd r := rfl
@[simp] theorem State.rd_setQueue (q : Nat) (x : Queue) (r : Reg) : (s.setQueue q x).rd r = s.rd r := rfl
@[simp] theorem State.rd_toHost (o : HostOut) (r : Reg) : (s.toHost o).rd r = s.rd r := rfl

/-! Folds. -/

/-- What every element of a fold keeps is kept by the fold. -/
theorem foldl_keeps {α β : Type} (g : State → β) (f : State → α → State) (step : ∀ s a, g (f s a) = g s) (l : List α)
    (s : State) : g (l.foldl f s) = g s :=
  foldl_rel (fun s t => g t = g s) (fun _ => rfl) (fun _ _ _ h h' => h'.trans h) f step l s

/-- What each step establishes for its own element and keeps for the others holds for every element of the list. -/
theorem foldl_establishes {α : Type} (P : α → State → Prop) (f : State → α → State) (own : ∀ s a, P a (f s a))
    (others : ∀ s a b, P b s → P b (f s a)) (l : List α) (s : State) (a : α) (ha : a ∈ l) : P a (l.foldl f s) := by
  induction l generalizing s with
  | nil => cases ha
  | cons b l ih =>
    rcases List.mem_cons.mp ha with rfl | ha
    · exact List.foldlRecOn l f (own s a) fun t ht b _ => others t b a ht
    · exact ih _ ha

end Sys2Proof.Machine
end

section
/-!
PROOFS. What time brings beside the phases of a tick: heartbeats (R432), the staleness sweep (R267), the period change
(R306, R317), the expiry of counted transients (R375), and the timeouts of R20 and R409.
-/
namespace Sys2Proof.Machine

/-! Heartbeats. -/

variable (s : State)

/-- Global time goes on in FAB_TIME alone. -/
theorem State.atTime_rd (t : Nat) {r : Reg} (h : r ≠ .fabTime) : (s.atTime t).rd r = s.rd r := by
  unfold State.atTime
  split
  · rw [State.rd_wr, if_neg h]
  · rfl

@[simp] theorem State.atTime_fab (t : Nat) : (s.atTime t).fab = s.fab := by
  unfold State.atTime
  split <;> rfl

@[simp] theorem State.atTime_sched (t : Nat) : (s.atTime t).sched = s.sched := by
  unfold State.atTime
  split <;> rfl

/-- The part of a heartbeat instant before the own heartbeat (R432): whether the partner's has come since the last one. -/
def State.hbTally : State :=
  if s.rf .fabLease 63 61 != 1 then s
  else if s.fab.hbSeen then s.modFab fun f => { f with hbMiss := 0, hbSeen := false }
  else (s.modFab fun f => { f with hbMiss := f.hbMiss + 1 }).event sgHEARTBEAT_MISSED s.locDevice (detBytes 2 s.partnerId)

theorem State.hbInstant_eq : s.hbInstant = s.hbTally.heartbeat := rfl

theorem State.hbTally_rd (r : Reg) : s.hbTally.rd r = s.rd r := by
  unfold State.hbTally
  split
  · rfl
  · split
    · rfl
    · rw [State.event_rd, State.rd_modFab]

theorem State.hbTally_sched : s.hbTally.sched = s.sched := by
  unfold State.hbTally
  split
  · rfl
  · split
    · rfl
    · rw [State.event_sched, State.modFab_sched]

theorem State.hbTally_asked : s.hbTally.fab.asked = s.fab.asked := by
  unfold State.hbTally
  split
  · rfl
  · split
    · rfl
    · rw [State.event_fab]; rfl

/-- While the pair is PAIRED, an instant without a heartbeat since the last one counts. -/
theorem State.hbTally_paired (h : s.rf .fabLease 63 61 = 1) :
    s.hbTally.fab.hbMiss = (if s.fab.hbSeen then 0 else s.fab.hbMiss + 1) ∧ s.hbTally.fab.hbSeen = false := by
  unfold State.hbTally
  rw [h, if_neg (by decide)]
  cases hs : s.fab.hbSeen with
  | true => exact ⟨rfl, rfl⟩
  | false =>
    rw [if_neg Bool.false_ne_true, State.event_fab]
    exact ⟨rfl, hs⟩

/-- The heartbeat to the partner, on both paths, is the last message out. -/
theorem State.heartbeat_sent (hp : s.hasPartner = true) (hq : s.quiet = false) :
    ∃ q, s.heartbeat.fab.out.getLast? = some ⟨s.partnerId, false, true,
      .heartbeat q s.sched.warm s.fawn s.tick s.now (s.rf .tsqSealed 47 0), false⟩ := by
  refine ⟨(s.takeSeq 5).2, ?_⟩
  unfold State.heartbeat
  rw [hp, hq]
  exact List.getLast?_concat

theorem State.heartbeat_rd (r : Reg) : s.heartbeat.rd r = s.rd r := by
  unfold State.heartbeat
  split <;> rfl

theorem State.heartbeat_hb : s.heartbeat.fab.hbMiss = s.fab.hbMiss ∧ s.heartbeat.fab.hbSeen = s.fab.hbSeen := by
  unfold State.heartbeat
  split <;> exact ⟨rfl, rfl⟩

/-! The staleness sweep. -/

/-- A fold of updates by an idempotent function changes each listed key once. -/
theorem sget_foldl_update {α : Type} [DecidableEq α] (d : α) (g : α → α) (hg : ∀ v, g (g v) = g v) (l : List Nat)
    (m : SMap α) (k : Nat) :
    sget d (l.foldl (fun m e => sset d m e (g (sget d m e))) m) k = if k ∈ l then g (sget d m k) else sget d m k := by
  induction l generalizing m with
  | nil => rfl
  | cons a l ih =>
    rw [List.foldl_cons, ih, sget_sset]
    by_cases hk : k = a
    · subst hk; simp [hg]
    · simp [hk]

theorem sget_of_notMem {α : Type} (d : α) (m : SMap α) (k : Nat) (h : k ∉ m.map (·.1)) : sget d m k = d := by
  induction m with
  | nil => rfl
  | cons p r ih =>
    rw [List.map_cons, List.mem_cons, not_or] at h
    rw [sget, if_neg h.1, ih h.2]

/-- What an invalidation leaves of the cached translations of every core. -/
theorem State.core_dropTlb (keep : TlbItem → Bool) (k : Nat) :
    (s.dropTlb keep).core k = { s.core k with tlb := (s.core k).tlb.filter keep } := by
  have hfold := sget_foldl_update Core.cold (fun c => { c with tlb := c.tlb.filter keep })
    (fun c => by simp only [List.filter_filter, Bool.and_self]) (s.cores.map (·.1)) s.cores k
  refine hfold.trans ?_
  split
  · rfl
  · next hk => rw [State.core, sget_of_notMem _ _ _ hk]; rfl

/-! The period. -/

/-- A period change that is due goes into the history, then into TSQ_PERIOD.CUR, and TSQ_EXW follows it. -/
theorem State.periodChange_eq (h : s.rf .tsqPeriod 47 0 ≤ s.tick) :
    ∃ f u, u = (s.modSched f).wf .tsqPeriod 63 56 (s.rf .tsqPeriod 55 48) ∧
      s.periodChange = u.wf .tsqExw 31 0 u.exw := by
  unfold State.periodChange State.periodAt
  rw [if_pos h]
  dsimp only
  split
  · exact ⟨id, _, rfl, rfl⟩
  · exact ⟨_, _, rfl, rfl⟩

theorem State.periodChange_due (h : s.rf .tsqPeriod 47 0 ≤ s.tick) :
    s.periodChange.period = s.rf .tsqPeriod 55 48 * 1000 ∧
    s.periodChange.rf .tsqExw 31 0 = (s.periodChange.period - 2000) * (if s.fuses.big then 32 else 30) / 10 ∧
    ∀ r, r ≠ .tsqPeriod → r ≠ .tsqExw → s.periodChange.rd r = s.rd r := by
  obtain ⟨f, u, huu, hu⟩ := s.periodChange_eq h
  have hnext : s.rf .tsqPeriod 55 48 < 2 ^ (63 + 1 - 56) := Nat.mod_lt _ (by decide)
  have hperiod : u.period = s.rf .tsqPeriod 55 48 * 1000 := by
    rw [State.period, huu, State.rf_wf_same _ _ _ _ _ (by decide) (by decide), Nat.mod_eq_of_lt hnext]
  have hexw : u.exw = (u.period - 2000) * (if s.fuses.big then 32 else 30) / 10 := by rw [huu]; rfl
  have hsmall : u.exw < 2 ^ 32 := by
    rw [hexw, hperiod]
    split <;> omega
  have hsame : s.periodChange.period = u.period := by
    rw [hu, State.period, State.rf_wf_ne _ (by decide), ← State.period]
  refine ⟨hsame.trans hperiod, ?_, fun r hp he => ?_⟩
  · rw [hsame, ← hexw, hu, State.rf_wf_same _ _ _ _ _ (by decide) (by decide), Nat.mod_eq_of_lt hsmall]
  · rw [hu, State.rd_wf, if_neg he, huu, State.rd_wf, if_neg hp, State.rd_modSched]

/-! Transients. -/

/-- The count of a slot's transients in CLU_SLOT follows the transients that still count (R375). -/
def State.countTrans (s : State) (c sl : Nat) : State :=
  let n := (s.slotX c sl).trans.length
  if s.rf (.cluSlot c sl) 9 8 = n then s else s.wf (.cluSlot c sl) 9 8 n

/-- Forget the transients that count no more. -/
def State.dropTrans (s : State) : State :=
  { s with slots := s.slots.map fun (p : Nat × SlotX) =>
      (p.1, { p.2 with trans := p.2.trans.filter fun i => decide (s.tick < i + 1024) }) }

/-- CLU_SLOT shows how many transients of a slot count, modulo the width of its field. -/
def State.TransShown (c sl : Nat) (s : State) : Prop := s.rf (.cluSlot c sl) 9 8 = (s.slotX c sl).trans.length % 4

theorem execTransientExpiry_eq :
    execTransientExpiry s = .next ((List.range 32).foldl (fun s c => (List.range 5).foldl (fun s sl => s.countTrans c sl) s)
      s.dropTrans) := rfl

theorem State.countTrans_slots (c sl : Nat) : (s.countTrans c sl).slots = s.slots := by
  unfold State.countTrans
  dsimp only
  split <;> rfl

theorem State.countTrans_shown (c sl : Nat) : State.TransShown c sl (s.countTrans c sl) := by
  have hslot : (s.countTrans c sl).slotX c sl = s.slotX c sl := by rw [State.slotX, s.countTrans_slots]; rfl
  unfold State.TransShown
  rw [hslot]
  unfold State.countTrans
  dsimp only
  split
  · next h => rw [← h]; exact (Nat.mod_mod _ 4).symm
  · exact State.rf_wf_same _ _ _ _ _ (by decide) (by decide)

theorem State.countTrans_others (c sl c' sl' : Nat) (h : State.TransShown c' sl' s) :
    State.TransShown c' sl' (s.countTrans c sl) := by
  by_cases hr : Reg.cluSlot c' sl' = Reg.cluSlot c sl
  · injection hr with hc hsl
    subst hc hsl
    exact s.countTrans_shown c' sl'
  · unfold State.TransShown at h ⊢
    rw [State.slotX, s.countTrans_slots, ← State.slotX, ← h]
    unfold State.countTrans
    dsimp only
    split
    · rfl
    · exact State.rf_wf_ne _ hr ..

theorem sget_map {α : Type} (d : α) (g : α → α) (hg : g d = d) (m : SMap α) (k : Nat) :
    sget d (m.map fun p => (p.1, g p.2)) k = g (sget d m k) := by
  induction m with
  | nil => exact hg.symm
  | cons p r ih =>
    rw [List.map_cons, sget, sget, ih]
    split <;> rfl

theorem State.slotX_dropTrans (c sl : Nat) :
    s.dropTrans.slotX c sl =
      { s.slotX c sl with trans := (s.slotX c sl).trans.filter fun i => decide (s.tick < i + 1024) } :=
  sget_map SlotX.cold (fun x => { x with trans := x.trans.filter fun i => decide (s.tick < i + 1024) }) rfl s.slots _

/-- After the expiry the slots hold the transients of the last 1,024 ticks, and CLU_SLOT counts them. -/
theorem transientExpiry_slots {t : State} (h : execTransientExpiry s = .next t) :
    t.slots = s.dropTrans.slots ∧ ∀ c < 32, ∀ sl < 5, State.TransShown c sl t := by
  rw [execTransientExpiry_eq] at h
  cases h
  constructor
  · exact foldl_keeps (·.slots) _ (fun s c => foldl_keeps (·.slots) _ (fun s sl => s.countTrans_slots c sl) _ s) _ _
  · intro c hc
    refine foldl_establishes (fun c t => ∀ sl < 5, State.TransShown c sl t) _ (fun u c sl hsl => ?_)
      (fun u a b hb sl hsl => ?_) _ _ c (List.mem_range.mpr hc)
    · exact foldl_establishes (State.TransShown c) _ (fun s sl => s.countTrans_shown c sl)
        (fun s a b hb => s.countTrans_others c a c b hb) _ u sl (List.mem_range.mpr hsl)
    · exact List.foldlRecOn _ _ (hb sl hsl) fun t ht i _ => t.countTrans_others a i b sl ht

/-! Timeouts. -/

/-- Causes 1 and 6 last as long as their conditions do (R409). -/
theorem State.refreshStatus_causes : s.refreshStatus.fmu.causes =
    setBit (setBit s.fmu.causes 1 (bit s.fmu.causes 1 && bit s.intStatusWord 2)) 6 (bit s.fmu.causes 6 && s.stopped19) := by
  unfold State.refreshStatus
  dsimp only
  split <;> rfl

theorem State.refreshStatus_cores : s.refreshStatus.cores = s.cores := by
  unfold State.refreshStatus
  dsimp only
  split <;> rfl

theorem State.refreshStatus_mem : s.refreshStatus.mem = s.mem := by
  unfold State.refreshStatus
  dsimp only
  split <;> rfl

/-- A second of stopped intake is cause 6 of Fawn mode. -/
theorem State.stop_causes (h : s.stopped19 = true) :
    bit (s.modFmu fun f => { f with causes := setBit f.causes 6 true }).refreshStatus.fmu.causes 6 = true := by
  rw [State.refreshStatus_causes, bit_setBit _ _ _ _ (by decide) (by decide), if_pos rfl]
  have hstop : (s.modFmu fun f => { f with causes := setBit f.causes 6 true }).stopped19 = true := h
  rw [hstop, Bool.and_true, State.modFmu_fmu, bit_setBit _ _ _ _ (by decide) (by decide), if_pos rfl]

/-- A second of low energy is cause 1 of Fawn mode. -/
theorem State.low_causes (h : bit s.intStatusWord 2 = true) :
    bit (s.modFmu fun f => { f with causes := setBit f.causes 1 true }).refreshStatus.fmu.causes 1 = true := by
  rw [State.refreshStatus_causes, bit_setBit _ _ _ _ (by decide) (by decide), if_neg (by decide),
    bit_setBit _ _ _ _ (by decide) (by decide), if_pos rfl]
  have hlow : bit (s.modFmu fun f => { f with causes := setBit f.causes 1 true }).intStatusWord 2 = true := h
  rw [hlow, Bool.and_true, State.modFmu_fmu, bit_setBit _ _ _ _ (by decide) (by decide), if_pos rfl]

/-! What the statement asks of each event. -/

theorem heartbeatHalfTick_sends (hp : s.hasPartner = true) (hq : s.quiet = false) :
    Completes .heartbeatHalfTick s fun t => ∃ q, t.fab.out.getLast? = some ⟨s.partnerId, false, true,
      .heartbeat q s.sched.warm s.fawn s.tick t.now (s.rf .tsqSealed 47 0), false⟩ := by
  refine ⟨_, rfl, ?_⟩
  rw [State.hbInstant_eq]
  generalize hu : (s.atTime (s.sched.start + s.period / 2)).hbTally = u
  have hrd (r : Reg) (h : r ≠ .fabTime) : u.rd r = s.rd r := by rw [← hu, State.hbTally_rd, State.atTime_rd _ _ h]
  have hrf (r : Reg) (h : r ≠ .fabTime) (hi lo : Nat) : u.rf r hi lo = s.rf r hi lo := by rw [State.rf, hrd r h, ← State.rf]
  have hpartner : u.hasPartner = true := by rw [← hp, State.hasPartner, hrd _ (by decide), ← State.hasPartner]
  have hquiet : u.quiet = false := by rw [← hq, State.quiet, ← hu, State.hbTally_asked, State.atTime_fab, ← State.quiet]
  obtain ⟨q, hsent⟩ := u.heartbeat_sent hpartner hquiet
  have hid : u.partnerId = s.partnerId := hrf _ (by decide) _ _
  have hwarm : u.sched = s.sched := by rw [← hu, State.hbTally_sched, State.atTime_sched]
  have hfawn : u.fawn = s.fawn := by rw [State.fawn, hrf _ (by decide), ← State.fawn]
  have htick : u.tick = s.tick := hrf _ (by decide) _ _
  have hnow : u.heartbeat.now = u.now := by rw [State.now, u.heartbeat_rd, ← State.now]
  refine ⟨q, ?_⟩
  rw [hnow, hsent, hid, hwarm, hfawn, htick, hrf _ (by decide)]

theorem heartbeatHalfTick_counts (h : s.rf .fabLease 63 61 = 1) :
    Completes .heartbeatHalfTick s fun t =>
      t.fab.hbMiss = (if s.fab.hbSeen then 0 else s.fab.hbMiss + 1) ∧ t.fab.hbSeen = false := by
  refine ⟨_, rfl, ?_⟩
  generalize hu : s.atTime (s.sched.start + s.period / 2) = u
  have hfab : u.fab = s.fab := by rw [← hu, State.atTime_fab]
  have hlease : u.rf .fabLease 63 61 = 1 := by rw [← h, ← hu, State.rf, State.atTime_rd _ _ (by decide), ← State.rf]
  obtain ⟨hmiss, hseen⟩ := u.hbTally_paired hlease
  obtain ⟨hmiss', hseen'⟩ := u.hbTally.heartbeat_hb
  rw [State.hbInstant_eq, hmiss', hseen', hmiss, hseen, hfab]
  exact ⟨rfl, rfl⟩

theorem tickPeriodChange_early (h : s.tick < s.rf .tsqPeriod 47 0) : Completes .tickPeriodChange s fun t => t = s :=
  ⟨_, rfl, if_neg (Nat.not_le.mpr h)⟩

theorem idemEntryExpiry_drops : Completes .idemEntryExpiry s fun t =>
    { t with idem := s.idem, idemPtn := s.idemPtn } = s ∧
      ∀ p, (p ∈ t.idem ↔ p ∈ s.idem ∧ s.idemExpired p.2 = false) ∧
        (p ∈ t.idemPtn ↔ p ∈ s.idemPtn ∧ s.idemExpired p.2 = false) := by
  refine ⟨_, rfl, rfl, fun p => ?_⟩
  simp only [List.mem_filter, Bool.not_eq_true', and_self]

theorem transientExpiry_counts : Completes .transientExpiry s fun t => ∀ c < 32, ∀ sl < 5,
    (t.slotX c sl).trans = (s.slotX c sl).trans.filter (fun i => decide (s.tick < i + 1024)) ∧
    t.rf (.cluSlot c sl) 9 8 = (t.slotX c sl).trans.length % 4 := by
  refine ⟨_, rfl, fun c hc sl hsl => ?_⟩
  obtain ⟨hslots, hshown⟩ := transientExpiry_slots s rfl
  refine ⟨?_, hshown c hc sl hsl⟩
  rw [State.slotX, hslots, ← State.slotX, State.slotX_dropTrans]

theorem intakeStopTimeout_cause (h : s.stopped19 = true) :
    Completes .intakeStopTimeout s fun t => bit t.fmu.causes 6 = true ∧ t.cores = s.cores ∧ t.mem = s.mem := by
  refine ⟨_, rfl, ?_⟩
  rw [if_pos h]
  exact ⟨s.stop_causes h, State.refreshStatus_cores _, State.refreshStatus_mem _⟩

theorem energyLowTimeout_cause (h : bit s.intStatusWord 2 = true) :
    Completes .energyLowTimeout s fun t => bit t.fmu.causes 1 = true ∧ t.cores = s.cores ∧ t.mem = s.mem := by
  refine ⟨_, rfl, ?_⟩
  rw [if_pos h]
  exact ⟨s.low_causes h, State.refreshStatus_cores _, State.refreshStatus_mem _⟩

/-- Settles O47: each event of time by the lemma that says what it changes. -/
theorem timedEvents : Obligations.TimedEvents := by
  unfold Obligations.TimedEvents
  exact fun s => ⟨heartbeatHalfTick_sends s, heartbeatHalfTick_counts s,
    ⟨_, rfl, rfl, rfl, s.core_dropTlb _, rfl⟩,
    fun h => ⟨_, rfl, s.periodChange_due h⟩, tickPeriodChange_early s, idemEntryExpiry_drops s, transientExpiry_counts s,
    intakeStopTimeout_cause s, energyLowTimeout_cause s⟩

end Sys2Proof.Machine
end

section
/-!
PROOFS. Fawn mode (R409 to R411): how it is entered, and that an abort of runs leaves the mode alone.
-/
namespace Sys2Proof.Machine

variable (s : State)

/-! An abort writes no registers but the counters of the posting units and of the tick sequencer. -/

theorem State.rollbackAll_rd {r : Reg} (hn : ∀ u, r ≠ .npuCnt u) (A : List Nat) : (s.rollbackAll A).rd r = s.rd r :=
  foldl_keeps (·.rd r) _ (fun s u => (State.rd_count_ne _ (hn u) _ _ _).trans (s.rd_setNpu u _ r)) _ s

theorem State.countOverruns_rd {r : Reg} (ht : r ≠ .tsqCnt) (A : List Nat) :
    (A.foldl (fun s _ => (s.count .tsqCnt 63 48 1).event sgTX_OVERRUN (s.locElement 0x0D) 0) s).rd r = s.rd r :=
  foldl_keeps (·.rd r) _ (fun s _ => by rw [State.event_rd, State.rd_count_ne _ ht]) A s

theorem State.abortRuns_rd {r : Reg} (hn : ∀ u, r ≠ .npuCnt u) (ht : r ≠ .tsqCnt) (A : List Nat) (isOvr : Bool) :
    (s.abortRuns A isOvr).rd r = s.rd r := by
  unfold State.abortRuns
  dsimp only
  split
  · rfl
  · rw [State.rd_count_ne _ ht]
    split
    · rw [State.countOverruns_rd _ ht, State.rd_runs, s.rollbackAll_rd hn]
    · rw [State.rd_runs, s.rollbackAll_rd hn]

theorem State.cancelReqs_rd (es : List Nat) (r : Reg) : (s.cancelReqs es).rd r = s.rd r :=
  foldl_keeps (·.rd r) _ (fun s u => s.rd_setNpu u _ r) _ _

theorem State.dropRuns_rd (A : List Nat) (r : Reg) : (s.dropRuns A).rd r = s.rd r := by
  have hcores (es : List Nat) (u : State) :
      (es.foldl (fun (u : State) e => u.modCore e fun c => c.abort0 (u.free - 1)) u).rd r = u.rd r :=
    foldl_keeps (·.rd r) _ (fun u e => u.rd_modCore e _ r) es u
  unfold State.dropRuns
  dsimp only
  rw [hcores, State.rd_repairWait, State.cancelReqs_rd]

theorem State.abortNow_rd {r : Reg} (hn : ∀ u, r ≠ .npuCnt u) (ht : r ≠ .tsqCnt) (A : List Nat) (isOvr : Bool) :
    (s.abortNow A isOvr).rd r = s.rd r := by
  unfold State.abortNow
  dsimp only
  rw [State.dropRuns_rd]
  exact s.abortRuns_rd hn ht A isOvr

/-! The mode. -/

/-- FMU_STATUS.MODE of a device that goes to HANDOVER. -/
theorem State.startHandover_mode : s.startHandover.rf .fmuStatus 61 60 = 2 := by
  rw [State.startHandover, State.rf, State.abortNow_rd _ (fun _ => by simp) (by decide), ← State.rf]
  exact s.rf_wf_same _ _ _ _ (by decide) (by decide)

/-- The conditions shown in FMU_STATUS leave its mode alone. -/
theorem State.refreshStatus_mode : s.refreshStatus.rf .fmuStatus 61 60 = s.rf .fmuStatus 61 60 := by
  unfold State.refreshStatus
  dsimp only
  split <;> simp [State.rf_wf_apart] <;> rfl

theorem State.enterC6_rd {r : Reg} (h1 : r ≠ .trcStatus) (h2 : r ≠ .trcRdptr) (h3 : r ≠ .dbgStep) (e : Nat) :
    (s.enterC6 e).rd r = s.rd r :=
  (trcSleep_quiet _ _ _).1.2 r h1 h2 h3

theorem State.restCores_mode : s.restCores.rf .fmuStatus 61 60 = s.rf .fmuStatus 61 60 := by
  have hrd : s.restCores.rd .fmuStatus = s.rd .fmuStatus :=
    foldl_keeps (·.rd .fmuStatus) _ (fun s e => s.enterC6_rd (by decide) (by decide) (by decide) e) _ s
  rw [State.rf, hrd, ← State.rf]

/-- Fawn mode as it is entered, before the mode is decided: DRAIN begins in this tick. -/
def State.startDrain : State :=
  let u := (s.wf .fmuStatus 61 60 1).refreshStatus.alarm sgFAWN_ENTER s.locDevice (detBytes 1 s.causes)
  u.modSched fun k => { k with drainSince := u.tick }

theorem State.enterFawn_eq (hc : s.causes ≠ 0) (hm : s.rf .fmuStatus 61 60 = 0) :
    s.enterFawn =
      (if s.causes &&& 0xB6 != 0 || s.healthy == 0 then s.startDrain.startHandover else s.startDrain).restCores := by
  unfold State.enterFawn
  rw [if_neg hc, hm]
  rfl

theorem State.startDrain_mode : s.startDrain.rf .fmuStatus 61 60 = 1 := by
  rw [State.startDrain, State.rf, State.rd_modSched, State.alarm_rd, ← State.rf, State.refreshStatus_mode]
  exact s.rf_wf_same _ _ _ _ (by decide) (by decide)

/-- Outside Fawn mode a cause starts HANDOVER if it is one of HANDOVER or no unit is healthy, else DRAIN. -/
theorem State.enterFawn_mode (hc : s.causes ≠ 0) (hm : s.rf .fmuStatus 61 60 = 0) :
    s.enterFawn.rf .fmuStatus 61 60 = if s.causes &&& 0xB6 ≠ 0 ∨ s.healthy = 0 then 2 else 1 := by
  rw [s.enterFawn_eq hc hm, State.restCores_mode]
  by_cases hand : s.causes &&& 0xB6 ≠ 0 ∨ s.healthy = 0
  · rw [if_pos hand, if_pos (by simpa using hand), State.startHandover_mode]
  · rw [if_neg hand, if_neg (by simpa using hand), State.startDrain_mode]

end Sys2Proof.Machine
end

section
/-!
PROOFS. The completion queues: completions and passes (R330, R333, R452), the release of results with its RELEASE record
(R349), acceptance and refusal (R332), and the doorbells of the host (R350, R451).
-/
namespace Sys2Proof.Machine

variable (s : State)

/-! Completions. -/

theorem State.queue_congr {t u : State} (h : t.queues = u.queues) (q : Nat) : t.queue q = u.queue q := by
  rw [State.queue, h, ← State.queue]

theorem State.count_queues (r : Reg) (hi lo n : Nat) : (s.count r hi lo n).queues = s.queues := by
  rw [State.count_eq, State.wf_eq, State.wr_queues]

theorem State.count_hif (r : Reg) (hi lo n : Nat) : (s.count r hi lo n).hif = s.hif := by
  rw [State.count_eq, State.wf_eq, State.wr_hif]

@[simp] theorem State.queue_setQueue (q k : Nat) (x : Queue) :
    (s.setQueue q x).queue k = if k = q then x else s.queue k := by
  simp [State.queue, State.setQueue]

theorem State.cqSize_setQueue (q k : Nat) (x : Queue) : (s.setQueue q x).cqSize k = s.cqSize k := rfl

theorem State.complete_out (q : Nat) (c : Comp) : (s.complete q c).hif.out =
    s.hif.out ++ [.completion q (s.queue q).cqTail c.bytes (bit (s.rd .hifCtl) 0)] := rfl

theorem State.complete_queue (q : Nat) (c : Comp) :
    (s.complete q c).queue q = { s.queue q with cqTail := ((s.queue q).cqTail + 1) % s.cqSize q } :=
  ((s.toHost _).queue_setQueue q q _).trans (if_pos rfl)

theorem State.complete_rd {q : Nat} {r : Reg} (h : r ≠ .intQcfg q) (c : Comp) : (s.complete q c).rd r = s.rd r := by
  unfold State.complete
  dsimp only
  rw [State.rd_wf, if_neg h, State.rd_setQueue, State.rd_toHost]

theorem State.msix_out (f v : Nat) : s.hif.out <+: (s.msix f v).hif.out := by
  unfold State.msix
  dsimp only
  split
  · exact List.prefix_rfl
  · split
    · exact List.prefix_rfl
    · exact List.prefix_append _ _

theorem State.msix_frame (f v : Nat) : ∃ h, s.msix f v = { s with hif := h } := by
  unfold State.msix
  dsimp only
  split
  · exact ⟨_, rfl⟩
  · split <;> exact ⟨_, rfl⟩

/-- A pass ends with the tail index, and perhaps a message. -/
theorem State.endPass_out (q : Nat) :
    s.hif.out ++ [.tail (s.rd (.intCqtail q)).toNat (s.queue q).cqTail] <+: (s.endPass q).hif.out :=
  (s.toHost _).msix_out _ _

/-- The end of a pass changes nothing beside the host interface. -/
theorem State.endPass_frame (q : Nat) : ∃ h, s.endPass q = { s with hif := h } := by
  unfold State.endPass
  obtain ⟨h, e⟩ := (s.toHost (.tail (s.rd (.intCqtail q)).toNat (s.queue q).cqTail)).msix_frame
    (s.rf (.keyQbind q) 55 48) (s.rf (.intQcfg q) 10 0)
  exact ⟨h, e⟩

/-! Records. -/

/-- A record changes the vault alone, and a vault that takes records holds it. -/
theorem State.journal_frame (b : JBody) :
    ∃ v rec, s.journal b = ({ s with vault := v }, rec) ∧ rec.body = b ∧ (s.vaultOk = true → rec ∈ v.own) := by
  unfold State.journal
  dsimp only
  split
  · exact ⟨_, _, rfl, rfl, fun _ => by simp⟩
  · next h => exact ⟨_, _, rfl, rfl, fun hok => absurd hok h⟩

/-- Write a record that ships with the next posting log (R349, R350). -/
def State.journalShip (s : State) (b : JBody) : State :=
  let p := s.journal b
  p.1.modVault fun v => { v with toShip := v.toShip ++ [p.2] }

theorem State.journalShip_takes (h : s.vaultOk = true) (b : JBody) :
    ∃ v, s.journalShip b = { s with vault := v } ∧ ∃ rec ∈ v.own, rec.body = b := by
  obtain ⟨v, rec, hjournal, hbody, hown⟩ := s.journal_frame b
  unfold State.journalShip
  rw [hjournal]
  exact ⟨_, rfl, rec, hown h, hbody⟩

/-! The release of results. -/

/-- The completion entry of a run's result (R330). -/
def Run.comp (r : Run) : Comp :=
  ⟨r.okey, r.status, r.isRepeat, r.queue, r.isn % 2 ^ 64, r.idem, r.sqidx, padTo 64 r.result⟩

theorem State.releaseRun_out (q : Nat) (r : Run) : (s.releaseRun q r).hif.out =
    s.hif.out ++ [.completion q (s.queue q).cqTail r.comp.bytes (bit (s.rd .hifCtl) 0)] := rfl

theorem State.releaseRun_rd {q : Nat} {g : Reg} (h : g ≠ .intQcfg q) (r : Run) : (s.releaseRun q r).rd g = s.rd g :=
  s.complete_rd h r.comp

theorem State.releaseRun_runs (q : Nat) (r : Run) : (s.releaseRun q r).runs =
    s.runs.map fun x => if x.isn == r.isn then { x with st := .released } else x := rfl

/-- The tail moves on; the answers that duplicates have waited for leave it alone. -/
theorem State.releaseRun_tail (q : Nat) (r : Run) :
    ((s.releaseRun q r).queue q).cqTail = ((s.queue q).cqTail + 1) % s.cqSize q := by
  have hmap : (s.releaseRun q r).queue q =
      { (s.complete q r.comp).queue q with
        acc := ((s.complete q r.comp).queue q).acc.map (AccWait.answered r.isn r.okey r.result) } :=
    sget_map Queue.cold (fun x => { x with acc := x.acc.map (AccWait.answered r.isn r.okey r.result) }) rfl _ q
  rw [hmap, s.complete_queue]

/-- A RELEASE record of queue q. -/
def isRelease (q : Nat) : JBody → Bool
  | .release q' _ => q' == q
  | _ => false

/-- The end of a result pass whose last result has key k (R349): the RELEASE record takes the place of the earlier ones. -/
def State.endRelease (s : State) (q k : Nat) : State :=
  let u := (s.freeRecs (isRelease q)).journalShip (.release q k)
  (u.setQueue q { u.queue q with relKey := some (max k ((u.queue q).relKey.getD 0)) }).endPass q

theorem State.releaseQueue_single {q : Nat} {r : Run} (hone : s.releasable q = [r]) (hopen : s.cqOpen q = true) :
    s.releaseQueue q = (s.releaseRun q r).endRelease q r.okey := by
  unfold State.releaseQueue
  rw [hone, List.foldl_cons, List.foldl_nil, if_pos hopen]
  rfl

/-- The end of a result pass writes the tail and holds the RELEASE record; the runs stay. -/
theorem State.endRelease_effect {q : Nat} (k : Nat) (hvault : s.vaultOk = true) :
    (s.endRelease q k).runs = s.runs ∧
    s.hif.out ++ [.tail (s.rd (.intCqtail q)).toNat (s.queue q).cqTail] <+: (s.endRelease q k).hif.out ∧
    ∃ b ∈ (s.endRelease q k).vault.own, b.body = .release q k := by
  obtain ⟨v, hjournal, hrec⟩ := (s.freeRecs (isRelease q)).journalShip_takes hvault (.release q k)
  unfold State.endRelease
  rw [hjournal]
  dsimp only
  generalize hu : State.setQueue _ q _ = u
  obtain ⟨h, hframe⟩ := u.endPass_frame q
  have hout := u.endPass_out q
  have htail : (u.queue q).cqTail = (s.queue q).cqTail := by rw [← hu, State.queue_setQueue, if_pos rfl]; rfl
  have haddr : u.rd (.intCqtail q) = s.rd (.intCqtail q) := by rw [← hu]; rfl
  rw [htail, haddr] at hout
  rw [hframe] at hout ⊢
  rw [← hu] at hout ⊢
  exact ⟨rfl, hout, hrec⟩

/-- A sealed result that stands alone is RELEASED: the completion, the tail and the RELEASE record. -/
theorem resultRelease_single {r : Run} {q : Nat} (hrel : s.releases = true) (hruns : s.runs = [r])
    (hq : s.outQueue r = some q) (hone : s.releasable q = [r]) (hopen : s.cqOpen q = true) :
    Completes .resultRelease s fun t =>
      t.runs = [{ r with st := .released }] ∧
      s.hif.out ++ [.completion q (s.queue q).cqTail r.comp.bytes (bit (s.rd .hifCtl) 0),
        .tail (s.rd (.intCqtail q)).toNat (((s.queue q).cqTail + 1) % s.cqSize q)] <+: t.hif.out ∧
      ∃ b ∈ t.vault.own, b.body = .release q r.okey := by
  have hvault : s.vaultOk = true := by
    simp only [State.releases, Bool.and_eq_true] at hrel
    exact hrel.1.1
  have hok : (s.releaseRun q r).vaultOk = true := by
    rw [State.vaultOk, State.rf, s.releaseRun_rd (by simp), ← State.rf, ← State.vaultOk, hvault]
  obtain ⟨hruns', hout, hrec⟩ := (s.releaseRun q r).endRelease_effect (q := q) r.okey hok
  rw [s.releaseRun_tail, s.releaseRun_rd (by simp), s.releaseRun_out, List.append_assoc] at hout
  rw [s.releaseRun_runs, hruns] at hruns'
  refine ⟨(s.releaseRun q r).endRelease q r.okey, ?_, hruns'.trans (by simp), hout, hrec⟩
  show execResultRelease s = _
  rw [execResultRelease, if_pos hrel, hruns, List.filterMap_cons_some hq, ← s.releaseQueue_single hone hopen]
  rfl

/-! Acceptance and refusal. -/

/-- The completion of a refusal (R331). -/
def refusalComp (q i st k : Nat) : Comp := ⟨0, st, false, q, 0, k, i, List.replicate 64 0⟩

/-- The acceptance pass writes a refusal that waits alone. -/
theorem State.acceptPass_refusal {q i st k : Nat} (hopen : s.cqOpen q = true) (hacc : (s.queue q).acc = [.refusal i st k]) :
    ∃ u, State.acceptPass q 1 s = (u, true) ∧ (u.queue q).acc = [] ∧
      (u.queue q).cqTail = ((s.queue q).cqTail + 1) % s.cqSize q ∧ u.rd (.intCqtail q) = s.rd (.intCqtail q) ∧
      u.hif.out = s.hif.out ++ [.completion q (s.queue q).cqTail (refusalComp q i st k).bytes (bit (s.rd .hifCtl) 0)] := by
  generalize hw : (s.setQueue q { s.queue q with acc := [] }).complete q (refusalComp q i st k) = w
  have hpass : State.acceptPass q 1 s = (if st = 0x0101 then w.count .intIdemcnt 63 32 1 else w, true) := by
    simp only [State.acceptPass, hacc, hopen, Bool.not_true, Bool.false_eq_true, if_false, State.accReady, ← hw, refusalComp]
  have hqueue : w.queue q = { s.queue q with acc := [], cqTail := ((s.queue q).cqTail + 1) % s.cqSize q } := by
    rw [← hw, State.complete_queue, State.queue_setQueue, if_pos rfl, State.cqSize_setQueue]
  have haddr : w.rd (.intCqtail q) = s.rd (.intCqtail q) := by
    rw [← hw, State.complete_rd _ (by simp), State.rd_setQueue]
  have hout : w.hif.out =
      s.hif.out ++ [.completion q (s.queue q).cqTail (refusalComp q i st k).bytes (bit (s.rd .hifCtl) 0)] := by
    rw [← hw, State.complete_out, State.queue_setQueue, if_pos rfl, State.rd_setQueue, State.setQueue_hif]
  refine ⟨_, hpass, ?_⟩
  split
  · rw [State.rd_count_ne _ (by simp), w.count_hif, State.queue_congr (w.count_queues _ _ _ _)]
    exact ⟨congrArg Queue.acc hqueue, congrArg Queue.cqTail hqueue, haddr, hout⟩
  · exact ⟨congrArg Queue.acc hqueue, congrArg Queue.cqTail hqueue, haddr, hout⟩

theorem acceptancePass_refusal {q : Fin 4096} {i st k : Nat} (hvault : s.vaultOk = true) (hopen : s.cqOpen q = true)
    (hacc : (s.queue q).acc = [.refusal i st k]) :
    Completes (.acceptancePass q) s fun t => (t.queue q).acc = [] ∧
      s.hif.out ++ [.completion q (s.queue q).cqTail (refusalComp q i st k).bytes (bit (s.rd .hifCtl) 0),
        .tail (s.rd (.intCqtail q)).toNat (((s.queue q).cqTail + 1) % s.cqSize q)] <+: t.hif.out := by
  obtain ⟨u, hpass, hempty, htail, haddr, hcomp⟩ := s.acceptPass_refusal hopen hacc
  refine ⟨u.endPass q, ?_, ?_⟩
  · show execAcceptancePass q s = _
    rw [execAcceptancePass, hvault, hacc]
    simp only [List.length_singleton, hpass]
    rfl
  obtain ⟨h, hframe⟩ := u.endPass_frame q
  have hout := u.endPass_out q
  rw [htail, haddr, hcomp, List.append_assoc] at hout
  refine ⟨?_, hout⟩
  rw [hframe]
  exact hempty

/-! Doorbells. -/

theorem State.freeRecs_rd (g : JBody → Bool) (r : Reg) : (s.freeRecs g).rd r = s.rd r := rfl

theorem State.freePtn_rd (g : JBody → Bool) (r : Reg) : (s.freePtn g).rd r = s.rd r := by
  unfold State.freePtn
  split <;> rfl

theorem State.freePtn_runs (g : JBody → Bool) : (s.freePtn g).runs = s.runs := by
  unfold State.freePtn
  split <;> rfl

/-- A doorbell of a bound, valid queue acts. -/
theorem State.doorbell_acts {f q : Nat} {ok : Bool} (hbound : bit (s.rd (.keyQbind q)) 63 = true)
    (hfn : fld (s.rd (.keyQbind q)) 55 48 = f) (hvalid : bit (s.rd (.intQcfg q)) 63 = true) (hok : ok = true)
    (act : State → State) : s.doorbell f q ok act = act s := by
  simp [State.doorbell, hbound, hfn, hvalid, hok]

section

variable {s} {f : Fin 256} {q : Fin 4096} (hbound : bit (s.rd (.keyQbind q)) 63 = true)
  (hfn : fld (s.rd (.keyQbind q)) 55 48 = f) (hvalid : bit (s.rd (.intQcfg q)) 63 = true)
include hbound hfn hvalid

theorem sqTailDoorbell_moves {v : HostWord} (hfits : v.fits = true) (hlt : v.val.toNat % 65536 < s.sqSize q)
    (hnew : ((s.queue q).sqTail + s.sqSize q - (s.queue q).fetch) % s.sqSize q ≤
      (v.val.toNat % 65536 + s.sqSize q - (s.queue q).fetch) % s.sqSize q) :
    Completes (.sqTailDoorbell f q v) s fun t =>
      t = s.setQueue q { s.queue q with sqTail := v.val.toNat % 65536 } := by
  refine ⟨_, ?_, rfl⟩
  show execSqTailDoorbell f q v s = _
  simp only [execSqTailDoorbell, hfits, Bool.not_true, Bool.false_eq_true, if_false]
  rw [s.doorbell_acts hbound hfn hvalid]
  simp only [hlt, hnew, decide_true, Bool.and_self]

/-- The queue with the new head, its CQFULL bit set afresh. -/
def State.headMoved (s : State) (q h : Nat) : State :=
  let u := s.setQueue q { s.queue q with cqHead := h }
  u.wf (.intQcfg q) 14 14 (b2n (u.cqFull q))

theorem cqHeadDoorbell_moves {v : HostWord} (hfits : v.fits = true) (hheld : (s.queue q).held = false)
    (hlt : v.val.toNat % 131072 < s.cqSize q)
    (hnew : (v.val.toNat % 131072 + s.cqSize q - (s.queue q).cqHead) % s.cqSize q ≤
      ((s.queue q).cqTail + s.cqSize q - (s.queue q).cqHead) % s.cqSize q) :
    Completes (.cqHeadDoorbell f q v) s fun t =>
      t.queue q = { s.queue q with cqHead := v.val.toNat % 131072 } ∧ t.runs = s.runs ∧ t.mem = s.mem := by
  have hexec : exec (.cqHeadDoorbell f q v) s = .next (s.headMoved q (v.val.toNat % 131072)) := by
    show execCqHeadDoorbell f q v s = _
    simp only [execCqHeadDoorbell, hfits, Bool.not_true, Bool.false_eq_true, if_false]
    rw [s.doorbell_acts hbound hfn hvalid]
    · simp only [hheld, Bool.false_and, Bool.false_eq_true, if_false, State.headMoved]
    · simp only [hlt, hnew, decide_true, Bool.and_self]
  refine ⟨_, hexec, ?_, rfl, rfl⟩
  exact (s.queue_setQueue q q _).trans (if_pos rfl)

/-- A confirmation of RELEASED results retires them, with a RETIRE record. -/
theorem retireDoorbell_retires {key : BitVec 80}
    (hdone : s.runs.all (fun r => !(s.outQueue r == some q.val && r.okey ≤ key.toNat &&
      (r.st == .committed || r.st == .isSealed))) = true)
    (hkey : key.toNat ≤ (s.queue q).relKey.getD 0) (hsome : s.retiring q key.toNat ≠ []) (hvault : s.vaultOk = true) :
    Completes (.retireDoorbell f q true key) s fun t =>
      t.runs = s.runs.filter (fun r => !((s.retiring q key.toNat).map (·.isn)).contains r.isn) ∧
      ∃ b ∈ t.vault.own, b.body = .retire q key.toNat := by
  have hnone : s.runs.any (fun r => s.outQueue r == some q.val && r.okey ≤ key.toNat &&
      (r.st == .committed || r.st == .isSealed)) = false := by
    rw [List.any_eq_not_all_not, hdone]
    rfl
  have hearly : ¬ (s.runs.any (fun r => s.outQueue r == some q.val && r.okey ≤ key.toNat &&
      (r.st == .committed || r.st == .isSealed)) || decide ((s.queue q).relKey.getD 0 < key.toNat)) = true := by
    rw [hnone, decide_eq_false (Nat.not_lt.mpr hkey)]
    decide
  have hrun : ¬ ((s.retiring q key.toNat).isEmpty || !s.vaultOk) = true := by
    rw [List.isEmpty_eq_false_iff.mpr hsome, hvault]
    decide
  have hact := s.doorbell_acts hbound hfn hvalid rfl
  refine ⟨_, rfl, ?_⟩
  rw [hact, if_neg hearly]
  extract_lets rs isns keys freed freed' top freed'' gone done u
  rw [if_neg hrun]
  have hruns : u.runs = s.runs.filter fun r => !isns.contains r.isn := by
    rw [State.freePtn_runs]
    show freed'.runs.filter _ = _
    rw [State.freePtn_runs]
    rfl
  have hrd : u.rd .vltStatus = s.rd .vltStatus := by
    rw [State.freePtn_rd, State.freeRecs_rd, State.rd_runs, State.freeRecs_rd, State.rd_wf, if_neg (by decide),
      State.freePtn_rd, State.freeRecs_rd]
  have hok : u.vaultOk = true := by rw [← hvault, State.vaultOk, State.rf, hrd]; rfl
  obtain ⟨v, rec, hjournal, hbody, hown⟩ := u.journal_frame (.retire q key.toNat)
  rw [hjournal]
  exact ⟨hruns, rec, hown hok, hbody⟩

end

end Sys2Proof.Machine
end

section
/-!
PROOFS. Intake and the region schedulers: what becomes of a fetched descriptor (R331, R343), stage-in of an empty list
(R347), and the delivery of a request to a waiting DISPATCH (R169, R348).
-/
namespace Sys2Proof.Machine

variable (s : State)

/-! A fetched descriptor. -/

theorem State.pushAcc_queue (q : Nat) (a : AccWait) : ((s.pushAcc q a).queue q).acc = (s.queue q).acc ++ [a] :=
  congrArg Queue.acc ((s.queue_setQueue q q _).trans (if_pos rfl))

/-- A descriptor that fails a check of R331 gives a refusal. -/
theorem State.intake_refused {q : Nat} {d : Desc} (hfawn : s.fawn = false) (hd : s.descOk (s.queuePart q) d = false) :
    s.intake q d = s.pushAcc q (.refusal (s.queue q).fetch 0x0103 d.idem) := by
  unfold State.intake
  extract_lets part i check hit dup
  rw [hfawn, if_neg (by decide), if_pos (by rw [hd]; rfl)]

/-- A valid descriptor with a new key, a place and a frame is accepted. -/
theorem State.intake_new {q place frame : Nat} {d : Desc} (hfawn : s.fawn = false)
    (hd : s.descOk (s.queuePart q) d = true)
    (hnew : s.idemFind s.idem (s.queuePart q) d.idem (checkOf d.prog d.plen d.payload) = none)
    (hroom : s.idemRoom s.idem (s.queuePart q) d.idem = some place) (hframe : s.freeFrame (s.queuePart q) = some frame) :
    s.intake q d = (s.keyReused q (s.queuePart q) d.idem).accept q (s.queuePart q) frame place d
      (checkOf d.prog d.plen d.payload) := by
  unfold State.intake
  extract_lets part i check hit dup
  have hhit : hit = none := hnew
  rw [hfawn, if_neg (by decide), if_neg (by rw [hd]; decide), hhit, hroom, hframe]

/-- A descriptor that was read whole goes to intake. -/
theorem execDescriptorFetch_takes {q : Fin 4096} {bs : List Byte} (hfetch : s.fetches q = true) (hlen : bs.length = 512) :
    exec (.descriptorFetch q true bs) s = .next ((s.readDesc q).intake q (Desc.of bs)) := by
  show execDescriptorFetch q true bs s = _
  unfold execDescriptorFetch
  rw [hfetch, hlen]
  rfl

/-- A key that is used again is counted and told; nothing else changes. -/
theorem State.keyReused_frame (q part idem : Nat) :
    (s.keyReused q part idem).runs = s.runs ∧ (s.keyReused q part idem).queues = s.queues ∧
    ∀ r, r ≠ .intIdemcnt → (s.keyReused q part idem).rd r = s.rd r := by
  unfold State.keyReused
  split
  · refine ⟨?_, ?_, fun r h => ?_⟩
    · rw [State.event_runs, State.count_eq, State.wf_eq, State.wr_runs]
    · rw [State.event_queues, State.count_queues]
    · rw [State.event_rd, State.rd_count_ne _ h]
  · exact ⟨rfl, rfl, fun _ _ => rfl⟩

/-- In t the device has taken a request that it had not in s: it has a run with the next ISN, waits for its acceptance
completion, and has its place in the idempotency table (R339, R343 to R345). -/
def State.TookRequest (s t : State) (q part frame place : Nat) (d : Desc) : Prop :=
  ∃ r, t.runs = s.runs ++ [r] ∧ r.isn = (s.rd .intNextisn).toNat ∧ r.queue = q ∧ r.part = part ∧ r.prog = d.prog ∧
    r.idem = d.idem ∧ r.frame = frame ∧ r.st = (if bit (s.rd (.keyPtctl part)) 62 then .journaled else .accepted) ∧
    t.rd .intNextisn = s.rd .intNextisn + 1 ∧
    (t.queue q).acc = (s.queue q).acc ++ [.request (s.queue q).fetch r.isn d.idem] ∧
    (sget Idem.free t.idem place).isn = r.isn

theorem State.accept_took (q part frame place : Nat) (d : Desc) (check : Nat) :
    s.TookRequest (s.accept q part frame place d check) q part frame place d := by
  unfold State.accept
  extract_lets isn w mirrored sqidx st
  have hmirrored : mirrored = bit (s.rd (.keyPtctl part)) 62 := by
    show bit (w.rd _) 62 = _
    rw [State.rd_wr, if_neg (by simp)]
  have hisn : w.rd .intNextisn = s.rd .intNextisn + 1 := by
    rw [State.rd_wr, if_pos rfl, BitVec.ofNat_add, BitVec.ofNat_toNat, BitVec.setWidth_eq]
    rfl
  obtain ⟨v, rec, hjournal, -, -⟩ := w.journal_frame
    (.accept isn d.idem q part d.prog d.plen check (padTo 448 (d.payload.take d.plen)) sqidx)
  generalize hx : ({ w with vault := v } : State) = x at hjournal
  rw [hjournal]
  dsimp -zeta only
  extract_lets held reg r src sc started u
  have hstarted : started.runs = s.runs ++ [r] ∧ started.queues = s.queues ∧
      started.rd .intNextisn = s.rd .intNextisn + 1 ∧
      started.idem = sins s.idem place ⟨d.idem, check, 1, q, 0, isn, [], none⟩ := by
    subst hx
    exact ⟨rfl, rfl, hisn, rfl⟩
  have hshipped : u.runs = started.runs ∧ u.queues = started.queues ∧ u.rd .intNextisn = started.rd .intNextisn ∧
      u.idem = started.idem := by
    cases hm : mirrored with
    | true =>
      have hu : u = _ := if_pos hm
      rw [hu]
      exact ⟨rfl, rfl, rfl, rfl⟩
    | false =>
      have hu : u = started := if_neg (by rw [hm]; decide)
      rw [hu]
      exact ⟨rfl, rfl, rfl, rfl⟩
  obtain ⟨hruns, hqueues, hnext, hidem⟩ := hstarted
  obtain ⟨hruns', hqueues', hnext', hidem'⟩ := hshipped
  refine ⟨r, hruns'.trans hruns, rfl, rfl, rfl, rfl, rfl, rfl, by rw [← hmirrored], hnext'.trans hnext, ?_, ?_⟩
  · rw [State.pushAcc_queue, State.queue_congr (hqueues'.trans hqueues)]
    rfl
  · show (sget Idem.free u.idem place).isn = isn
    rw [hidem', hidem, sget_sins, if_pos rfl]

/-- What a request is taken from is the runs, the queues and two registers. -/
theorem State.TookRequest.congr {s u t : State} {q part frame place : Nat} {d : Desc}
    (h : u.TookRequest t q part frame place d) (hruns : u.runs = s.runs) (hqueues : u.queues = s.queues)
    (hnext : u.rd .intNextisn = s.rd .intNextisn) (hptctl : u.rd (.keyPtctl part) = s.rd (.keyPtctl part)) :
    s.TookRequest t q part frame place d := by
  unfold State.TookRequest at h ⊢
  rwa [hruns, State.queue_congr hqueues, hnext, hptctl] at h

theorem descriptorFetch_refuses {q : Fin 4096} {bs : List Byte} (hfetch : s.fetches q = true) (hfawn : s.fawn = false)
    (hlen : bs.length = 512) (hd : s.descOk (s.queuePart q) (Desc.of bs) = false) :
    Completes (.descriptorFetch q true bs) s fun t =>
      (t.queue q).acc = (s.queue q).acc ++ [.refusal (s.queue q).fetch 0x0103 (Desc.of bs).idem] ∧ t.runs = s.runs ∧
      t.idem = s.idem := by
  refine ⟨_, execDescriptorFetch_takes s hfetch hlen, ?_⟩
  rw [(s.readDesc q).intake_refused hfawn hd]
  exact ⟨(s.readDesc q).pushAcc_queue q _, rfl, rfl⟩

theorem descriptorFetch_accepts {q : Fin 4096} {bs : List Byte} (hfetch : s.fetches q = true) (hfawn : s.fawn = false)
    (hlen : bs.length = 512) {place frame : Nat} (hd : s.descOk (s.queuePart q) (Desc.of bs) = true)
    (hnew : s.idemFind s.idem (s.queuePart q) (Desc.of bs).idem
      (checkOf (Desc.of bs).prog (Desc.of bs).plen (Desc.of bs).payload) = none)
    (hroom : s.idemRoom s.idem (s.queuePart q) (Desc.of bs).idem = some place)
    (hframe : s.freeFrame (s.queuePart q) = some frame) :
    Completes (.descriptorFetch q true bs) s fun t =>
      s.TookRequest t q (s.queuePart q) frame place (Desc.of bs) := by
  refine ⟨_, execDescriptorFetch_takes s hfetch hlen, ?_⟩
  rw [(s.readDesc q).intake_new hfawn hd hnew hroom hframe]
  have htook := ((s.readDesc q).keyReused q (s.queuePart q) (Desc.of bs).idem).accept_took q (s.queuePart q) frame place
    (Desc.of bs) (checkOf (Desc.of bs).prog (Desc.of bs).plen (Desc.of bs).payload)
  obtain ⟨hruns, hqueues, hrd⟩ := (s.readDesc q).keyReused_frame q (s.queuePart q) (Desc.of bs).idem
  exact htook.congr hruns hqueues (hrd _ (by simp)) (hrd _ (by simp))

/-! Stage-in. -/

/-- With no entry in its list a run is ready as soon as its payload is written. -/
theorem State.stageIn_empty (es : List Nat) {r : Run} {p : Prog} (hp : r.prg = some p) (hn : p.nstage = 0) :
    s.stageIn es r = (s.freshPayload r).modRun r.isn fun r => { r with st := .ready, staged := 0, pblk := none } := by
  unfold State.stageIn
  rw [hp]
  simp only [State.stageList, hn]
  rfl

theorem stageIn_ready {g : Fin 8} {c sl : Nat} {r : Run} {rest : List Run} {p : Prog} (hlane : s.lane g = some (c, sl))
    (hfree : s.runs.any (Run.onLane g) = false) (hphase : s.rf .tsqStatus 2 0 < 2)
    (hnext : sortRuns (·.okey) (s.runs.filter fun r => r.st == .staging && r.xregion == g.val) = r :: rest)
    (htouch : s.touching r.isn = false) (hp : r.prg = some p) (hn : p.nstage = 0) :
    Completes (.stageIn g) s fun t =>
      t = (s.freshPayload r).modRun r.isn fun r => { r with st := .ready, staged := 0, pblk := none } := by
  refine ⟨_, ?_, rfl⟩
  show execStageIn g s = _
  rw [← s.stageIn_empty (s.slotCores c sl) hp hn]
  unfold execStageIn
  rw [hlane]
  dsimp only
  rw [hfree, if_neg (by simpa using hphase), hnext]
  dsimp only
  rw [htouch]
  rfl

end Sys2Proof.Machine
end

section
/-!
PROOFS. The delivery of a request to a waiting DISPATCH (R169, R198, R348): the context in which each core of the unit
starts.
-/
namespace Sys2Proof.Machine

variable (s : State)

/-! The bank of a new context. -/

/-- What a write that waited for a synchronising event cannot change in a bank: of a PSW it writes CT and SUB alone (R84). -/
def Bank.heldFree (b : Bank) : TWord × TWord × TWord × Nat × Nat := (b.acc, b.x1, b.x2, pPRIV b.psw, pKEY b.psw)

theorem Bank.heldFree_ctSub (b : Bank) (v : Nat) : Bank.heldFree { b with psw := setFld b.psw 36 35 v } = b.heldFree := by
  simp only [Bank.heldFree, pPRIV, pKEY]
  rw [fld_setFld_ne _ _ _ _ _ _ (by decide) (by decide) (by decide) (by decide),
    fld_setFld_ne _ _ _ _ _ _ (by decide) (by decide) (by decide) (by decide)]

theorem Core.setCtSub_keeps (c : Core) (j v k : Nat) :
    ((c.setBank j { c.bank j with psw := setFld (c.bank j).psw 36 35 v }).bank k).heldFree = (c.bank k).heldFree := by
  rw [bank_setBank]
  split
  · next hk => rw [hk, Bank.heldFree_ctSub]
  · rfl

theorem Core.bank_congr {c d : Core} (h : d.banks = c.banks) (k : Nat) : d.bank k = c.bank k := by
  rw [Core.bank, h, ← Core.bank]

/-- A held write leaves the level and the banks alone, or it writes CT and SUB of one PSW (R84). -/
theorem Core.applyHeld_cases (c : Core) (h : Held) :
    (c.applyHeld h).lev = c.lev ∧ ((c.applyHeld h).banks = c.banks ∨
      ∃ j v, c.applyHeld h = c.setBank j { c.bank j with psw := setFld (c.bank j).psw 36 35 v }) := by
  unfold Core.applyHeld
  split
  case h_8 => exact ⟨rfl, .inr ⟨_, _, rfl⟩⟩
  all_goals exact ⟨rfl, .inl rfl⟩

theorem Core.applyHeld_keeps (c : Core) (h : Held) (k : Nat) :
    (c.applyHeld h).lev = c.lev ∧ ((c.applyHeld h).bank k).heldFree = (c.bank k).heldFree := by
  obtain ⟨hlev, hbanks | ⟨j, v, hset⟩⟩ := c.applyHeld_cases h
  · exact ⟨hlev, congrArg Bank.heldFree (Core.bank_congr hbanks k)⟩
  · rw [hset] at hlev ⊢
    exact ⟨hlev, c.setCtSub_keeps j v k⟩

/-- A synchronising event changes neither the level nor, in any bank, more than CT and SUB. -/
theorem Core.sync_keeps (c : Core) (k : Nat) :
    c.sync.lev = c.lev ∧ (c.sync.bank k).heldFree = (c.bank k).heldFree :=
  foldl_rel (fun c d : Core => d.lev = c.lev ∧ (d.bank k).heldFree = (c.bank k).heldFree) (fun _ => ⟨rfl, rfl⟩)
    (fun _ _ _ h h' => ⟨h'.1.trans h.1, h'.2.trans h.2⟩) Core.applyHeld (fun c h => c.applyHeld_keeps h k) c.held c

theorem newBank_heldFree (c : Core) (r : Run) (p : Prog) : (newBank c r p).heldFree =
    (⟨BitVec.ofNat 64 r.okey, tINT⟩, ⟨BitVec.ofNat 64 (payloadVa c r), tPTR⟩, ⟨p.xtwo, tPTR⟩, 2, p.key % 256) := by
  have hpriv : pPRIV (newBank c r p).psw = 2 := by
    rw [pPRIV, newBank, setBit, fld_setFld_ne _ _ _ _ _ _ (by decide) (by decide) (by decide) (by decide),
      fld_setFld_ne _ _ _ _ _ _ (by decide) (by decide) (by decide) (by decide)]
    exact fld_setFld _ _ _ _ (by decide) (by decide)
  have hkey : pKEY (newBank c r p).psw = p.key % 256 := by
    rw [pKEY, newBank, setBit, fld_setFld_ne _ _ _ _ _ _ (by decide) (by decide) (by decide) (by decide)]
    exact fld_setFld _ _ _ _ (by decide) (by decide)
  rw [Bank.heldFree, hpriv, hkey]
  rfl

/-! The core that has taken the run. -/

/-- A core at the entry of a run's program, in the context of its request (R169, R348). -/
def Core.Starts (d : Core) (r : Run) (p : Prog) : Prop :=
  d.act = .run ∧ d.pc = BitVec.ofNat 64 p.entry ∧ d.ctx = some ⟨r.isn, r.okey, r.save, r.xsaved⟩ ∧ d.lev = 0 ∧
  d.cur.acc = ⟨BitVec.ofNat 64 r.okey, tINT⟩ ∧ (r.pblk = none → d.cur.x1 = ⟨BitVec.ofNat 64 r.frame, tPTR⟩) ∧
  d.rstk = [] ∧ fld d.rsctl 12 8 = 0 ∧ fld d.rsctl 5 0 = 0 ∧ fld d.shstk 40 32 = 0 ∧ d.txstall = 0 ∧
  d.cur.x2 = ⟨p.xtwo, tPTR⟩ ∧ pPRIV d.cur.psw = 2 ∧ pKEY d.cur.psw = p.key % 256 ∧
  fld d.budget 31 0 = p.budget % 2 ^ 32

theorem Core.cur_of_lev {c d : Core} (hbanks : d.banks = c.banks) (hlev : d.lev = 0) : d.cur = c.bank 0 := by
  rw [Core.cur, hlev, Core.bank_congr hbanks]

/-- DISPATCH takes a run that has not run yet into a fresh context. -/
theorem Core.dispatched_queued (c : Core) {r : Run} {p : Prog} (hst : r.st = .queued) (hexact : r.exact = false)
    (hlev : c.lev = 0) : (c.dispatched s r p).Starts r p := by
  unfold Core.dispatched
  rw [hst, hexact, if_neg Bool.false_ne_true]
  extract_lets susp mine ptc tb kc
  rw [if_neg (by decide)]
  dsimp -zeta only
  extract_lets c'
  obtain ⟨hlev', hbank⟩ := (c.setBank 0 (newBank c r p)).sync_keeps 0
  rw [bank_setBank, if_pos rfl, newBank_heldFree] at hbank
  simp only [Bank.heldFree, Prod.mk.injEq] at hbank
  obtain ⟨hacc, hx1, hx2, hpriv, hkey⟩ := hbank
  have hzero : c'.lev = 0 := hlev'.trans hlev
  have hcur {d : Core} (hb : d.banks = c'.banks) (hl : d.lev = c'.lev) : d.cur = c'.bank 0 :=
    Core.cur_of_lev hb (hl.trans hzero)
  refine ⟨rfl, rfl, rfl, hzero, (congrArg Bank.acc (hcur rfl rfl)).trans hacc, fun hblk => ?_, rfl, ?_, ?_, ?_, rfl,
    (congrArg Bank.x2 (hcur rfl rfl)).trans hx2, (congrArg (pPRIV ·.psw) (hcur rfl rfl)).trans hpriv,
    (congrArg (pKEY ·.psw) (hcur rfl rfl)).trans hkey, fld_setFld _ _ _ _ (by decide) (by decide)⟩
  · refine (congrArg Bank.x1 (hcur rfl rfl)).trans (hx1.trans ?_)
    rw [payloadVa, hblk]
  · rw [fld_setFld_ne _ _ _ _ _ _ (by decide) (by decide) (by decide) (by decide)]
    exact fld_setFld _ _ _ _ (by decide) (by decide)
  · exact fld_setFld _ _ _ _ (by decide) (by decide)
  · exact fld_setFld _ _ _ _ (by decide) (by decide)

/-! The delivery. -/

/-- What a word store leaves alone, as far as a delivery reads it. -/
def State.coresRegs (s : State) : SMap Core × List (Reg × Word) × Fuses := (s.cores, s.regs, s.fuses)

theorem State.storeWord_coresRegs (pa : Nat) (v : TWord) : (s.storeWord pa v).coresRegs = s.coresRegs := rfl

/-- The payload goes to memory: cores and registers stay. -/
theorem State.freshPayload_keeps (r : Run) : (s.freshPayload r).coresRegs = s.coresRegs :=
  foldl_keeps State.coresRegs _ (fun s _ => s.storeWord_coresRegs _ _) _ s

/-- The cores of a unit are read from the registers. -/
theorem State.unitCores_congr {s t : State} (h : t.regs = s.regs) (hf : t.fuses = s.fuses) (e : Nat) :
    t.unitCores e = s.unitCores e := by
  have hrd (r : Reg) : t.rd r = s.rd r := State.rd_congr _ _ r h hf
  have hstate (c sl : Nat) : t.slotState c sl = s.slotState c sl := by rw [State.slotState, State.rf, hrd]; rfl
  have hcores (c sl : Nat) : t.slotCores c sl = s.slotCores c sl := by rw [State.slotCores, hrd]; rfl
  have hslot : t.slotOf e = s.slotOf e := by simp only [State.slotOf, hstate, hcores]
  have hunit : t.unitOf e = s.unitOf e := by rw [State.unitOf, State.unitOf, hslot]; simp only [hstate]
  rw [State.unitCores, State.unitCores, hunit]
  simp only [hcores]

theorem trcDispatch_quiet (e : Nat) (pc target : Word) : (s.trcDispatch e pc target).Quiet s := by
  unfold State.trcDispatch
  split
  · exact .refl s
  · exact (trcInd_quiet _ _ _ _).trans (trcBegin_quiet _ _ _)

theorem State.Quiet.runs {t u : State} (h : t.Quiet u) : t.runs = u.runs := by
  have := congrArg State.runs h.1.1
  exact this

/-- The state in which core e's unit has taken run r with program p. -/
def State.deliver (s : State) (e : Nat) (r : Run) (p : Prog) : State :=
  let u := s.freshPayload r
  let v := u.setCores (u.unitCores e) ((u.core e).dispatched u r p)
  (v.trcDispatch e (u.core e).pc (v.core e).pc).modRun r.isn fun r => { r with st := .running e, prg := some p }

theorem State.exec_descriptorDelivery_queued {e : Fin 256} {r : Run} {p : Prog}
    (hfind : s.runs.find? (fun q => q.isn % 2 ^ 64 == r.isn % 2 ^ 64 && s.deliverable e q) = some r)
    (htakes : s.takesRun e r = true) (hfirst : s.overtakes e r = false) (hfault : s.deliveryFault r = none)
    (hp : s.progOf r = some p) (hst : r.st = .queued) :
    exec (.descriptorDelivery e (BitVec.ofNat 64 r.isn)) s = .next (s.deliver e r p) := by
  show execDescriptorDelivery e _ s = _
  unfold execDescriptorDelivery
  rw [BitVec.toNat_ofNat, hfind]
  dsimp only
  have hreach : s.saveReachable r = true := by rw [State.saveReachable, hst]
  rw [htakes, hfirst, hfault, hp, hreach, hst]
  rfl

theorem State.takesRun_lev {e : Nat} {r : Run} (h : s.takesRun e r = true) : (s.core e).lev = 0 := by
  simp only [State.takesRun, Bool.and_eq_true, beq_iff_eq] at h
  obtain ⟨⟨⟨-, hlev⟩, -⟩, -⟩ := h
  exact hlev

/-- Every core of the unit starts the run, and the run is running there. -/
theorem State.deliver_starts {e : Nat} {r : Run} {p : Prog} (hst : r.st = .queued) (hexact : r.exact = false)
    (hlev : (s.core e).lev = 0) :
    (∀ k ∈ s.unitCores e, ((s.deliver e r p).core k).Starts r p) ∧
    ∀ q ∈ (s.deliver e r p).runs, q.isn = r.isn → q.st = .running e ∧ q.prg = some p := by
  have hkeeps := s.freshPayload_keeps r
  simp only [State.coresRegs, Prod.mk.injEq] at hkeeps
  obtain ⟨hcores, hregs, hfuses⟩ := hkeeps
  unfold State.deliver
  extract_lets u v
  have hunit : u.unitCores e = s.unitCores e := State.unitCores_congr hregs hfuses e
  have hlev' : (u.core e).lev = 0 := by rw [State.core_congr s u e hcores, hlev]
  refine ⟨fun k hk => ?_, fun q hq hisn => ?_⟩
  · show Core.Starts ((v.trcDispatch _ _ _).core k) r p
    rw [(trcDispatch_quiet v e _ _).core, State.core_setCores, hunit, if_pos hk]
    exact (u.core e).dispatched_queued u hst hexact hlev'
  · obtain ⟨x, -, hx⟩ := List.mem_map.mp hq
    dsimp only at hx
    split at hx
    · subst hx
      exact ⟨rfl, rfl⟩
    · next hne =>
      subst hx
      exact absurd (beq_iff_eq.mpr hisn) hne

theorem descriptorDelivery_starts {e : Fin 256} {r : Run} {p : Prog}
    (hfind : s.runs.find? (fun q => q.isn % 2 ^ 64 == r.isn % 2 ^ 64 && s.deliverable e q) = some r)
    (htakes : s.takesRun e r = true) (hfirst : s.overtakes e r = false) (hfault : s.deliveryFault r = none)
    (hp : s.progOf r = some p) (hst : r.st = .queued) (hexact : r.exact = false) :
    Completes (.descriptorDelivery e (BitVec.ofNat 64 r.isn)) s fun t =>
      (∀ k ∈ s.unitCores e, (t.core k).Starts r p) ∧
      ∀ q ∈ t.runs, q.isn = r.isn → q.st = .running e ∧ q.prg = some p :=
  ⟨_, s.exec_descriptorDelivery_queued hfind htakes hfirst hfault hp hst,
    s.deliver_starts hst hexact (s.takesRun_lev htakes)⟩

end Sys2Proof.Machine
end

section
/-!
PROOFS. Custody of the partner's work (R357, R411, R435): what is adopted after it has begun leaves the custody as it is.
-/
namespace Sys2Proof.Machine

variable (s : State)

/-- Where custody shows: FAB_LEASE, and what the endpoint holds of custody and handover. -/
def State.custodyView (s : State) : Word × Bool × Bool := (s.rd .fabLease, s.fab.custody, s.fab.handTaken)

theorem State.custodyView_wr {r : Reg} (h : r ≠ .fabLease) (w : Word) : (s.wr r w).custodyView = s.custodyView := by
  rw [State.custodyView, State.rd_wr, if_neg h.symm]
  rfl

theorem State.custodyView_putWord (pa : Nat) (v : TWord) : (s.putWord pa v).custodyView = s.custodyView := rfl
theorem State.custodyView_setFrameKey (pa k : Nat) (fp : Bool) : (s.setFrameKey pa k fp).custodyView = s.custodyView := rfl
theorem State.custodyView_modFmu (f : Fmu → Fmu) : (s.modFmu f).custodyView = s.custodyView := rfl
theorem State.custodyView_modRun (isn : Nat) (f : Run → Run) : (s.modRun isn f).custodyView = s.custodyView := rfl
theorem State.custodyView_setNpu (u : Nat) (n : Npu) : (s.setNpu u n).custodyView = s.custodyView := rfl

theorem State.custodyView_putImage (pa : Nat) (im : FrameImg) : (s.putImage pa im).custodyView = s.custodyView :=
  foldl_keeps State.custodyView _ (fun s _ => s.custodyView_putWord _ _) _ s

theorem State.custodyView_installTables (t : Tables) : (s.installTables t).custodyView = s.custodyView := by
  have hframe (b : Nat) (u : State) (im : FrameImg) : State.custodyView ((List.range 512).foldl (fun (u : State) i =>
      u.putWord (4096 * im.frame + b + 8 * i) ⟨relocEntry b (u.memWord (4096 * im.frame + b + 8 * i)).val,
        (u.memWord (4096 * im.frame + b + 8 * i)).tag⟩) (u.putImage (4096 * im.frame + b) im)) = u.custodyView :=
    (foldl_keeps State.custodyView _ (fun u _ => u.custodyView_putWord _ _) _ _).trans (u.custodyView_putImage _ im)
  unfold State.installTables
  extract_lets b u1 u2 u3 u4
  have h1 : u1.custodyView = s.custodyView := by
    show State.custodyView (ite _ _ _) = _
    split
    · rfl
    · exact s.custodyView_wr (by simp) _
  have h2 : u2.custodyView = u1.custodyView := by
    show State.custodyView (ite _ _ _) = _
    split
    · rfl
    · exact u1.custodyView_wr (by simp) _
  have h3 : u3.custodyView = u2.custodyView :=
    foldl_keeps State.custodyView _ (fun u g => u.custodyView_wr (by simp) _) _ _
  have h4 : u4.custodyView = u3.custodyView :=
    foldl_keeps State.custodyView _ (fun u k => u.custodyView_setFrameKey _ _ _) _ _
  rw [← h1, ← h2, ← h3, ← h4]
  exact foldl_keeps State.custodyView _ (fun u im => hframe b u im) _ _

theorem State.custodyView_putReplica (word : Nat) (v : Word) : (s.putReplica word v).custodyView = s.custodyView := by
  unfold State.putReplica
  dsimp only
  split
  · rfl
  · split
    · exact s.custodyView_modFmu _
    · exact s.custodyView_putWord _ _

theorem State.custodyView_addRemote : s.addRemote.custodyView = s.custodyView := by
  unfold State.addRemote
  refine (foldl_keeps State.custodyView _ (fun u x => ?_) _ _).trans rfl
  split
  · exact u.custodyView_putReplica _ _
  · rfl

theorem State.custodyView_idemDone (r : Run) : (s.idemDone r).custodyView = s.custodyView := by
  unfold State.idemDone
  split <;> rfl

theorem State.custodyView_runs (rs : List Run) : State.custodyView { s with runs := rs } = s.custodyView := rfl

theorem State.custodyView_adoptRun (pins void : List PinRec) (b : JBody) :
    (s.adoptRun pins void b).custodyView = s.custodyView := by
  cases b with
  | accept =>
    unfold State.adoptRun
    dsimp -zeta only
    extract_lets reg mk r u
    rw [State.custodyView_runs]
    show State.custodyView (ite _ _ _) = _
    split
    · rfl
    · exact s.custodyView_idemDone r
  | result => rfl
  | commit => rfl
  | release => rfl
  | retire => rfl

theorem State.custodyView_takeRelease (pq q : Nat) : (s.takeRelease pq q).custodyView = s.custodyView := by
  unfold State.takeRelease
  dsimp only
  split <;> rfl

theorem State.custodyView_sealTick (t : Nat) : (s.sealTick t).custodyView = s.custodyView := by
  unfold State.sealTick
  split
  · rfl
  · extract_lets rest pcs src sc pc rs vlt u
    rw [State.sealPoint, State.wf_eq, State.custodyView_wr _ (by decide)]
    exact (foldl_keeps State.custodyView _ (fun u _ => u.custodyView_setNpu _ _) _ u).trans rfl

theorem State.custodyView_giveFrames (p : Nat) : (s.giveFrames p).custodyView = s.custodyView := by
  unfold State.giveFrames
  refine foldl_keeps State.custodyView _ (fun u r => ?_) _ s
  split
  · exact u.custodyView_modRun _ _
  · rfl

theorem State.custodyView_giveAllFrames : s.giveAllFrames.custodyView = s.custodyView :=
  foldl_keeps State.custodyView _ (fun u p => u.custodyView_giveFrames p) _ s

/-- Custody begins at once, and nothing that is adopted afterwards ends it. -/
theorem State.adopt_custody (lost : Bool) :
    (s.adopt lost).fab.custody = true ∧ (s.adopt lost).rf .fabLease 63 61 = 3 ∧ (s.adopt lost).fab.handTaken = false := by
  unfold State.adopt
  extract_lets pins void u1 u2 u3 u4 u5 u6 u7 u8
  have h3 : u3.custodyView = u2.custodyView := foldl_keeps State.custodyView _ (fun u x => u.custodyView_installTables x) _ _
  have h4 : u4.custodyView = u3.custodyView := by
    refine foldl_keeps State.custodyView _ (fun u p => foldl_keeps State.custodyView _ (fun u r => ?_) _ u) _ u3
    split
    · exact foldl_keeps State.custodyView _ (fun u x => u.custodyView_putReplica _ _) _ u
    · rfl
  have h5 : u5.custodyView = u4.custodyView := by
    show State.custodyView (ite _ _ _) = _
    split
    · exact u4.custodyView_addRemote
    · rfl
  have h7 : u7.custodyView = u6.custodyView :=
    foldl_keeps State.custodyView _ (fun u b => u.custodyView_adoptRun pins void b) _ _
  have h8 : u8.custodyView = u7.custodyView :=
    foldl_keeps State.custodyView _ (fun u (p : Nat × Nat) => u.custodyView_takeRelease p.1 p.2) _ _
  have hview : (u8.sched.unsealed.foldl State.sealTick u8).giveAllFrames.custodyView = u2.custodyView :=
    calc _ = (u8.sched.unsealed.foldl State.sealTick u8).custodyView := State.custodyView_giveAllFrames _
      _ = u8.custodyView := foldl_keeps State.custodyView _ (fun u n => u.custodyView_sealTick n) _ _
      _ = u5.custodyView := h8.trans h7
      _ = u2.custodyView := h5.trans (h4.trans h3)
  simp only [State.custodyView, Prod.mk.injEq] at hview
  obtain ⟨hlease, hcustody, htaken⟩ := hview
  refine ⟨hcustody, ?_, htaken⟩
  rw [State.rf, hlease, ← State.rf]
  exact u1.rf_wf_same _ _ _ _ (by decide) (by decide)

/-! The statement. -/

theorem takeover_begins (hgrant : s.fab.granted = some true) (hlease : s.rf .fabLease 63 61 = 2) :
    Completes .takeover s fun t => t.fab.custody = true ∧ t.rf .fabLease 63 61 = 3 := by
  refine ⟨_, rfl, ?_⟩
  rw [hgrant, hlease, if_pos (by decide)]
  obtain ⟨hcustody, hlease', -⟩ := State.adopt_custody (s.alarm sgTAKEOVER s.locDevice (detBytes 2 s.partnerId)) true
  exact ⟨hcustody, hlease'⟩

theorem handoverAdoption_begins (htaken : s.fab.handTaken = true) (hcustody : s.fab.custody = false) :
    Completes .handoverAdoption s fun t =>
      t.fab.custody = true ∧ t.rf .fabLease 63 61 = 3 ∧ t.fab.handTaken = false := by
  refine ⟨_, rfl, ?_⟩
  rw [htaken, hcustody, if_pos (by decide)]
  exact s.adopt_custody false

theorem fawnEnter_mode (hc : s.causes ≠ 0) (hm : s.rf .fmuStatus 61 60 = 0) :
    Completes .fawnEnter s fun t =>
      t.rf .fmuStatus 61 60 = if s.causes &&& 0xB6 ≠ 0 ∨ s.healthy = 0 then 2 else 1 :=
  ⟨_, rfl, s.enterFawn_mode hc hm⟩

theorem fawnEnter_none (hc : s.causes = 0) : Completes .fawnEnter s fun t => t = s := by
  refine ⟨_, rfl, ?_⟩
  unfold State.enterFawn
  exact if_pos hc

theorem fawnDrainTimeout_hands (hm : s.rf .fmuStatus 61 60 = 1) (hlate : s.sched.drainSince + s.rf .fmuDegcfg 31 16 ≤ s.tick)
    (hruns : s.runs.any Run.unreleased = true) :
    Completes .fawnDrainTimeout s fun t => t.rf .fmuStatus 61 60 = 2 := by
  refine ⟨_, rfl, ?_⟩
  rw [hm, hruns, if_pos (by simpa using hlate)]
  exact s.startHandover_mode

theorem doorbells_discarded {f : Fin 256} {q : Fin 4096} {v : HostWord} (h : v.fits = false) :
    Completes (.sqTailDoorbell f q v) s (· = s) ∧ Completes (.cqHeadDoorbell f q v) s (· = s) :=
  ⟨⟨_, rfl, if_pos (by rw [h]; rfl)⟩, ⟨_, rfl, if_pos (by rw [h]; rfl)⟩⟩

/-- Settles O48: each command by the lemma that says what it does under the clause's conditions. -/
theorem intakeAndScheduling : Obligations.IntakeAndScheduling := by
  unfold Obligations.IntakeAndScheduling
  intro s
  refine ⟨fawnEnter_mode s, fawnEnter_none s, fawnDrainTimeout_hands s,
    fun r q hrel hruns hq hone hopen => resultRelease_single s hrel hruns hq hone hopen,
    fun q i st k hvault hopen hacc => acceptancePass_refusal s hvault hopen hacc,
    fun f q v h => doorbells_discarded s h,
    fun f q v hfits hbound hfn hvalid => ⟨fun hlt hnew => sqTailDoorbell_moves hbound hfn hvalid hfits hlt hnew,
      fun hheld hlt hnew => cqHeadDoorbell_moves hbound hfn hvalid hfits hheld hlt hnew,
      fun key hdone hkey hsome hvault => retireDoorbell_retires hbound hfn hvalid hdone hkey hsome hvault⟩,
    fun q bs hfetch hfawn hlen => ⟨fun hd => descriptorFetch_refuses s hfetch hfawn hlen hd,
      fun place frame hd hnew hroom hframe => descriptorFetch_accepts s hfetch hfawn hlen hd hnew hroom hframe⟩,
    fun g c sl r rest p hlane hfree hphase hnext htouch hp hn => stageIn_ready s hlane hfree hphase hnext htouch hp hn,
    fun e r p hfind htakes hfirst hfault hp hst hexact =>
      descriptorDelivery_starts s hfind htakes hfirst hfault hp hst hexact,
    takeover_begins s, handoverAdoption_begins s⟩

end Sys2Proof.Machine
end

section
/-!
PROOFS. The memory and the commands, first part: what leaves the memory as it was. The functions of the device that write no
word of memory, in the order in which they call each other.
-/
namespace Sys2Proof.Machine

variable (s : State)

@[simp] theorem State.ite_mem (c : Prop) [Decidable c] (t u : State) :
    (if c then t else u).mem = if c then t.mem else u.mem :=
  apply_ite State.mem c t u

@[simp] theorem State.ite_fst_mem {β : Type} (c : Prop) [Decidable c] (p q : State × β) :
    (if c then p else q).1.mem = if c then p.1.mem else q.1.mem :=
  apply_ite (fun p : State × β => p.1.mem) c p q

@[simp] theorem State.foldl_mem {α : Type} (f : State → α → State) (h : ∀ t a, (f t a).mem = t.mem) (l : List α)
    (s : State) :
    (l.foldl f s).mem = s.mem :=
  foldl_keeps State.mem f h l s

@[simp] theorem State.foldl_fst_mem {α β : Type} (f : State × β → α → State × β)
    (h : ∀ p a, (f p a).1.mem = p.1.mem) (l : List α) (p : State × β) : (l.foldl f p).1.mem = p.1.mem := by
  induction l generalizing p with
  | nil => rfl
  | cons a l ih => exact (ih _).trans (h p a)

@[simp] theorem State.raise_mem (i detail e : Nat) : (s.raise i detail e).mem = s.mem := by
  simp -implicitDefEqProofs [State.raise]

@[simp] theorem State.passUp_mem (ks : List Nat) (bm : Nat) (r : Rec) : (State.passUp ks bm r s).mem = s.mem :=
  (State.passUp_told ks bm r s).mem

@[simp] theorem State.report_mem (sig cls : Nat) (root first : Loc) (detail : Nat) :
    (s.report sig cls root first detail).mem = s.mem :=
  (s.report_told ..).mem

@[simp] theorem State.carveout_mem (pa : Nat) : (s.carveout pa).mem = s.mem := by
  unfold State.carveout; split <;> simp

@[simp] theorem State.vecEntry_mem (vbr : Word) (v : Nat) : (s.vecEntry vbr v).1.mem = s.mem := by
  unfold State.vecEntry; dsimp only; split <;> simp

@[simp] theorem State.wf_mem (r : Reg) (hi lo v : Nat) : (s.wf r hi lo v).mem = s.mem := by simp [State.wf]

@[simp] theorem State.endStep_mem (blk : Bool) : (s.endStep blk).mem = s.mem := by simp [State.endStep]

@[simp] theorem State.trcStore_mem (bs : List Byte) : (s.trcStore bs).mem = s.mem := by simp [State.trcStore]

@[simp] theorem State.count_mem (r : Reg) (hi lo n : Nat) : (s.count r hi lo n).mem = s.mem := by simp [State.count]

@[simp] theorem State.trcRaw_mem (e : Nat) (bs : List Byte) : (s.trcRaw e bs).mem = s.mem := by
  simp -implicitDefEqProofs [State.trcRaw]

@[simp] theorem State.trcSync_mem (e : Nat) (pc : Word) : (s.trcSync e pc).mem = s.mem := by simp [State.trcSync]

@[simp] theorem State.trcGap_mem (e : Nat) (pc : Word) : (s.trcGap e pc).mem = s.mem := by simp [State.trcGap]

@[simp] theorem State.trcFlush_mem (e : Nat) (pc : Word) : (s.trcFlush e pc).mem = s.mem := by simp [State.trcFlush]

@[simp] theorem State.trcEmit_mem (e : Nat) (pc : Word) (bs : List Byte) : (s.trcEmit e pc bs).mem = s.mem := by
  simp [State.trcEmit]

@[simp] theorem State.trcBegin_mem (e : Nat) (pc : Word) : (s.trcBegin e pc).mem = s.mem := by simp [State.trcBegin]

@[simp] theorem State.trcSleep_mem (e code : Nat) : (s.trcSleep e code).mem = s.mem := by
  unfold State.trcSleep; split <;> simp

@[simp] theorem State.trcAtom_mem (e : Nat) (pc : Word) (taken : Bool) : (s.trcAtom e pc taken).mem = s.mem := by
  simp [State.trcAtom]

@[simp] theorem State.trcInd_mem (e : Nat) (pc target : Word) : (s.trcInd e pc target).mem = s.mem := by
  simp [State.trcInd]

@[simp] theorem State.traceIns_mem (pre : Core) (e w : Nat) : (s.traceIns pre e w).mem = s.mem :=
  (traceIns_quiet s pre e w).mem

@[simp] theorem State.postTrace_mem (pre : Core) (e w : Nat) (stepping : Bool) :
    (s.postTrace pre e w stepping).mem = s.mem := by
  simp [State.postTrace]

@[simp] theorem State.preTrace_mem (e : Nat) : (s.preTrace e).mem = s.mem := by
  unfold State.preTrace; split <;> simp

@[simp] theorem State.latchEvent_mem (c sl kind pos gx gy : Nat) :
    (s.latchEvent c sl kind pos gx gy).mem = s.mem := by
  simp [State.latchEvent]

@[simp] theorem State.modSlotX_mem (c sl : Nat) (f : SlotX → SlotX) : (s.modSlotX c sl f).mem = s.mem := by
  simp [State.modSlotX]

@[simp] theorem State.setSlotState_mem (c sl v : Nat) : (s.setSlotState c sl v).mem = s.mem := by
  simp [State.setSlotState]

@[simp] theorem State.rollbackAll_mem (A : List Nat) : (s.rollbackAll A).mem = s.mem := by simp [State.rollbackAll]

@[simp] theorem State.abortRuns_mem (A : List Nat) (isOvr : Bool) : (s.abortRuns A isOvr).mem = s.mem := by
  simp [State.abortRuns]

@[simp] theorem State.cancelReqs_mem (es : List Nat) : (s.cancelReqs es).mem = s.mem := by
  simp -implicitDefEqProofs [State.cancelReqs]

@[simp] theorem State.unprotect_mem : (s.unprotect).mem = s.mem := by simp [State.unprotect]

@[simp] theorem State.trcWake_mem (e : Nat) (pc : Word) : (s.trcWake e pc).mem = s.mem := by
  unfold State.trcWake
  split
  · rfl
  split
  · rfl
  split
  · rfl
  · dsimp only
    split <;> simp

@[simp] theorem State.modCore_mem (e : Nat) (f : Core → Core) : (s.modCore e f).mem = s.mem := by simp [State.modCore]

@[simp] theorem State.leaveC6_mem (e : Nat) : (s.leaveC6 e).mem = s.mem := by simp [State.leaveC6]

@[simp] theorem State.freezeCores_mem (es : List Nat) : (s.freezeCores es).mem = s.mem := by simp [State.freezeCores]

@[simp] theorem State.stopWith_mem (e kind sig gx gy detail : Nat) :
    (s.stopWith e kind sig gx gy detail).mem = s.mem := by
  unfold State.stopWith; split <;> simp

@[simp] theorem State.degradeCopy_mem (loc : Loc) (sig copy : Nat) : (s.degradeCopy loc sig copy).mem = s.mem := by
  simp [State.degradeCopy]

@[simp] theorem State.degrade_mem (loc : Loc) (sig : Nat) : (s.degrade loc sig).mem = s.mem := by simp [State.degrade]

@[simp] theorem State.powerOff_mem (e : Nat) : (s.powerOff e).mem = s.mem := by simp [State.powerOff]

@[simp] theorem State.retireCore_mem (e : Nat) : (s.retireCore e).mem = s.mem := by simp [State.retireCore]

@[simp] theorem State.stopUnit_mem (e kind sig gx gy : Nat) : (s.stopUnit e kind sig gx gy).mem = s.mem := by
  simp [State.stopUnit]

@[simp] theorem State.trcExc_mem (e vec lev : Nat) (rpc : Word) : (s.trcExc e vec lev rpc).mem = s.mem := by
  unfold State.trcExc; split <;> simp

@[simp] theorem State.takeExc_mem (e : Nat) (c : Core) (x : Exc) (rpc : Word) :
    (s.takeExc e c x rpc).mem = s.mem := by
  unfold State.takeExc
  dsimp only
  split
  · simp
  split
  · simp
  split
  · simp
  · split <;> simp

@[simp] theorem State.machineCheck_mem (e : Nat) (c : Core) (src restart : Nat) (rpc : Word) :
    (s.machineCheck e c src restart rpc).mem = s.mem := by
  simp [State.machineCheck]

@[simp] theorem State.clearReq_mem (i e : Nat) : (s.clearReq i e).mem = s.mem := by simp [State.clearReq]

@[simp] theorem State.dropInvalid_mem (e : Nat) : (s.dropInvalid e).mem = s.mem := by
  refine State.foldl_mem _ (fun t i => ?_) _ s
  split
  · split
    next u h => simpa [h] using t.vecEntry_mem (t.core e).vbr (0x20 + i)
    next u w h => simpa [h] using t.vecEntry_mem (t.core e).vbr (0x20 + i)
  · rfl

@[simp] theorem State.physChecks_mem (w : Who) (k : AK) (pa : Nat) (pf wr : Bool) (key : Nat) (fp : Bool) :
    (s.physChecks w k pa pf wr key fp).1.mem = s.mem := by
  unfold State.physChecks; repeat' split
  all_goals simp

@[simp] theorem State.xlate_mem (tlb : List TlbItem) (w : Who) (k : AK) (va : Nat) (step2 : Bool) :
    (s.xlate tlb w k va step2).1.mem = s.mem := by
  unfold State.xlate
  split
  · simp
  · split
    · rfl
    · simp

@[simp] theorem State.clearRc_mem (r : Reg) : (s.clearRc r).mem = s.mem := by simp [State.clearRc]

theorem State.winFault_mem {s t : State} {m off : Nat} (h : s.winFault m off = some t) : t.mem = s.mem := by
  unfold State.winFault at h
  split at h
  · cases h
  split at h
  · cases h; rfl
  split at h
  all_goals
    split at h
    · cases h; simp
    · cases h

@[simp] theorem State.ctlRead_mem (m off : Nat) : (s.ctlRead m off).1.mem = s.mem := by
  unfold State.ctlRead
  split
  · rfl
  split
  next h => exact State.winFault_mem h
  split
  next => rfl
  next => rfl
  next => rfl
  next => dsimp only; split <;> simp
  next => simp

@[simp] theorem State.memUe_mem (pa : Nat) : (s.memUe pa).mem = s.mem := by simp [State.memUe]

@[simp] theorem State.askRepair_mem (pa : Nat) (lost : Bool) : (s.askRepair pa lost).mem = s.mem := by
  simp [State.askRepair]

@[simp] theorem State.poisonWords_mem (i n : Nat) : (s.poisonWords i n).mem = s.mem := by simp [State.poisonWords]

@[simp] theorem State.poisonLine_mem (pa : Nat) : (s.poisonLine pa).mem = s.mem := by simp [State.poisonLine]

@[simp] theorem State.loseLine_mem (pa : Nat) : (s.loseLine pa).mem = s.mem := by simp [State.loseLine]

@[simp] theorem State.lineRead_mem (pa : Nat) (by_ : Reader) : (s.lineRead pa by_).1.mem = s.mem := by
  unfold State.lineRead
  split
  · rfl
  · dsimp only
    split <;> simp

@[simp] theorem State.modRun_mem (isn : Nat) (f : Run → Run) : (s.modRun isn f).mem = s.mem := by simp [State.modRun]

@[simp] theorem State.takeSeq_mem (typ : Nat) : (s.takeSeq typ).1.mem = s.mem := by simp [State.takeSeq]

@[simp] theorem State.sendPins_mem : (s.sendPins).mem = s.mem := by simp [State.sendPins]

@[simp] theorem State.extSlot_mem (a : Nat) : (s.extSlot a).1.mem = s.mem := by simp [State.extSlot]

@[simp] theorem State.extLoad_mem (c : Core) : (s.extLoad c).1.mem = s.mem := by
  unfold State.extLoad; split <;> simp

@[simp] theorem State.denyCsrw_mem (e : Nat) (k : Csr) (v : Word) : (s.denyCsrw e k v).mem = s.mem := by
  simp [State.denyCsrw]

@[simp] theorem State.apend_mem (e : Nat) (v : Word) : (s.apend e v).mem = s.mem := by simp [State.apend]

@[simp] theorem State.dropTlb_mem (keep : TlbItem → Bool) : (s.dropTlb keep).mem = s.mem := by simp [State.dropTlb]

@[simp] theorem State.denyCheck_mem (r : Reg) (m : Nat) (v : Word) : (s.denyCheck r m v).mem = s.mem := by
  simp [State.denyCheck]

@[simp] theorem State.regWrite_mem (r : Reg) (m : Nat) (v : Word) : (s.regWrite r m v).mem = s.mem := by
  simp [State.regWrite]

@[simp] theorem State.tsqPeriodWrite_mem (m : Nat) (v : Word) : (s.tsqPeriodWrite m v).mem = s.mem := by
  simp [State.tsqPeriodWrite]

@[simp] theorem State.modPort_mem (p : Nat) (f : PortX → PortX) : (s.modPort p f).mem = s.mem := by
  simp [State.modPort]

@[simp] theorem State.linkDown_mem (p : Nat) : (s.linkDown p).mem = s.mem := by simp [State.linkDown]

@[simp] theorem State.pctlWrite_mem (p m : Nat) (v : Word) : (s.pctlWrite p m v).mem = s.mem := by
  simp [State.pctlWrite]

@[simp] theorem State.qcfgWrite_mem (q m : Nat) (v : Word) : (s.qcfgWrite q m v).mem = s.mem := by
  simp [State.qcfgWrite]

@[simp] theorem State.fkset_mem (m : Nat) (v : Word) : (s.fkset m v).1.mem = s.mem := by simp [State.fkset]

@[simp] theorem State.cluSignal_mem (m c k : Nat) (v : Word) : (s.cluSignal m c k v).1.mem = s.mem := by
  simp [State.cluSignal]

@[simp] theorem State.rstPart_mem (m : Nat) (v : Word) : (s.rstPart m v).mem = s.mem := by simp [State.rstPart]

@[simp] theorem State.rstCtl_mem (m : Nat) (v : Word) : (s.rstCtl m v).mem = s.mem := by simp [State.rstCtl]

@[simp] theorem State.devIdWrite_mem (m : Nat) (v : Word) : (s.devIdWrite m v).mem = s.mem := by
  simp [State.devIdWrite]

@[simp] theorem State.freshNonce_mem : (s.freshNonce).mem = s.mem := by simp -implicitDefEqProofs [State.freshNonce]

@[simp] theorem State.closeSession_mem : (s.closeSession).mem = s.mem := by simp [State.closeSession]

@[simp] theorem State.npuDead_mem (isn pa : Nat) : (s.npuDead isn pa).mem = s.mem := by simp [State.npuDead]

@[simp] theorem State.npuFull_mem (u : Nat) : (s.npuFull u).mem = s.mem := by simp [State.npuFull]

@[simp] theorem State.startFill_mem (u pa : Nat) : (s.startFill u pa).mem = s.mem := by simp [State.startFill]

@[simp] theorem State.npuEntry_mem (isn pa : Nat) (needLog post : Bool) :
    (s.npuEntry isn pa needLog post).1.mem = s.mem := by
  unfold State.npuEntry; repeat' split
  all_goals simp

@[simp] theorem State.dropPoison_mem (u : Nat) (x : NEntry) : (s.dropPoison u x).mem = s.mem := by
  simp [State.dropPoison]

@[simp] theorem State.npuPost_mem (isn okey pa : Nat) (amount : Word) (floor : Option Word) :
    (s.npuPost isn okey pa amount floor).1.mem = s.mem := by
  have hentry := s.npuEntry_mem isn pa true true
  unfold State.npuPost
  split
  next h => rwa [h] at hentry
  next t u x h =>
    rw [h] at hentry
    rw [← hentry]
    split
    · simp
    split
    · rfl
    split
    · rfl
    · dsimp only
      split <;> rfl

@[simp] theorem State.testAbort_mem (u : Nat) : (s.testAbort u).mem = s.mem := by simp [State.testAbort]

@[simp] theorem State.npuEnqueue_mem (ch : Nat) (q : NReq) : (s.npuEnqueue ch q).mem = s.mem := by
  unfold State.npuEnqueue; split <;> simp

@[simp] theorem State.reply_mem (src : Nat) (r : RReply) : (s.reply src r).1.mem = s.mem := by simp [State.reply]

@[simp] theorem State.remoteCheck_mem (src : Nat) (rq : RReq) (isRead : Bool) :
    (s.remoteCheck src rq isRead).1.mem = s.mem := by
  unfold State.remoteCheck
  split
  · rfl
  · dsimp only
    split
    · rfl
    · split <;> simp

@[simp] theorem State.readAt_mem (src : Nat) (rq : RReq) (pa : Nat) : (s.readAt src rq pa).1.mem = s.mem := by
  have hline : (if s.cachedWord pa then (s, LineRes.good) else s.lineRead pa (.remote src rq.rid)).1.mem = s.mem :=
    by simp
  unfold State.readAt
  split
  next h => rw [h] at hline; exact hline
  next h => rw [h] at hline; simpa using hline
  next h => rw [h] at hline; simpa using hline

@[simp] theorem State.targetRead_mem (src : Nat) (rq : RReq) : (s.targetRead src rq).1.mem = s.mem := by
  have hcheck := s.remoteCheck_mem src rq true
  unfold State.targetRead
  split
  · simp
  split
  · rfl
  split
  next h => rw [h] at hcheck; simpa using hcheck
  next h => rw [h] at hcheck; simpa using hcheck

@[simp] theorem State.npuRemote_mem (src okey pa : Nat) (amount : Word) (floor : Option Word) :
    (s.npuRemote src okey pa amount floor).1.mem = s.mem := by
  unfold State.npuRemote
  dsimp only
  split
  · rfl
  split
  · rfl
  split
  · split <;> simp
  split
  · simp
  split
  · rfl
  split
  · rfl
  · simp

@[simp] theorem State.remoteAt_mem (src : Nat) (rq : RReq) (pa : Nat) (wait : Bool) :
    (s.remoteAt src rq pa wait).1.mem = s.mem := by
  have hpost : (if wait && s.npuBehind pa false then (s, none) else s.npuRemote src rq.okey pa rq.amount
    rq.floor).1.mem =
    s.mem := by simp
  unfold State.remoteAt
  split
  next h => rw [h] at hpost; simpa using hpost
  next h =>
    rw [h] at hpost
    rw [← hpost]
    dsimp only
    split
    · split <;> simp
    · simp

@[simp] theorem State.targetPost_mem (src : Nat) (rq : RReq) : (s.targetPost src rq).1.mem = s.mem := by
  have hcheck := s.remoteCheck_mem src rq false
  unfold State.targetPost
  split
  · simp
  split
  · simp
  split
  · rfl
  split
  next h => rw [h] at hcheck; simpa using hcheck
  next h => rw [h] at hcheck; simpa using hcheck

@[simp] theorem State.routeOf_mem (d : Nat) : (s.routeOf d).1.mem = s.mem := by
  unfold State.routeOf; dsimp only; split <;> simp

@[simp] theorem State.reaches_mem (d : Nat) : (s.reaches d).1.mem = s.mem := by simp [State.reaches]

@[simp] theorem State.unreachable_mem (d : Nat) : (s.unreachable d).mem = s.mem := by simp [State.unreachable]

@[simp] theorem State.npuPread_mem (isn okey pa : Nat) : (s.npuPread isn okey pa).1.mem = s.mem := by
  have hentry := s.npuEntry_mem isn pa true false
  unfold State.npuPread
  split
  next h => rwa [h] at hentry
  next t u x h =>
    rw [h] at hentry
    rw [← hentry]
    split
    · simp
    split
    · rfl
    split <;> rfl

@[simp] theorem State.noteParity_mem (e src addr : Nat) : (s.noteParity e src addr).mem = s.mem := by
  unfold State.noteParity; dsimp only; split <;> simp

@[simp] theorem State.takeAsync_mem (e : Nat) (c : Core) (i : Nat) (w : Word) (rpc : Word) (lret : Nat)
    (lpc : Option TWord) :
    (s.takeAsync e c i w rpc lret lpc).mem = s.mem := by
  simp [State.takeAsync]

@[simp] theorem State.cacheUe_mem (e : Nat) (words : List Nat) : (s.cacheUe e words).mem = s.mem := by
  simp [State.cacheUe]

@[simp] theorem State.tcmUe_mem (e word : Nat) : (s.tcmUe e word).mem = s.mem := by simp [State.tcmUe]

@[simp] theorem State.heartbeat_mem : (s.heartbeat).mem = s.mem := by simp [State.heartbeat]

@[simp] theorem State.hbInstant_mem : (s.hbInstant).mem = s.mem := by simp [State.hbInstant]

@[simp] theorem State.periodAt_mem (t : Nat) : (s.periodAt t).mem = s.mem := by simp [State.periodAt]

@[simp] theorem State.atTime_mem (t : Nat) : (s.atTime t).mem = s.mem := by simp [State.atTime]

@[simp] theorem State.dropRuns_mem (A : List Nat) : (s.dropRuns A).mem = s.mem := by simp [State.dropRuns]

@[simp] theorem State.applyRoll_mem (r : VRoll) : (s.applyRoll r).mem = s.mem := by simp [State.applyRoll]

@[simp] theorem State.dueRolls_mem : (s.dueRolls).mem = s.mem := by simp [State.dueRolls]

@[simp] theorem State.syncBack_mem : (s.syncBack).mem = s.mem := by simp [State.syncBack]

@[simp] theorem State.periodChange_mem : (s.periodChange).mem = s.mem := by simp [State.periodChange]

@[simp] theorem State.leaveReset_mem (t : Nat) : (s.leaveReset t).mem = s.mem := by simp [State.leaveReset]

@[simp] theorem State.trcTick_mem (e : Nat) : (s.trcTick e).mem = s.mem := by
  unfold State.trcTick; split <;> simp

@[simp] theorem State.corePulse_mem (e : Nat) : (s.corePulse e).mem = s.mem := by simp [State.corePulse]

@[simp] theorem State.setTxreq_mem (c sl : Nat) (on : Bool) : (s.setTxreq c sl on).mem = s.mem := by
  simp [State.setTxreq]

@[simp] theorem State.designate_mem (g : Nat) : (s.designate g).mem = s.mem := by
  unfold State.designate; dsimp only; split <;> simp

@[simp] theorem State.dropCustody_mem : (s.dropCustody).mem = s.mem := by
  simp -implicitDefEqProofs [State.dropCustody]

@[simp] theorem State.shipBack_mem : (s.shipBack).mem = s.mem := by simp -implicitDefEqProofs [State.shipBack]

@[simp] theorem State.msix_mem (f v : Nat) : (s.msix f v).mem = s.mem := by simp [State.msix]

@[simp] theorem State.mbxMsg_mem (m : Nat) : (s.mbxMsg m).mem = s.mem := by simp [State.mbxMsg]

@[simp] theorem State.setMbx_mem (m : Nat) (x : Mbx) : (s.setMbx m x).mem = s.mem := by simp [State.setMbx]

@[simp] theorem State.omiStore_mem (src : OmiSrc) (r : OmiResp) : (s.omiStore src r).mem = s.mem := by
  unfold State.omiStore; split <;> simp

@[simp] theorem State.omiEnd_mem (src : OmiSrc) (cmd seq : Nat) (keeps : Bool) (r : Nat × Nat × List Byte) :
    (s.omiEnd src cmd seq keeps r).mem = s.mem := by
  simp [State.omiEnd]

@[simp] theorem State.omiFinish_mem (cmd obj status : Nat) : (s.omiFinish cmd obj status).mem = s.mem := by
  unfold State.omiFinish; split <;> simp

@[simp] theorem State.restorePulse_mem : (s.restorePulse).mem = s.mem := by
  unfold State.restorePulse; split <;> simp

@[simp] theorem State.leaseRenew_mem : (s.leaseRenew).mem = s.mem := by simp [State.leaseRenew]

@[simp] theorem State.routeEpoch_mem : (s.routeEpoch).mem = s.mem := by simp [State.routeEpoch]

@[simp] theorem State.handoverReq_mem : (s.handoverReq).mem = s.mem := by simp [State.handoverReq]

@[simp] theorem State.endRun_mem (isn status vec detail : Nat) : (s.endRun isn status vec detail).mem = s.mem := by
  simp [State.endRun]

@[simp] theorem State.stageAccess_mem (w : Who) (k : AK) (va : Nat) : (s.stageAccess w k va).1.mem = s.mem := by
  have hxlate := s.xlate_mem [] w k va true
  unfold State.stageAccess
  split
  · rfl
  split
  next h => rwa [h] at hxlate
  next h => rwa [h] at hxlate

@[simp] theorem State.stageList_mem (w : Who) (p : Prog) : (s.stageList w p).1.mem = s.mem := by
  unfold State.stageList
  split
  · rfl
  refine State.foldl_fst_mem _ (fun r i => ?_) _ _
  obtain ⟨t, _ | ws⟩ := r
  · rfl
  · have haccess := t.stageAccess_mem w .read (p.stage + 8 * i)
    dsimp only
    split
    next h => rwa [h] at haccess
    next h =>
      rw [h] at haccess
      split <;> exact haccess

@[simp] theorem State.npuTouch_mem (isn pa : Nat) : (s.npuTouch isn pa).1.mem = s.mem := by
  have hentry := s.npuEntry_mem isn pa false false
  unfold State.npuTouch
  split
  next h => rwa [h] at hentry
  next h => rw [h] at hentry; exact hentry

@[simp] theorem State.stageTouch_mem (isn pa : Nat) : (s.stageTouch isn pa).mem = s.mem := by
  have htouch := s.npuTouch_mem isn pa
  unfold State.stageTouch
  split
  · simp
  split
  next h => rw [h] at htouch; simpa using htouch
  next h => rw [h] at htouch; exact htouch

@[simp] theorem State.touchWords_mem (r : Run) (w : Who) (ws : List Word) : (s.touchWords r w ws).mem = s.mem := by
  refine State.foldl_mem _ (fun t e => ?_) _ s
  split
  · rfl
  next va _ =>
    have haccess := t.stageAccess_mem w .pread va
    split
    next h => rwa [h] at haccess
    next h => rw [h] at haccess; simpa using haccess

@[simp] theorem State.admitExact_mem (isn : Nat) : (s.admitExact isn).mem = s.mem := by
  unfold State.admitExact
  split
  · rfl
  next r _ =>
    split
    · simp
    · simp
    next g p _ _ =>
      have hlist := s.stageList_mem (s.stageWho r.part p.key) p
      split
      · simp
      dsimp only
      split
      next h => rw [h] at hlist; simpa using hlist
      next h => rw [h] at hlist; simpa using hlist

@[simp] theorem State.batch_mem (g : Nat) : (s.batch g).mem = s.mem := by simp [State.batch]

@[simp] theorem State.giveFrames_mem (p : Nat) : (s.giveFrames p).mem = s.mem := by
  refine State.foldl_mem _ (fun t r => ?_) _ s
  split <;> rfl

@[simp] theorem State.giveAllFrames_mem : (s.giveAllFrames).mem = s.mem := by simp [State.giveAllFrames]

@[simp] theorem State.refreshPage_mem : (s.refreshPage).mem = s.mem := by simp [State.refreshPage]

@[simp] theorem State.reprotect_mem : (s.reprotect).mem = s.mem := by simp [State.reprotect]

@[simp] theorem State.rollRemotes_mem (issuer : Nat) (keep : Nat → Bool) :
    (s.rollRemotes issuer keep).mem = s.mem := by
  simp [State.rollRemotes]

@[simp] theorem State.notice_mem (dst okey : Nat) : (s.notice dst okey).mem = s.mem := by simp [State.notice]

@[simp] theorem State.dropExt_mem (saves : List Nat) : (s.dropExt saves).mem = s.mem := by simp [State.dropExt]

@[simp] theorem State.abortNow_mem (A : List Nat) (isOvr : Bool) : (s.abortNow A isOvr).mem = s.mem := by
  simp [State.abortNow]

@[simp] theorem State.lateDone_mem (q : RWait) : (s.lateDone q).mem = s.mem := by
  unfold State.lateDone; split <;> simp

@[simp] theorem State.sendRemoteClose_mem : (s.sendRemoteClose).mem = s.mem := by
  simp -implicitDefEqProofs [State.sendRemoteClose]

@[simp] theorem State.notices_mem : (s.notices).mem = s.mem := by simp [State.notices]

@[simp] theorem State.remoteCopy_mem : (s.remoteCopy).mem = s.mem := by simp [State.remoteCopy]

@[simp] theorem State.stageAborts_mem : (s.stageAborts).mem = s.mem := by simp [State.stageAborts]

@[simp] theorem State.journal_mem (b : JBody) : (s.journal b).1.mem = s.mem := by simp [State.journal]

@[simp] theorem State.idemDone_mem (r : Run) : (s.idemDone r).mem = s.mem := by
  unfold State.idemDone; split <;> simp

@[simp] theorem State.sealPoint_mem : (s.sealPoint).mem = s.mem := by simp [State.sealPoint]

@[simp] theorem State.sealTick_mem (t : Nat) : (s.sealTick t).mem = s.mem := by
  simp -implicitDefEqProofs [State.sealTick]

@[simp] theorem State.shipLog_mem (images : List FrameImg) (recs : List JRec) :
    (s.shipLog images recs).mem = s.mem := by
  simp [State.shipLog]

@[simp] theorem State.sendAlt_mem (d : Nat) (m : Msg) : (s.sendAlt d m).mem = s.mem := by simp [State.sendAlt]

@[simp] theorem State.reship_mem (t : Nat) : (s.reship t).mem = s.mem := by
  unfold State.reship; split <;> simp

@[simp] theorem State.enterC6_mem (e : Nat) : (s.enterC6 e).mem = s.mem := by simp [State.enterC6]

@[simp] theorem State.restCores_mem : (s.restCores).mem = s.mem := by simp [State.restCores]

@[simp] theorem State.startHandover_mem : (s.startHandover).mem = s.mem := by simp [State.startHandover]

@[simp] theorem State.enterFawn_mem : s.enterFawn.mem = s.mem := by
  unfold State.enterFawn
  dsimp only
  split
  · rfl
  split <;> simp [State.refreshStatus_mem]

@[simp] theorem State.adoptIdem_mem : (s.adoptIdem).mem = s.mem := by simp [State.adoptIdem]

@[simp] theorem State.takeRelease_mem (pq q : Nat) : (s.takeRelease pq q).mem = s.mem := by simp [State.takeRelease]

@[simp] theorem State.complete_mem (q : Nat) (c : Comp) : (s.complete q c).mem = s.mem := by simp [State.complete]

@[simp] theorem State.releaseRun_mem (q : Nat) (r : Run) : (s.releaseRun q r).mem = s.mem := by
  simp [State.releaseRun]

@[simp] theorem State.freeRecs_mem (gone : JBody → Bool) : (s.freeRecs gone).mem = s.mem := by simp [State.freeRecs]

@[simp] theorem State.endPass_mem (q : Nat) : (s.endPass q).mem = s.mem := by simp [State.endPass]

@[simp] theorem State.releaseQueue_mem (q : Nat) : (s.releaseQueue q).mem = s.mem := by
  unfold State.releaseQueue; dsimp only; split <;> simp

@[simp] theorem State.freePtn_mem (gone : JBody → Bool) : (s.freePtn gone).mem = s.mem := by simp [State.freePtn]

@[simp] theorem State.readDesc_mem (q : Nat) : (s.readDesc q).mem = s.mem := by simp [State.readDesc]

@[simp] theorem State.pushAcc_mem (q : Nat) (a : AccWait) : (s.pushAcc q a).mem = s.mem := by simp [State.pushAcc]

@[simp] theorem State.keyReused_mem (q part idem : Nat) : (s.keyReused q part idem).mem = s.mem := by
  simp [State.keyReused]

@[simp] theorem State.accept_mem (q part frame place : Nat) (d : Desc) (check : Nat) :
    (s.accept q part frame place d check).mem = s.mem := by
  simp [State.accept]

@[simp] theorem State.intake_mem (q : Nat) (d : Desc) : (s.intake q d).mem = s.mem := by
  unfold State.intake
  dsimp only
  split
  · split <;> simp
  split
  · simp
  split
  · simp
  split <;> simp

@[simp] theorem State.stageSource_mem (r : Run) (w : Who) (x : Word) : (s.stageSource r w x).1.mem = s.mem := by
  have haccess := s.stageAccess_mem w .read (fld x 63 12 * 4096)
  unfold State.stageSource
  split
  · rfl
  split
  next h => rwa [h] at haccess
  next h => rwa [h] at haccess

@[simp] theorem State.stageBlock_mem (es : List Nat) (b part key : Nat) (fp : Bool) (ws : List TWord) :
    (s.stageBlock es b part key fp ws).mem = s.mem := by
  simp [State.stageBlock]

@[simp] theorem State.trcDispatch_mem (e : Nat) (pc target : Word) : (s.trcDispatch e pc target).mem = s.mem := by
  unfold State.trcDispatch; split <;> simp

@[simp] theorem State.fill_mem (u pa : Nat) : (s.fill u pa).mem = s.mem := by
  have hline := s.lineRead_mem pa (.fill pa)
  unfold State.fill
  split
  next h => rwa [h] at hline
  next h => rw [h] at hline; exact hline
  next h => rw [h] at hline; exact hline

@[simp] theorem State.sendRemoteLost_mem (u : Nat) : (s.sendRemoteLost u).mem = s.mem := by
  simp [State.sendRemoteLost]

@[simp] theorem State.restoreEntry_mem (b : Nat) (x : LogE) : (s.restoreEntry b x).mem = s.mem := by
  simp [State.restoreEntry]

@[simp] theorem State.setChanState_mem (ch v : Nat) : (s.setChanState ch v).mem = s.mem := by
  simp [State.setChanState]

@[simp] theorem State.markDevice_mem (ch rank dev : Nat) : (s.markDevice ch rank dev).mem = s.mem := by
  simp [State.markDevice]

@[simp] theorem State.corrected_mem (ch line rank row dev : Nat) :
    (s.corrected ch line rank row dev).mem = s.mem := by
  simp [State.corrected]

@[simp] theorem State.readLine_mem (ch line : Nat) (e : Ecc) : (s.readLine ch line e).mem = s.mem := by
  simp [State.readLine]

@[simp] theorem State.hearTm_mem (b : Beacon) : (s.hearTm b).mem = s.mem := by simp [State.hearTm]

@[simp] theorem State.bindId_mem (serial : Nat) : (s.bindId serial).1.mem = s.mem := by
  unfold State.bindId; split <;> simp

@[simp] theorem State.copyIds_mem (d : Nat) : (s.copyIds d).mem = s.mem := by
  simp -implicitDefEqProofs [State.copyIds]

@[simp] theorem State.sendBeacon_mem (p : Nat) : (s.sendBeacon p).mem = s.mem := by simp [State.sendBeacon]

@[simp] theorem State.announce_mem : (s.announce).mem = s.mem := by simp -implicitDefEqProofs [State.announce]

@[simp] theorem State.becomeFm_mem : (s.becomeFm).mem = s.mem := by simp [State.becomeFm]

@[simp] theorem State.becomeTm_mem : (s.becomeTm).mem = s.mem := by simp [State.becomeTm]

@[simp] theorem State.sysAccept_mem (r : Rec) : (s.sysAccept r).mem = s.mem := State.passUp_mem _ _ _ _

@[simp] theorem State.joinTime_mem (time : Word) (tick : Nat) (history : List (Nat × Nat)) :
    (s.joinTime time tick history).mem = s.mem := by
  unfold State.joinTime; split <;> simp

@[simp] theorem State.syncLost_mem : (s.syncLost).mem = s.mem := by simp [State.syncLost]

@[simp] theorem State.firstCopy_mem (src typ mseq : Nat) : (s.firstCopy src typ mseq).1.mem = s.mem := by
  simp [State.firstCopy]

@[simp] theorem State.leaseCopy_mem (m : Sender) : (s.leaseCopy m).1.mem = s.mem := by simp [State.leaseCopy]

@[simp] theorem State.handCopy_mem (m : Sender) : (s.handCopy m).1.mem = s.mem := by simp [State.handCopy]

@[simp] theorem State.rejournal_mem (r : JRec) : (s.rejournal r).mem = s.mem := by simp [State.rejournal]

@[simp] theorem State.restoreRun_mem (counts : Nat → Bool) (b : JBody) : (s.restoreRun counts b).mem = s.mem := by
  cases b with
  | accept =>
    unfold State.restoreRun
    dsimp only
    split <;> rfl
  | _ => rfl

@[simp] theorem State.restoreRelease_mem (b : JBody) : (s.restoreRelease b).mem = s.mem := by cases b <;> rfl

@[simp] theorem State.takeBack_mem (recs : List JRec) (idem : List (Nat × Idem)) :
    (s.takeBack recs idem).mem = s.mem := by
  simp [State.takeBack]

@[simp] theorem State.mirrorAck_mem (dst typ acked : Nat) : (s.mirrorAck dst typ acked).mem = s.mem := by
  simp [State.mirrorAck]

@[simp] theorem State.takeRec_mem (r : JRec) : (s.takeRec r).mem = s.mem := by
  unfold State.takeRec
  split
  · rfl
  dsimp only
  split
  · split
    · rfl
    · split <;> rfl
  all_goals rfl

@[simp] theorem State.takeEarly_mem : (s.takeEarly).mem = s.mem := by simp [State.takeEarly]

@[simp] theorem State.takeEntry_mem (issuer rid : Nat) (e : LogE) : (s.takeEntry issuer rid e).mem = s.mem := by
  simp [State.takeEntry]

@[simp] theorem State.ackJournal_mem (rsn : Nat) : (s.ackJournal rsn).mem = s.mem := by simp [State.ackJournal]

@[simp] theorem State.offerAgain_mem : (s.offerAgain).mem = s.mem := by simp -implicitDefEqProofs [State.offerAgain]

@[simp] theorem State.ackPostlog_mem (t : Nat) : (s.ackPostlog t).mem = s.mem := by simp [State.ackPostlog]

@[simp] theorem State.newKeys_mem (p : Nat) : (s.newKeys p).mem = s.mem := by simp [State.newKeys]

@[simp] theorem State.checkerFault_mem (c sl gx gy : Nat) : (s.checkerFault c sl gx gy).mem = s.mem := by
  simp [State.checkerFault]

@[simp] theorem State.setPos_mem (c sl p : Nat) (k : Option Nat) : (s.setPos c sl p k).mem = s.mem := by
  unfold State.setPos; split <;> simp

@[simp] theorem State.moveCore_mem (e k : Nat) : (s.moveCore e k).mem = s.mem := by
  simp -implicitDefEqProofs [State.moveCore]

@[simp] theorem State.diversity_mem (c sl : Nat) : (s.diversity c sl).mem = s.mem := by simp [State.diversity]

@[simp] theorem State.outvote_mem (c sl p gx gy : Nat) : (s.outvote c sl p gx gy).mem = s.mem := by
  unfold State.outvote; split <;> simp

@[simp] theorem State.rewriteStores_mem (c sl : Nat) (es : List Nat) : (s.rewriteStores c sl es).1.mem = s.mem := by
  simp -implicitDefEqProofs [State.rewriteStores]

@[simp] theorem State.starve_mem (key : Nat) (l : Loc) : (s.starve key l).mem = s.mem := by simp [State.starve]

@[simp] theorem State.promote_mem (c sl p old : Nat) : (s.promote c sl p old).1.mem = s.mem := by
  unfold State.promote; split <;> simp

@[simp] theorem State.toResync_mem (c sl : Nat) : (s.toResync c sl).mem = s.mem := by simp [State.toResync]

@[simp] theorem State.toSpare_mem (e : Nat) : (s.toSpare e).mem = s.mem := by simp [State.toSpare]

@[simp] theorem State.dissolve_mem (c sl v : Nat) : (s.dissolve c sl v).mem = s.mem := by simp [State.dissolve]

@[simp] theorem State.replaceCores_mem (c sl : Nat) (bad : List Nat) : (s.replaceCores c sl bad).mem = s.mem := by
  simp [State.replaceCores]

@[simp] theorem State.loseRuns_mem (c sl : Nat) : (s.loseRuns c sl).mem = s.mem := by simp [State.loseRuns]

@[simp] theorem State.retireSlot_mem (c sl : Nat) : (s.retireSlot c sl).mem = s.mem := by simp [State.retireSlot]

@[simp] theorem State.transient_mem (c sl : Nat) : (s.transient c sl).mem = s.mem := by simp [State.transient]

@[simp] theorem State.loseCopy_mem (c k : Nat) : (s.loseCopy c k).mem = s.mem := by simp [State.loseCopy]

@[simp] theorem State.chamois_mem (c sl : Nat) (r : Chamois) : (s.chamois c sl r).mem = s.mem := by
  simp [State.chamois]

@[simp] theorem State.bootCores_mem (c : Nat) (warm : Bool) (fail : List Nat) :
    (s.bootCores c warm fail).mem = s.mem := by
  simp [State.bootCores]

@[simp] theorem State.chamoisAll_mem (c : Nat) (rs : List SlotPass) : (s.chamoisAll c rs).mem = s.mem := by
  simp [State.chamoisAll]

@[simp] theorem State.fillSlot_mem (c sl : Nat) : (s.fillSlot c sl).mem = s.mem := by simp [State.fillSlot]

@[simp] theorem State.assign_mem (c mode : Nat) : (s.assign c mode).mem = s.mem := by
  simp -implicitDefEqProofs [State.assign]

@[simp] theorem State.retryOnce_mem : s.retryOnce.mem = s.mem := by
  unfold State.retryOnce
  refine (State.foldl_mem _ (fun t p => ?_) _ _).trans rfl
  split <;> exact State.passUp_mem _ _ _ _

@[simp] theorem State.retryWaiting_mem : (s.retryWaiting).mem = s.mem := by simp [State.retryWaiting]

@[simp] theorem State.mpLose_mem (m : Nat) : (s.mpLose m).mem = s.mem := by
  unfold State.mpLose
  split
  · rw [State.refreshStatus_mem]; simp
  · rfl

@[simp] theorem State.omiRefuse_mem (src : OmiSrc) (seq : Nat) : (s.omiRefuse src seq).mem = s.mem := by
  unfold State.omiRefuse
  split
  · rfl
  dsimp only
  split
  · rfl
  split
  · split
    · split <;> rfl
    · rfl
  split
  · rfl
  · simp

@[simp] theorem State.shipTables_mem (p : Nat) (keys : List (Nat × Nat)) (frames : List FrameImg) :
    (s.shipTables p keys frames).mem = s.mem := by
  simp [State.shipTables]

@[simp] theorem State.readBuffer_mem (src : OmiSrc) (rq : OmiReq) : (s.readBuffer src rq).mem = s.mem := by
  simp [State.readBuffer]

@[simp] theorem State.copyCreds_mem : (s.copyCreds).mem = s.mem := by simp [State.copyCreds]

@[simp] theorem State.restoreRuns_mem (counts : Nat → Bool) : (s.restoreRuns counts).mem = s.mem := by
  simp [State.restoreRuns]

@[simp] theorem State.authGo_mem (level index : Nat) (bar4 : Bool) : (s.authGo level index bar4).mem = s.mem := by
  simp [State.authGo]

@[simp] theorem State.haltSet_mem (c : Nat) : (s.haltSet c).mem = s.mem := by
  simp [State.haltSet, State.refreshStatus_mem]

@[simp] theorem State.stepGo_mem (e : Nat) (int : Bool) : (s.stepGo e int).mem = s.mem := by simp [State.stepGo]

@[simp] theorem State.reqWrite_mem (loc code : Nat) : (s.reqWrite loc code).mem = s.mem := by
  simp -implicitDefEqProofs [State.reqWrite]

@[simp] theorem State.maWord_mem (pa : Nat) : (s.maWord pa).1.mem = s.mem := by
  have hread := s.ctlRead_mem mDBG (pa % 2 ^ 48)
  unfold State.maWord
  cases s.area pa
  case control =>
    dsimp only
    split
    next h => rwa [h] at hread
    next h => rwa [h] at hread
  case carveout =>
    dsimp only
    split <;> simp
  all_goals rfl

@[simp] theorem State.maRead_mem (pa : Nat) : (s.maRead pa).mem = s.mem := by
  have hword := ((s.wr .dbgMaaddr (BitVec.ofNat 64 pa)).wr .dbgMactl 0).maWord_mem pa
  unfold State.maRead
  dsimp only
  split
  next h => rw [h] at hword; exact hword
  next h => rw [h] at hword; exact hword

@[simp] theorem State.trcStopOff_mem : (s.trcStopOff).mem = s.mem := by simp [State.trcStopOff]

@[simp] theorem State.trcFree_mem (o : Nat) : (s.trcFree o).mem = s.mem := by simp [State.trcFree]

@[simp] theorem State.windowRead_mem (off : Nat) : (s.windowRead off).1.mem = s.mem := by
  have hread := s.ctlRead_mem mDBG (0x700000 + off)
  unfold State.windowRead
  split
  · split
    · simp
    · rfl
  split
  · rfl
  split
  · split
    · split
      next h => rwa [h] at hread
      next h => rwa [h] at hread
    · rfl
  · rfl

@[simp] theorem State.mbxWrite_mem (m i size : Nat) (v : Word) : (s.mbxWrite m i size v).mem = s.mem := by
  simp [State.mbxWrite]

@[simp] theorem State.modFn_mem (f : Nat) (g : Fn → Fn) : (s.modFn f g).mem = s.mem := by simp [State.modFn]

@[simp] theorem State.msixWrite_mem (f k lo size : Nat) (v : Word) : (s.msixWrite f k lo size v).mem = s.mem := by
  simp [State.msixWrite]

@[simp] theorem State.bar0Write_mem (f : Fin 256) (size o : Nat) (v : Word) :
    (s.bar0Write f size o v).mem = s.mem := by
  simp [State.bar0Write]

@[simp] theorem State.queuePage_mem (f q : Nat) (act other : State → State) (hact : ∀ t, (act t).mem = t.mem)
    (hother : ∀ t, (other t).mem = t.mem) : (s.queuePage f q act other).mem = s.mem := by
  unfold State.queuePage
  dsimp only
  split
  · exact hact s
  · rw [hother, State.event_mem]

@[simp] theorem State.bar2Write_mem (f : Fin 256) (size o : Nat) : (s.bar2Write f size o).mem = s.mem := by
  unfold State.bar2Write
  split
  · rfl
  · exact s.queuePage_mem _ _ _ _ (fun _ => rfl) (fun _ => rfl)

@[simp] theorem State.bar0Read_mem (f : Fin 256) (size o : Nat) : (s.bar0Read f size o).mem = s.mem := by
  simp [State.bar0Read]

@[simp] theorem State.bar2Read_mem (f : Fin 256) (size o : Nat) : (s.bar2Read f size o).mem = s.mem := by
  unfold State.bar2Read
  dsimp only
  split
  · rfl
  · exact s.queuePage_mem _ _ _ _ (fun _ => rfl) (fun _ => rfl)

@[simp] theorem State.train_mem (dimms : List (Option Nat)) (dpc ppr : List Nat) :
    (s.train dimms dpc ppr).mem = s.mem := by
  simp [State.train]

@[simp] theorem State.loadVendor_mem (c release : Nat) (micro nano : List Nat) :
    (s.loadVendor c release micro nano).mem = s.mem := by
  simp [State.loadVendor]

@[simp] theorem State.holdSlots_mem (c : Nat) : (s.holdSlots c).mem = s.mem := by simp [State.holdSlots]

@[simp] theorem State.startCluster_mem (env : ColdEnv) (c : Nat) : (s.startCluster env c).mem = s.mem := by
  simp [State.startCluster]

@[simp] theorem State.applyLedger_mem : (s.applyLedger).mem = s.mem := by simp [State.applyLedger]

@[simp] theorem State.verifiedRecs_mem (dev : Nat) (rs : List JRec) : (s.verifiedRecs dev rs).1.mem = s.mem := by
  simp [State.verifiedRecs]

@[simp] theorem State.loadDump_mem (ptn : Nat) : (s.loadDump ptn).mem = s.mem := by
  unfold State.loadDump; split <;> simp

@[simp] theorem State.setLink_mem (st width speed flit : Nat) : (s.setLink st width speed flit).mem = s.mem := by
  simp [State.setLink]

@[simp] theorem State.warmRegs_mem (cause : Nat) : (s.warmRegs cause).mem = s.mem := by
  simp -implicitDefEqProofs [State.warmRegs]

@[simp] theorem State.warmNpus_mem : (s.warmNpus).mem = s.mem := by simp -implicitDefEqProofs [State.warmNpus]

@[simp] theorem State.warmCores_mem (fail : List Nat) : (s.warmCores fail).mem = s.mem := by simp [State.warmCores]

@[simp] theorem State.warmSlots_mem (c : Nat) : (s.warmSlots c).mem = s.mem := by simp [State.warmSlots]

@[simp] theorem State.warmCluster_mem (env : BootEnv) (c : Nat) : (s.warmCluster env c).mem = s.mem := by
  simp [State.warmCluster]

@[simp] theorem State.holdQueues_mem (of : Nat → Bool) : (s.holdQueues of).mem = s.mem := by
  simp -implicitDefEqProofs [State.holdQueues]

@[simp] theorem State.powerFail_mem : (s.powerFail).mem = s.mem := by simp [State.powerFail]

@[simp] theorem State.rejectTest_mem : (s.rejectTest).mem = s.mem := by simp -implicitDefEqProofs [State.rejectTest]

@[simp] theorem State.acceptTest_mem (d esr : Nat) : (s.acceptTest d esr).mem = s.mem := by
  simp -implicitDefEqProofs [State.acceptTest]

@[simp] theorem State.dbgRegs_mem : (s.dbgRegs).mem = s.mem := by simp [State.dbgRegs]

@[simp] theorem State.mbxTake_mem (m cmd : Nat) (rq : OmiReq) : (s.mbxTake m cmd rq).mem = s.mem := by
  simp -implicitDefEqProofs [State.mbxTake]

end Sys2Proof.Machine
end

section
/-!
PROOFS. The memory and the commands, second part: the operations of an instruction that write no memory. An operation is
taken apart at its binds and its tests; what is left are operations whose lemma stands above.
-/
namespace Sys2Proof.Machine

variable (s : State)

/-! What the operations of an instruction do to the memory. -/

/-- The memory of y is that of x. -/
def Cx.SameMem (x y : Cx) : Prop := y.s.mem = x.s.mem

theorem sameMem_preorder : Preorder' Cx.SameMem := ⟨fun _ => rfl, fun _ _ _ h g => Eq.trans g h⟩

/-- The operation leaves the memory as it was. -/
structure MemSame (a : Op α) : Prop where
  within : Within Cx.SameMem a

/-- The operation leaves the memory as it was when it starts from x. -/
def MemSameAt (a : Op α) (x : Cx) : Prop :=
  match a x with | .ok _ y => x.SameMem y | .error _ y => x.SameMem y

theorem MemSame.at {a : Op α} (h : MemSame a) (x : Cx) : MemSameAt a x := h.within x

theorem memSame_bind {a : Op α} {f : α → Op β} (ha : MemSame a) (hf : ∀ v, MemSame (f v)) : MemSame (a >>= f) :=
  ⟨within_bind sameMem_preorder ha.within fun v => (hf v).within⟩

/-- What follows the reading of the context starts from the context that it read. -/
theorem memSame_cx_bind {f : Cx → Op α} (h : ∀ x, MemSameAt (f x) x) : MemSame (cx >>= f) := ⟨h⟩

/-- What follows the setting of a context with the same memory. -/
theorem memSameAt_set {x y : Cx} {f : Unit → Op α} (hy : y.s.mem = x.s.mem) (h : MemSame (f ())) :
    MemSameAt (set y >>= f) x := by
  have ha := h.at y
  unfold MemSameAt at ha
  show match f () y with | .ok _ z => x.SameMem z | .error _ z => x.SameMem z
  split <;> rename_i e <;> rw [e] at ha <;> exact Eq.trans ha hy

/-- The same after an operation that leaves the memory as it was. -/
theorem memSameAt_bind_set {x y : Cx} {a : Op β} {f : Unit → Op α} (ha : MemSame a) (hy : y.s.mem = x.s.mem)
    (h : MemSame (f ())) : MemSameAt (a >>= fun _ => set y >>= f) x := by
  unfold MemSameAt
  rw [op_bind]
  cases e : a x with
  | ok v z => exact memSameAt_set hy h
  | error r z => exact ha.within.error e

@[simp] theorem memSame_pure (v : α) : MemSame (pure v : Op α) := ⟨fun _ => rfl⟩

@[simp] theorem memSame_throw (r : Stop) : MemSame (throw r : Op α) := ⟨fun _ => rfl⟩

@[simp] theorem memSame_cx : MemSame cx := ⟨fun _ => rfl⟩

theorem memSame_modS {f : State → State} (h : ∀ s, (f s).mem = s.mem) : MemSame (modS f) := ⟨fun x => h x.s⟩

theorem memSame_mapM {f : β → Op α} (h : ∀ v, MemSame (f v)) (l : List β) : MemSame (l.mapM f) := by
  induction l with
  | nil => exact memSame_pure []
  | cons v l ih =>
    rw [List.mapM_cons]
    exact memSame_bind (h v) fun _ => memSame_bind ih fun _ => memSame_pure _

theorem memSame_discard {a : Op α} (h : MemSame a) : MemSame (discard a) := memSame_bind h fun _ => memSame_pure _

@[simp] theorem memSame_raiseExc (x : Exc) : MemSame (raiseExc x : Op α) := ⟨fun _ => rfl⟩

@[simp] theorem memSame_raiseV (vec detail : Nat) : MemSame (raiseV vec detail : Op α) := ⟨fun _ => rfl⟩

@[simp] theorem memSame_illegal : MemSame (illegal : Op α) := ⟨fun _ => rfl⟩

@[simp] theorem memSame_setCost (n : Nat) : MemSame (setCost n) := ⟨fun _ => rfl⟩

@[simp] theorem memSame_done (n : Nat) : MemSame (done n) := ⟨fun _ => rfl⟩

@[simp] theorem memSame_raiseA (vec detail addr : Nat) (wr split2 : Bool) :
    MemSame (raiseA vec detail addr wr split2 : Op α) :=
  ⟨fun _ => rfl⟩

@[simp] theorem memSame_formA (w : Nat) (d : Int) : MemSame (formA w d) := by
  unfold formA
  dsimp only
  repeat' first | with_reducible refine memSame_bind ?_ fun _ => ?_ | split
  all_goals simp

@[simp] theorem memSame_needTarget (ea : Nat) : MemSame (needTarget ea) := by
  unfold needTarget
  repeat' first | with_reducible refine memSame_bind ?_ fun _ => ?_ | split
  all_goals simp

@[simp] theorem memSame_goTo (pc : Word) : MemSame (goTo pc) := ⟨fun _ => rfl⟩

@[simp] theorem memSame_shadowFault (d : Nat) (addr : Word) : MemSame (shadowFault d addr) := ⟨fun _ => rfl⟩

@[simp] theorem memSame_modC (f : Core → Core) : MemSame (modC f) := ⟨fun _ => rfl⟩

@[simp] theorem memSame_shadowPush (ra : Word) : MemSame (shadowPush ra) := by
  unfold shadowPush
  dsimp only
  repeat' first | with_reducible refine memSame_bind ?_ fun _ => ?_ | split
  all_goals simp

@[simp] theorem memSame_needTag (t : Tag) (ok : Bool) (operand : Nat) : MemSame (needTag t ok operand) := by
  unfold needTag
  repeat' first | with_reducible refine memSame_bind ?_ fun _ => ?_ | split
  all_goals simp

@[simp] theorem memSame_shadowPop (ra : Word) : MemSame (shadowPop ra) := by
  unfold shadowPop
  dsimp only
  repeat' first | with_reducible refine memSame_bind ?_ fun _ => ?_ | split
  all_goals simp

@[simp] theorem memSame_curB : MemSame curB := ⟨fun _ => rfl⟩

@[simp] theorem memSame_privNow : MemSame privNow := ⟨fun _ => rfl⟩

@[simp] theorem memSame_privFault : MemSame (privFault : Op α) := ⟨fun _ => rfl⟩

@[simp] theorem memSame_needCtx : MemSame needCtx := by
  unfold needCtx
  repeat' first | with_reducible refine memSame_bind ?_ fun _ => ?_ | split
  all_goals simp

@[simp] theorem memSame_formEa (w : Nat) (d : Int) (n : Nat) (wr : Bool) : MemSame (formEa w d n wr) := by
  unfold formEa
  dsimp only
  repeat' first | with_reducible refine memSame_bind ?_ fun _ => ?_ | split
  all_goals simp

@[simp] theorem memSame_needAligned (va : Nat) (wr : Bool) : MemSame (needAligned va wr) := by
  unfold needAligned
  repeat' first | with_reducible refine memSame_bind ?_ fun _ => ?_ | split
  all_goals simp

@[simp] theorem memSame_access (k : AK) (va : Nat) (split2 : Bool) : MemSame (access k va split2) := by
  unfold access
  refine memSame_cx_bind fun x => ?_
  split
  · exact (memSame_raiseA _ _ _ _ _).at x
  split
  · repeat' split
    all_goals exact MemSame.at (by simp) x
  split
  · exact (memSame_raiseA _ _ _ _ _).at x
  · refine memSameAt_set (x.s.xlate_mem ..) ?_
    repeat' split
    all_goals simp

@[simp] theorem memSame_busError (va : Nat) (wr split2 : Bool) : MemSame (busError va wr split2 : Op α) :=
  ⟨fun _ => rfl⟩

@[simp] theorem memSame_lineCheck (pa va : Nat) (split2 : Bool) : MemSame (lineCheck pa va split2) := by
  unfold lineCheck
  refine memSame_cx_bind fun x => memSameAt_set (x.s.lineRead_mem ..) ?_
  split
  · simp
  · simp
  · exact memSame_bind (memSame_modS fun _ => rfl) fun _ => memSame_throw _

@[simp] theorem memSame_targetWord (t : Target) (va : Nat) (split2 : Bool) : MemSame (targetWord t va split2) := by
  unfold targetWord
  repeat' first | with_reducible refine memSame_bind ?_ fun _ => ?_ | split
  all_goals simp

@[simp] theorem memSame_readTarget (t : Target) (va : Nat) : MemSame (readTarget t va) := by
  unfold readTarget
  split
  · refine memSame_cx_bind fun x => memSameAt_set (State.ctlRead_mem _ _ _) ?_
    split <;> simp
  · simp

@[simp] theorem memSame_checkReadTag (t : Tag) (va : Nat) : MemSame (checkReadTag t va) := by
  unfold checkReadTag
  repeat' first | with_reducible refine memSame_bind ?_ fun _ => ?_ | split
  all_goals simp

@[simp] theorem memSame_loadWords (vas : List Nat) (ok : Tag → Bool) : MemSame (loadWords vas ok) := by
  unfold loadWords
  refine memSame_bind (memSame_mapM (fun va => ?_) _) fun ts => memSame_mapM (fun p => ?_) _
  all_goals
    repeat' first | with_reducible refine memSame_bind ?_ fun _ => ?_ | split
    all_goals simp

@[simp] theorem memSame_modB (f : Bank → Bank) : MemSame (modB f) := ⟨fun _ => rfl⟩

@[simp] theorem memSame_baseUpdate (w n : Nat) : MemSame (baseUpdate w n) := ⟨fun _ => rfl⟩

@[simp] theorem memSame_loadWord (va : Nat) : MemSame (loadWord va) := by
  unfold loadWord
  repeat' first | with_reducible refine memSame_bind ?_ fun _ => ?_ | split
  all_goals simp

@[simp] theorem memSame_descAt (w x : Nat) : MemSame (descAt w x) := by
  unfold descAt
  repeat' first | with_reducible refine memSame_bind ?_ fun _ => ?_ | split
  all_goals simp

@[simp] theorem memSame_needKind (w : Word) (ok : Nat → Bool) (operand : Nat) (at_ : Option Nat) :
    MemSame (needKind w ok operand at_) := by
  unfold needKind
  dsimp only
  repeat' first | with_reducible refine memSame_bind ?_ fun _ => ?_ | split
  all_goals simp

@[simp] theorem memSame_needLimit (addr len : Nat) : MemSame (needLimit addr len) := by
  unfold needLimit
  repeat' first | with_reducible refine memSame_bind ?_ fun _ => ?_ | split
  all_goals simp

@[simp] theorem memSame_needDesc (w : Word) (ok : Nat → Bool) (operand : Nat) (at_ : Option Nat) :
    MemSame (needDesc w ok operand at_) := by
  unfold needDesc
  repeat' first | with_reducible refine memSame_bind ?_ fun _ => ?_ | split
  all_goals simp

@[simp] theorem memSame_repDescs (w x : Nat) : MemSame (repDescs w x) := by
  unfold repDescs
  repeat' first | with_reducible refine memSame_bind ?_ fun _ => ?_ | split
  all_goals simp

@[simp] theorem memSame_limited (n : Nat) : MemSame (limited n) := by
  unfold limited
  repeat' first | with_reducible refine memSame_bind ?_ fun _ => ?_ | split
  all_goals simp

@[simp] theorem memSame_accessPieces (k : AK) (ps : List (Nat × Nat)) (split2 : Bool) :
    MemSame (accessPieces k ps split2) := by
  induction ps generalizing split2 with
  | nil => exact memSame_pure _
  | cons p ps ih =>
    refine memSame_bind (memSame_access ..) fun t => ?_
    split
    · simp
    · exact memSame_bind (ih _) fun _ => memSame_pure _

@[simp] theorem memSame_pieceBytes (t : Target) (va n : Nat) (split2 : Bool) :
    MemSame (pieceBytes t va n split2) := by
  unfold pieceBytes
  repeat' first | with_reducible refine memSame_bind ?_ fun _ => ?_ | split
  all_goals simp

@[simp] theorem memSame_fetchPieces (ps : List (Target × Nat × Nat × Bool)) : MemSame (fetchPieces ps) := by
  induction ps with
  | nil => exact memSame_pure _
  | cons p ps ih => exact memSame_bind (memSame_pieceBytes ..) fun _ => memSame_bind ih fun _ => memSame_pure _

@[simp] theorem memSame_readPieces (ps : List (Nat × Nat)) (split2 : Bool) : MemSame (readPieces ps split2) := by
  unfold readPieces
  repeat' first | with_reducible refine memSame_bind ?_ fun _ => ?_ | split
  all_goals simp

@[simp] theorem memSame_readEach (ps : List (Nat × Nat)) (split2 : Bool) : MemSame (readEach ps split2) := by
  induction ps generalizing split2 with
  | nil => exact memSame_pure _
  | cons p ps ih => exact memSame_bind (memSame_readPieces ..) fun _ => memSame_bind (ih _) fun _ => memSame_pure _

@[simp] theorem memSame_readField (va n : Nat) : MemSame (readField va n) := by
  unfold readField
  simp

@[simp] theorem memSame_storeTags (ps : List (Target × Nat × Nat × Bool)) : MemSame (storeTags ps) := by
  induction ps with
  | nil => exact memSame_pure _
  | cons p ps ih =>
    refine memSame_bind memSame_cx fun x => ?_
    dsimp only
    repeat' split
    all_goals simp [ih]

@[simp] theorem memSame_checkPieces (ps : List (Nat × Nat)) (split2 : Bool) : MemSame (checkPieces ps split2) := by
  unfold checkPieces
  repeat' first | with_reducible refine memSame_bind ?_ fun _ => ?_ | split
  all_goals simp

@[simp] theorem memSame_checkEach (ps : List (Nat × Nat)) (split2 : Bool) : MemSame (checkEach ps split2) := by
  induction ps generalizing split2 with
  | nil => exact memSame_pure _
  | cons p ps ih => exact memSame_bind (memSame_checkPieces ..) fun _ => memSame_bind (ih _) fun _ => memSame_pure _

@[simp] theorem memSame_checkField (va n : Nat) : MemSame (checkField va n) := by
  unfold checkField
  simp

@[simp] theorem memSame_setFlag (i : Nat) (b : Bool) : MemSame (setFlag i b) := ⟨fun _ => rfl⟩

@[simp] theorem memSame_badData (addr i : Nat) : MemSame (badData addr i) := by
  unfold badData
  repeat' first | with_reducible refine memSame_bind ?_ fun _ => ?_ | split
  all_goals simp

@[simp] theorem memSame_validFields (ps : List (FDesc × List Byte)) : MemSame (validFields ps) := by
  induction ps with
  | nil => exact memSame_pure _
  | cons p ps ih =>
    unfold validFields
    split
    · exact memSame_bind (memSame_badData ..) fun _ => memSame_pure _
    · exact ih

@[simp] theorem memSame_addCost (n : Nat) : MemSame (addCost n) := ⟨fun _ => rfl⟩

@[simp] theorem memSame_overflow : MemSame overflow := by
  unfold overflow
  repeat' first | with_reducible refine memSame_bind ?_ fun _ => ?_ | split
  all_goals simp

@[simp] theorem memSame_baseUpdateFrom (w n : Nat) (b0 : Bank) : MemSame (baseUpdateFrom w n b0) := ⟨fun _ => rfl⟩

@[simp] theorem memSame_flagsZN (z n : Bool) : MemSame (flagsZN z n) := ⟨fun _ => rfl⟩

@[simp] theorem memSame_repDecFlags (d1 : FDesc) : MemSame (repDecFlags d1) := by
  unfold repDecFlags
  repeat' first | with_reducible refine memSame_bind ?_ fun _ => ?_ | split
  all_goals simp

@[simp] theorem memSame_pause : MemSame pause := ⟨fun _ => rfl⟩

@[simp] theorem memSame_needCursors (two : Bool) : MemSame (needCursors two) := by
  unfold needCursors
  repeat' first | with_reducible refine memSame_bind ?_ fun _ => ?_ | split
  all_goals simp

theorem memSame_strLoop {elem : Op Bool} (h : MemSame elem) (n : Nat) : MemSame (strLoop elem n) := by
  induction n with
  | zero => exact memSame_pure _
  | succ n ih =>
    refine memSame_bind h fun early => ?_
    split
    · exact memSame_pure _
    · exact ih

theorem memSame_strRun {elem : Op Bool} {fin : Op Unit} (rep : Bool) (h : MemSame elem) (hf : MemSame fin) :
    MemSame (strRun rep elem fin) := by
  unfold strRun
  repeat' first | with_reducible refine memSame_bind ?_ fun _ => ?_ | split
  all_goals simp [memSame_strLoop h, hf]

@[simp] theorem memSame_readByte (va : Nat) : MemSame (readByte va) := by
  unfold readByte
  repeat' first | with_reducible refine memSame_bind ?_ fun _ => ?_ | split
  all_goals simp

@[simp] theorem memSame_checkByte (va : Nat) : MemSame (checkByte va) := by
  unfold checkByte
  simp

@[simp] theorem memSame_moveX1 (d : Word) : MemSame (moveX1 d) := ⟨fun _ => rfl⟩

@[simp] theorem memSame_moveX2 (d : Word) : MemSame (moveX2 d) := ⟨fun _ => rfl⟩

@[simp] theorem memSame_decCnt : MemSame decCnt := ⟨fun _ => rfl⟩

@[simp] theorem memSame_flagsZNCV (z n c v : Bool) : MemSame (flagsZNCV z n c v) := ⟨fun _ => rfl⟩

@[simp] theorem memSame_elemCompare : MemSame elemCompare := by
  unfold elemCompare
  repeat' first | with_reducible refine memSame_bind ?_ fun _ => ?_ | split
  all_goals simp

@[simp] theorem memSame_cmsOp (rep : Bool) : MemSame (cmsOp rep) :=
  memSame_bind (memSame_needCursors _) fun _ => memSame_strRun _ memSame_elemCompare (memSame_flagsZNCV ..)

@[simp] theorem memSame_descWord (w x : Nat) (ok : Nat → Bool) : MemSame (descWord w x ok) := by
  unfold descWord
  repeat' first | with_reducible refine memSame_bind ?_ fun _ => ?_ | split
  all_goals simp

@[simp] theorem memSame_elemTest (d : FDesc) : MemSame (elemTest d) := by
  unfold elemTest
  repeat' first | with_reducible refine memSame_bind ?_ fun _ => ?_ | split
  all_goals simp

@[simp] theorem memSame_trtOp (rep : Bool) (w x : Nat) : MemSame (trtOp rep w x) := by
  unfold trtOp
  repeat' first | with_reducible refine memSame_bind ?_ fun _ => ?_ | split
  all_goals simp [memSame_strRun]

@[simp] theorem memSame_elemSearch (d : FDesc) : MemSame (elemSearch d) := by
  unfold elemSearch
  repeat' first | with_reducible refine memSame_bind ?_ fun _ => ?_ | split
  all_goals simp

@[simp] theorem memSame_srchOp (rep : Bool) (w x : Nat) : MemSame (srchOp rep w x) := by
  unfold srchOp
  repeat' first | with_reducible refine memSame_bind ?_ fun _ => ?_ | split
  all_goals simp [memSame_strRun]

@[simp] theorem memSame_endEdit : MemSame endEdit := ⟨fun _ => rfl⟩

@[simp] theorem memSame_needCsr (n : Nat) : MemSame (needCsr n) := by
  unfold needCsr
  repeat' first | with_reducible refine memSame_bind ?_ fun _ => ?_ | split
  all_goals simp

@[simp] theorem memSame_extCost (n : Nat) : MemSame (extCost n) := ⟨fun _ => rfl⟩

@[simp] theorem memSame_extFail : MemSame extFail := ⟨fun _ => rfl⟩

@[simp] theorem memSame_csrwCheck (k : Csr) (n : Nat) (v : TWord) : MemSame (csrwCheck k n v) := by
  unfold csrwCheck
  dsimp only
  repeat' first | with_reducible refine memSame_bind ?_ fun _ => ?_ | split
  all_goals simp

@[simp] theorem memSame_csrwStore (k : Csr) (v : TWord) : MemSame (csrwStore k v) := by
  unfold csrwStore
  refine memSame_bind memSame_cx fun x => ?_
  split
  · exact memSame_modS fun s => s.apend_mem _ _
  · repeat' first | with_reducible refine memSame_bind ?_ fun _ => ?_ | split
    all_goals simp [memSame_modS]

@[simp] theorem memSame_invRegs : MemSame invRegs := by
  unfold invRegs
  repeat' first | with_reducible refine memSame_bind ?_ fun _ => ?_ | split
  all_goals simp

@[simp] theorem memSame_invPart : MemSame invPart := by
  unfold invPart
  repeat' first | with_reducible refine memSame_bind ?_ fun _ => ?_ | split
  all_goals simp

@[simp] theorem memSame_invWait (keep : TlbItem → Bool) : MemSame (invWait keep) := by
  unfold invWait
  repeat' first | with_reducible refine memSame_bind ?_ fun _ => ?_ | split
  all_goals simp

@[simp] theorem memSame_invDrop (keep : TlbItem → Bool) : MemSame (invDrop keep) :=
  memSame_bind (memSame_modS fun s => s.dropTlb_mem _) fun _ => memSame_modC _

@[simp] theorem memSame_memOperand (w x : BitVec 32) : MemSame (memOperand w x) := by
  unfold memOperand
  repeat' first | with_reducible refine memSame_bind ?_ fun _ => ?_ | split
  all_goals simp

@[simp] theorem memSame_storeTagCheck (t : Tag) (operand : Nat) : MemSame (storeTagCheck t operand) := by
  unfold storeTagCheck
  repeat' first | with_reducible refine memSame_bind ?_ fun _ => ?_ | split
  all_goals simp

@[simp] theorem memSame_sealCheck (t : Target) (va : Nat) : MemSame (sealCheck t va) := by
  unfold sealCheck
  dsimp only
  repeat' first | with_reducible refine memSame_bind ?_ fun _ => ?_ | split
  all_goals simp

@[simp] theorem memSame_memOperandTag (w x : BitVec 32) (ok : Tag → Bool) : MemSame (memOperandTag w x ok) := by
  unfold memOperandTag
  repeat' first | with_reducible refine memSame_bind ?_ fun _ => ?_ | split
  all_goals simp

@[simp] theorem memSame_setStop (n : Option Nat) : MemSame (setStop n) := ⟨fun _ => rfl⟩

@[simp] theorem memSame_stmCheck (rs : List (Nat × Nat)) : MemSame (stmCheck rs) := by
  induction rs with
  | nil => exact memSame_pure _
  | cons p rs ih =>
    refine memSame_bind memSame_curB fun b => ?_
    split
    · exact ih
    · exact memSame_bind (memSame_storeTagCheck ..) fun _ => ih

@[simp] theorem memSame_regDone (r : Nat) : MemSame (regDone r) := ⟨fun _ => rfl⟩

theorem memSame_eachReg {f : Nat → Nat → Op Unit} (h : ∀ r a, MemSame (f r a)) (ea : Nat) (rs : List (Nat × Nat)) :
    MemSame (eachReg f ea rs) := by
  induction rs with
  | nil => exact memSame_pure _
  | cons p rs ih =>
    unfold eachReg
    repeat' first | with_reducible refine memSame_bind ?_ fun _ => ?_ | split
    all_goals simp [h, ih]

@[simp] theorem memSame_endMulti (w n : Nat) : MemSame (endMulti w n) := ⟨fun _ => rfl⟩

@[simp] theorem memSame_ldmPsw (v : TWord) : MemSame (ldmPsw v) := by
  unfold ldmPsw
  dsimp only
  repeat' first | with_reducible refine memSame_bind ?_ fun _ => ?_ | split
  all_goals simp

@[simp] theorem memSame_ldmElem (r a : Nat) : MemSame (ldmElem r a) := by
  unfold ldmElem
  dsimp only
  repeat' first | with_reducible refine memSame_bind ?_ fun _ => ?_ | split
  all_goals simp

@[simp] theorem memSame_tagChangeCheck (old new : Tag) (operand : Nat) (addr : Option Nat) :
    MemSame (tagChangeCheck old new operand addr) := by
  unfold tagChangeCheck
  repeat' first | with_reducible refine memSame_bind ?_ fun _ => ?_ | split
  all_goals simp

@[simp] theorem memSame_accTag : MemSame accTag := by
  unfold accTag
  repeat' first | with_reducible refine memSame_bind ?_ fun _ => ?_ | split
  all_goals simp

@[simp] theorem memSame_twoDescs (w x k1 k2 : Nat) : MemSame (twoDescs w x k1 k2) := by
  unfold twoDescs
  repeat' first | with_reducible refine memSame_bind ?_ fun _ => ?_ | split
  all_goals simp

@[simp] theorem memSame_flagsZNV (z n v : Bool) : MemSame (flagsZNV z n v) := ⟨fun _ => rfl⟩

@[simp] theorem memSame_badRounding : MemSame badRounding := by
  unfold badRounding
  repeat' first | with_reducible refine memSame_bind ?_ fun _ => ?_ | split
  all_goals simp

@[simp] theorem memSame_postRegs : MemSame postRegs := by
  unfold postRegs
  repeat' first | with_reducible refine memSame_bind ?_ fun _ => ?_ | split
  all_goals simp

@[simp] theorem memSame_postAccess (k : AK) (ea : Nat) : MemSame (postAccess k ea) := by
  unfold postAccess
  repeat' first | with_reducible refine memSame_bind ?_ fun _ => ?_ | split
  all_goals simp

@[simp] theorem memSame_runOf : MemSame runOf := by
  unfold runOf
  repeat' first | with_reducible refine memSame_bind ?_ fun _ => ?_ | split
  all_goals simp

@[simp] theorem memSame_postResult (v : Word) (c o : Bool) : MemSame (postResult v c o) := ⟨fun _ => rfl⟩

@[simp] theorem memSame_readResult (v : Word) : MemSame (readResult v) := ⟨fun _ => rfl⟩

@[simp] theorem memSame_npuAnswer (post : Bool) (w ea : Nat) (o : PostOut) : MemSame (npuAnswer post w ea o) := by
  unfold npuAnswer
  repeat' first | with_reducible refine memSame_bind ?_ fun _ => ?_ | split
  all_goals simp

@[simp] theorem memSame_remoteAnswer (isRead : Bool) (ra : Nat) (r : RReply) :
    MemSame (remoteAnswer isRead ra r) := by
  unfold remoteAnswer
  repeat' first | with_reducible refine memSame_bind ?_ fun _ => ?_ | split
  all_goals simp [memSame_modS]

@[simp] theorem memSame_issueRemote (e : Nat) (isRead : Bool) (amount : Word) (floor : Option Word) :
    MemSame (issueRemote e isRead amount floor) := by
  unfold issueRemote
  refine memSame_bind memSame_curB fun b => memSame_bind (memSame_needTag ..) fun _ => ?_
  refine memSame_bind memSame_runOf fun p => memSame_cx_bind fun x => ?_
  dsimp only
  split
  · exact (memSame_remoteAnswer ..).at x
  split
  · exact (memSame_remoteAnswer ..).at x
  split
  · generalize hs : ({ x.s with fab := _ } : State) = s'
    have hmem : s'.mem = x.s.mem := by rw [← hs]
    generalize hr : (if isRead then s'.targetRead _ _ else s'.targetPost _ _) = r
    have hrmem : r.1.mem = x.s.mem := by rw [← hr, ← hmem]; simp
    split
    · exact memSameAt_set hrmem (memSame_remoteAnswer ..)
    · exact memSameAt_set hrmem (memSame_throw _)
  split
  · exact memSameAt_set (by simp) (memSame_remoteAnswer ..)
  · exact memSameAt_set (by simp) (memSame_throw _)

@[simp] theorem memSame_rmNow : MemSame rmNow := ⟨fun _ => rfl⟩

@[simp] theorem memSame_rmCheck : MemSame rmCheck := by
  unfold rmCheck
  repeat' first | with_reducible refine memSame_bind ?_ fun _ => ?_ | split
  all_goals simp

@[simp] theorem memSame_fpFirstTags (f : Nat) : MemSame (fpFirstTags f) := by
  unfold fpFirstTags
  repeat' first | with_reducible refine memSame_bind ?_ fun _ => ?_ | split
  all_goals simp

@[simp] theorem memSame_feBit (i : Nat) : MemSame (feBit i) := ⟨fun _ => rfl⟩

@[simp] theorem memSame_setFpsr (f : Word → Word) : MemSame (setFpsr f) := ⟨fun _ => rfl⟩

@[simp] theorem memSame_fpTrap (vec cause : Nat) : MemSame (fpTrap vec cause) := ⟨fun _ => rfl⟩

@[simp] theorem memSame_fpOperands (f : Nat) (vs : List FV) (anyNan : Bool) : MemSame (fpOperands f vs anyNan) := by
  unfold fpOperands
  dsimp only
  repeat' first | with_reducible refine memSame_bind ?_ fun _ => ?_ | split
  all_goals simp

@[simp] theorem memSame_fpRound (f : Nat) (ex : Exact) : MemSame (fpRound f ex) := by
  unfold fpRound
  dsimp only
  repeat' first | with_reducible refine memSame_bind ?_ fun _ => ?_ | split
  all_goals simp

@[simp] theorem memSame_fpFlags (fl : FFlags) : MemSame (fpFlags fl) := by
  unfold fpFlags
  repeat' first | with_reducible refine memSame_bind ?_ fun _ => ?_ | split
  all_goals simp

@[simp] theorem memSame_fpPut (f : Nat) (v : FV) : MemSame (fpPut f v) := ⟨fun _ => rfl⟩

@[simp] theorem memSame_fpMem (w x f n : Nat) : MemSame (fpMem w x f n) := by
  unfold fpMem
  repeat' first | with_reducible refine memSame_bind ?_ fun _ => ?_ | split
  all_goals simp

@[simp] theorem memSame_relFlags (r : FRel) : MemSame (relFlags r) := by
  cases r <;> exact ⟨fun _ => rfl⟩

@[simp] theorem memSame_parityError (src addr : Nat) : MemSame (parityError src addr) := by
  unfold parityError
  repeat' first | with_reducible refine memSame_bind ?_ fun _ => ?_ | split
  all_goals simp [memSame_modS]

@[simp] theorem memSame_uRead (m : Mseq) (code : Nat) : MemSame (uRead m code) := by
  unfold uRead
  repeat' first | with_reducible refine memSame_bind ?_ fun _ => ?_ | split
  all_goals simp

@[simp] theorem memSame_uLoadWord (m : Mseq) (va : Nat) : MemSame (uLoadWord m va) := by
  unfold uLoadWord
  dsimp only
  repeat' first | with_reducible refine memSame_bind ?_ fun _ => ?_ | split
  all_goals simp

@[simp] theorem memSame_uLoadByte (m : Mseq) (va : Nat) : MemSame (uLoadByte m va) := by
  unfold uLoadByte
  dsimp only
  repeat' first | with_reducible refine memSame_bind ?_ fun _ => ?_ | split
  all_goals simp

@[simp] theorem memSame_uCondArg (m : Mseq) (w : BitVec 32) : MemSame (uCondArg m w) := by
  unfold uCondArg
  repeat' first | with_reducible refine memSame_bind ?_ fun _ => ?_ | split
  all_goals simp

@[simp] theorem memSame_uExec (m : Mseq) (w : BitVec 32) : MemSame (uExec m w) := by
  unfold uExec
  dsimp only
  split
  all_goals
    repeat' first | with_reducible refine memSame_bind ?_ fun _ => ?_ | split
    all_goals simp [memSame_discard]

@[simp] theorem memSame_uRun (fuel : Nat) (m : Mseq) (pc npc : Nat) : MemSame (uRun fuel m pc npc) := by
  induction fuel generalizing m pc npc with
  | zero => exact memSame_pure _
  | succ fuel ih =>
    have hrest (m : Mseq) (w : BitVec 32) : MemSame (do
        let m ← uExec m w
        let (m, t) := uBranch m w pc
        let m := m.tickLate
        if uEND w then return m else uRun fuel m npc (t.getD (npc + 1))) := by
      refine memSame_bind (memSame_uExec ..) fun m => ?_
      dsimp only
      split
      · exact memSame_pure _
      · exact ih ..
    unfold uRun
    refine memSame_cx_bind fun x => ?_
    dsimp only
    split
    · exact memSameAt_bind_set (memSame_parityError ..) rfl (hrest _ _)
    · exact memSameAt_set rfl (hrest _ _)

@[simp] theorem memSame_fetchWord (va : Nat) : MemSame (fetchWord va) := by
  unfold fetchWord
  repeat' first | with_reducible refine memSame_bind ?_ fun _ => ?_ | split
  all_goals simp

@[simp] theorem memSame_fetchOp : MemSame fetchOp := by
  unfold fetchOp
  repeat' first | with_reducible refine memSame_bind ?_ fun _ => ?_ | split
  all_goals simp [memSame_discard]

@[simp] theorem memSame_lateReply : MemSame lateReply := by
  unfold lateReply
  refine memSame_bind memSame_cx fun x => ?_
  split
  · refine memSame_bind (memSame_modS fun s => s.takeFree_mem) fun _ => memSame_bind (memSame_modC _) fun _ => ?_
    exact memSame_bind (memSame_addCost _) fun _ => ⟨fun _ => rfl⟩
  · exact memSame_pure _

end Sys2Proof.Machine
end

section
/-!
PROOFS. The memory and the commands, third part: running such an operation, and what is served with it.
-/
namespace Sys2Proof.Machine

variable (s : State)

/-! Running an operation. -/

/-- The outcome of an operation changes no memory itself. -/
theorem finishOp_mem (e free : Nat) (a : Op Unit) (x : Cx) :
    (finishOp e free (a x)).mem = match a x with | .ok _ y => y.s.mem | .error _ y => y.s.mem := by
  unfold finishOp
  split
  next h => simp [h]
  next h => simp [h]
  next h =>
    rw [h]
    dsimp only
    split <;> simp

theorem MemSameAt.finishOp {a : Op Unit} {x : Cx} (h : MemSameAt a x) (e free : Nat) :
    (finishOp e free (a x)).mem = x.s.mem := by
  unfold MemSameAt at h
  rw [finishOp_mem]
  split at h <;> rename_i hy <;> rw [hy] <;> exact h

@[simp] theorem State.startCx_mem (e w len : Nat) : (s.startCx e w len).s.mem = s.mem := s.takeFree_mem

theorem MemSame.resume {body : Op Unit} (h : MemSame body) (e w : Nat) : (s.resume e w body).mem = s.mem := by
  unfold State.resume
  rw [(h.at _).finishOp, State.startCx_mem, State.setCores_mem]

theorem MemSame.probe {op : Op Unit} (h : MemSame op) (e : Nat) : (s.probe e op).mem = s.mem := by
  have hx := h.at (s.startCx e 0 4)
  have hfinish := hx.finishOp e s.free
  unfold State.probe
  unfold MemSameAt at hx
  split
  next hy => rw [hy] at hx; exact Eq.trans hx (s.startCx_mem ..)
  next hy => rw [hy] at hfinish; exact Eq.trans hfinish (s.startCx_mem ..)

theorem memSame_lateAnswer (isRead : Bool) (ra : Nat) (r : RReply) :
    MemSame (do lateReply; remoteAnswer isRead ra r) :=
  memSame_bind memSame_lateReply fun _ => memSame_remoteAnswer ..

theorem memSame_latePosted (post : Bool) (w ea : Nat) (o : PostOut) : MemSame (do lateReply; npuAnswer post w ea o) :=
  memSame_bind memSame_lateReply fun _ => memSame_npuAnswer ..

/-! Replies from the fabric, and what is served or cancelled with them. -/

@[simp] theorem State.rreply_mem (r : RReply) : (s.rreply r).mem = s.mem := by
  unfold State.rreply
  split
  · rfl
  split
  · rfl
  · dsimp only
    split
    · simp
    split
    · exact (memSame_lateAnswer ..).resume ..
    · rfl

@[simp] theorem State.selfReply_mem (p : State × Option RReply) : (State.selfReply p).mem = p.1.mem := by
  unfold State.selfReply
  split <;> simp

@[simp] theorem State.heldRemotes_mem : s.heldRemotes.mem = s.mem := by
  simp [State.heldRemotes]

@[simp] theorem State.pulse_mem (t : Nat) : (s.pulse t).mem = s.mem := by
  unfold State.pulse
  extract_lets -merge start left dropped rs aborted pulsed old new fresh ticked synced back regioned queued reset
    opened
    none_ alarmed noted inv swept resets cleared leased handed batched
  have hfresh : fresh.mem = s.mem := by simp -implicitDefEqProofs [fresh, pulsed, aborted, dropped]
  clear_value fresh
  have hback : back.mem = fresh.mem := by simp [back, synced, ticked]
  clear_value back
  have hqueued : queued.mem = back.mem := by simp -implicitDefEqProofs [queued, regioned]
  clear_value queued
  have hreset (q : State) : ({ q with cluInReset := [], lineDead := [] } : State).mem = q.mem := rfl
  have hopened : opened.mem = queued.mem :=
    (State.modSched_mem ..).trans (reset.restorePulse_mem.trans (hreset queued))
  clear_value opened
  have hnoted : noted.mem = opened.mem := by simp -implicitDefEqProofs [noted, alarmed]
  clear_value noted
  have hswept : swept.mem = noted.mem := by simp [swept]
  have hresets (q : State) (r : Resets) : ({ q with resets := r } : State).mem = q.mem := rfl
  have hcleared : cleared.mem = noted.mem := (hresets swept _).trans hswept
  clear_value cleared
  have hleased : leased.mem = cleared.mem := by simp [leased]
  clear_value leased
  have hbatched : batched.mem = leased.mem := by simp -implicitDefEqProofs [batched, handed]
  clear_value batched
  rw [State.refreshPage_mem, State.refreshStatus_mem, State.reprotect_mem, State.heldRemotes_mem, hbatched, hleased,
    hcleared, hnoted, hopened, hqueued, hback, hfresh]

@[simp] theorem State.closeRemote_mem (u : Nat) : (s.closeRemote u).mem = s.mem := by
  unfold State.closeRemote
  refine (State.foldl_mem _ (fun t q => ?_) _ _).trans (State.setNpu_mem ..)
  split <;> simp

/-- A request that is served resumes its core, or sends its reply. -/
theorem State.serveAt_mem (u i : Nat) (q : NReq) : (s.serveAt u i q).1.mem = s.mem := by
  have hresume (t : State) (isn e w ea : Nat) (post : Bool) (o : PostOut) :
      (if t.sameRun e isn then t.resume e w (do lateReply; npuAnswer post w ea o) else t).mem = t.mem := by
    split
    · exact (memSame_latePosted ..).resume ..
    · rfl
  unfold State.serveAt
  dsimp only
  split
  next isn okey word a f _ =>
    have hpost := (s.setNpu u ((s.npu u).pull i)).npuPost_mem isn okey word a f
    split
    next h => rw [h] at hpost; exact hpost
    next h => rw [h] at hpost; exact (hresume ..).trans hpost
  next isn okey word _ =>
    have hread := (s.setNpu u ((s.npu u).pull i)).npuPread_mem isn okey word
    split
    next h => rw [h] at hread; exact hread
    next h => rw [h] at hread; exact (hresume ..).trans hread
  next src rid okey tick word a f =>
    have hremote := (s.setNpu u ((s.npu u).pull i)).npuRemote_mem src okey word a f
    split
    next h => rw [h] at hremote; exact hremote
    next h => simp
  next isn word =>
    have htouch := (s.setNpu u ((s.npu u).pull i)).npuTouch_mem isn word
    split
    next h => rw [h] at htouch; exact htouch
    next h => rw [h] at htouch; exact htouch

theorem State.serveFrom_mem (u : Nat) (want : NReq → Bool) (n i : Nat) :
    (State.serveFrom u want n i s).mem = s.mem := by
  induction n generalizing i s with
  | zero => rfl
  | succ n ih =>
    unfold State.serveFrom
    dsimp only
    split
    · rfl
    next q _ =>
      have hserve := s.serveAt_mem u i q
      split
      · split
        next h => rwa [h] at hserve
        next h => rw [h] at hserve; exact (ih _ _).trans hserve
      · exact ih _ _

@[simp] theorem State.serveFirst_mem (u : Nat) (want : NReq → Bool) : (s.serveFirst u want).mem = s.mem :=
  s.serveFrom_mem u want _ 0

@[simp] theorem State.npuLose_mem (u : Nat) : (s.npuLose u).mem = s.mem := by
  unfold State.npuLose
  extract_lets -merge chs n b unprotected waiting rs marked owners phase told aborted answered kept copies cold
    emptied
    cold' left moded taken
  have haborted : aborted.mem = s.mem := by simp -implicitDefEqProofs [aborted, told, marked, unprotected]
  clear_value aborted
  have hanswered : answered.mem = s.mem := (State.foldl_mem _ (fun t q => by split <;> simp) _ _).trans haborted
  clear_value answered
  have hleft : left.mem = s.mem := by simpa -implicitDefEqProofs [left, emptied] using hanswered
  clear_value left
  have htaken : taken.mem = s.mem := by simpa -implicitDefEqProofs [taken, moded] using hleft
  split
  · rfl
  split
  · simpa -implicitDefEqProofs using hleft
  · simpa -implicitDefEqProofs using htaken

@[simp] theorem State.wakeLine_mem (line : Nat) : (s.wakeLine line).mem = s.mem := by
  simp [State.wakeLine]

@[simp] theorem State.haltRelease_mem (c : Nat) : (s.haltRelease c).mem = s.mem := by
  unfold State.haltRelease
  split
  · exact s.wf_mem ..
  · dsimp only
    rw [State.foldl_mem _ fun t r => t.rreply_mem r, State.foldl_mem _ fun t i => t.trcWake_mem .., State.modDbg_mem,
      State.wf_mem, State.wf_mem]

@[simp] theorem State.dbgClear_mem : s.dbgClear.mem = s.mem := by
  have hhalts (cs : List Nat) (t : State) :
      (cs.foldl (fun (s : State) c => if s.halted c then s.haltRelease c else s) t).mem = t.mem :=
    State.foldl_mem _ (fun t c => by rw [State.ite_mem, State.haltRelease_mem, ite_self]) cs t
  exact (State.dbgRegs_mem _).trans ((hhalts _ _).trans s.closeSession_mem)

@[simp] theorem State.acceptPass_mem (q n : Nat) : (State.acceptPass q n s).1.mem = s.mem := by
  induction n generalizing s with
  | zero => rfl
  | succ n ih =>
    unfold State.acceptPass
    split
    · rfl
    split
    · rfl
    split
    · rfl
    · dsimp only
      rw [ih, State.ite_mem, State.count_mem, ite_self, State.complete_mem, State.setQueue_mem]

@[simp] theorem State.adoptRun_mem (pins void : List PinRec) (b : JBody) : (s.adoptRun pins void b).mem = s.mem := by
  unfold State.adoptRun
  split
  · dsimp only
    rw [State.ite_mem, State.idemDone_mem, ite_self]
  · rfl

end Sys2Proof.Machine
end

section
/-!
PROOFS. The memory and the commands, fourth part: the functions of the device that write memory keep its canonical form
(R43, R69).
-/
namespace Sys2Proof.Machine

variable {s : State}

/-! The parts of the device that write memory. -/

theorem State.MemOk.ite {c : Prop} [Decidable c] {t u : State} (ht : t.MemOk) (hu : u.MemOk) :
    (if c then t else u).MemOk := by
  split
  · exact ht
  · exact hu

theorem State.MemOk.saveCtx (h : s.MemOk) (a : Nat) (b : Bank) (pc budget : Word) : (s.saveCtx a b pc budget).MemOk :=
  State.storeWord_memOk _ _ _ <| State.storeWord_memOk _ _ _ <|
    State.memOk_foldl _ (fun t _ ht => t.storeWord_memOk _ _ ht) _ _ h

theorem State.MemOk.extSave (h : s.MemOk) (a : Nat) (c : Core) : (s.extSave a c).MemOk :=
  State.memOk_foldl _ (fun t _ ht => t.storeWord_memOk _ _ ht) _ _ h

theorem State.MemOk.extOwn (h : s.MemOk) (c : Core) : (s.extOwn c).1.MemOk := by
  unfold State.extOwn
  split
  · exact h
  extract_lets -merge a saves
  generalize hslot : (if saves then s.extSlot a else (s, true)) = p
  have hp : p.1.MemOk := h.of_mem (by rw [← hslot]; simp)
  dsimp only
  split
  · exact hp
  · have hsaved : (if saves then p.1.extSave a c else p.1).MemOk := State.MemOk.ite (hp.extSave a c) hp
    exact hsaved.of_mem (State.extLoad_mem ..)

theorem State.MemOk.extWrite (h : s.MemOk) (e : Nat) (k : Csr) (v : Word) : (s.extWrite e k v).MemOk := by
  unfold State.extWrite
  dsimp only
  split
  · exact h.of_mem (by simp)
  · have hown := h.extOwn (s.core e)
    split <;> exact hown.of_mem (by simp)

theorem State.MemOk.csrWrite (h : s.MemOk) (m e n : Nat) (v : Word) : (s.csrWrite m e n v).MemOk := by
  unfold State.csrWrite
  split
  · exact h
  · exact h.of_mem (s.apend_mem ..)
  next k _ _ =>
    extract_lets -merge fs mp denied noted unverified waits
    have hdenied : denied.MemOk := h.of_mem (by simp [denied])
    have hnoted : noted.MemOk := hdenied.of_mem (by simp [noted])
    split
    · exact hnoted
    split
    · exact hnoted.extWrite e k v
    · exact hnoted.of_mem (by simp)

theorem State.MemOk.ctlWrite (h : s.MemOk) (m off : Nat) (v : Word) : (s.ctlWrite m off v).1.MemOk := by
  unfold State.ctlWrite
  split
  · exact h
  split
  next hfault => exact h.of_mem (State.winFault_mem hfault)
  split
  · exact h
  · exact h
  · exact h
  · exact (h.of_mem (s.leaveC6_mem _)).csrWrite ..
  · split <;> exact h.of_mem (by simp)

theorem State.MemOk.flipWord (h : s.MemOk) (u : Nat) (x : NEntry) : (s.flipWord u x).MemOk :=
  State.MemOk.ite (h.of_mem (s.setNpu_mem ..)) (s.putWord_memOk _ _ h)

theorem State.MemOk.putImage (h : s.MemOk) (pa : Nat) (im : FrameImg) : (s.putImage pa im).MemOk :=
  State.memOk_foldl _ (fun t _ ht => t.putWord_memOk _ _ ht) _ _ h

theorem State.MemOk.installTables (h : s.MemOk) (t : Tables) : (s.installTables t).MemOk := by
  unfold State.installTables
  refine State.memOk_foldl _ (fun u im hu => ?_) _ _ (h.of_mem (by simp -implicitDefEqProofs))
  exact State.memOk_foldl _ (fun v _ hv => v.putWord_memOk _ _ hv) _ _ (hu.putImage _ _)

theorem State.MemOk.putReplica (h : s.MemOk) (word : Nat) (v : Word) : (s.putReplica word v).MemOk :=
  State.MemOk.ite h (State.MemOk.ite (h.of_mem (s.modFmu_mem _)) (s.putWord_memOk _ _ h))

theorem State.MemOk.addRemote (h : s.MemOk) : s.addRemote.MemOk :=
  State.memOk_foldl _ (fun _ _ ht => State.MemOk.ite (ht.putReplica _ _) ht) _ _ h

theorem State.MemOk.adopt (h : s.MemOk) (lost : Bool) : (s.adopt lost).MemOk := by
  unfold State.adopt
  extract_lets -merge pins void custody leased installed pinned remote idem runs released
  have hinstalled : installed.MemOk :=
    State.memOk_foldl _ (fun _ t ht => ht.installTables t) _ _ (h.of_mem (by simp [leased, custody]))
  have hpinned : pinned.MemOk := by
    refine State.memOk_foldl _ (fun t p ht => State.memOk_foldl _ (fun t r ht => ?_) _ _ ht) _ _ hinstalled
    split
    · exact State.memOk_foldl _ (fun _ x hx => hx.putReplica _ _) _ _ ht
    · exact ht
  clear_value pinned
  have hremote : remote.MemOk := State.MemOk.ite hpinned.addRemote hpinned
  clear_value remote
  exact hremote.of_mem (by simp [released, runs, idem])

theorem State.MemOk.freshPayload (h : s.MemOk) (r : Run) : (s.freshPayload r).MemOk :=
  State.memOk_foldl _ (fun t _ ht => t.storeWord_memOk _ _ ht) _ _ h

theorem State.MemOk.putLine (h : s.MemOk) (pa : Nat) (ws : List TWord) : (s.putLine pa ws).MemOk :=
  State.memOk_foldl _ (fun t _ ht => t.putWord_memOk _ _ ht) _ _ h

theorem State.MemOk.freshen (h : s.MemOk) (pa : Nat) (ws : List TWord) : (s.freshen pa ws).MemOk :=
  State.MemOk.of_mem (s := if s.area pa == .replica then s.putLine _ ws else s) (State.MemOk.ite (h.putLine _ _) h)
    rfl

theorem State.MemOk.putOwn (h : s.MemOk) (im : FrameImg) : (s.putOwn im).MemOk :=
  (h.of_mem (s.otherWrite_mem _)).putImage _ _

theorem State.MemOk.clearOwn (h : s.MemOk) : s.clearOwn.MemOk :=
  State.clearArea_memOk _ _ _ (State.memOk_foldl _ (fun t _ ht => ht.of_mem (t.otherWrite_mem _)) _ _ h)

theorem State.MemOk.takePostlog (h : s.MemOk) (src : Fin 4096) (p : PostLog) : (s.takePostlog src p).MemOk := by
  unfold State.takePostlog
  split
  · exact h.of_mem (by simp)
  split
  · exact h
  extract_lets -merge imaged posted taken closed
  have himaged : imaged.MemOk := State.memOk_foldl _
    (fun t im ht => State.MemOk.ite (ht.of_mem (t.modFmu_mem _)) (ht.putImage _ _)) _ _ h
  have hposted : posted.MemOk := State.memOk_foldl _ (fun t x ht => ht.putReplica _ _) _ _ himaged
  clear_value posted
  exact hposted.of_mem (by simp [closed, taken])

theorem State.MemOk.applyAbove (h : s.MemOk) (m : Nat) : (s.applyAbove m).MemOk :=
  State.memOk_foldl _ (fun t _ ht => t.putWord_memOk _ _ ht) _ _ h

theorem State.MemOk.stageIn (h : s.MemOk) (es : List Nat) (r : Run) : (s.stageIn es r).MemOk := by
  unfold State.stageIn
  split
  · exact h.of_mem (s.endRun_mem ..)
  next p _ =>
    extract_lets -merge w fresh
    have hlist := fresh.stageList_mem w p
    have hfresh : fresh.MemOk := h.freshPayload r
    clear_value fresh
    split
    next t f hl =>
      rw [hl] at hlist
      exact hfresh.of_mem ((State.endRun_mem ..).trans hlist)
    next t ws hl =>
      rw [hl] at hlist
      have ht : t.MemOk := hfresh.of_mem hlist
      split
      · exact ht.of_mem (State.endRun_mem ..)
      · refine ht.of_mem ?_
        dsimp only
        generalize hfold : List.foldl _ (t, none) _ = q
        have hq : q.1.mem = t.mem := by
          rw [← hfold]
          refine State.foldl_fst_mem _ (fun a x => ?_) _ _
          obtain ⟨u, _ | f⟩ := a
          · have hsource := u.stageSource_mem r w x
            dsimp only
            split
            next hs => rw [hs] at hsource; exact hsource
            next hs => rw [hs] at hsource; exact (State.stageBlock_mem ..).trans hsource
          · rfl
        split
        · exact (State.endRun_mem ..).trans hq
        · exact (State.modRun_mem ..).trans hq

theorem State.MemOk.maWrite (h : s.MemOk) (pa : Nat) (v : TWord) {ctl : State → Nat → Word → State × Bool}
    (hctl : ∀ t o w, t.MemOk → (ctl t o w).1.MemOk) : (s.maWrite pa v ctl).MemOk := by
  unfold State.maWrite
  extract_lets -merge set
  have hset : set.MemOk := h.of_mem (by simp [set])
  split
  · have hw := hctl set (pa % 2 ^ 48) v.val hset
    split
    next hc => rw [hc] at hw; exact hw.of_mem (by simp)
    next hc => rw [hc] at hw; exact hw.of_mem (by simp)
  · split
    · exact hset.of_mem (by simp)
    · exact (set.storeWord_memOk pa v hset).of_mem (by simp)
  · exact (set.storeWord_memOk pa v hset).of_mem (by simp)
  · exact hset.of_mem (by simp)

theorem State.MemOk.dbgWrite (h : s.MemOk) (tap : Bool) (r : Reg) (v : Word) : (s.dbgWrite tap r v).MemOk := by
  unfold State.dbgWrite
  dsimp only
  split
  · exact h.of_mem (by simp)
  · exact h.of_mem (by simp)
  · exact h.of_mem (by simp)
  · exact h.of_mem (by simp)
  · split
    · exact h.of_mem (by simp)
    split
    · exact h.of_mem (by simp)
    split
    · exact h.maWrite _ _ fun t o w ht => ht.ctlWrite mDBG o w
    · exact h.of_mem (by simp)
  · split
    · exact h.of_mem (by simp)
    split <;> exact h.of_mem (by simp)

theorem State.MemOk.maCtl (h : s.MemOk) (off : Nat) (v : Word) : (s.maCtl off v).1.MemOk := by
  unfold State.maCtl
  split
  · split
    · exact State.MemOk.ite h (h.dbgWrite ..)
    · exact h
  · exact h.ctlWrite ..

theorem State.MemOk.windowWrite (h : s.MemOk) (tap : Bool) (off : Nat) (v : Word) :
    (s.windowWrite tap off v).MemOk := by
  unfold State.windowWrite
  split
  · exact h
  split
  · exact h.dbgWrite ..
  · exact h

theorem State.MemOk.ptnCase (h : s.MemOk) (p : PtnState) : (s.ptnCase p).MemOk := by
  unfold State.ptnCase
  split
  · exact h.of_mem (by simp)
  · extract_lets -merge stale freed imaged keyed bound
    have himaged : imaged.MemOk :=
      State.memOk_foldl _ (fun t im ht => ht.putImage _ _) _ _ (h.of_mem (s.freeRecs_mem _))
    clear_value imaged
    have hkeyed : keyed.mem = imaged.mem := by simp -implicitDefEqProofs [keyed]
    clear_value keyed
    exact himaged.of_mem (by simpa [bound] using hkeyed)
  · exact h.of_mem (by simp)

theorem State.MemOk.startUp (h : s.MemOk) (env : ColdEnv) (ptn : Nat) : (s.startUp env ptn).MemOk := by
  unfold State.startUp
  extract_lets -merge started on clocked powered trained opened clusters ranked linked left lost counted shown
  split
  · exact h.of_mem (by simp [started])
  · have hpowered : powered.mem = s.mem := by simp -implicitDefEqProofs [powered, clocked, started]
    clear_value powered
    have hclusters : clusters.mem = powered.mem := by simp -implicitDefEqProofs [clusters, opened, trained]
    clear_value clusters
    have hlinked : linked.mem = clusters.mem := by simp -implicitDefEqProofs [linked, ranked]
    clear_value linked
    have hshown : shown.mem = linked.mem := by
      simp -implicitDefEqProofs [shown, counted, lost, State.refreshStatus_mem]
    clear_value shown
    have hok : shown.MemOk := h.of_mem (by rw [hshown, hlinked, hclusters, hpowered])
    have hloaded : (shown.loadDump ptn).MemOk := hok.of_mem (State.loadDump_mem ..)
    exact (hloaded.ptnCase env.ptn).of_mem (State.copyCreds_mem _)

theorem State.MemOk.coreAccess (h : s.MemOk) (e : Nat) (wr : Bool) {f : State → State × Bool}
    (hf : ∀ t, t.MemOk → (f t).1.MemOk) : (s.coreAccess e wr f).MemOk := by
  have hfault (t : State) (ht : t.MemOk) (c : Core) (vec detail : Nat) :
      (t.takeFree.takeExc e c ⟨vec, detail, some (Config.ctlVa t.free).toNat, wr, false, false⟩ c.pc).MemOk :=
    ht.of_mem (by simp)
  unfold State.coreAccess
  dsimp only
  split
  · exact h
  split
  · exact hfault _ h ..
  split
  · exact hfault _ h ..
  split
  · exact hf s h
  · exact hfault _ (hf s h) ..

theorem State.MemOk.mWrite (h : s.MemOk) (m : Master) (off : Nat) (v : Word) : (s.mWrite m off v).MemOk := by
  unfold State.mWrite
  split
  · exact h
  split
  · exact h
  · exact State.MemOk.ite (h.ctlWrite ..) h
  · exact h.coreAccess _ _ fun t ht => ht.ctlWrite ..
  · exact h.ctlWrite ..

end Sys2Proof.Machine
end

section
/-!
PROOFS. The memory and the commands, fifth part: the operations of an instruction that write memory.
-/
namespace Sys2Proof.Machine

/-! Operations that write memory. -/

/-- The memory of y is in canonical form if that of x is. -/
def Cx.KeptMem (x y : Cx) : Prop := x.s.MemOk → y.s.MemOk

theorem keptMem_preorder : Preorder' Cx.KeptMem := ⟨fun _ => id, fun _ _ _ h g => g ∘ h⟩

/-- The operation keeps the memory in canonical form. -/
structure MemKept (a : Op α) : Prop where
  within : Within Cx.KeptMem a

theorem memKept_bind {a : Op α} {f : α → Op β} (ha : MemKept a) (hf : ∀ v, MemKept (f v)) : MemKept (a >>= f) :=
  ⟨within_bind keptMem_preorder ha.within fun v => (hf v).within⟩

/-- What follows the reading of the context may use that its memory is in canonical form. -/
theorem memKept_cx_bind {f : Cx → Op α} (h : ∀ x, x.s.MemOk → MemKept (f x)) : MemKept (cx >>= f) := by
  refine ⟨fun x => ?_⟩
  show match f x x with | .ok _ y => x.KeptMem y | .error _ y => x.KeptMem y
  split <;> rename_i e <;> intro hx
  · exact (h x hx).within.ok e hx
  · exact (h x hx).within.error e hx

theorem memKept_set {y : Cx} (h : y.s.MemOk) : MemKept (set y : Op Unit) := ⟨fun _ _ => h⟩

/-- An operation that leaves the memory as it was keeps its form. -/
@[simp] theorem MemSame.kept {a : Op α} (h : MemSame a) : MemKept a := by
  refine ⟨fun x => ?_⟩
  cases e : a x with
  | ok v y => exact fun hok => hok.of_mem (h.within.ok e)
  | error r y => exact fun hok => hok.of_mem (h.within.error e)

theorem memKept_modS {f : State → State} (h : ∀ s, s.MemOk → (f s).MemOk) : MemKept (modS f) := ⟨fun x => h x.s⟩

theorem memKept_forM {f : β → Op PUnit} (h : ∀ v, MemKept (f v)) (l : List β) : MemKept (l.forM f) := by
  induction l with
  | nil => exact (memSame_pure _).kept
  | cons v l ih => exact memKept_bind (h v) fun _ => ih

theorem memKept_tryCatch {a : Op α} {f : Stop → Op α} (ha : MemKept a) (hf : ∀ q, MemKept (f q)) :
    MemKept (tryCatch a f) := by
  refine ⟨fun x => ?_⟩
  have hax := ha.within x
  have htry : (tryCatch a f : Op α) x = match a x with | .ok v y => .ok v y | .error q y => f q y := by
    show (EStateM.tryCatch a f) x = _
    unfold EStateM.tryCatch
    cases a x <;> rfl
  rw [htry]
  cases hy : a x with
  | ok v y => rw [hy] at hax; exact hax
  | error q y =>
    rw [hy] at hax
    have hqy := (hf q).within y
    dsimp only
    split at hqy
    next hz => rw [hz]; exact hqy ∘ hax
    next hz => rw [hz]; exact hqy ∘ hax

@[simp] theorem memKept_extUse (w : Bool) : MemKept (extUse w) := by
  unfold extUse
  refine memKept_cx_bind fun x hx => memKept_bind (memKept_set (hx.extOwn _)) fun _ => MemSame.kept ?_
  repeat' first | with_reducible refine memSame_bind ?_ fun _ => ?_ | split
  all_goals simp

@[simp] theorem memKept_writeTarget (t : Target) (va : Nat) (v : TWord) : MemKept (writeTarget t va v) := by
  unfold writeTarget
  split
  · exact (memSame_modC _).kept
  · exact memKept_modS fun s h => s.storeWord_memOk _ _ h
  next off =>
    refine memKept_cx_bind fun x hx => ?_
    have hwrite : ((x.s.setCores (x.s.unitCores x.e) x.c).ctlWrite x.e off v.val).1.MemOk :=
      (hx.of_mem (x.s.setCores_mem ..)).ctlWrite ..
    dsimp only
    split
    · exact memKept_bind (memSame_throw _).kept fun _ => memKept_bind (memKept_set hwrite) fun _ => by
        split <;> simp
    · exact memKept_bind (memKept_set hwrite) fun _ => by split <;> simp

@[simp] theorem memKept_storeWordAt (va : Nat) (v : TWord) : MemKept (storeWordAt va v) := by
  unfold storeWordAt
  repeat' first | with_reducible refine memKept_bind ?_ fun _ => ?_ | split
  all_goals simp

@[simp] theorem memKept_stmElem (r a : Nat) : MemKept (stmElem r a) :=
  memKept_bind memSame_curB.kept fun _ => memKept_storeWordAt ..

theorem memKept_eachReg {f : Nat → Nat → Op Unit} (h : ∀ r a, MemKept (f r a)) (ea : Nat) (rs : List (Nat × Nat)) :
    MemKept (eachReg f ea rs) := by
  induction rs with
  | nil => exact (memSame_pure _).kept
  | cons p rs ih =>
    unfold eachReg
    repeat' first | with_reducible refine memKept_bind ?_ fun _ => ?_ | split
    all_goals simp [h, ih]

theorem memKept_strLoop {elem : Op Bool} (h : MemKept elem) (n : Nat) : MemKept (strLoop elem n) := by
  induction n with
  | zero => exact (memSame_pure _).kept
  | succ n ih =>
    refine memKept_bind h fun early => ?_
    split
    · exact (memSame_pure _).kept
    · exact ih

theorem memKept_strRun {elem : Op Bool} {fin : Op Unit} (rep : Bool) (h : MemKept elem) (hf : MemKept fin) :
    MemKept (strRun rep elem fin) := by
  unfold strRun
  repeat' first | with_reducible refine memKept_bind ?_ fun _ => ?_ | split
  all_goals simp [memKept_strLoop h, hf]

@[simp] theorem memKept_writePieces (tg : List (Target × Nat)) (bs : List Byte) : MemKept (writePieces tg bs) := by
  induction tg generalizing bs with
  | nil => exact (memSame_pure _).kept
  | cons p tg ih =>
    unfold writePieces
    split
    · exact memKept_bind (memSame_modC _).kept fun _ => ih _
    · exact memKept_bind (memKept_modS fun s h => s.storeBytes_memOk _ _ h) fun _ => ih _
    · exact ih _

@[simp] theorem memKept_repDecElem (d1 d2 : FDesc) (isSub : Bool) : MemKept (repDecElem d1 d2 isSub) := by
  unfold repDecElem
  dsimp only
  repeat' first | with_reducible refine memKept_bind ?_ fun _ => ?_ | split
  all_goals simp

theorem memKept_repDecLoop (w x : Nat) (isSub : Bool) (n : Nat) (d1 d2 : FDesc) :
    MemKept (repDecLoop w x isSub n d1 d2) := by
  induction n generalizing d1 d2 with
  | zero => exact (memSame_pure _).kept
  | succ n ih =>
    unfold repDecLoop
    repeat' first | with_reducible refine memKept_bind ?_ fun _ => ?_ | split
    all_goals simp [ih]

@[simp] theorem memKept_repDecimal (w x : Nat) (isSub : Bool) : MemKept (repDecimal w x isSub) := by
  unfold repDecimal
  repeat' first | with_reducible refine memKept_bind ?_ fun _ => ?_ | split
  all_goals simp [memKept_repDecLoop]

@[simp] theorem memKept_elemMove (table : Option FDesc) : MemKept (elemMove table) := by
  unfold elemMove
  repeat' first | with_reducible refine memKept_bind ?_ fun _ => ?_ | split
  all_goals simp

@[simp] theorem memKept_mvsOp (rep : Bool) : MemKept (mvsOp rep) :=
  memKept_bind (memSame_needCursors _).kept fun _ => memKept_strRun _ (memKept_elemMove _) (memSame_pure _).kept

@[simp] theorem memKept_elemMoveRev : MemKept elemMoveRev := by
  unfold elemMoveRev
  repeat' first | with_reducible refine memKept_bind ?_ fun _ => ?_ | split
  all_goals simp

@[simp] theorem memKept_mvsrOp (rep : Bool) : MemKept (mvsrOp rep) :=
  memKept_bind (memSame_needCursors _).kept fun _ => memKept_strRun _ memKept_elemMoveRev (memSame_pure _).kept

@[simp] theorem memKept_trnOp (rep : Bool) (w x : Nat) : MemKept (trnOp rep w x) := by
  unfold trnOp
  repeat' first | with_reducible refine memKept_bind ?_ fun _ => ?_ | split
  all_goals simp [memKept_strRun]

@[simp] theorem memKept_elemEdit (mark : Bool) : MemKept (elemEdit mark) := by
  unfold elemEdit
  dsimp only
  repeat' first | with_reducible refine memKept_bind ?_ fun _ => ?_ | split
  all_goals simp

@[simp] theorem memKept_editOp (mark rep : Bool) : MemKept (editOp mark rep) := by
  unfold editOp
  repeat' first | with_reducible refine memKept_bind ?_ fun _ => ?_ | split
  all_goals simp [memKept_strLoop]

@[simp] theorem memKept_repBody (w x : Nat) : MemKept (repBody w x) := by
  unfold repBody
  split <;> simp

@[simp] theorem memKept_putResult (d : FDesc) (tg : List (Target × Nat)) (v : Int) : MemKept (putResult d tg v) := by
  unfold putResult
  repeat' first | with_reducible refine memKept_bind ?_ fun _ => ?_ | split
  all_goals simp

@[simp] theorem memKept_decBinary (w x : Nat) (f : Int → Int → Int) (cost : Nat → Nat → Nat) :
    MemKept (decBinary w x f cost) := by
  unfold decBinary
  repeat' first | with_reducible refine memKept_bind ?_ fun _ => ?_ | split
  all_goals simp

@[simp] theorem memKept_divResult (d1 d2 : FDesc) (tg : List (Target × Nat)) (v1 v2 : Int) :
    MemKept (divResult d1 d2 tg v1 v2) := by
  unfold divResult
  dsimp only
  repeat' first | with_reducible refine memKept_bind ?_ fun _ => ?_ | split
  all_goals simp

@[simp] theorem memKept_decCopy (w x k1 k2 : Nat) : MemKept (decCopy w x k1 k2) := by
  unfold decCopy
  repeat' first | with_reducible refine memKept_bind ?_ fun _ => ?_ | split
  all_goals simp

@[simp] theorem memKept_fpArith (w x f n : Nat) (op : Nat → List FV → Exact) (row : List Nat) :
    MemKept (fpArith w x f n op row) := by
  unfold fpArith
  repeat' first | with_reducible refine memKept_bind ?_ fun _ => ?_ | split
  all_goals simp

@[simp] theorem memKept_fpCompare (w x : Nat) (anyNan : Bool) : MemKept (fpCompare w x anyNan) := by
  unfold fpCompare
  repeat' first | with_reducible refine memKept_bind ?_ fun _ => ?_ | split
  all_goals simp

@[simp] theorem memKept_fpSign (w : Nat) (g : Bool → Bool) : MemKept (fpSign w g) := by
  unfold fpSign
  repeat' first | with_reducible refine memKept_bind ?_ fun _ => ?_ | split
  all_goals simp

@[simp] theorem memKept_store (h : HeldSt) : MemKept h.store := by
  cases h
  · exact memKept_writeTarget ..
  · exact memKept_writePieces ..

@[simp] theorem memKept_storeHeld (hs : List HeldSt) : MemKept (storeHeld hs) := by
  unfold storeHeld
  refine memKept_cx_bind fun x hx => memKept_bind (memKept_forM (fun h => ?_) _) fun _ => ?_
  · split
    next off v =>
      have hwrite : ((x.s.setCores (x.s.unitCores x.e) x.c).ctlWrite x.e off v.val).1.MemOk :=
        (hx.of_mem (x.s.setCores_mem ..)).ctlWrite ..
      dsimp only
      repeat' first | with_reducible refine memKept_bind ?_ fun _ => ?_ | split
      all_goals simp [memKept_set, hwrite]
    next => exact (memSame_pure _).kept
  · exact memKept_tryCatch (memKept_forM memKept_store _) fun q =>
      memKept_bind (memKept_set hx) fun _ => (memSame_throw q).kept

@[simp] theorem memKept_uRetire (m : Mseq) : MemKept (uRetire m) := by
  unfold uRetire
  refine memKept_bind (memKept_storeHeld _) fun _ => memKept_bind ⟨fun _ => id⟩ fun _ => ?_
  repeat' first | with_reducible refine memKept_bind ?_ fun _ => ?_ | split
  all_goals simp

/-! Running an operation that writes memory. -/

theorem MemKept.memOk_finishOp {a : Op Unit} (h : MemKept a) (e free : Nat) {x : Cx} (hx : x.s.MemOk) :
    (finishOp e free (a x)).MemOk := by
  have hax := h.within x
  unfold State.MemOk
  rw [finishOp_mem]
  split at hax <;> rename_i hy <;> rw [hy] <;> exact hax hx

/-- An instruction keeps the memory in canonical form if its operation does. -/
theorem MemKept.memOk_runIns {body : Op Unit} (h : MemKept body) {s : State} (hs : s.MemOk) (e w : Nat) (ok : Bool) :
    (s.runIns e w ok body).MemOk := by
  have hstart : ((s.preTrace e).startCx e w (insLen w)).s.MemOk := hs.of_mem (by simp)
  have hrun (free : Nat) {a : Op Unit} (ha : MemKept a) :
      (finishOp e free (a ((s.preTrace e).startCx e w (insLen w)))).MemOk := ha.memOk_finishOp e free hstart
  unfold State.runIns
  split
  · exact hs
  unfold State.around
  split
  · exact hs.of_mem (by simp)
  refine State.MemOk.of_mem (s := _) ?_ (State.postTrace_mem ..)
  dsimp only
  split
  · exact hrun _ memSame_illegal.kept
  split
  · exact hrun _ (memSame_raiseV ..).kept
  split
  · exact hrun _ (memSame_setCost _).kept
  · exact hrun _ h

end Sys2Proof.Machine
end

section
/-!
PROOFS. The memory and the commands, last part: every command keeps the canonical form of the memory. An instruction does
it because its operation does; any other command either leaves the memory or changes it by the functions of the fourth
part.
-/
namespace Sys2Proof.Machine

variable {s : State}

/-! Commands of the management processor. -/

@[simp] theorem State.omiOk_s (t : State) (data : List Byte) : (t.omiOk data).s = t := rfl

@[simp] theorem State.omiErr_s (t : State) (status detail : Nat) : (t.omiErr status detail).s = t := rfl

@[simp] theorem OmiAns.ite_mem (c : Prop) [Decidable c] (a b : OmiAns) :
    (if c then a else b).s.mem = if c then a.s.mem else b.s.mem := apply_ite (fun r : OmiAns => r.s.mem) c a b

theorem State.omiTake_mem {src : OmiSrc} {cmd : Nat} {rq : OmiReq} {t : State} (h : s.omiTake src cmd rq = some t) :
    t.mem = s.mem := by
  unfold State.omiTake at h
  split at h
  · cases h
  split at h
  · split at h
    · cases h; rfl
    · cases h
  · dsimp only at h
    split at h
    · cases h; rfl
    · cases h

/-- A command keeps the memory in canonical form if what it does when it is taken does. -/
theorem State.MemOk.omiRun (h : s.MemOk) (c : OmiCmd) (src : OmiSrc) (rq : OmiReq) (names : List Nat)
    (range : State → OmiRange) {body : State → OmiAns} (hbody : ∀ t, t.MemOk → (body t).s.MemOk) :
    (s.omiRun c src rq names range body).MemOk := by
  unfold State.omiRun
  split
  · exact h.of_mem (s.omiRefuse_mem ..)
  next t htake =>
    have ht : t.MemOk := h.of_mem (State.omiTake_mem htake)
    split
    · exact ht.of_mem (t.omiEnd_mem ..)
    · have hb := hbody t ht
      split
      next hans => rw [hans] at hb; exact hb.of_mem (State.omiEnd_mem ..)
      next hans => rw [hans] at hb; exact hb.of_mem (State.modMp_mem ..)

theorem State.MemOk.unitMode (h : s.MemOk) (src : OmiSrc) (rq : OmiReq) (mine : Nat → Bool)
    {body : State → Nat → Nat → OmiAns} (hbody : ∀ t c sl, t.MemOk → (body t c sl).s.MemOk) :
    (s.unitMode src rq mine body).MemOk := by
  unfold State.unitMode
  dsimp only
  split
  · exact h
  · refine h.omiRun _ _ _ _ _ fun t ht => ?_
    split
    · exact ht
    · exact hbody _ _ _ ht

/-! Doorbells. -/

theorem State.doorbell_mem {act : State → State} (hact : (act s).mem = s.mem) (f q : Nat) (ok : Bool) :
    (s.doorbell f q ok act).mem = s.mem := by
  unfold State.doorbell
  dsimp only
  split
  · simp
  split
  · simp
  · exact hact

theorem State.coldBase_memOk (k : ColdKind) : (s.coldBase k).MemOk := by
  unfold State.coldBase
  dsimp only
  split
  · exact reset_memOk
  · exact State.MemOk.of_mem (s := State.reset) reset_memOk (State.event_mem ..)

/-! Instructions that set the context or run outside the common course. -/

theorem retlBody_mem (x : Cx) : (retlBody x).1.s.mem = x.s.mem := by
  unfold retlBody
  dsimp only
  split
  · exact State.clearReq_mem ..
  · split <;> rfl

/-- What a posting unit answers is kept in the device, and the request where it waits. -/
theorem memKept_posted {k : Cx} (hk : k.s.MemOk) {p : State × PostOut} (hp : p.1.mem = k.s.mem) (ch : Nat) (q : NReq)
    (post : Bool) (w ea : Nat) :
    MemKept (do
      set { k with s := if p.2 = PostOut.wait then p.1.npuEnqueue ch q else p.1 }
      npuAnswer post w ea p.2) :=
  memKept_bind (memKept_set (hk.of_mem (by simp [hp]))) fun _ => (memSame_npuAnswer ..).kept

/-- A test before the rest of an instruction that keeps the form, whatever it does first. -/
theorem memKept_guard {c : Prop} [Decidable c] {a : Op β} {b : Op α} (ha : MemKept a) (hb : MemKept b) :
    MemKept (if c then do let _ ← a; b else b) := by
  split
  · exact memKept_bind ha fun _ => hb
  · exact hb

/-! The commands. -/

/-- Where the command goes on, the memory is in canonical form. -/
def MemOut (o : Out) : Prop := ∀ t, o = .next t → t.MemOk

theorem memOut_next {t : State} (h : t.MemOk) : MemOut (.next t) := by
  rintro _ ⟨⟩
  exact h

theorem execNop_memOut (e : Fin 256) (w x : BitVec 32) (h : s.MemOk) : MemOut (execNop e w x s) := by
  unfold execNop
  refine memOut_next (MemKept.memOk_runIns ?_ h ..)
  simp

theorem execJmp_memOut (e : Fin 256) (w x : BitVec 32) (h : s.MemOk) : MemOut (execJmp e w x s) := by
  unfold execJmp
  refine memOut_next (MemKept.memOk_runIns ?_ h ..)
  repeat' first | with_reducible refine memKept_bind ?_ fun _ => ?_ | split
  all_goals simp

theorem execCall_memOut (e : Fin 256) (w x : BitVec 32) (h : s.MemOk) : MemOut (execCall e w x s) := by
  unfold execCall
  refine memOut_next (MemKept.memOk_runIns ?_ h ..)
  repeat' first | with_reducible refine memKept_bind ?_ fun _ => ?_ | split
  all_goals simp

theorem execRet_memOut (e : Fin 256) (w x : BitVec 32) (h : s.MemOk) : MemOut (execRet e w x s) := by
  unfold execRet
  refine memOut_next (MemKept.memOk_runIns ?_ h ..)
  repeat' first | with_reducible refine memKept_bind ?_ fun _ => ?_ | split
  all_goals simp

theorem execRetl_memOut (e : Fin 256) (w x : BitVec 32) (h : s.MemOk) : MemOut (execRetl e w x s) := by
  unfold execRetl
  refine memOut_next (MemKept.memOk_runIns ?_ h ..)
  refine memKept_cx_bind fun k hk => memKept_guard memSame_illegal.kept ?_
  refine memKept_guard (memSame_raiseV ..).kept ?_
  refine memKept_bind (memSame_modS fun t => t.dropInvalid_mem _).kept fun _ => memKept_cx_bind fun k hk => ?_
  exact memKept_guard (memSame_needTarget _).kept
    (memKept_bind (memKept_set (hk.of_mem (retlBody_mem k))) fun _ => (memSame_done _).kept)

theorem execSvc_memOut (e : Fin 256) (w x : BitVec 32) (h : s.MemOk) : MemOut (execSvc e w x s) := by
  unfold execSvc
  refine memOut_next (MemKept.memOk_runIns ?_ h ..)
  simp

theorem execSync_memOut (e : Fin 256) (w x : BitVec 32) (h : s.MemOk) : MemOut (execSync e w x s) := by
  unfold execSync
  refine memOut_next (MemKept.memOk_runIns ?_ h ..)
  repeat' first | with_reducible refine memKept_bind ?_ fun _ => ?_ | split
  all_goals simp

theorem execWait_memOut (e : Fin 256) (w x : BitVec 32) (h : s.MemOk) : MemOut (execWait e w x s) := by
  unfold execWait
  refine memOut_next (MemKept.memOk_runIns ?_ h ..)
  repeat' first | with_reducible refine memKept_bind ?_ fun _ => ?_ | split
  all_goals simp [memSame_modS]

theorem execDispatch_memOut (e : Fin 256) (w x : BitVec 32) (h : s.MemOk) : MemOut (execDispatch e w x s) := by
  unfold execDispatch
  refine memOut_next (MemKept.memOk_runIns ?_ h ..)
  repeat' first | with_reducible refine memKept_bind ?_ fun _ => ?_ | split
  all_goals simp

theorem execYieldEnd_memOut (e : Fin 256) (w x : BitVec 32) (h : s.MemOk) : MemOut (execYieldEnd e w x s) := by
  unfold execYieldEnd
  refine memOut_next (MemKept.memOk_runIns ?_ h ..)
  dsimp only
  repeat' first | with_reducible refine memKept_bind ?_ fun _ => ?_ | split
  all_goals simp [memSame_modS]

theorem execYieldSus_memOut (e : Fin 256) (w x : BitVec 32) (h : s.MemOk) : MemOut (execYieldSus e w x s) := by
  have hsave (k : Ctx) (c : Core) (npc : Word) (f : Run → Run) :
      MemKept (modS fun s => (s.saveCtx k.save c.cur npc c.budget).modRun k.isn f) :=
    memKept_modS fun t ht => (ht.saveCtx ..).of_mem (State.modRun_mem ..)
  unfold execYieldSus
  refine memOut_next (MemKept.memOk_runIns ?_ h ..)
  dsimp only
  repeat' first | with_reducible refine memKept_bind ?_ fun _ => ?_ | split
  all_goals simp [memSame_modS, hsave]

theorem execRep_memOut (e : Fin 256) (r w x : BitVec 32) (stop : Option Nat) (h : s.MemOk) :
    MemOut (execRep e r w x stop s) := by
  have hstart : ((s.preTrace e).startCx e r.toNat (4 + insLen w.toNat)).s.MemOk := h.of_mem (by simp)
  unfold execRep
  refine memOut_next (State.MemOk.ite h ?_)
  unfold State.around
  split
  · exact h.of_mem (s.endStep_mem _)
  refine State.MemOk.of_mem (s := _) ?_ (State.postTrace_mem ..)
  dsimp only
  split
  · exact memSame_illegal.kept.memOk_finishOp _ _ hstart
  split
  · exact (memSame_raiseV ..).kept.memOk_finishOp _ _ hstart
  split
  · exact (memSame_setCost _).kept.memOk_finishOp _ _ hstart
  · exact (memKept_repBody ..).memOk_finishOp _ _ hstart

theorem execCsrr_memOut (e : Fin 256) (w x : BitVec 32) (h : s.MemOk) : MemOut (execCsrr e w x s) := by
  unfold execCsrr
  refine memOut_next (MemKept.memOk_runIns ?_ h ..)
  repeat' first | with_reducible refine memKept_bind ?_ fun _ => ?_ | split
  all_goals simp

theorem execCsrw_memOut (e : Fin 256) (w x : BitVec 32) (h : s.MemOk) : MemOut (execCsrw e w x s) := by
  unfold execCsrw
  refine memOut_next (MemKept.memOk_runIns ?_ h ..)
  dsimp only
  repeat' first | with_reducible refine memKept_bind ?_ fun _ => ?_ | split
  all_goals simp [memSame_modS]

theorem execInvt_memOut (e : Fin 256) (w x : BitVec 32) (h : s.MemOk) : MemOut (execInvt e w x s) := by
  unfold execInvt
  refine memOut_next (MemKept.memOk_runIns ?_ h ..)
  repeat' first | with_reducible refine memKept_bind ?_ fun _ => ?_ | split
  all_goals simp

theorem execInvta_memOut (e : Fin 256) (w x : BitVec 32) (h : s.MemOk) : MemOut (execInvta e w x s) := by
  unfold execInvta
  refine memOut_next (MemKept.memOk_runIns ?_ h ..)
  repeat' first | with_reducible refine memKept_bind ?_ fun _ => ?_ | split
  all_goals simp

theorem execLd_memOut (e : Fin 256) (w x : BitVec 32) (h : s.MemOk) : MemOut (execLd e w x s) := by
  unfold execLd
  refine memOut_next (MemKept.memOk_runIns ?_ h ..)
  repeat' first | with_reducible refine memKept_bind ?_ fun _ => ?_ | split
  all_goals simp

theorem execSt_memOut (e : Fin 256) (w x : BitVec 32) (h : s.MemOk) : MemOut (execSt e w x s) := by
  unfold execSt
  refine memOut_next (MemKept.memOk_runIns ?_ h ..)
  repeat' first | with_reducible refine memKept_bind ?_ fun _ => ?_ | split
  all_goals simp

theorem execLde_memOut (e : Fin 256) (w x : BitVec 32) (h : s.MemOk) : MemOut (execLde e w x s) := by
  unfold execLde
  refine memOut_next (MemKept.memOk_runIns ?_ h ..)
  repeat' first | with_reducible refine memKept_bind ?_ fun _ => ?_ | split
  all_goals simp

theorem execSte_memOut (e : Fin 256) (w x : BitVec 32) (h : s.MemOk) : MemOut (execSte e w x s) := by
  unfold execSte
  refine memOut_next (MemKept.memOk_runIns ?_ h ..)
  repeat' first | with_reducible refine memKept_bind ?_ fun _ => ?_ | split
  all_goals simp

theorem execLea_memOut (e : Fin 256) (w x : BitVec 32) (h : s.MemOk) : MemOut (execLea e w x s) := by
  unfold execLea
  refine memOut_next (MemKept.memOk_runIns ?_ h ..)
  repeat' first | with_reducible refine memKept_bind ?_ fun _ => ?_ | split
  all_goals simp

theorem execAdd_memOut (e : Fin 256) (w x : BitVec 32) (h : s.MemOk) : MemOut (execAdd e w x s) := by
  unfold execAdd
  refine memOut_next (MemKept.memOk_runIns ?_ h ..)
  repeat' first | with_reducible refine memKept_bind ?_ fun _ => ?_ | split
  all_goals simp

theorem execSub_memOut (e : Fin 256) (w x : BitVec 32) (h : s.MemOk) : MemOut (execSub e w x s) := by
  unfold execSub
  refine memOut_next (MemKept.memOk_runIns ?_ h ..)
  repeat' first | with_reducible refine memKept_bind ?_ fun _ => ?_ | split
  all_goals simp

theorem execCmp_memOut (e : Fin 256) (w x : BitVec 32) (h : s.MemOk) : MemOut (execCmp e w x s) := by
  unfold execCmp
  refine memOut_next (MemKept.memOk_runIns ?_ h ..)
  repeat' first | with_reducible refine memKept_bind ?_ fun _ => ?_ | split
  all_goals simp

theorem execAndAcc_memOut (e : Fin 256) (w x : BitVec 32) (h : s.MemOk) : MemOut (execAndAcc e w x s) := by
  unfold execAndAcc
  refine memOut_next (MemKept.memOk_runIns ?_ h ..)
  repeat' first | with_reducible refine memKept_bind ?_ fun _ => ?_ | split
  all_goals simp

theorem execOrAcc_memOut (e : Fin 256) (w x : BitVec 32) (h : s.MemOk) : MemOut (execOrAcc e w x s) := by
  unfold execOrAcc
  refine memOut_next (MemKept.memOk_runIns ?_ h ..)
  repeat' first | with_reducible refine memKept_bind ?_ fun _ => ?_ | split
  all_goals simp

theorem execXor_memOut (e : Fin 256) (w x : BitVec 32) (h : s.MemOk) : MemOut (execXor e w x s) := by
  unfold execXor
  refine memOut_next (MemKept.memOk_runIns ?_ h ..)
  repeat' first | with_reducible refine memKept_bind ?_ fun _ => ?_ | split
  all_goals simp

theorem execShl_memOut (e : Fin 256) (w x : BitVec 32) (h : s.MemOk) : MemOut (execShl e w x s) := by
  unfold execShl
  refine memOut_next (MemKept.memOk_runIns ?_ h ..)
  repeat' first | with_reducible refine memKept_bind ?_ fun _ => ?_ | split
  all_goals simp

theorem execShr_memOut (e : Fin 256) (w x : BitVec 32) (h : s.MemOk) : MemOut (execShr e w x s) := by
  unfold execShr
  refine memOut_next (MemKept.memOk_runIns ?_ h ..)
  repeat' first | with_reducible refine memKept_bind ?_ fun _ => ?_ | split
  all_goals simp

theorem execSar_memOut (e : Fin 256) (w x : BitVec 32) (h : s.MemOk) : MemOut (execSar e w x s) := by
  unfold execSar
  refine memOut_next (MemKept.memOk_runIns ?_ h ..)
  repeat' first | with_reducible refine memKept_bind ?_ fun _ => ?_ | split
  all_goals simp

theorem execMul_memOut (e : Fin 256) (w x : BitVec 32) (h : s.MemOk) : MemOut (execMul e w x s) := by
  unfold execMul
  refine memOut_next (MemKept.memOk_runIns ?_ h ..)
  repeat' first | with_reducible refine memKept_bind ?_ fun _ => ?_ | split
  all_goals simp

theorem execMulu_memOut (e : Fin 256) (w x : BitVec 32) (h : s.MemOk) : MemOut (execMulu e w x s) := by
  unfold execMulu
  refine memOut_next (MemKept.memOk_runIns ?_ h ..)
  repeat' first | with_reducible refine memKept_bind ?_ fun _ => ?_ | split
  all_goals simp

theorem execDiv_memOut (e : Fin 256) (w x : BitVec 32) (h : s.MemOk) : MemOut (execDiv e w x s) := by
  unfold execDiv
  refine memOut_next (MemKept.memOk_runIns ?_ h ..)
  repeat' first | with_reducible refine memKept_bind ?_ fun _ => ?_ | split
  all_goals simp

theorem execDivu_memOut (e : Fin 256) (w x : BitVec 32) (h : s.MemOk) : MemOut (execDivu e w x s) := by
  unfold execDivu
  refine memOut_next (MemKept.memOk_runIns ?_ h ..)
  repeat' first | with_reducible refine memKept_bind ?_ fun _ => ?_ | split
  all_goals simp

theorem execStm_memOut (e : Fin 256) (w : BitVec 32) (x : MultiExt) (h : s.MemOk) : MemOut (execStm e w x s) := by
  unfold execStm
  refine memOut_next (MemKept.memOk_runIns ?_ h ..)
  dsimp only
  repeat' first | with_reducible refine memKept_bind ?_ fun _ => ?_ | split
  all_goals simp [memKept_eachReg]

theorem execLdm_memOut (e : Fin 256) (w : BitVec 32) (x : MultiExt) (h : s.MemOk) : MemOut (execLdm e w x s) := by
  unfold execLdm
  refine memOut_next (MemKept.memOk_runIns ?_ h ..)
  dsimp only
  repeat' first | with_reducible refine memKept_bind ?_ fun _ => ?_ | split
  all_goals simp [memSame_eachReg]

theorem execMov_memOut (e : Fin 256) (w x : BitVec 32) (h : s.MemOk) : MemOut (execMov e w x s) := by
  unfold execMov
  refine memOut_next (MemKept.memOk_runIns ?_ h ..)
  repeat' first | with_reducible refine memKept_bind ?_ fun _ => ?_ | split
  all_goals simp

theorem execLdi_memOut (e : Fin 256) (w x : BitVec 32) (h : s.MemOk) : MemOut (execLdi e w x s) := by
  unfold execLdi
  refine memOut_next (MemKept.memOk_runIns ?_ h ..)
  repeat' first | with_reducible refine memKept_bind ?_ fun _ => ?_ | split
  all_goals simp

theorem execXadd_memOut (e : Fin 256) (w x : BitVec 32) (h : s.MemOk) : MemOut (execXadd e w x s) := by
  unfold execXadd
  refine memOut_next (MemKept.memOk_runIns ?_ h ..)
  repeat' first | with_reducible refine memKept_bind ?_ fun _ => ?_ | split
  all_goals simp

theorem execXsub_memOut (e : Fin 256) (w x : BitVec 32) (h : s.MemOk) : MemOut (execXsub e w x s) := by
  unfold execXsub
  refine memOut_next (MemKept.memOk_runIns ?_ h ..)
  repeat' first | with_reducible refine memKept_bind ?_ fun _ => ?_ | split
  all_goals simp

theorem execXcmp_memOut (e : Fin 256) (w x : BitVec 32) (h : s.MemOk) : MemOut (execXcmp e w x s) := by
  unfold execXcmp
  refine memOut_next (MemKept.memOk_runIns ?_ h ..)
  repeat' first | with_reducible refine memKept_bind ?_ fun _ => ?_ | split
  all_goals simp

theorem execTtst_memOut (e : Fin 256) (w x : BitVec 32) (h : s.MemOk) : MemOut (execTtst e w x s) := by
  unfold execTtst
  refine memOut_next (MemKept.memOk_runIns ?_ h ..)
  repeat' first | with_reducible refine memKept_bind ?_ fun _ => ?_ | split
  all_goals simp

theorem execTagset_memOut (e : Fin 256) (w x : BitVec 32) (h : s.MemOk) : MemOut (execTagset e w x s) := by
  unfold execTagset
  refine memOut_next (MemKept.memOk_runIns ?_ h ..)
  repeat' first | with_reducible refine memKept_bind ?_ fun _ => ?_ | split
  all_goals simp

theorem execTtstm_memOut (e : Fin 256) (w x : BitVec 32) (h : s.MemOk) : MemOut (execTtstm e w x s) := by
  unfold execTtstm
  refine memOut_next (MemKept.memOk_runIns ?_ h ..)
  repeat' first | with_reducible refine memKept_bind ?_ fun _ => ?_ | split
  all_goals simp

theorem execTagsetm_memOut (e : Fin 256) (w x : BitVec 32) (h : s.MemOk) : MemOut (execTagsetm e w x s) := by
  unfold execTagsetm
  refine memOut_next (MemKept.memOk_runIns ?_ h ..)
  repeat' first | with_reducible refine memKept_bind ?_ fun _ => ?_ | split
  all_goals simp

theorem execDadd_memOut (e : Fin 256) (w x : BitVec 32) (h : s.MemOk) : MemOut (execDadd e w x s) := by
  unfold execDadd
  refine memOut_next (MemKept.memOk_runIns ?_ h ..)
  simp

theorem execDsub_memOut (e : Fin 256) (w x : BitVec 32) (h : s.MemOk) : MemOut (execDsub e w x s) := by
  unfold execDsub
  refine memOut_next (MemKept.memOk_runIns ?_ h ..)
  simp

theorem execDmul_memOut (e : Fin 256) (w x : BitVec 32) (h : s.MemOk) : MemOut (execDmul e w x s) := by
  unfold execDmul
  refine memOut_next (MemKept.memOk_runIns ?_ h ..)
  simp

theorem execDdiv_memOut (e : Fin 256) (w x : BitVec 32) (h : s.MemOk) : MemOut (execDdiv e w x s) := by
  unfold execDdiv
  refine memOut_next (MemKept.memOk_runIns ?_ h ..)
  dsimp only
  repeat' first | with_reducible refine memKept_bind ?_ fun _ => ?_ | split
  all_goals simp

theorem execDcmp_memOut (e : Fin 256) (w x : BitVec 32) (h : s.MemOk) : MemOut (execDcmp e w x s) := by
  unfold execDcmp
  refine memOut_next (MemKept.memOk_runIns ?_ h ..)
  repeat' first | with_reducible refine memKept_bind ?_ fun _ => ?_ | split
  all_goals simp

theorem execDset_memOut (e : Fin 256) (w x : BitVec 32) (h : s.MemOk) : MemOut (execDset e w x s) := by
  unfold execDset
  refine memOut_next (MemKept.memOk_runIns ?_ h ..)
  simp

theorem execDsrp_memOut (e : Fin 256) (w x : BitVec 32) (h : s.MemOk) : MemOut (execDsrp e w x s) := by
  unfold execDsrp
  refine memOut_next (MemKept.memOk_runIns ?_ h ..)
  repeat' first | with_reducible refine memKept_bind ?_ fun _ => ?_ | split
  all_goals simp

theorem execDadj_memOut (e : Fin 256) (w x : BitVec 32) (h : s.MemOk) : MemOut (execDadj e w x s) := by
  unfold execDadj
  refine memOut_next (MemKept.memOk_runIns ?_ h ..)
  repeat' first | with_reducible refine memKept_bind ?_ fun _ => ?_ | split
  all_goals simp

theorem execPack_memOut (e : Fin 256) (w x : BitVec 32) (h : s.MemOk) : MemOut (execPack e w x s) := by
  unfold execPack
  refine memOut_next (MemKept.memOk_runIns ?_ h ..)
  simp

theorem execUnpk_memOut (e : Fin 256) (w x : BitVec 32) (h : s.MemOk) : MemOut (execUnpk e w x s) := by
  unfold execUnpk
  refine memOut_next (MemKept.memOk_runIns ?_ h ..)
  simp

theorem execDcvb_memOut (e : Fin 256) (w x : BitVec 32) (h : s.MemOk) : MemOut (execDcvb e w x s) := by
  unfold execDcvb
  refine memOut_next (MemKept.memOk_runIns ?_ h ..)
  dsimp only
  repeat' first | with_reducible refine memKept_bind ?_ fun _ => ?_ | split
  all_goals simp

theorem execDcvd_memOut (e : Fin 256) (w x : BitVec 32) (h : s.MemOk) : MemOut (execDcvd e w x s) := by
  unfold execDcvd
  refine memOut_next (MemKept.memOk_runIns ?_ h ..)
  repeat' first | with_reducible refine memKept_bind ?_ fun _ => ?_ | split
  all_goals simp

theorem execMvs_memOut (e : Fin 256) (w x : BitVec 32) (h : s.MemOk) : MemOut (execMvs e w x s) := by
  unfold execMvs
  refine memOut_next (MemKept.memOk_runIns ?_ h ..)
  simp

theorem execMvsr_memOut (e : Fin 256) (w x : BitVec 32) (h : s.MemOk) : MemOut (execMvsr e w x s) := by
  unfold execMvsr
  refine memOut_next (MemKept.memOk_runIns ?_ h ..)
  simp

theorem execCms_memOut (e : Fin 256) (w x : BitVec 32) (h : s.MemOk) : MemOut (execCms e w x s) := by
  unfold execCms
  refine memOut_next (MemKept.memOk_runIns ?_ h ..)
  simp

theorem execTrn_memOut (e : Fin 256) (w x : BitVec 32) (h : s.MemOk) : MemOut (execTrn e w x s) := by
  unfold execTrn
  refine memOut_next (MemKept.memOk_runIns ?_ h ..)
  simp

theorem execTrt_memOut (e : Fin 256) (w x : BitVec 32) (h : s.MemOk) : MemOut (execTrt e w x s) := by
  unfold execTrt
  refine memOut_next (MemKept.memOk_runIns ?_ h ..)
  simp

theorem execSrch_memOut (e : Fin 256) (w x : BitVec 32) (h : s.MemOk) : MemOut (execSrch e w x s) := by
  unfold execSrch
  refine memOut_next (MemKept.memOk_runIns ?_ h ..)
  simp

theorem execEdit_memOut (e : Fin 256) (w x : BitVec 32) (h : s.MemOk) : MemOut (execEdit e w x s) := by
  unfold execEdit
  refine memOut_next (MemKept.memOk_runIns ?_ h ..)
  simp

theorem execEdmk_memOut (e : Fin 256) (w x : BitVec 32) (h : s.MemOk) : MemOut (execEdmk e w x s) := by
  unfold execEdmk
  refine memOut_next (MemKept.memOk_runIns ?_ h ..)
  simp

theorem execPost_memOut (e : Fin 256) (w x : BitVec 32) (h : s.MemOk) : MemOut (execPost e w x s) := by
  unfold execPost
  refine memOut_next (MemKept.memOk_runIns ?_ h ..)
  refine memKept_bind memSame_postRegs.kept fun p => memKept_bind (memSame_formEa ..).kept fun ea => ?_
  refine memKept_bind (memSame_postAccess ..).kept fun pa => memKept_bind memSame_runOf.kept fun r => ?_
  refine memKept_cx_bind fun k hk => memKept_posted
    (p := if k.s.npuBehind pa r.2.2 then (k.s, .wait) else k.s.npuPost r.1 r.2.1 pa p.1 p.2) hk ?_ ..
  split
  · rfl
  · exact k.s.npuPost_mem ..

theorem execPostr_memOut (e : Fin 256) (w x : BitVec 32) (h : s.MemOk) : MemOut (execPostr e w x s) := by
  unfold execPostr
  refine memOut_next (MemKept.memOk_runIns ?_ h ..)
  repeat' first | with_reducible refine memKept_bind ?_ fun _ => ?_ | split
  all_goals simp

theorem execPread_memOut (e : Fin 256) (w x : BitVec 32) (h : s.MemOk) : MemOut (execPread e w x s) := by
  unfold execPread
  refine memOut_next (MemKept.memOk_runIns ?_ h ..)
  refine memKept_bind (memSame_formEa ..).kept fun ea => ?_
  refine memKept_bind (memSame_postAccess ..).kept fun pa => memKept_bind memSame_runOf.kept fun r => ?_
  refine memKept_cx_bind fun k hk => memKept_posted
    (p := if k.s.npuBehind pa r.2.2 then (k.s, .wait) else k.s.npuPread r.1 r.2.1 pa) hk ?_ ..
  split
  · rfl
  · exact k.s.npuPread_mem ..

theorem execRread_memOut (e : Fin 256) (w x : BitVec 32) (h : s.MemOk) : MemOut (execRread e w x s) := by
  unfold execRread
  refine memOut_next (MemKept.memOk_runIns ?_ h ..)
  simp

theorem execFadd_memOut (e : Fin 256) (w x : BitVec 32) (h : s.MemOk) : MemOut (execFadd e w x s) := by
  unfold execFadd
  refine memOut_next (MemKept.memOk_runIns ?_ h ..)
  simp

theorem execFsub_memOut (e : Fin 256) (w x : BitVec 32) (h : s.MemOk) : MemOut (execFsub e w x s) := by
  unfold execFsub
  refine memOut_next (MemKept.memOk_runIns ?_ h ..)
  simp

theorem execFmul_memOut (e : Fin 256) (w x : BitVec 32) (h : s.MemOk) : MemOut (execFmul e w x s) := by
  unfold execFmul
  refine memOut_next (MemKept.memOk_runIns ?_ h ..)
  simp

theorem execFdiv_memOut (e : Fin 256) (w x : BitVec 32) (h : s.MemOk) : MemOut (execFdiv e w x s) := by
  unfold execFdiv
  refine memOut_next (MemKept.memOk_runIns ?_ h ..)
  simp

theorem execFmad_memOut (e : Fin 256) (w x : BitVec 32) (h : s.MemOk) : MemOut (execFmad e w x s) := by
  unfold execFmad
  refine memOut_next (MemKept.memOk_runIns ?_ h ..)
  simp

theorem execFsqrt_memOut (e : Fin 256) (w x : BitVec 32) (h : s.MemOk) : MemOut (execFsqrt e w x s) := by
  unfold execFsqrt
  refine memOut_next (MemKept.memOk_runIns ?_ h ..)
  simp

theorem execFcmp_memOut (e : Fin 256) (w x : BitVec 32) (h : s.MemOk) : MemOut (execFcmp e w x s) := by
  unfold execFcmp
  refine memOut_next (MemKept.memOk_runIns ?_ h ..)
  simp

theorem execFcmps_memOut (e : Fin 256) (w x : BitVec 32) (h : s.MemOk) : MemOut (execFcmps e w x s) := by
  unfold execFcmps
  refine memOut_next (MemKept.memOk_runIns ?_ h ..)
  simp

theorem execFcvt_memOut (e : Fin 256) (w x : BitVec 32) (h : s.MemOk) : MemOut (execFcvt e w x s) := by
  unfold execFcvt
  refine memOut_next (MemKept.memOk_runIns ?_ h ..)
  repeat' first | with_reducible refine memKept_bind ?_ fun _ => ?_ | split
  all_goals simp

theorem execFcvti_memOut (e : Fin 256) (w x : BitVec 32) (h : s.MemOk) : MemOut (execFcvti e w x s) := by
  unfold execFcvti
  refine memOut_next (MemKept.memOk_runIns ?_ h ..)
  repeat' first | with_reducible refine memKept_bind ?_ fun _ => ?_ | split
  all_goals simp

theorem execFcvtf_memOut (e : Fin 256) (w x : BitVec 32) (h : s.MemOk) : MemOut (execFcvtf e w x s) := by
  unfold execFcvtf
  refine memOut_next (MemKept.memOk_runIns ?_ h ..)
  repeat' first | with_reducible refine memKept_bind ?_ fun _ => ?_ | split
  all_goals simp

theorem execFneg_memOut (e : Fin 256) (w x : BitVec 32) (h : s.MemOk) : MemOut (execFneg e w x s) := by
  unfold execFneg
  refine memOut_next (MemKept.memOk_runIns ?_ h ..)
  simp

theorem execFabs_memOut (e : Fin 256) (w x : BitVec 32) (h : s.MemOk) : MemOut (execFabs e w x s) := by
  unfold execFabs
  refine memOut_next (MemKept.memOk_runIns ?_ h ..)
  simp

theorem execCustomerInstruction_memOut (e : Fin 256) (w x : BitVec 32) (h : s.MemOk) :
    MemOut (execCustomerInstruction e w x s) := by
  have hend (d : Word) (ea cost : Nat) : MemKept (do
      let k ← cx
      set { k with cost := fld d 43 32, xcost := fld d 43 32, path := some (2 + (k.cost - cost)) }
      let m ← uRun 4096 (mseqStart k.c k.s.free ea) (fld d 11 0) (fld d 11 0 + 1)
      uRetire m) :=
    memKept_cx_bind fun _ hk => memKept_bind (memKept_set hk) fun _ => memKept_bind (memSame_uRun ..).kept fun _ =>
      memKept_uRetire _
  have hrest (d : Word) (ea : Nat) : MemKept (do
      let k0 ← cx
      if bit d 61 then extUse false
      let k ← cx
      set { k with cost := fld d 43 32, xcost := fld d 43 32, path := some (2 + (k.cost - k0.cost)) }
      let m ← uRun 4096 (mseqStart k.c k.s.free ea) (fld d 11 0) (fld d 11 0 + 1)
      uRetire m) :=
    memKept_bind memSame_cx.kept fun k0 => memKept_guard (memKept_extUse false) (hend d ea k0.cost)
  unfold execCustomerInstruction
  split
  · exact memOut_next (MemSame.kept (memSame_parityError ..) |>.memOk_runIns h ..)
  · refine memOut_next (MemKept.memOk_runIns ?_ h ..)
    refine memKept_bind memSame_cx.kept fun k => memKept_bind memSame_privNow.kept fun _ => ?_
    generalize decEntry k.c w.toNat = d
    refine memKept_guard memSame_privFault.kept ?_
    dsimp only
    split
    · exact memKept_bind (memSame_pure 0).kept fun ea => hrest d ea
    · exact memKept_bind (memSame_formA ..).kept fun ea => hrest d ea

theorem execLevelEntry_memOut (e : Fin 256) (cause : EntryCause) (h : s.MemOk) :
    MemOut (execLevelEntry e cause s) := by
  unfold execLevelEntry
  refine memOut_next ?_
  split
  · split
    · exact h
    · dsimp only
      split
      · exact h.of_mem (by simp)
      · exact h.of_mem (by simp)
  · split
    · exact h
    · exact h.of_mem (by simp)
  · exact (memSame_pure ()).kept.memOk_runIns h ..
  · exact State.MemOk.ite (h.of_mem (memSame_fetchOp.probe ..)) h
  · exact h.of_mem (by simp)
  · exact h.of_mem (by simp)

theorem execBudgetExceeded_memOut (e : Fin 256) (h : s.MemOk) : MemOut (execBudgetExceeded e s) :=
  memOut_next (h.of_mem (by simp))

theorem execWaitWakeup_memOut (e : Fin 256) (h : s.MemOk) : MemOut (execWaitWakeup e s) := by
  have hdone (t : State) : (t.resume e 0 (done 1)).mem = t.mem := (memSame_done 1).resume t e 0
  unfold execWaitWakeup
  dsimp only
  refine memOut_next (h.of_mem ?_)
  split
  · split <;> simp [hdone]
  · rfl

theorem execSchedMessage_memOut (e : Fin 256) (code : BitVec 32) (h : s.MemOk) : MemOut (execSchedMessage e code s) :=
  memOut_next (h.of_mem (by simp))

theorem execMpNotify_memOut (e : Fin 256) (code : BitVec 32) (h : s.MemOk) : MemOut (execMpNotify e code s) :=
  memOut_next (h.of_mem (by simp))

theorem execTickPulse_memOut (h : s.MemOk) : MemOut (execTickPulse s) :=
  memOut_next (h.of_mem (by simp))

theorem execHeartbeatHalfTick_memOut (h : s.MemOk) : MemOut (execHeartbeatHalfTick s) :=
  memOut_next (h.of_mem (by simp))

theorem execRemoteClose_memOut (h : s.MemOk) : MemOut (execRemoteClose s) := by
  unfold execRemoteClose
  split
  · exact memOut_next h
  · exact memOut_next (h.of_mem (by simp))

theorem execStageClose_memOut (h : s.MemOk) : MemOut (execStageClose s) := by
  unfold execStageClose
  split
  · exact memOut_next h
  · extract_lets -merge phased closed aborted noticed cleared emptied
    have haborted : aborted.mem = s.mem := by simp -implicitDefEqProofs [aborted, closed, phased]
    clear_value aborted
    have hemptied : emptied.mem = aborted.mem := by simp -implicitDefEqProofs [emptied, cleared, noticed]
    clear_value emptied
    exact memOut_next (h.of_mem (hemptied.trans haborted))

theorem execFlip_memOut (h : s.MemOk) : MemOut (execFlip s) := by
  have hship (t : State) (done : List Run) : (done.foldl (fun (p : State × List JRec) r =>
      let (s, rec) := (p.1.idemDone r).journal (p.1.resultRec r)
      (s.modRun r.isn fun r => { r with st := .committed }, p.2 ++ [rec])) (t, [])).1.mem = t.mem :=
    State.foldl_fst_mem _ (fun p r => by simp) ..
  unfold execFlip
  split
  · exact memOut_next h
  · extract_lets -merge timed banks flipped words frames schedule
    have hbanks : banks.mem = s.mem := by simp -implicitDefEqProofs [banks, timed]
    clear_value banks
    have hflipped : flipped.MemOk := State.memOk_foldl _ (fun t u ht => State.memOk_foldl _
      (fun t x ht => ht.flipWord u x) _ _ ht) _ _ (h.of_mem hbanks)
    clear_value flipped
    split
    next ship wait _ =>
      extract_lets -merge shipped sent shipping copies kept done
      have hkept : kept.mem = flipped.mem := by simp -implicitDefEqProofs [kept, shipping]
      clear_value kept
      have hdone := hship kept done
      split
      next t recs ht =>
        rw [ht] at hdone
        extract_lets -merge remotes
        have hjournal := t.journal_mem (.commit t.tick done.length remotes)
        split
        next u c hu =>
          rw [hu] at hjournal
          exact memOut_next (hflipped.of_mem ((State.shipLog_mem ..).trans (hjournal.trans (hdone.trans hkept))))

theorem execSealDeadline_memOut (h : s.MemOk) : MemOut (execSealDeadline s) := by
  unfold execSealDeadline
  split
  · exact memOut_next h
  · exact memOut_next (h.of_mem (by simp))

theorem execStalenessSweep_memOut (h : s.MemOk) : MemOut (execStalenessSweep s) :=
  memOut_next (h.of_mem (by simp))

theorem execTickPeriodChange_memOut (h : s.MemOk) : MemOut (execTickPeriodChange s) :=
  memOut_next (h.of_mem (by simp))

theorem execIdemEntryExpiry_memOut (h : s.MemOk) : MemOut (execIdemEntryExpiry s) :=
  memOut_next (h.of_mem (by simp))

theorem execTransientExpiry_memOut (h : s.MemOk) : MemOut (execTransientExpiry s) :=
  memOut_next (h.of_mem (by simp))

theorem execIntakeStopTimeout_memOut (h : s.MemOk) : MemOut (execIntakeStopTimeout s) :=
  memOut_next (h.of_mem (by simp -implicitDefEqProofs [State.refreshStatus_mem]))

theorem execEnergyLowTimeout_memOut (h : s.MemOk) : MemOut (execEnergyLowTimeout s) :=
  memOut_next (h.of_mem (by simp -implicitDefEqProofs [State.refreshStatus_mem]))

theorem execFawnEnter_memOut (h : s.MemOk) : MemOut (execFawnEnter s) :=
  memOut_next (h.of_mem (by simp))

theorem execFawnDrainTimeout_memOut (h : s.MemOk) : MemOut (execFawnDrainTimeout s) :=
  memOut_next (h.of_mem (by simp))

theorem execHandoverAdoption_memOut (h : s.MemOk) : MemOut (execHandoverAdoption s) := by
  exact memOut_next (State.MemOk.ite (h.adopt false) h)

theorem execTakeover_memOut (h : s.MemOk) : MemOut (execTakeover s) := by
  exact memOut_next (State.MemOk.ite ((h.of_mem (s.alarm_mem ..)).adopt true) h)

theorem execResultRelease_memOut (h : s.MemOk) : MemOut (execResultRelease s) :=
  memOut_next (h.of_mem (by simp))

theorem execAcceptancePass_memOut (q : Fin 4096) (h : s.MemOk) : MemOut (execAcceptancePass q s) := by
  have hpass := s.acceptPass_mem q (s.queue q).acc.length
  unfold execAcceptancePass
  refine memOut_next (State.MemOk.ite h ?_)
  split
  next hp => rw [hp] at hpass; exact h.of_mem ((State.endPass_mem ..).trans hpass)
  next => exact h

theorem execSqTailDoorbell_memOut (f : Fin 256) (q : Fin 4096) (v : HostWord) (h : s.MemOk) :
    MemOut (execSqTailDoorbell f q v s) := by
  exact memOut_next (State.MemOk.ite h (h.of_mem (State.doorbell_mem (s.setQueue_mem ..) ..)))

theorem execCqHeadDoorbell_memOut (f : Fin 256) (q : Fin 4096) (v : HostWord) (h : s.MemOk) :
    MemOut (execCqHeadDoorbell f q v s) := by
  unfold execCqHeadDoorbell
  refine memOut_next (State.MemOk.ite h (h.of_mem (State.doorbell_mem ?_ ..)))
  extract_lets -merge resume moved full released
  have hreleased : released.mem = s.mem := by simp [released, full, moved]
  have hpass := released.acceptPass_mem q (released.queue q).acc.length
  split
  · split
    next hp => rw [hp] at hpass; exact (State.endPass_mem ..).trans (hpass.trans hreleased)
    next => exact hreleased
  · simp [full, moved]

theorem execRetireDoorbell_memOut (f : Fin 256) (q : Fin 4096) (whole : Bool) (key : BitVec 80) (h : s.MemOk) :
    MemOut (execRetireDoorbell f q whole key s) := by
  unfold execRetireDoorbell
  refine memOut_next (h.of_mem (State.doorbell_mem ?_ ..))
  dsimp only
  split
  · simp
  split
  · rfl
  · simp

theorem execDescriptorFetch_memOut (q : Fin 4096) (ok : Bool) (bytes : List Byte) (h : s.MemOk) :
    MemOut (execDescriptorFetch q ok bytes s) :=
  memOut_next (h.of_mem (by simp))

theorem execStageIn_memOut (g : Fin 8) (h : s.MemOk) : MemOut (execStageIn g s) := by
  unfold execStageIn
  refine memOut_next ?_
  split
  · exact h
  split
  · exact h
  split
  · exact h
  · exact State.MemOk.ite h (h.stageIn ..)

theorem execDescriptorDelivery_memOut (e : Fin 256) (isn : BitVec 64) (h : s.MemOk) :
    MemOut (execDescriptorDelivery e isn s) := by
  unfold execDescriptorDelivery
  refine memOut_next ?_
  split
  · exact h
  next r _ =>
    split
    · exact h
    split
    · exact h.of_mem (by simp)
    · exact h
    split
    · exact h.of_mem (by simp)
    extract_lets -merge placed at_ started traced
    have hplaced : placed.MemOk := by
      simp only [placed]
      split
      · exact h.freshPayload r
      · exact h
    clear_value placed
    exact hplaced.of_mem (by simp [traced, started])

theorem execNpuPostApply_memOut (u : Fin 12) (h : s.MemOk) : MemOut (execNpuPostApply u s) :=
  memOut_next (h.of_mem (by simp))

theorem execNpuPread_memOut (u : Fin 12) (h : s.MemOk) : MemOut (execNpuPread u s) :=
  memOut_next (h.of_mem (by simp))

theorem execNpuTouch_memOut (u : Fin 12) (h : s.MemOk) : MemOut (execNpuTouch u s) :=
  memOut_next (h.of_mem (by simp))

theorem execNpuFill_memOut (u : Fin 12) (pa : BitVec 52) (h : s.MemOk) : MemOut (execNpuFill u pa s) :=
  memOut_next (h.of_mem (by simp))

theorem execNpuRollback_memOut (u : Fin 12) (h : s.MemOk) : MemOut (execNpuRollback u s) :=
  memOut_next (h.of_mem (by simp))

theorem execNpuLost_memOut (u : Fin 12) (h : s.MemOk) : MemOut (execNpuLost u s) :=
  memOut_next (h.of_mem (by simp -implicitDefEqProofs [State.refreshStatus_mem]))

theorem execNpuBistSlice_memOut (u : Fin 12) (preempted fail : Bool) (h : s.MemOk) :
    MemOut (execNpuBistSlice u preempted fail s) :=
  memOut_next (h.of_mem (by simp -implicitDefEqProofs [State.refreshStatus_mem]))

theorem execPatrolScrub_memOut (ch : Fin 12) (e : Ecc) (h : s.MemOk) : MemOut (execPatrolScrub ch e s) :=
  memOut_next (h.of_mem (by simp))

theorem execSoftPpr_memOut (ch : Fin 12) (dev : DramDevice) (row : BitVec 32) (h : s.MemOk) :
    MemOut (execSoftPpr ch dev row s) :=
  memOut_next (h.of_mem (by simp))

theorem execMemoryChannelRetrain_memOut (ch : Fin 12) (cleared : Bool) (h : s.MemOk) :
    MemOut (execMemoryChannelRetrain ch cleared s) :=
  memOut_next (h.of_mem (by simp))

theorem execRemoteRepairTimeout_memOut (line : BitVec 46) (h : s.MemOk) : MemOut (execRemoteRepairTimeout line s) :=
  memOut_next (h.of_mem (by simp))

theorem execRepair_memOut (src : Fin 4096) (line : BitVec 46) (h : s.MemOk) : MemOut (execRepair src line s) :=
  memOut_next (h.of_mem (by simp))

theorem execRepairComplete_memOut (line : BitVec 46) (ws : List TWord) (h : s.MemOk) :
    MemOut (execRepairComplete line ws s) := by
  unfold execRepairComplete
  dsimp only
  refine memOut_next ?_
  split
  · exact (h.putLine (64 * line.toNat) ws).of_mem (by simp)
  split
  · have hfresh := h.freshen (64 * line.toNat) ws
    split
    · exact hfresh.of_mem (by simp)
    · exact hfresh
  · exact h

theorem execBeacon_memOut (p : Fin 8) (b : Beacon) (h : s.MemOk) : MemOut (execBeacon p b s) :=
  memOut_next (h.of_mem (by simp -implicitDefEqProofs))

theorem execBeaconSend_memOut (h : s.MemOk) : MemOut (execBeaconSend s) :=
  memOut_next (h.of_mem (by simp))

theorem execElectionSettle_memOut (manager : Bool) (h : s.MemOk) : MemOut (execElectionSettle manager s) :=
  memOut_next (h.of_mem (by simp))

theorem execManage_memOut (src : Fin 4096) (m : Manage) (h : s.MemOk) : MemOut (execManage src m s) := by
  unfold execManage
  dsimp only
  refine memOut_next (h.of_mem ?_)
  repeat' split
  all_goals simp -implicitDefEqProofs

theorem execManagerFailover_memOut (h : s.MemOk) : MemOut (execManagerFailover s) :=
  memOut_next (h.of_mem (by simp))

theorem execTimeProbeSend_memOut (h : s.MemOk) : MemOut (execTimeProbeSend s) :=
  memOut_next (h.of_mem (by simp -implicitDefEqProofs))

theorem execTimeProbe_memOut (p : Fin 8) (delay : BitVec 16) (h : s.MemOk) : MemOut (execTimeProbe p delay s) :=
  memOut_next (h.of_mem (by simp))

theorem execTimeSyncSend_memOut (h : s.MemOk) : MemOut (execTimeSyncSend s) :=
  memOut_next (h.of_mem (by simp -implicitDefEqProofs))

theorem execTimeSync_memOut (time : BitVec 64) (tick : BitVec 48) (d : SyncData) (h : s.MemOk) :
    MemOut (execTimeSync time tick d s) :=
  memOut_next (h.of_mem (by simp))

theorem execTimeSyncTimeout_memOut (h : s.MemOk) : MemOut (execTimeSyncTimeout s) :=
  memOut_next (h.of_mem (by simp))

theorem execHeartbeat_memOut (src : Fin 4096) (mseq : BitVec 32) (fawn : Bool) (h : s.MemOk) :
    MemOut (execHeartbeat src mseq fawn s) :=
  memOut_next (h.of_mem (by simp))

theorem execHeartbeatMissed_memOut (h : s.MemOk) : MemOut (execHeartbeatMissed s) :=
  memOut_next (h.of_mem (by simp))

theorem execLeaseRenew_memOut (m : Sender) (paired : Bool) (h : s.MemOk) : MemOut (execLeaseRenew m paired s) := by
  unfold execLeaseRenew
  dsimp only
  exact memOut_next (h.of_mem (by simp))

theorem execLeaseOk_memOut (m : Sender) (h : s.MemOk) : MemOut (execLeaseOk m s) := by
  unfold execLeaseOk
  dsimp only
  exact memOut_next (h.of_mem (by simp))

theorem execWitnessTimeout_memOut (h : s.MemOk) : MemOut (execWitnessTimeout s) :=
  memOut_next (h.of_mem (by simp))

theorem execLeaseTakeoverReq_memOut (m : Sender) (subject : Fin 4096) (lasthb : BitVec 64) (rival : Bool)
    (h : s.MemOk) :
    MemOut (execLeaseTakeoverReq m subject lasthb rival s) := by
  unfold execLeaseTakeoverReq
  dsimp only
  exact memOut_next (h.of_mem (by simp))

theorem execLeaseGrant_memOut (m : Sender) (h : s.MemOk) : MemOut (execLeaseGrant m s) := by
  unfold execLeaseGrant
  dsimp only
  exact memOut_next (h.of_mem (by simp))

theorem execLeaseDenied_memOut (m : Sender) (h : s.MemOk) : MemOut (execLeaseDenied m s) := by
  unfold execLeaseDenied
  dsimp only
  exact memOut_next (h.of_mem (by simp))

theorem execLeaseExpiry_memOut (h : s.MemOk) : MemOut (execLeaseExpiry s) :=
  memOut_next (h.of_mem (by simp))

theorem execHandoverReq_memOut (src : Fin 4096) (mseq : BitVec 32) (h : s.MemOk) :
    MemOut (execHandoverReq src mseq s) :=
  memOut_next (h.of_mem (by simp))

theorem execHandoverSend_memOut (h : s.MemOk) : MemOut (execHandoverSend s) :=
  memOut_next (h.of_mem (by simp))

theorem execHandoverAck_memOut (m : Sender) (h : s.MemOk) : MemOut (execHandoverAck m s) := by
  unfold execHandoverAck
  dsimp only
  exact memOut_next (h.of_mem (by simp))

theorem execHandoverRefused_memOut (m : Sender) (h : s.MemOk) : MemOut (execHandoverRefused m s) := by
  unfold execHandoverRefused
  dsimp only
  exact memOut_next (h.of_mem (by simp))

theorem execRestore_memOut (src : Fin 4096) (t : Tables) (work : ReturnedWork) (h : s.MemOk) :
    MemOut (execRestore src t work s) := by
  unfold execRestore
  refine memOut_next (State.MemOk.ite h ?_)
  split
  · exact State.memOk_foldl _ (fun t im ht => State.MemOk.ite (ht.putImage ..) ht) _ _ (s.clearArea_memOk _ _ h)
  · extract_lets -merge walked granted keyed owned back
    have hkeyed : keyed.mem = s.mem := by simp -implicitDefEqProofs [keyed, granted, walked]
    clear_value keyed
    have hok : keyed.MemOk := h.of_mem hkeyed
    have howned : owned.MemOk := State.memOk_foldl _ (fun t im ht => ht.putOwn im) _ _ (State.MemOk.ite
      hok.clearOwn hok)
    clear_value owned
    exact howned.of_mem (by simp [back])

theorem execTables_memOut (src : Fin 4096) (t : Tables) (h : s.MemOk) : MemOut (execTables src t s) :=
  memOut_next (h.of_mem (by simp))

theorem execJournal_memOut (src : Fin 4096) (r : JRec) (h : s.MemOk) : MemOut (execJournal src r s) :=
  memOut_next (h.of_mem (by simp))

theorem execPostlog_memOut (src : Fin 4096) (p : LogMsg) (h : s.MemOk) : MemOut (execPostlog src p s) := by
  unfold execPostlog
  refine memOut_next (State.MemOk.ite h ?_)
  split
  · exact h.takePostlog ..
  · exact h.of_mem (State.takeEntry_mem ..)

theorem execPinRecord_memOut (src : Fin 4096) (mseq : BitVec 32) (p : PinRec) (h : s.MemOk) :
    MemOut (execPinRecord src mseq p s) :=
  memOut_next (h.of_mem (by simp))

theorem execMirrorAck_memOut (m : Sender) (a : MirAck) (h : s.MemOk) : MemOut (execMirrorAck m a s) := by
  unfold execMirrorAck
  dsimp only
  refine memOut_next (h.of_mem ?_)
  repeat' split
  all_goals simp

theorem execRemoteCloseMessage_memOut (src : Fin 4096) (mseq : BitVec 32) (c : CloseRec) (to_ : List Nat)
    (h : s.MemOk) :
    MemOut (execRemoteCloseMessage src mseq c to_ s) :=
  memOut_next (h.of_mem (by simp -implicitDefEqProofs))

theorem execRollbackNotice_memOut (src : Fin 4096) (mseq : BitVec 32) (tick : BitVec 48) (okey : BitVec 80)
    (direct : Bool) (h : s.MemOk) :
    MemOut (execRollbackNotice src mseq tick okey direct s) := by
  unfold execRollbackNotice
  dsimp only
  exact memOut_next (h.of_mem (by simp))

theorem execRollbackAck_memOut (src : Fin 4096) (mseq : BitVec 32) (h : s.MemOk) :
    MemOut (execRollbackAck src mseq s) :=
  memOut_next (h.of_mem (by simp))

theorem execRemoteLost_memOut (src : Fin 4096) (mseq : BitVec 32) (tick : BitVec 48) (okey : BitVec 80)
    (h : s.MemOk) :
    MemOut (execRemoteLost src mseq tick okey s) := by
  unfold execRemoteLost
  dsimp only
  exact memOut_next (h.of_mem (by simp))

theorem execRpost_memOut (src : Fin 4096) (rq : RReq) (h : s.MemOk) : MemOut (execRpost src rq s) :=
  memOut_next (h.of_mem (by simp))

theorem execRreadFrame_memOut (src : Fin 4096) (rq : RReq) (h : s.MemOk) : MemOut (execRreadFrame src rq s) :=
  memOut_next (h.of_mem (by simp))

theorem execRreply_memOut (r : RReply) (h : s.MemOk) : MemOut (execRreply r s) := by
  unfold execRreply
  dsimp only
  refine memOut_next (h.of_mem ?_)
  repeat' split
  all_goals simp

theorem execFrameForward_memOut (p : Fin 8) (fr : Transit) (h : s.MemOk) : MemOut (execFrameForward p fr s) :=
  memOut_next (h.of_mem (by simp))

theorem execLinkRetryRequest_memOut (p : Fin 8) (fseq : BitVec 32) (h : s.MemOk) :
    MemOut (execLinkRetryRequest p fseq s) :=
  memOut_next (h.of_mem (by simp))

theorem execLinkKeyAgreement_memOut (p : Fin 8) (ok : Bool) (h : s.MemOk) : MemOut (execLinkKeyAgreement p ok s) :=
  memOut_next (h.of_mem (by simp))

theorem execLinkRekey_memOut (p : Fin 8) (h : s.MemOk) : MemOut (execLinkRekey p s) :=
  memOut_next (h.of_mem (by simp))

theorem execLinkNarrowed_memOut (p : Fin 8) (lanes : BitVec 4) (h : s.MemOk) : MemOut (execLinkNarrowed p lanes s) :=
  memOut_next (h.of_mem (by simp))

theorem execLockstepMismatch_memOut (c : Fin 32) (sl : Fin 5) (gx gy : BitVec 48) (odd : Option Nat) (h : s.MemOk) :
    MemOut (execLockstepMismatch c sl gx gy odd s) := by
  unfold execLockstepMismatch
  dsimp only
  refine memOut_next (h.of_mem ?_)
  repeat' split
  all_goals simp

theorem execSampleDisagree_memOut (c : Fin 32) (sl : Fin 5) (odd : Option Nat) (h : s.MemOk) :
    MemOut (execSampleDisagree c sl odd s) := by
  unfold execSampleDisagree
  dsimp only
  refine memOut_next (h.of_mem ?_)
  repeat' split
  all_goals simp

theorem execTriageComplete_memOut (c : Fin 32) (sl : Fin 5) (failed : List Nat) (h : s.MemOk) :
    MemOut (execTriageComplete c sl failed s) :=
  memOut_next (h.of_mem (by simp))

theorem execResyncImageCapture_memOut (c : Fin 32) (sl : Fin 5) (h : s.MemOk) :
    MemOut (execResyncImageCapture c sl s) := by
  unfold execResyncImageCapture
  dsimp only
  refine memOut_next (State.MemOk.ite h ?_)
  split
  · exact h.of_mem (s.modSlotX_mem ..)
  next p _ =>
    have hcaptured : ∀ f, (s.modSlotX c sl f).MemOk := fun f => h.of_mem (s.modSlotX_mem ..)
    have hpromote (t : State) := t.promote_mem c sl p (t.lastCore c sl p)
    split
    next hp =>
      exact (hcaptured _).of_mem ((State.toResync_mem ..).trans ((congrArg (·.1.mem) hp).symm.trans (hpromote _)))
    next => exact (hcaptured _).of_mem (State.modSlotX_mem ..)

theorem execColdResync_memOut (c : Fin 32) (sl : Fin 5) (r : Chamois) (h : s.MemOk) :
    MemOut (execColdResync c sl r s) :=
  memOut_next (h.of_mem (by simp))

theorem execChamoisReinjection_memOut (c : Fin 32) (sl : Fin 5) (r : Chamois) (window preempted : Bool)
    (h : s.MemOk) :
    MemOut (execChamoisReinjection c sl r window preempted s) :=
  memOut_next (h.of_mem (by simp))

theorem execSpareSelfTest_memOut (e : Fin 256) (h : s.MemOk) : MemOut (execSpareSelfTest e s) :=
  memOut_next (h.of_mem (by simp))

theorem execUnitSplitHandover_memOut (c : Fin 32) (sl : Fin 5) (h : s.MemOk) :
    MemOut (execUnitSplitHandover c sl s) := by
  unfold execUnitSplitHandover
  dsimp only
  refine memOut_next (h.of_mem ?_)
  repeat' split
  all_goals simp

theorem execUnitRejoinHandover_memOut (c : Fin 32) (sl : Fin 5) (h : s.MemOk) :
    MemOut (execUnitRejoinHandover c sl s) := by
  unfold execUnitRejoinHandover
  dsimp only
  refine memOut_next (h.of_mem ?_)
  repeat' split
  all_goals simp

theorem execClusterReset_memOut (c : Fin 32) (fail : List Nat) (rs : List SlotPass) (h : s.MemOk) :
    MemOut (execClusterReset c fail rs s) :=
  memOut_next (h.of_mem (by simp))

theorem execC6Entry_memOut (e : Fin 256) (h : s.MemOk) : MemOut (execC6Entry e s) :=
  memOut_next (h.of_mem (by simp))

theorem execC6Exit_memOut (e : Fin 256) (h : s.MemOk) : MemOut (execC6Exit e s) :=
  memOut_next (h.of_mem (by simp))

theorem execMicrocodeActivation_memOut (same : Bool) (h : s.MemOk) : MemOut (execMicrocodeActivation same s) := by
  unfold execMicrocodeActivation
  dsimp only
  refine memOut_next (h.of_mem ?_)
  repeat' split
  all_goals simp

theorem execTcmCodeInstall_memOut (e : Fin 256) (h : s.MemOk) : MemOut (execTcmCodeInstall e s) :=
  memOut_next (h.of_mem (by simp))

theorem execFmuRecord_memOut (level : Fin 6) (r : Rec) (h : s.MemOk) : MemOut (execFmuRecord level r s) :=
  memOut_next (h.of_mem (by simp))

theorem execAggregatorEntryClose_memOut (level : Fin 6) (idx : Fin 1000) (sig : BitVec 16) (root : BitVec 32)
    (h : s.MemOk) :
    MemOut (execAggregatorEntryClose level idx sig root s) := by
  unfold execAggregatorEntryClose
  dsimp only
  refine memOut_next (h.of_mem ?_)
  repeat' split
  all_goals simp

theorem execFmuRecordForward_memOut (h : s.MemOk) : MemOut (execFmuRecordForward s) := by
  unfold execFmuRecordForward
  dsimp only
  refine memOut_next (h.of_mem ?_)
  repeat' split
  all_goals simp

theorem execMpMemberLost_memOut (m : Fin 3) (h : s.MemOk) : MemOut (execMpMemberLost m s) :=
  memOut_next (h.of_mem (by simp))

theorem execOmiHealthRead_memOut (src : OmiSrc) (rq : OmiReq) (_env : OmiEnv) (h : s.MemOk) :
    MemOut (execOmiHealthRead src rq _env s) := by
  refine memOut_next (h.omiRun _ _ _ _ _ fun t ht => ht.of_mem ?_)
  simp

theorem execOmiFaultLogRead_memOut (src : OmiSrc) (rq : OmiReq) (env : OmiEnv) (h : s.MemOk) :
    MemOut (execOmiFaultLogRead src rq env s) := by
  refine memOut_next (h.omiRun _ _ _ _ _ fun t ht => ht.of_mem ?_)
  simp

theorem execOmiPartitionCreate_memOut (src : OmiSrc) (rq : OmiReq) (_env : OmiEnv) (h : s.MemOk) :
    MemOut (execOmiPartitionCreate src rq _env s) := by
  refine memOut_next (h.omiRun _ _ _ _ _ fun t ht => ht.of_mem ?_)
  simp

theorem execOmiPartitionDelete_memOut (src : OmiSrc) (rq : OmiReq) (_env : OmiEnv) (h : s.MemOk) :
    MemOut (execOmiPartitionDelete src rq _env s) := by
  refine memOut_next (h.omiRun _ _ _ _ _ fun t ht => ht.of_mem ?_)
  simp

theorem execOmiFunctionBind_memOut (src : OmiSrc) (rq : OmiReq) (_env : OmiEnv) (h : s.MemOk) :
    MemOut (execOmiFunctionBind src rq _env s) := by
  refine memOut_next (h.omiRun _ _ _ _ _ fun t ht => ht.of_mem ?_)
  dsimp only
  repeat' split
  all_goals simp

theorem execOmiQueueCreate_memOut (src : OmiSrc) (rq : OmiReq) (_env : OmiEnv) (h : s.MemOk) :
    MemOut (execOmiQueueCreate src rq _env s) := by
  refine memOut_next (h.omiRun _ _ _ _ _ fun t ht => ht.of_mem ?_)
  simp

theorem execOmiQueueDelete_memOut (src : OmiSrc) (rq : OmiReq) (_env : OmiEnv) (h : s.MemOk) :
    MemOut (execOmiQueueDelete src rq _env s) := by
  refine memOut_next (h.omiRun _ _ _ _ _ fun t ht => ht.of_mem ?_)
  simp

theorem execOmiGrantSet_memOut (src : OmiSrc) (rq : OmiReq) (env : OmiEnv) (h : s.MemOk) :
    MemOut (execOmiGrantSet src rq env s) := by
  refine memOut_next (h.omiRun _ _ _ _ _ fun t ht => ht.of_mem ?_)
  simp

theorem execOmiTablesShip_memOut (src : OmiSrc) (rq : OmiReq) (env : OmiEnv) (h : s.MemOk) :
    MemOut (execOmiTablesShip src rq env s) := by
  refine memOut_next (h.omiRun _ _ _ _ _ fun t ht => ht.of_mem ?_)
  simp

theorem execOmiTcmCodeLoad_memOut (src : OmiSrc) (rq : OmiReq) (_env : OmiEnv) (h : s.MemOk) :
    MemOut (execOmiTcmCodeLoad src rq _env s) := by
  refine memOut_next (h.omiRun _ _ _ _ _ fun t ht => ht.of_mem ?_)
  simp

theorem execOmiMemoryLayoutSet_memOut (src : OmiSrc) (rq : OmiReq) (_env : OmiEnv) (ptnM ptnP : Nat) (h : s.MemOk) :
    MemOut (execOmiMemoryLayoutSet src rq _env ptnM ptnP s) := by
  refine memOut_next (h.omiRun _ _ _ _ _ fun t ht => ht.of_mem ?_)
  simp

theorem execOmiJournalKeySet_memOut (src : OmiSrc) (rq : OmiReq) (env : OmiEnv) (h : s.MemOk) :
    MemOut (execOmiJournalKeySet src rq env s) := by
  refine memOut_next (h.omiRun _ _ _ _ _ fun t ht => ht.of_mem ?_)
  dsimp only
  split <;> simp

theorem execOmiTakeoverQueueSet_memOut (src : OmiSrc) (rq : OmiReq) (_env : OmiEnv) (h : s.MemOk) :
    MemOut (execOmiTakeoverQueueSet src rq _env s) := by
  refine memOut_next (h.omiRun _ _ _ _ _ fun t ht => ht.of_mem ?_)
  simp

theorem execOmiAdmitSet_memOut (src : OmiSrc) (rq : OmiReq) (_env : OmiEnv) (h : s.MemOk) :
    MemOut (execOmiAdmitSet src rq _env s) := by
  refine memOut_next (h.omiRun _ _ _ _ _ fun t ht => ht.of_mem ?_)
  simp

theorem execOmiUnitSplit_memOut (src : OmiSrc) (rq : OmiReq) (_env : OmiEnv) (h : s.MemOk) :
    MemOut (execOmiUnitSplit src rq _env s) := by
  refine memOut_next (h.unitMode _ _ _ fun t _ _ ht => ht.of_mem ?_)
  simp

theorem execOmiUnitRejoin_memOut (src : OmiSrc) (rq : OmiReq) (_env : OmiEnv) (h : s.MemOk) :
    MemOut (execOmiUnitRejoin src rq _env s) := by
  refine memOut_next (h.unitMode _ _ _ fun t _ _ ht => ht.of_mem ?_)
  simp

theorem execOmiClusterModeSet_memOut (src : OmiSrc) (rq : OmiReq) (_env : OmiEnv) (h : s.MemOk) :
    MemOut (execOmiClusterModeSet src rq _env s) := by
  refine memOut_next (h.omiRun _ _ _ _ _ fun t ht => ht.of_mem ?_)
  dsimp only
  split <;> simp

theorem execOmiMicrocodeLoad_memOut (src : OmiSrc) (rq : OmiReq) (env : OmiEnv) (h : s.MemOk) :
    MemOut (execOmiMicrocodeLoad src rq env s) := by
  refine memOut_next (h.omiRun _ _ _ _ _ fun t ht => ht.of_mem ?_)
  dsimp only
  repeat' split
  all_goals simp

theorem execOmiFirmwareUpdate_memOut (src : OmiSrc) (rq : OmiReq) (env : OmiEnv) (img : FwImg) (h : s.MemOk) :
    MemOut (execOmiFirmwareUpdate src rq env img s) := by
  refine memOut_next (h.omiRun _ _ _ _ _ fun t ht => ht.of_mem ?_)
  simp

theorem execOmiCredentialEnroll_memOut (src : OmiSrc) (rq : OmiReq) (env : OmiEnv) (h : s.MemOk) :
    MemOut (execOmiCredentialEnroll src rq env s) := by
  refine memOut_next (h.omiRun _ _ _ _ _ fun t ht => ht.of_mem ?_)
  dsimp only
  repeat' split
  all_goals simp

theorem execOmiDegradationClear_memOut (src : OmiSrc) (rq : OmiReq) (_env : OmiEnv) (repaired : Bool) (h : s.MemOk) :
    MemOut (execOmiDegradationClear src rq _env repaired s) := by
  refine memOut_next (h.omiRun _ _ _ _ _ fun t ht => ht.of_mem ?_)
  simp

theorem execOmiFawnExit_memOut (src : OmiSrc) (rq : OmiReq) (_env : OmiEnv) (h : s.MemOk) :
    MemOut (execOmiFawnExit src rq _env s) := by
  refine memOut_next (h.omiRun _ _ _ _ _ fun t ht => ht.of_mem ?_)
  simp

theorem execOmiMailboxAssign_memOut (src : OmiSrc) (rq : OmiReq) (_env : OmiEnv) (h : s.MemOk) :
    MemOut (execOmiMailboxAssign src rq _env s) := by
  refine memOut_next (h.omiRun _ _ _ _ _ fun t ht => ht.of_mem ?_)
  simp

theorem execOmiRoleSet_memOut (src : OmiSrc) (rq : OmiReq) (_env : OmiEnv) (h : s.MemOk) :
    MemOut (execOmiRoleSet src rq _env s) := by
  refine memOut_next (h.omiRun _ _ _ _ _ fun t ht => ht.of_mem ?_)
  simp -implicitDefEqProofs

theorem execOmiPartnerSet_memOut (src : OmiSrc) (rq : OmiReq) (_env : OmiEnv) (h : s.MemOk) :
    MemOut (execOmiPartnerSet src rq _env s) := by
  refine memOut_next (h.omiRun _ _ _ _ _ fun t ht => ht.of_mem ?_)
  simp -implicitDefEqProofs

theorem execOmiPartnerRestore_memOut (src : OmiSrc) (rq : OmiReq) (_env : OmiEnv) (h : s.MemOk) :
    MemOut (execOmiPartnerRestore src rq _env s) := by
  refine memOut_next (h.omiRun _ _ _ _ _ fun t ht => ht.of_mem ?_)
  simp

theorem execOmiLedgerLoad_memOut (src : OmiSrc) (rq : OmiReq) (env : OmiEnv) (image : List FrameImg) (h : s.MemOk) :
    MemOut (execOmiLedgerLoad src rq env image s) := by
  refine memOut_next (h.omiRun _ _ _ _ _ fun t ht => ?_)
  extract_lets m put above sealed told
  split
  · exact ht
  split
  · exact ht
  have hput : put.MemOk := State.memOk_foldl _ (fun _ im hu => hu.putImage ..) _ _ (ht.of_mem (t.readBuffer_mem ..))
  clear_value put
  have habove : above.mem = (put.applyAbove m).mem := by simp -implicitDefEqProofs [above]
  clear_value above
  exact (hput.applyAbove m).of_mem (Eq.trans (by simp -implicitDefEqProofs [told, sealed]) habove)

theorem execOmiDeviceIdRelease_memOut (src : OmiSrc) (rq : OmiReq) (_env : OmiEnv) (held : Bool) (h : s.MemOk) :
    MemOut (execOmiDeviceIdRelease src rq _env held s) := by
  refine memOut_next (h.omiRun _ _ _ _ _ fun t ht => ht.of_mem ?_)
  dsimp only
  split <;> simp -implicitDefEqProofs

theorem execOmiTickPeriodSet_memOut (src : OmiSrc) (rq : OmiReq) (_env : OmiEnv) (h : s.MemOk) :
    MemOut (execOmiTickPeriodSet src rq _env s) := by
  refine memOut_next (h.omiRun _ _ _ _ _ fun t ht => ht.of_mem ?_)
  simp

theorem execDevIdWrite_memOut (v : BitVec 64) (h : s.MemOk) : MemOut (execDevIdWrite v s) := by
  exact memOut_next (h.ctlWrite ..)

theorem execCsrControlWrite_memOut (m : Master) (e : Fin 256) (n : BitVec 16) (v : BitVec 64) (h : s.MemOk) :
    MemOut (execCsrControlWrite m e n v s) := by
  exact memOut_next (State.MemOk.ite (h.mWrite ..) h)

theorem execCluSignalWrite_memOut (m : Master) (c : Fin 32) (k : Fin 8) (code : BitVec 8) (h : s.MemOk) :
    MemOut (execCluSignalWrite m c k code s) := by
  exact memOut_next (h.mWrite ..)

theorem execKeyFksetSet_memOut (m : Master) (frame : BitVec 40) (fp : Bool) (key : BitVec 8) (h : s.MemOk) :
    MemOut (execKeyFksetSet m frame fp key s) := by
  exact memOut_next (h.mWrite ..)

theorem execKeyFksetQuery_memOut (m : Master) (frame : BitVec 40) (h : s.MemOk) :
    MemOut (execKeyFksetQuery m frame s) := by
  exact memOut_next (h.mWrite ..)

theorem execKeyFksetInvalidate_memOut (m : Master) (frame : BitVec 40) (fp : Bool) (key : BitVec 8) (h : s.MemOk) :
    MemOut (execKeyFksetInvalidate m frame fp key s) := by
  exact memOut_next (h.mWrite ..)

theorem execTsqPeriodWrite_memOut (nxt : BitVec 8) (tick : BitVec 48) (h : s.MemOk) :
    MemOut (execTsqPeriodWrite nxt tick s) := by
  exact memOut_next (h.ctlWrite ..)

theorem execRstCtlCold_memOut (h : s.MemOk) : MemOut (execRstCtlCold s) := by
  exact memOut_next (h.ctlWrite ..)

theorem execRstCtlWarm_memOut (h : s.MemOk) : MemOut (execRstCtlWarm s) := by
  exact memOut_next (h.ctlWrite ..)

theorem execRstPartGo_memOut (m : Master) (part : Fin 1024) (h : s.MemOk) : MemOut (execRstPartGo m part s) := by
  exact memOut_next (h.mWrite ..)

theorem execDbgAuthcmdGo_memOut (level : Fin 4) (index : Fin 64) (bar4 : Bool) (h : s.MemOk) :
    MemOut (execDbgAuthcmdGo level index bar4 s) :=
  memOut_next (h.of_mem (by simp))

theorem execDbgAuthcmdClose_memOut (h : s.MemOk) : MemOut (execDbgAuthcmdClose s) :=
  memOut_next (h.of_mem (by simp))

theorem execDbgHaltSet_memOut (c : Fin 32) (h : s.MemOk) : MemOut (execDbgHaltSet c s) :=
  memOut_next (h.of_mem (by simp))

theorem execDbgHaltRelease_memOut (c : Fin 32) (h : s.MemOk) : MemOut (execDbgHaltRelease c s) :=
  memOut_next (h.of_mem (by simp))

theorem execDbgStepGo_memOut (e : Fin 256) (int : Bool) (h : s.MemOk) : MemOut (execDbgStepGo e int s) :=
  memOut_next (h.of_mem (by simp))

theorem execDbgReqWrite_memOut (loc : BitVec 32) (code : BitVec 8) (h : s.MemOk) :
    MemOut (execDbgReqWrite loc code s) :=
  memOut_next (h.of_mem (by simp))

theorem execDbgMaRead_memOut (word : BitVec 49) (h : s.MemOk) : MemOut (execDbgMaRead word s) :=
  memOut_next (h.of_mem (by simp))

theorem execDbgMaWrite_memOut (word : BitVec 49) (v : BitVec 64) (tag : BitVec 4) (h : s.MemOk) :
    MemOut (execDbgMaWrite word v tag s) := by
  exact memOut_next (State.MemOk.ite (h.maWrite _ _ fun t o w ht => ht.maCtl o w)
    (((h.dbgWrite ..).dbgWrite ..).dbgWrite ..))

theorem execDbgLockExpiry_memOut (h : s.MemOk) : MemOut (execDbgLockExpiry s) :=
  memOut_next (h.of_mem (by simp))

theorem execDbgSessionTimeout_memOut (h : s.MemOk) : MemOut (execDbgSessionTimeout s) :=
  memOut_next (h.of_mem (by simp))

theorem execTapUpdateIr_memOut (code : BitVec 8) (h : s.MemOk) : MemOut (execTapUpdateIr code s) :=
  memOut_next (h.of_mem (by simp))

theorem execDbgacc_memOut (go wr : Bool) (off : BitVec 24) (v : BitVec 64) (h : s.MemOk) :
    MemOut (execDbgacc go wr off v s) := by
  unfold execDbgacc
  dsimp only
  refine memOut_next (State.MemOk.ite h ?_)
  split
  · exact h
  split
  · exact (State.MemOk.ite (h.windowWrite ..) h).of_mem (State.modDbg_mem ..)
  · exact h.of_mem (by simp)

theorem execTraceBufferRead_memOut (off : BitVec 20) (h : s.MemOk) : MemOut (execTraceBufferRead off s) :=
  memOut_next (h.of_mem (by simp))

theorem execRegisterWrite_memOut (m : Master) (off : BitVec 48) (v : BitVec 64) (h : s.MemOk) :
    MemOut (execRegisterWrite m off v s) := by
  unfold execRegisterWrite
  refine memOut_next ?_
  split
  · exact h.of_mem (s.bar0Write_mem ..)
  · exact h.of_mem (s.bar2Write_mem ..)
  · exact State.MemOk.ite (h.windowWrite ..) h
  · exact State.MemOk.ite (h.windowWrite ..) h
  · exact h.mWrite ..

theorem execRegisterReadClear_memOut (m : Master) (off : BitVec 48) (h : s.MemOk) :
    MemOut (execRegisterReadClear m off s) := by
  unfold execRegisterReadClear
  refine memOut_next ?_
  dsimp only
  split
  · exact h.of_mem (s.bar0Read_mem ..)
  · exact h.of_mem (s.bar2Read_mem ..)
  · exact h.of_mem (by simp)
  · exact h.of_mem (by simp)
  · exact h.coreAccess _ _ fun t ht => ht.of_mem (t.ctlRead_mem ..)
  · exact h.of_mem (s.ctlRead_mem ..)

theorem execColdReset_memOut (env : ColdEnv) (h : s.MemOk) : MemOut (execColdReset env s) := by
  unfold execColdReset
  refine memOut_next (State.MemOk.ite h (State.MemOk.ite h ?_))
  exact (s.coldBase_memOk _).startUp ..

theorem execIntakeOpen_memOut (h : s.MemOk) : MemOut (execIntakeOpen s) :=
  memOut_next (h.of_mem (by simp))

theorem execFirmwareCounterRaise_memOut (h : s.MemOk) : MemOut (execFirmwareCounterRaise s) :=
  memOut_next (h.of_mem (by simp))

theorem execWarmResetRequest_memOut (h : s.MemOk) : MemOut (execWarmResetRequest s) :=
  memOut_next (h.of_mem (by simp))

theorem execWarmReset_memOut (env : BootEnv) (h : s.MemOk) : MemOut (execWarmReset env s) := by
  unfold execWarmReset
  dsimp only
  refine memOut_next (h.of_mem ?_)
  repeat' split
  all_goals simp -implicitDefEqProofs

theorem execWarmResetResume_memOut (tick : BitVec 48) (h : s.MemOk) : MemOut (execWarmResetResume tick s) :=
  memOut_next (h.of_mem (by simp))

theorem execPartitionReset_memOut (h : s.MemOk) : MemOut (execPartitionReset s) :=
  memOut_next (h.of_mem (by simp))

theorem execPwrFail_memOut (h : s.MemOk) : MemOut (execPwrFail s) :=
  memOut_next (h.of_mem (by simp))

theorem execVaultUndervoltage_memOut (h : s.MemOk) : MemOut (execVaultUndervoltage s) :=
  memOut_next (h.of_mem (by simp))

theorem execDumpComplete_memOut (h : s.MemOk) : MemOut (execDumpComplete s) :=
  memOut_next (h.of_mem (by simp))

theorem execRailFault_memOut (i : Fin 8) (h : s.MemOk) : MemOut (execRailFault i s) :=
  memOut_next (h.of_mem (by simp))

theorem execVrAlert_memOut (stat : List Nat) (h : s.MemOk) : MemOut (execVrAlert stat s) :=
  memOut_next (h.of_mem (by simp))

theorem execPmbusPoll_memOut (rs : List RailRead) (h : s.MemOk) : MemOut (execPmbusPoll rs s) :=
  memOut_next (h.of_mem (by simp))

theorem execTimerefLost_memOut (h : s.MemOk) : MemOut (execTimerefLost s) :=
  memOut_next (h.of_mem (by simp))

theorem execPllLockLoss_memOut (c : Fin 32) (h : s.MemOk) : MemOut (execPllLockLoss c s) :=
  memOut_next (h.of_mem (by simp))

theorem execTemperatureSample_memOut (t0 t1 t2 : List Int) (h : s.MemOk) :
    MemOut (execTemperatureSample t0 t1 t2 s) :=
  memOut_next (h.of_mem (by simp -implicitDefEqProofs [State.refreshStatus_mem]))

theorem execThermTrip_memOut (h : s.MemOk) : MemOut (execThermTrip s) :=
  memOut_next (h.of_mem (by simp))

theorem execCapacitanceTest_memOut (v0 : BitVec 16) (h : s.MemOk) : MemOut (execCapacitanceTest v0 s) :=
  memOut_next (h.of_mem (by simp))

theorem execCapacitanceTestComplete_memOut (v1 v2 : BitVec 16) (h : s.MemOk) :
    MemOut (execCapacitanceTestComplete v1 v2 s) := by
  unfold execCapacitanceTestComplete
  dsimp only
  refine memOut_next (h.of_mem ?_)
  repeat' split
  all_goals simp

theorem execEnergyEstimate_memOut (v : BitVec 16) (h : s.MemOk) : MemOut (execEnergyEstimate v s) :=
  memOut_next (h.of_mem (by simp))

theorem execDebugDomainReset_memOut (h : s.MemOk) : MemOut (execDebugDomainReset s) :=
  memOut_next (h.of_mem (by simp))

theorem execFlr_memOut (f : Fin 256) (h : s.MemOk) : MemOut (execFlr f s) :=
  memOut_next (h.of_mem (by simp))

theorem execBusMasterDisable_memOut (f : Fin 256) (h : s.MemOk) : MemOut (execBusMasterDisable f s) :=
  memOut_next (h.of_mem (by simp))

theorem execHostLinkDown_memOut (hot : Bool) (h : s.MemOk) : MemOut (execHostLinkDown hot s) :=
  memOut_next (h.of_mem (by simp))

theorem execIdeFault_memOut (stream : Fin 8) (h : s.MemOk) : MemOut (execIdeFault stream s) :=
  memOut_next (h.of_mem (by simp))

theorem execMbxDoorbell_memOut (m : Fin 32) (seq : BitVec 32) (fn : Fin 256) (size : Nat) (h : s.MemOk) :
    MemOut (execMbxDoorbell m seq fn size s) :=
  memOut_next (h.of_mem (by simp))

theorem execLinkTrainingComplete_memOut (p : Fin 8) (lanes : BitVec 4) (h : s.MemOk) :
    MemOut (execLinkTrainingComplete p lanes s) :=
  memOut_next (h.of_mem (by simp))

theorem execHostLinkUp_memOut (width : Fin 17) (speed : Fin 5) (flit : Bool) (h : s.MemOk) :
    MemOut (execHostLinkUp width speed flit s) :=
  memOut_next (h.of_mem (by simp))

theorem execBusMasterEnable_memOut (f : Fin 256) (h : s.MemOk) : MemOut (execBusMasterEnable f s) :=
  memOut_next (h.of_mem (by simp))

theorem execVddDbgLoss_memOut (h : s.MemOk) : MemOut (execVddDbgLoss s) :=
  memOut_next (h.of_mem (by simp))

theorem execStateCopyComplete_memOut (c : Fin 32) (sl : Fin 5) (h : s.MemOk) :
    MemOut (execStateCopyComplete c sl s) :=
  memOut_next (h.of_mem (by simp))

theorem execSpareSelfTestComplete_memOut (e : Fin 256) (fail : Bool) (h : s.MemOk) :
    MemOut (execSpareSelfTestComplete e fail s) :=
  memOut_next (h.of_mem (by simp))

theorem execDimmDeviceFault_memOut (ch : Fin 12) (rank dev : BitVec 8) (h : s.MemOk) :
    MemOut (execDimmDeviceFault ch rank dev s) :=
  memOut_next (h.of_mem (by simp))

theorem execJournalAckMissing_memOut (rsn : BitVec 64) (h : s.MemOk) : MemOut (execJournalAckMissing rsn s) := by
  unfold execJournalAckMissing
  dsimp only
  refine memOut_next (h.of_mem ?_)
  repeat' split
  all_goals simp

theorem execMpPairMismatch_memOut (failed : List Nat) (h : s.MemOk) : MemOut (execMpPairMismatch failed s) :=
  memOut_next (h.of_mem (by simp))

theorem execTimeMasterFailover_memOut (h : s.MemOk) : MemOut (execTimeMasterFailover s) :=
  memOut_next (h.of_mem (by simp))

theorem execVendorReleaseRoll_memOut (c : Fin 32) (release : BitVec 32) (micro nano : List Nat) (ok : Bool)
    (h : s.MemOk) :
    MemOut (execVendorReleaseRoll c release micro nano ok s) :=
  memOut_next (h.of_mem (by simp))

theorem execSmbusClockLowTimeout_memOut (master : Bool) (h : s.MemOk) : MemOut (execSmbusClockLowTimeout master s) :=
  memOut_next (h.of_mem (by simp))

theorem execZqRecalibration_memOut (h : s.MemOk) : MemOut (execZqRecalibration s) :=
  memOut_next (h.of_mem (by simp))

theorem execVaultDomainPowerOff_memOut (h : s.MemOk) : MemOut (execVaultDomainPowerOff s) :=
  memOut_next (h.of_mem (by simp))

/-- Every command keeps the memory in canonical form. -/
theorem exec_memOut (c : Instr) (h : s.MemOk) : MemOut (exec c s) := by
  cases c with
  | nop e w x => exact execNop_memOut e w x h
  | jmp e w x => exact execJmp_memOut e w x h
  | call e w x => exact execCall_memOut e w x h
  | ret e w x => exact execRet_memOut e w x h
  | retl e w x => exact execRetl_memOut e w x h
  | svc e w x => exact execSvc_memOut e w x h
  | sync e w x => exact execSync_memOut e w x h
  | wait e w x => exact execWait_memOut e w x h
  | dispatch e w x => exact execDispatch_memOut e w x h
  | yieldEnd e w x => exact execYieldEnd_memOut e w x h
  | yieldSus e w x => exact execYieldSus_memOut e w x h
  | rep e r w x stop => exact execRep_memOut e r w x stop h
  | csrr e w x => exact execCsrr_memOut e w x h
  | csrw e w x => exact execCsrw_memOut e w x h
  | invt e w x => exact execInvt_memOut e w x h
  | invta e w x => exact execInvta_memOut e w x h
  | ld e w x => exact execLd_memOut e w x h
  | st e w x => exact execSt_memOut e w x h
  | lde e w x => exact execLde_memOut e w x h
  | ste e w x => exact execSte_memOut e w x h
  | lea e w x => exact execLea_memOut e w x h
  | add e w x => exact execAdd_memOut e w x h
  | sub e w x => exact execSub_memOut e w x h
  | cmp e w x => exact execCmp_memOut e w x h
  | andAcc e w x => exact execAndAcc_memOut e w x h
  | orAcc e w x => exact execOrAcc_memOut e w x h
  | xor e w x => exact execXor_memOut e w x h
  | shl e w x => exact execShl_memOut e w x h
  | shr e w x => exact execShr_memOut e w x h
  | sar e w x => exact execSar_memOut e w x h
  | mul e w x => exact execMul_memOut e w x h
  | mulu e w x => exact execMulu_memOut e w x h
  | div e w x => exact execDiv_memOut e w x h
  | divu e w x => exact execDivu_memOut e w x h
  | stm e w x => exact execStm_memOut e w x h
  | ldm e w x => exact execLdm_memOut e w x h
  | mov e w x => exact execMov_memOut e w x h
  | ldi e w x => exact execLdi_memOut e w x h
  | xadd e w x => exact execXadd_memOut e w x h
  | xsub e w x => exact execXsub_memOut e w x h
  | xcmp e w x => exact execXcmp_memOut e w x h
  | ttst e w x => exact execTtst_memOut e w x h
  | tagset e w x => exact execTagset_memOut e w x h
  | ttstm e w x => exact execTtstm_memOut e w x h
  | tagsetm e w x => exact execTagsetm_memOut e w x h
  | dadd e w x => exact execDadd_memOut e w x h
  | dsub e w x => exact execDsub_memOut e w x h
  | dmul e w x => exact execDmul_memOut e w x h
  | ddiv e w x => exact execDdiv_memOut e w x h
  | dcmp e w x => exact execDcmp_memOut e w x h
  | dset e w x => exact execDset_memOut e w x h
  | dsrp e w x => exact execDsrp_memOut e w x h
  | dadj e w x => exact execDadj_memOut e w x h
  | pack e w x => exact execPack_memOut e w x h
  | unpk e w x => exact execUnpk_memOut e w x h
  | dcvb e w x => exact execDcvb_memOut e w x h
  | dcvd e w x => exact execDcvd_memOut e w x h
  | mvs e w x => exact execMvs_memOut e w x h
  | mvsr e w x => exact execMvsr_memOut e w x h
  | cms e w x => exact execCms_memOut e w x h
  | trn e w x => exact execTrn_memOut e w x h
  | trt e w x => exact execTrt_memOut e w x h
  | srch e w x => exact execSrch_memOut e w x h
  | edit e w x => exact execEdit_memOut e w x h
  | edmk e w x => exact execEdmk_memOut e w x h
  | post e w x => exact execPost_memOut e w x h
  | postr e w x => exact execPostr_memOut e w x h
  | pread e w x => exact execPread_memOut e w x h
  | rread e w x => exact execRread_memOut e w x h
  | fadd e w x => exact execFadd_memOut e w x h
  | fsub e w x => exact execFsub_memOut e w x h
  | fmul e w x => exact execFmul_memOut e w x h
  | fdiv e w x => exact execFdiv_memOut e w x h
  | fmad e w x => exact execFmad_memOut e w x h
  | fsqrt e w x => exact execFsqrt_memOut e w x h
  | fcmp e w x => exact execFcmp_memOut e w x h
  | fcmps e w x => exact execFcmps_memOut e w x h
  | fcvt e w x => exact execFcvt_memOut e w x h
  | fcvti e w x => exact execFcvti_memOut e w x h
  | fcvtf e w x => exact execFcvtf_memOut e w x h
  | fneg e w x => exact execFneg_memOut e w x h
  | fabs e w x => exact execFabs_memOut e w x h
  | customerInstruction e w x => exact execCustomerInstruction_memOut e w x h
  | levelEntry e cause => exact execLevelEntry_memOut e cause h
  | budgetExceeded e => exact execBudgetExceeded_memOut e h
  | waitWakeup e => exact execWaitWakeup_memOut e h
  | schedMessage e code => exact execSchedMessage_memOut e code h
  | mpNotify e code => exact execMpNotify_memOut e code h
  | tickPulse => exact execTickPulse_memOut h
  | heartbeatHalfTick => exact execHeartbeatHalfTick_memOut h
  | remoteClose => exact execRemoteClose_memOut h
  | stageClose => exact execStageClose_memOut h
  | flip => exact execFlip_memOut h
  | sealDeadline => exact execSealDeadline_memOut h
  | stalenessSweep => exact execStalenessSweep_memOut h
  | tickPeriodChange => exact execTickPeriodChange_memOut h
  | idemEntryExpiry => exact execIdemEntryExpiry_memOut h
  | transientExpiry => exact execTransientExpiry_memOut h
  | intakeStopTimeout => exact execIntakeStopTimeout_memOut h
  | energyLowTimeout => exact execEnergyLowTimeout_memOut h
  | fawnEnter => exact execFawnEnter_memOut h
  | fawnDrainTimeout => exact execFawnDrainTimeout_memOut h
  | handoverAdoption => exact execHandoverAdoption_memOut h
  | takeover => exact execTakeover_memOut h
  | resultRelease => exact execResultRelease_memOut h
  | acceptancePass q => exact execAcceptancePass_memOut q h
  | sqTailDoorbell f q v => exact execSqTailDoorbell_memOut f q v h
  | cqHeadDoorbell f q v => exact execCqHeadDoorbell_memOut f q v h
  | retireDoorbell f q whole key => exact execRetireDoorbell_memOut f q whole key h
  | descriptorFetch q ok bytes => exact execDescriptorFetch_memOut q ok bytes h
  | stageIn g => exact execStageIn_memOut g h
  | descriptorDelivery e isn => exact execDescriptorDelivery_memOut e isn h
  | npuPostApply u => exact execNpuPostApply_memOut u h
  | npuPread u => exact execNpuPread_memOut u h
  | npuTouch u => exact execNpuTouch_memOut u h
  | npuFill u pa => exact execNpuFill_memOut u pa h
  | npuRollback u => exact execNpuRollback_memOut u h
  | npuLost u => exact execNpuLost_memOut u h
  | npuBistSlice u preempted fail => exact execNpuBistSlice_memOut u preempted fail h
  | patrolScrub ch e => exact execPatrolScrub_memOut ch e h
  | softPpr ch dev row => exact execSoftPpr_memOut ch dev row h
  | memoryChannelRetrain ch cleared => exact execMemoryChannelRetrain_memOut ch cleared h
  | remoteRepairTimeout line => exact execRemoteRepairTimeout_memOut line h
  | repair src line => exact execRepair_memOut src line h
  | repairComplete line ws => exact execRepairComplete_memOut line ws h
  | beacon p b => exact execBeacon_memOut p b h
  | beaconSend => exact execBeaconSend_memOut h
  | electionSettle manager => exact execElectionSettle_memOut manager h
  | manage src m => exact execManage_memOut src m h
  | managerFailover => exact execManagerFailover_memOut h
  | timeProbeSend => exact execTimeProbeSend_memOut h
  | timeProbe p delay => exact execTimeProbe_memOut p delay h
  | timeSyncSend => exact execTimeSyncSend_memOut h
  | timeSync time tick d => exact execTimeSync_memOut time tick d h
  | timeSyncTimeout => exact execTimeSyncTimeout_memOut h
  | heartbeat src mseq fawn => exact execHeartbeat_memOut src mseq fawn h
  | heartbeatMissed => exact execHeartbeatMissed_memOut h
  | leaseRenew m paired => exact execLeaseRenew_memOut m paired h
  | leaseOk m => exact execLeaseOk_memOut m h
  | witnessTimeout => exact execWitnessTimeout_memOut h
  | leaseTakeoverReq m subject lasthb rival => exact execLeaseTakeoverReq_memOut m subject lasthb rival h
  | leaseGrant m => exact execLeaseGrant_memOut m h
  | leaseDenied m => exact execLeaseDenied_memOut m h
  | leaseExpiry => exact execLeaseExpiry_memOut h
  | handoverReq src mseq => exact execHandoverReq_memOut src mseq h
  | handoverSend => exact execHandoverSend_memOut h
  | handoverAck m => exact execHandoverAck_memOut m h
  | handoverRefused m => exact execHandoverRefused_memOut m h
  | restore src t work => exact execRestore_memOut src t work h
  | tables src t => exact execTables_memOut src t h
  | journal src r => exact execJournal_memOut src r h
  | postlog src p => exact execPostlog_memOut src p h
  | pinRecord src mseq p => exact execPinRecord_memOut src mseq p h
  | mirrorAck m a => exact execMirrorAck_memOut m a h
  | remoteCloseMessage src mseq c to_ => exact execRemoteCloseMessage_memOut src mseq c to_ h
  | rollbackNotice src mseq tick okey direct => exact execRollbackNotice_memOut src mseq tick okey direct h
  | rollbackAck src mseq => exact execRollbackAck_memOut src mseq h
  | remoteLost src mseq tick okey => exact execRemoteLost_memOut src mseq tick okey h
  | rpost src rq => exact execRpost_memOut src rq h
  | rreadFrame src rq => exact execRreadFrame_memOut src rq h
  | rreply r => exact execRreply_memOut r h
  | frameForward p fr => exact execFrameForward_memOut p fr h
  | linkRetryRequest p fseq => exact execLinkRetryRequest_memOut p fseq h
  | linkKeyAgreement p ok => exact execLinkKeyAgreement_memOut p ok h
  | linkRekey p => exact execLinkRekey_memOut p h
  | linkNarrowed p lanes => exact execLinkNarrowed_memOut p lanes h
  | lockstepMismatch c sl gx gy odd => exact execLockstepMismatch_memOut c sl gx gy odd h
  | sampleDisagree c sl odd => exact execSampleDisagree_memOut c sl odd h
  | triageComplete c sl failed => exact execTriageComplete_memOut c sl failed h
  | resyncImageCapture c sl => exact execResyncImageCapture_memOut c sl h
  | coldResync c sl r => exact execColdResync_memOut c sl r h
  | chamoisReinjection c sl r window preempted => exact execChamoisReinjection_memOut c sl r window preempted h
  | spareSelfTest e => exact execSpareSelfTest_memOut e h
  | unitSplitHandover c sl => exact execUnitSplitHandover_memOut c sl h
  | unitRejoinHandover c sl => exact execUnitRejoinHandover_memOut c sl h
  | clusterReset c fail rs => exact execClusterReset_memOut c fail rs h
  | c6Entry e => exact execC6Entry_memOut e h
  | c6Exit e => exact execC6Exit_memOut e h
  | microcodeActivation same => exact execMicrocodeActivation_memOut same h
  | tcmCodeInstall e => exact execTcmCodeInstall_memOut e h
  | fmuRecord level r => exact execFmuRecord_memOut level r h
  | aggregatorEntryClose level idx sig root => exact execAggregatorEntryClose_memOut level idx sig root h
  | fmuRecordForward => exact execFmuRecordForward_memOut h
  | mpMemberLost m => exact execMpMemberLost_memOut m h
  | omiHealthRead src rq env => exact execOmiHealthRead_memOut src rq env h
  | omiFaultLogRead src rq env => exact execOmiFaultLogRead_memOut src rq env h
  | omiPartitionCreate src rq env => exact execOmiPartitionCreate_memOut src rq env h
  | omiPartitionDelete src rq env => exact execOmiPartitionDelete_memOut src rq env h
  | omiFunctionBind src rq env => exact execOmiFunctionBind_memOut src rq env h
  | omiQueueCreate src rq env => exact execOmiQueueCreate_memOut src rq env h
  | omiQueueDelete src rq env => exact execOmiQueueDelete_memOut src rq env h
  | omiGrantSet src rq env => exact execOmiGrantSet_memOut src rq env h
  | omiTablesShip src rq env => exact execOmiTablesShip_memOut src rq env h
  | omiTcmCodeLoad src rq env => exact execOmiTcmCodeLoad_memOut src rq env h
  | omiMemoryLayoutSet src rq env ptnM ptnP => exact execOmiMemoryLayoutSet_memOut src rq env ptnM ptnP h
  | omiJournalKeySet src rq env => exact execOmiJournalKeySet_memOut src rq env h
  | omiTakeoverQueueSet src rq env => exact execOmiTakeoverQueueSet_memOut src rq env h
  | omiAdmitSet src rq env => exact execOmiAdmitSet_memOut src rq env h
  | omiUnitSplit src rq env => exact execOmiUnitSplit_memOut src rq env h
  | omiUnitRejoin src rq env => exact execOmiUnitRejoin_memOut src rq env h
  | omiClusterModeSet src rq env => exact execOmiClusterModeSet_memOut src rq env h
  | omiMicrocodeLoad src rq env => exact execOmiMicrocodeLoad_memOut src rq env h
  | omiFirmwareUpdate src rq env img => exact execOmiFirmwareUpdate_memOut src rq env img h
  | omiCredentialEnroll src rq env => exact execOmiCredentialEnroll_memOut src rq env h
  | omiDegradationClear src rq env repaired => exact execOmiDegradationClear_memOut src rq env repaired h
  | omiFawnExit src rq env => exact execOmiFawnExit_memOut src rq env h
  | omiMailboxAssign src rq env => exact execOmiMailboxAssign_memOut src rq env h
  | omiRoleSet src rq env => exact execOmiRoleSet_memOut src rq env h
  | omiPartnerSet src rq env => exact execOmiPartnerSet_memOut src rq env h
  | omiPartnerRestore src rq env => exact execOmiPartnerRestore_memOut src rq env h
  | omiLedgerLoad src rq env image => exact execOmiLedgerLoad_memOut src rq env image h
  | omiDeviceIdRelease src rq env held => exact execOmiDeviceIdRelease_memOut src rq env held h
  | omiTickPeriodSet src rq env => exact execOmiTickPeriodSet_memOut src rq env h
  | devIdWrite v => exact execDevIdWrite_memOut v h
  | csrControlWrite m e n v => exact execCsrControlWrite_memOut m e n v h
  | cluSignalWrite m c k code => exact execCluSignalWrite_memOut m c k code h
  | keyFksetSet m frame fp key => exact execKeyFksetSet_memOut m frame fp key h
  | keyFksetQuery m frame => exact execKeyFksetQuery_memOut m frame h
  | keyFksetInvalidate m frame fp key => exact execKeyFksetInvalidate_memOut m frame fp key h
  | tsqPeriodWrite nxt tick => exact execTsqPeriodWrite_memOut nxt tick h
  | rstCtlCold => exact execRstCtlCold_memOut h
  | rstCtlWarm => exact execRstCtlWarm_memOut h
  | rstPartGo m part => exact execRstPartGo_memOut m part h
  | dbgAuthcmdGo level index bar4 => exact execDbgAuthcmdGo_memOut level index bar4 h
  | dbgAuthcmdClose => exact execDbgAuthcmdClose_memOut h
  | dbgHaltSet c => exact execDbgHaltSet_memOut c h
  | dbgHaltRelease c => exact execDbgHaltRelease_memOut c h
  | dbgStepGo e int => exact execDbgStepGo_memOut e int h
  | dbgReqWrite loc code => exact execDbgReqWrite_memOut loc code h
  | dbgMaRead word => exact execDbgMaRead_memOut word h
  | dbgMaWrite word v tag => exact execDbgMaWrite_memOut word v tag h
  | dbgLockExpiry => exact execDbgLockExpiry_memOut h
  | dbgSessionTimeout => exact execDbgSessionTimeout_memOut h
  | tapUpdateIr code => exact execTapUpdateIr_memOut code h
  | dbgacc go wr off v => exact execDbgacc_memOut go wr off v h
  | traceBufferRead off => exact execTraceBufferRead_memOut off h
  | registerWrite m off v => exact execRegisterWrite_memOut m off v h
  | registerReadClear m off => exact execRegisterReadClear_memOut m off h
  | coldReset env => exact execColdReset_memOut env h
  | intakeOpen => exact execIntakeOpen_memOut h
  | firmwareCounterRaise => exact execFirmwareCounterRaise_memOut h
  | warmResetRequest => exact execWarmResetRequest_memOut h
  | warmReset env => exact execWarmReset_memOut env h
  | warmResetResume tick => exact execWarmResetResume_memOut tick h
  | partitionReset => exact execPartitionReset_memOut h
  | pwrFail => exact execPwrFail_memOut h
  | vaultUndervoltage => exact execVaultUndervoltage_memOut h
  | dumpComplete => exact execDumpComplete_memOut h
  | railFault rail => exact execRailFault_memOut rail h
  | vrAlert stat => exact execVrAlert_memOut stat h
  | pmbusPoll rs => exact execPmbusPoll_memOut rs h
  | timerefLost => exact execTimerefLost_memOut h
  | pllLockLoss c => exact execPllLockLoss_memOut c h
  | temperatureSample t0 t1 t2 => exact execTemperatureSample_memOut t0 t1 t2 h
  | thermTrip => exact execThermTrip_memOut h
  | capacitanceTest v0 => exact execCapacitanceTest_memOut v0 h
  | capacitanceTestComplete v1 v2 => exact execCapacitanceTestComplete_memOut v1 v2 h
  | energyEstimate v => exact execEnergyEstimate_memOut v h
  | debugDomainReset => exact execDebugDomainReset_memOut h
  | flr f => exact execFlr_memOut f h
  | busMasterDisable f => exact execBusMasterDisable_memOut f h
  | hostLinkDown hot => exact execHostLinkDown_memOut hot h
  | ideFault stream => exact execIdeFault_memOut stream h
  | mbxDoorbell m seq fn size => exact execMbxDoorbell_memOut m seq fn size h
  | linkTrainingComplete p lanes => exact execLinkTrainingComplete_memOut p lanes h
  | hostLinkUp width speed flit => exact execHostLinkUp_memOut width speed flit h
  | busMasterEnable f => exact execBusMasterEnable_memOut f h
  | vddDbgLoss => exact execVddDbgLoss_memOut h
  | stateCopyComplete c sl => exact execStateCopyComplete_memOut c sl h
  | spareSelfTestComplete e fail => exact execSpareSelfTestComplete_memOut e fail h
  | dimmDeviceFault ch rank dev => exact execDimmDeviceFault_memOut ch rank dev h
  | journalAckMissing rsn => exact execJournalAckMissing_memOut rsn h
  | mpPairMismatch failed => exact execMpPairMismatch_memOut failed h
  | timeMasterFailover => exact execTimeMasterFailover_memOut h
  | vendorReleaseRoll c release micro nano ok => exact execVendorReleaseRoll_memOut c release micro nano ok h
  | smbusClockLowTimeout master => exact execSmbusClockLowTimeout_memOut master h
  | zqRecalibration => exact execZqRecalibration_memOut h
  | vaultDomainPowerOff => exact execVaultDomainPowerOff_memOut h

/-- Settles O3: a step is the command at the front of the queue on the state with the rest of the queue, and every
command keeps the form of the memory. -/
theorem stepKeepsMemoryCanonical : Obligations.StepKeepsMemoryCanonical := by
  intro s t h ht
  unfold step at ht
  split at ht
  · cases ht
    exact h
  next c rest _ => exact exec_memOut (s := { s with pending := rest }) c h t ht

/-- Settles O4: reset writes only the areas of its configuration, by the writers that keep the form. -/
theorem resetMemoryCanonical : Obligations.ResetMemoryCanonical := reset_memOk

end Sys2Proof.Machine
end

section
/-!
PROOFS. Control space, first part: taking an exception changes no storage key (R53, R260).
-/
namespace Sys2Proof.Machine

variable (s : State)

theorem State.Quiet.keys {t u : State} (h : t.Quiet u) : t.keys = u.keys := by
  have := congrArg State.keys h.1.1
  exact this

@[simp] theorem State.ite_keys (c : Prop) [Decidable c] (t u : State) :
    (if c then t else u).keys = if c then t.keys else u.keys := apply_ite State.keys c t u

@[simp] theorem State.ite_fst_keys {β : Type} (c : Prop) [Decidable c] (p q : State × β) :
    (if c then p else q).1.keys = if c then p.1.keys else q.1.keys :=
  apply_ite (fun p : State × β => p.1.keys) c p q

@[simp] theorem State.foldl_keys {α : Type} (f : State → α → State) (h : ∀ t a, (f t a).keys = t.keys) (l : List α)
    (s : State) : (l.foldl f s).keys = s.keys := foldl_keeps State.keys f h l s

@[simp] theorem State.carveout_keys (pa : Nat) : (s.carveout pa).keys = s.keys := by
  unfold State.carveout; split <;> simp

@[simp] theorem State.vecEntry_keys (vbr : Word) (v : Nat) : (s.vecEntry vbr v).1.keys = s.keys := by
  unfold State.vecEntry; dsimp only; split <;> simp

@[simp] theorem State.modCore_keys (e : Nat) (f : Core → Core) : (s.modCore e f).keys = s.keys := by
  simp [State.modCore]
@[simp] theorem State.wf_keys (r : Reg) (hi lo v : Nat) : (s.wf r hi lo v).keys = s.keys := rfl
@[simp] theorem State.count_keys (r : Reg) (hi lo n : Nat) : (s.count r hi lo n).keys = s.keys := by
  simp [State.count, State.wf]
@[simp] theorem State.unprotect_keys : s.unprotect.keys = s.keys := rfl
@[simp] theorem State.modSlotX_keys (c sl : Nat) (f : SlotX → SlotX) : (s.modSlotX c sl f).keys = s.keys := rfl

@[simp] theorem State.latchEvent_keys (c sl kind pos gx gy : Nat) :
    (s.latchEvent c sl kind pos gx gy).keys = s.keys := by simp [State.latchEvent]
@[simp] theorem State.setSlotState_keys (c sl v : Nat) : (s.setSlotState c sl v).keys = s.keys := by
  simp [State.setSlotState]
@[simp] theorem State.rollbackAll_keys (A : List Nat) : (s.rollbackAll A).keys = s.keys := by
  simp [State.rollbackAll]
@[simp] theorem State.abortRuns_keys (A : List Nat) (isOvr : Bool) : (s.abortRuns A isOvr).keys = s.keys := by
  simp [State.abortRuns]
@[simp] theorem State.cancelReqs_keys (es : List Nat) : (s.cancelReqs es).keys = s.keys := by
  simp -implicitDefEqProofs [State.cancelReqs]

@[simp] theorem State.trcEmit_keys (e : Nat) (pc : Word) (bs : List Byte) : (s.trcEmit e pc bs).keys = s.keys :=
  (trcEmit_quiet s e pc bs).keys

@[simp] theorem State.trcSync_keys (e : Nat) (pc : Word) : (s.trcSync e pc).keys = s.keys :=
  (trcSync_quiet s e pc).keys

@[simp] theorem State.trcBegin_keys (e : Nat) (pc : Word) : (s.trcBegin e pc).keys = s.keys :=
  (trcBegin_quiet s e pc).keys

@[simp] theorem State.trcWake_keys (e : Nat) (pc : Word) : (s.trcWake e pc).keys = s.keys := by
  unfold State.trcWake
  split
  · rfl
  split
  · rfl
  split
  · rfl
  · dsimp only
    split <;> simp

@[simp] theorem State.leaveC6_keys (e : Nat) : (s.leaveC6 e).keys = s.keys := by simp [State.leaveC6]
@[simp] theorem State.freezeCores_keys (es : List Nat) : (s.freezeCores es).keys = s.keys := by
  simp [State.freezeCores]
@[simp] theorem State.stopUnit_keys (e kind sig gx gy : Nat) : (s.stopUnit e kind sig gx gy).keys = s.keys := by
  unfold State.stopUnit State.stopWith
  split <;> simp

@[simp] theorem State.trcExc_keys (e vec lev : Nat) (rpc : Word) : (s.trcExc e vec lev rpc).keys = s.keys := by
  unfold State.trcExc
  split <;> simp

@[simp] theorem State.takeExc_keys (e : Nat) (c : Core) (x : Exc) (rpc : Word) :
    (s.takeExc e c x rpc).keys = s.keys := by
  unfold State.takeExc
  dsimp only
  split
  · simp
  split
  · simp
  split
  · simp
  · split <;> simp

end Sys2Proof.Machine
end

section
/-!
PROOFS. Control space, second part: what an offset names, and which rule a write there follows (R49 to R52).
-/
namespace Sys2Proof.Machine

/-! The addresses of control space (R49 to R52, R263). -/

theorem ofOffset_cluster (m o : Nat) (hlo : 0x1000000 ≤ o) (hhi : o < 0x3000000) :
    CtlAddr.ofOffset m o = cluAddr ((o - 0x1000000) / 0x100000) (o % 0x100000) := by
  have hbelow (n : Nat) (hn : n ≤ 0x1000000) : ¬ o < n := by omega
  simp [CtlAddr.ofOffset, hbelow, hhi]

theorem ofOffset_cluSignal (m : Nat) {c k : Nat} (hc : c < 32) (hk : k < 8) :
    CtlAddr.ofOffset m (Reg.offset (.cluSignal c k)) = .reg (.cluSignal c k) := by
  have hwin : (Reg.offset (.cluSignal c k) - 0x1000000) / 0x100000 = c := by simp only [Reg.offset]; omega
  have hoff : Reg.offset (.cluSignal c k) % 0x100000 = 0x100 + k * 8 := by simp only [Reg.offset]; omega
  rw [ofOffset_cluster _ _ (by simp only [Reg.offset]; omega) (by simp only [Reg.offset]; omega), hwin, hoff]
  simp only [cluAddr]
  rw [if_neg (by omega), if_neg (by omega), if_pos (by omega), Nat.add_sub_cancel_left,
    Nat.mul_div_cancel _ (by decide)]

theorem ofOffset_csrOffset (m : Nat) {e n : Nat} (he : e < 256) (hn : n < 0x2000) :
    CtlAddr.ofOffset m (csrOffset e n) = .csr e n := by
  have hwin : (csrOffset e n - 0x1000000) / 0x100000 = e / 8 := by simp only [csrOffset]; omega
  have hoff : csrOffset e n % 0x100000 = 0x80000 + e % 8 * 0x10000 + n * 8 := by simp only [csrOffset]; omega
  rw [ofOffset_cluster _ _ (by simp only [csrOffset]; omega) (by simp only [csrOffset]; omega), hwin, hoff]
  simp only [cluAddr]
  rw [if_neg (by omega), if_neg (by omega), if_neg (by omega), if_neg (by omega), if_neg (by omega), if_neg (by omega),
    if_neg (by omega), if_pos (by omega)]
  have hcore : e / 8 * 8 + (0x80000 + e % 8 * 0x10000 + n * 8 - 0x80000) / 0x10000 = e := by omega
  have hnum : (0x80000 + e % 8 * 0x10000 + n * 8) % 0x10000 / 8 = n := by omega
  rw [hcore, hnum]

theorem windowOf_cluster {o : Nat} (hlo : 0x1000000 ≤ o) (hhi : o < 0x3000000) :
    windowOf o = some ((o - 0x1000000) / 0x100000) := if_pos ⟨hlo, hhi⟩

theorem windowOf_cluSignal {c k : Nat} (hc : c < 32) (hk : k < 8) :
    windowOf (Reg.offset (.cluSignal c k)) = some c := by
  have hwin : (Reg.offset (.cluSignal c k) - 0x1000000) / 0x100000 = c := by simp only [Reg.offset]; omega
  rw [windowOf_cluster (by simp only [Reg.offset]; omega) (by simp only [Reg.offset]; omega), hwin]

theorem windowOf_csrOffset {e n : Nat} (he : e < 256) (hn : n < 0x2000) :
    windowOf (csrOffset e n) = some (e / 8) := by
  have hwin : (csrOffset e n - 0x1000000) / 0x100000 = e / 8 := by simp only [csrOffset]; omega
  rw [windowOf_cluster (by simp only [csrOffset]; omega) (by simp only [csrOffset]; omega), hwin]

variable (s : State)

/-! What a write to each register does. -/

theorem State.ctlWrite_devId (m : Nat) (v : Word) :
    s.ctlWrite m (Reg.offset .devId) v = (s.devIdWrite m v, true) := rfl

theorem State.ctlWrite_tsqPeriod (m : Nat) (v : Word) :
    s.ctlWrite m (Reg.offset .tsqPeriod) v = (s.tsqPeriodWrite m v, true) := rfl

theorem State.ctlWrite_keyFkset (m : Nat) (v : Word) : s.ctlWrite m (Reg.offset .keyFkset) v = s.fkset m v := rfl

theorem State.ctlWrite_rstCtl (m : Nat) (v : Word) :
    s.ctlWrite m (Reg.offset .rstCtl) v = (s.rstCtl m v, true) := rfl

theorem State.ctlWrite_rstPart (m : Nat) (v : Word) :
    s.ctlWrite m (Reg.offset .rstPart) v = (s.rstPart m v, true) := rfl

/-- A write at an address that names a core's signal register, in a cluster that is in service. -/
theorem State.ctlWrite_signal {m off c k : Nat} (hwin : windowOf off = some c)
    (haddr : CtlAddr.ofOffset m off = .reg (.cluSignal c k))
    (halign : off % 8 = 0) (hon : s.clusterOn c = true) (hoff : s.offline c = false) (v : Word) :
    s.ctlWrite m off v = s.cluSignal m c k v := by
  have hfault : s.winFault m off = none := by simp [State.winFault, hwin, haddr, hon, hoff]
  simp [State.ctlWrite, halign, hfault, haddr]

/-- A write at an address that names a CSR of a core in service. -/
theorem State.ctlWrite_csr {m off e n : Nat} (hwin : windowOf off = some (e / 8))
    (haddr : CtlAddr.ofOffset m off = .csr e n)
    (halign : off % 8 = 0) (hon : s.clusterOn (e / 8) = true) (hoff : s.offline (e / 8) = false)
    (hstate : s.coreState e ≠ csRETIRED) (v : Word) :
    s.ctlWrite m off v = ((s.leaveC6 e).csrWrite m e n v, true) := by
  have hfault : s.winFault m off = none := by simp [State.winFault, hwin, haddr, hon, hoff, hstate]
  simp [State.ctlWrite, halign, hfault, haddr]

theorem State.ctlWrite_cluSignal (m : Nat) {c k : Nat} (v : Word) (hc : c < 32) (hk : k < 8)
    (hon : s.clusterOn c = true) (hoff : s.offline c = false) :
    s.ctlWrite m (Reg.offset (.cluSignal c k)) v = s.cluSignal m c k v :=
  s.ctlWrite_signal (windowOf_cluSignal hc hk) (ofOffset_cluSignal m hc hk) (by simp only [Reg.offset]; omega)
    hon hoff v

theorem State.ctlWrite_csrOffset (m : Nat) {e n : Nat} (v : Word) (he : e < 256) (hn : n < 0x2000)
    (hon : s.clusterOn (e / 8) = true) (hoff : s.offline (e / 8) = false) (hstate : s.coreState e ≠ csRETIRED) :
    s.ctlWrite m (csrOffset e n) v = ((s.leaveC6 e).csrWrite m e n v, true) :=
  s.ctlWrite_csr (windowOf_csrOffset he hn) (ofOffset_csrOffset m he hn) (by simp only [csrOffset]; omega)
    hon hoff hstate v

/-- A write by the management processor that does not wait reaches control space at once. -/
theorem State.mWrite_mp {off : Nat} {v : Word} (h : s.ctlHeld off v = false) :
    s.mWrite .mp off v = (s.ctlWrite mMP off v).1 := by
  simp [State.mWrite, h]

/-- Only a write to KEY_FKSET waits. -/
theorem State.ctlHeld_ne {off : Nat} (h : off ≠ Reg.offset .keyFkset) (v : Word) : s.ctlHeld off v = false := by
  simp [State.ctlHeld, h]

end Sys2Proof.Machine
end

section
/-!
PROOFS. Control space, third part: DEV_ID (R48), TSQ_PERIOD (R306) and the requests for resets (R506 to R509).
-/
namespace Sys2Proof.Machine

/-! Fields of written words. -/

/-- A bit that is copied from another word. -/
theorem testBit_fld_self (v : Word) (i : Nat) : (fld v i i).testBit 0 = bit v i := by
  rw [fld, Nat.testBit_mod_two_pow, Nat.testBit_div_two_pow]
  simp [bit, BitVec.getLsbD]

theorem fld_lt (v : Word) (hi lo : Nat) : fld v hi lo < 2 ^ (hi + 1 - lo) := Nat.mod_lt _ (Nat.two_pow_pos _)

variable (s : State)

/-! Register writes. -/

theorem State.rd_denyCheck (r : Reg) (m : Nat) (v : Word) (r' : Reg) : (s.denyCheck r m v).rd r' = s.rd r' := by
  unfold State.denyCheck
  split
  · exact State.rd_congr _ _ _ (s.event_regs ..) (s.event_fuses ..)
  · rfl

@[simp] theorem State.rd_regWrite (r : Reg) (m : Nat) (v : Word) (r' : Reg) :
    (s.regWrite r m v).rd r' = if r' = r then s.regMerge r m v else s.rd r' := by
  rw [State.regWrite, State.rd_wr, State.rd_denyCheck]

@[simp] theorem State.denyCheck_resets (r : Reg) (m : Nat) (v : Word) : (s.denyCheck r m v).resets = s.resets := by
  unfold State.denyCheck
  split <;> simp

@[simp] theorem State.regWrite_resets (r : Reg) (m : Nat) (v : Word) : (s.regWrite r m v).resets = s.resets := by
  rw [State.regWrite, State.wr_resets, State.denyCheck_resets]

/-! DEV_ID (R48). -/

theorem State.regMerge_devId (v : Word) : s.regMerge .devId mMP v =
    setFld (setFld (s.rd .devId) 16 16 (fld v 16 16)) 11 0 (fld v 11 0) := rfl

theorem devIdWrite_first (v : Word) (h : bit (s.rd .devId) 16 = false) : Completes (.devIdWrite v) s fun t =>
    t.devId = fld v 11 0 ∧ bit (t.rd .devId) 16 = bit v 16 := by
  refine ⟨_, rfl, ?_⟩
  have hwrite : s.devIdWrite mMP v = s.regWrite .devId mMP v := by simp [State.devIdWrite, h]
  have hread : (s.devIdWrite mMP v).rd .devId = s.regMerge .devId mMP v := by
    rw [hwrite, State.rd_regWrite, if_pos rfl]
  rw [State.ctlWrite_devId]
  simp only [State.devId, State.rf, hread, State.regMerge_devId]
  constructor
  · rw [fld_setFld _ _ _ _ (by decide) (by decide)]
    exact Nat.mod_eq_of_lt (fld_lt v 11 0)
  · rw [testBit_setFld _ _ _ _ _ (by decide) (by decide) (by decide), if_neg (by decide),
      testBit_setFld _ _ _ _ _ (by decide) (by decide) (by decide), if_pos (by decide)]
    exact testBit_fld_self v 16

theorem devIdWrite_locked (v : Word) (h : bit (s.rd .devId) 16 = true)
    (hv : fld v 11 0 ≠ s.devId ∨ bit v 16 = false) :
    Completes (.devIdWrite v) s fun t => t.regs = s.regs ∧ t.cores = s.cores := by
  refine ⟨_, rfl, ?_⟩
  have hwrite : s.devIdWrite mMP v = s.event sgDEVID_LOCKED s.locDevice 0 := by
    have hchange : (fld v 11 0 != fld (s.rd .devId) 11 0 || !bit v 16) = true := by
      rcases hv with hv | hv
      · simpa using .inl hv
      · simp [hv]
    simp [State.devIdWrite, h, hchange]
  rw [State.ctlWrite_devId, hwrite]
  exact ⟨s.event_regs .., s.event_cores ..⟩

/-! TSQ_PERIOD (R306). -/

theorem State.regMerge_tsqPeriod (v : Word) : s.regMerge .tsqPeriod mMP v =
    setFld (setFld (s.rd .tsqPeriod) 55 48 (if fld v 55 48 < 4 then 4 else min (fld v 55 48) 64)) 47 0 (fld v 47 0) :=
  rfl

/-- The word that TSQ_PERIOD_WRITE writes. -/
def periodWord (nxt : BitVec 8) (tick : BitVec 48) : Word := setFld (setFld 0 55 48 nxt.toNat) 47 0 tick.toNat

theorem fld_periodWord_at (nxt : BitVec 8) (tick : BitVec 48) : fld (periodWord nxt tick) 47 0 = tick.toNat := by
  rw [periodWord, fld_setFld _ _ _ _ (by decide) (by decide)]
  exact Nat.mod_eq_of_lt tick.isLt

theorem fld_periodWord_next (nxt : BitVec 8) (tick : BitVec 48) : fld (periodWord nxt tick) 55 48 = nxt.toNat := by
  rw [periodWord, fld_setFld_ne _ _ _ _ _ _ (by decide) (by decide) (by decide) (by decide),
    fld_setFld _ _ _ _ (by decide) (by decide)]
  exact Nat.mod_eq_of_lt nxt.isLt

theorem tsqPeriodWrite_taken (nxt : BitVec 8) (tick : BitVec 48) (h : s.tick + 16 ≤ tick.toNat) :
    Completes (.tsqPeriodWrite nxt tick) s fun t => t.rf .tsqPeriod 47 0 = tick.toNat ∧
      t.rf .tsqPeriod 55 48 = (if nxt.toNat < 4 then 4 else min nxt.toNat 64) ∧ t.period = s.period := by
  refine ⟨_, rfl, ?_⟩
  have hwrite : s.tsqPeriodWrite mMP (periodWord nxt tick) = s.regWrite .tsqPeriod mMP (periodWord nxt tick) := by
    simp [State.tsqPeriodWrite, fld_periodWord_at, Nat.not_lt.mpr h]
  have hread := (s.rd_regWrite .tsqPeriod mMP (periodWord nxt tick) .tsqPeriod).trans (if_pos rfl)
  rw [← hwrite, State.regMerge_tsqPeriod, fld_periodWord_next, fld_periodWord_at] at hread
  rw [State.ctlWrite_tsqPeriod, ← periodWord]
  simp only [State.period, State.rf, hread]
  refine ⟨?_, ?_, ?_⟩
  · rw [fld_setFld _ _ _ _ (by decide) (by decide)]
    exact Nat.mod_eq_of_lt tick.isLt
  · rw [fld_setFld_ne _ _ _ _ _ _ (by decide) (by decide) (by decide) (by decide),
      fld_setFld _ _ _ _ (by decide) (by decide)]
    exact Nat.mod_eq_of_lt (by split <;> omega)
  · rw [fld_setFld_ne _ _ _ _ _ _ (by decide) (by decide) (by decide) (by decide),
      fld_setFld_ne _ _ _ _ _ _ (by decide) (by decide) (by decide) (by decide)]

theorem tsqPeriodWrite_late (nxt : BitVec 8) (tick : BitVec 48) (h : tick.toNat < s.tick + 16) :
    Completes (.tsqPeriodWrite nxt tick) s fun t => t.regs = s.regs := by
  refine ⟨_, rfl, ?_⟩
  have hwrite : s.tsqPeriodWrite mMP (periodWord nxt tick) = s.event sgTICK_PERIOD_LATE s.locDevice 0 := by
    simp [State.tsqPeriodWrite, fld_periodWord_at, h]
  rw [State.ctlWrite_tsqPeriod, ← periodWord, hwrite]
  exact s.event_regs ..

/-! Resets (R506 to R509). -/

theorem rstCtlCold_requests :
    Completes .rstCtlCold s fun t => t.resets = { s.resets with cold := some 3, warm := none } := by
  refine ⟨_, rfl, ?_⟩
  rw [State.ctlWrite_rstCtl]
  simp [State.rstCtl, bit]

theorem rstCtlWarm_requests (h : s.resets.cold = none) : Completes .rstCtlWarm s fun t => t.resets =
    { s.resets with warm := some 1, parts := [], due := false, partsDue := [] } := by
  refine ⟨_, rfl, ?_⟩
  rw [State.ctlWrite_rstCtl]
  simp [State.rstCtl, bit, h]

theorem rstCtlWarm_overridden (h : s.resets.cold ≠ none) : Completes .rstCtlWarm s fun t => t.resets = s.resets := by
  refine ⟨_, rfl, ?_⟩
  have hsome : s.resets.cold.isSome = true := Option.isSome_iff_ne_none.mpr h
  rw [State.ctlWrite_rstCtl]
  simp [State.rstCtl, bit, hsome]

/-- The word that RST_PART_GO writes. -/
def partWord (p : Nat) : Word := setFld (setBit 0 63 true) 9 0 p

theorem bit_partWord_go (p : Nat) : bit (partWord p) 63 = true := by
  rw [partWord, testBit_setFld _ _ _ _ _ (by decide) (by decide) (by decide), if_neg (by decide)]
  rfl

theorem fld_partWord (p : Fin 1024) : fld (partWord p) 9 0 = p := by
  rw [partWord, fld_setFld _ _ _ _ (by decide) (by decide)]
  exact Nat.mod_eq_of_lt p.isLt

/-- A flag that was set reads 1. -/
theorem State.rf_wf_flag (r : Reg) {i : Nat} (hi : i < 64) : (s.wf r i i 1).rf r i i = 1 := by
  rw [State.rf_wf_same _ _ _ _ _ (Nat.le_refl i) hi, Nat.add_sub_cancel_left]
  rfl

theorem State.rstPart_whole (m : Nat) {v : Word} (hgo : bit v 63 = true) (hp : fld v 9 0 = 0) :
    s.rstPart m v = (s.regWrite .rstPart m v).wf .rstPart 62 62 1 := by simp [State.rstPart, hgo, hp]

/-- The resets that a GO for a partition leaves requested. -/
theorem State.rstPart_parts (m : Nat) {v : Word} (hgo : bit v 63 = true) (hp : fld v 9 0 ≠ 0) (q : Nat) :
    q ∈ (s.rstPart m v).resets.parts ↔ q ∈ s.resets.parts ∨ q = fld v 9 0 := by
  simp only [State.rstPart, hgo, hp, if_true, if_false, State.regWrite_resets]
  split
  next h =>
    have hin : fld v 9 0 ∈ s.resets.parts := by simpa using h
    rw [State.regWrite_resets]
    exact ⟨.inl, fun hq => hq.elim id fun e => e ▸ hin⟩
  next => simp [State.wf]

theorem exec_rstPartGo_mp (p : Fin 1024) : exec (.rstPartGo .mp p) s = .next (s.rstPart mMP (partWord p)) := by
  show Host.Outcome.next (s.mWrite .mp (Reg.offset .rstPart) (partWord p)) = _
  rw [State.mWrite_mp _ (State.ctlHeld_ne _ (by decide) _), State.ctlWrite_rstPart]

theorem rstPartGo_requests (p : Fin 1024) : Completes (.rstPartGo .mp p) s fun t =>
    (p = 0 → t.resets = s.resets ∧ t.rf .rstPart 62 62 = 1) ∧
    (p ≠ 0 → p.val ∈ t.resets.parts ∧ ∀ q, q ≠ p.val → (q ∈ t.resets.parts ↔ q ∈ s.resets.parts)) := by
  refine ⟨_, exec_rstPartGo_mp s p, fun hp => ?_, fun hp => ?_⟩
  · subst hp
    rw [State.rstPart_whole _ _ (bit_partWord_go _) (fld_partWord 0)]
    refine ⟨?_, State.rf_wf_flag _ _ (by decide)⟩
    rw [State.wf_eq, State.wr_resets, State.regWrite_resets]
  · have hparts := s.rstPart_parts mMP (bit_partWord_go p)
      (by rw [fld_partWord, ne_eq, Fin.val_eq_zero_iff]; exact hp)
    simp only [fld_partWord] at hparts
    exact ⟨(hparts p).mpr (.inr rfl), fun q hq => (hparts q).trans (or_iff_left hq)⟩

end Sys2Proof.Machine
end

section
/-!
PROOFS. Control space, fourth part: CSRs (R51, R59, R60) and CORE_SIGNAL (R194).
-/
namespace Sys2Proof.Machine

variable (s : State)

/-! CSR writes (R51, R59, R60). -/

/-- The CSR holds a whole word, and a write to it does not wait for a synchronising event. -/
def Csr.Whole (k : Csr) : Prop := k = .budget ∨ (∃ b, k = .laddr b) ∨ ∃ i, k = .xscr i

theorem Core.csrVal_csrStore {k : Csr} (h : k.Whole) (c : Core) (mp : Bool) (v : Word) (id : Nat) (pend : Word) :
    (c.csrStore mp k ⟨v, tRAW⟩).csrVal id pend k = ⟨v, tRAW⟩ := by
  obtain rfl | ⟨b, rfl⟩ | ⟨i, rfl⟩ := h
  · rfl
  · simp [Core.csrStore, Core.csrVal, Core.link, Core.setLink]
  · simp [Core.csrStore, Core.csrVal]

/-- A value stored into a CSR of every core of a list. -/
def State.storeCsr (s : State) (es : List Nat) (mp : Bool) (k : Csr) (v : Word) : State :=
  es.foldl (fun s i => s.modCore i fun c => c.csrStore mp k ⟨v, tRAW⟩) s

theorem State.storeCsr_mem (es : List Nat) (mp : Bool) (k : Csr) (v : Word) : (s.storeCsr es mp k v).mem = s.mem :=
  State.foldl_mem _ (fun t i => t.modCore_mem i _) es s

theorem State.storeCsr_regs (es : List Nat) (mp : Bool) (k : Csr) (v : Word) :
    (s.storeCsr es mp k v).regs = s.regs := by
  refine foldl_keeps State.regs _ (fun t i => ?_) es s
  rfl

theorem State.csrVal_storeCsr {k : Csr} (h : k.Whole) (es : List Nat) (mp : Bool) (v : Word) {i : Nat} (hi : i ∈ es)
    (id : Nat) (pend : Word) : ((s.storeCsr es mp k v).core i).csrVal id pend k = ⟨v, tRAW⟩ := by
  refine foldl_establishes (fun i t => (t.core i).csrVal id pend k = ⟨v, tRAW⟩) _ (fun t a => ?_)
    (fun t a b hb => ?_) es s i hi
  · rw [State.core_modCore, if_pos rfl]
    exact Core.csrVal_csrStore h ..
  · rw [State.core_modCore]
    split
    · exact Core.csrVal_csrStore h ..
    · exact hb

theorem State.csrWrite_budget (v : Word) (e n : Nat) (hn : Csr.of n = some .budget) :
    s.csrWrite mMP e n v = s.storeCsr (s.unitCores e) true .budget v := by
  simp only [State.csrWrite, hn]
  rfl

theorem State.csrWrite_laddr (v : Word) (e n b : Nat) (hn : Csr.of n = some (.laddr b)) :
    s.csrWrite mMP e n v = s.storeCsr (s.unitCores e) true (.laddr b) v := by
  simp only [State.csrWrite, hn]
  rfl

theorem State.csrWrite_xscr (v : Word) (e n i : Nat) (hn : Csr.of n = some (.xscr i)) :
    s.csrWrite mMP e n v = s.extWrite e (.xscr i) v := by
  simp only [State.csrWrite, hn]
  rfl

/-- A write to an extension register whose core owns its context's registers reads nothing from memory (R199). -/
theorem State.extWrite_owned (v : Word) (e i : Nat) (hown : bit (s.core e).xown 0 = true) :
    let t := s.extWrite e (.xscr i) v
    t.mem = s.mem ∧ t.regs = s.regs ∧
      ∀ j ∈ s.unitCores e, ∀ id pend, (t.core j).csrVal id pend (.xscr i) = ⟨v, tRAW⟩ := by
  have hwhole : Csr.Whole (.xscr i) := .inr (.inr ⟨i, rfl⟩)
  have hext : s.extOwn (s.core e) = (s, s.core e, 0, true) := by simp [State.extOwn, hown]
  intro t
  by_cases hidle : (!s.waitsSync e && (s.core e).act != .disp) = true
  · have ht : t = s.storeCsr (s.unitCores e) false (.xscr i) v := by
      simp only [t, State.extWrite, hidle, if_true]
      rfl
    rw [ht]
    exact ⟨s.storeCsr_mem .., s.storeCsr_regs .., fun j hj => s.csrVal_storeCsr hwhole _ _ _ hj⟩
  · have ht : t = s.setCores (s.unitCores e) { (s.core e).csrStore false (.xscr i) ⟨v, tRAW⟩ with
        xown := setBit ((s.core e).csrStore false (.xscr i) ⟨v, tRAW⟩).xown 1 true } := by
      simp only [t, State.extWrite, hidle, hext]; rfl
    rw [ht]
    refine ⟨rfl, rfl, fun j hj id pend => ?_⟩
    rw [State.core_setCores, if_pos hj]
    exact Core.csrVal_csrStore hwhole (s.core e) false v id pend

theorem csrWrite_whole {e n : Nat} {k : Csr} (v : Word) (hn : Csr.of n = some k)
    (hk : k = .budget ∨ (∃ b, k = .laddr b) ∨ ((∃ i, k = .xscr i) ∧ bit (s.core e).xown 0 = true)) :
    let t := s.csrWrite mMP e n v
    t.mem = s.mem ∧ t.regs = s.regs ∧ ∀ i ∈ s.unitCores e, ∀ id pend, (t.core i).csrVal id pend k = ⟨v, tRAW⟩ := by
  intro t
  obtain rfl | ⟨b, rfl⟩ | ⟨⟨i, rfl⟩, hown⟩ := hk
  · rw [show t = _ from s.csrWrite_budget v e n hn]
    exact ⟨s.storeCsr_mem .., s.storeCsr_regs .., fun j hj => s.csrVal_storeCsr (.inl rfl) _ _ _ hj⟩
  · rw [show t = _ from s.csrWrite_laddr v e n b hn]
    exact ⟨s.storeCsr_mem .., s.storeCsr_regs .., fun j hj => s.csrVal_storeCsr (.inr (.inl ⟨b, rfl⟩)) _ _ _ hj⟩
  · rw [show t = _ from s.csrWrite_xscr v e n i hn]
    exact s.extWrite_owned v e i hown

theorem exec_csrControlWrite_mp (e : Fin 256) {n : BitVec 16} (v : BitVec 64) (hn : n.toNat < 0x2000)
    (hon : s.clusterOn (e / 8) = true) (hoff : s.offline (e / 8) = false) (hstate : s.coreState e ≠ csRETIRED)
    (hc6 : (s.core e).c6 = false) : exec (.csrControlWrite .mp e n v) s = .next (s.csrWrite mMP e n.toNat v) := by
  have hne : csrOffset e n.toNat ≠ Reg.offset .keyFkset := by simp only [csrOffset, Reg.offset]; omega
  have hawake : s.leaveC6 e = s := by simp [State.leaveC6, hc6]
  show Host.Outcome.next (if n.toNat < 0x2000 then s.mWrite .mp (csrOffset e n.toNat) v else s) = _
  rw [if_pos hn, State.mWrite_mp _ (State.ctlHeld_ne _ hne _),
    State.ctlWrite_csrOffset _ _ _ e.isLt hn hon hoff hstate, hawake]

theorem csrControlWrite_stores (e : Fin 256) (n : BitVec 16) (v : BitVec 64) (k : Csr) (hk : Csr.of n.toNat = some k)
    (hn : n.toNat < 0x2000)
    (hkind : k = .budget ∨ (∃ b, k = .laddr b) ∨ ((∃ i, k = .xscr i) ∧ bit (s.core e).xown 0 = true))
    (hon : s.clusterOn (e / 8) = true) (hoff : s.offline (e / 8) = false) (hstate : s.coreState e ≠ csRETIRED)
    (hc6 : (s.core e).c6 = false) :
    Completes (.csrControlWrite .mp e n v) s fun t => t.mem = s.mem ∧ t.regs = s.regs ∧
      ∀ i ∈ s.unitCores e, ∀ id pend, (t.core i).csrVal id pend k = ⟨v, tRAW⟩ :=
  ⟨_, exec_csrControlWrite_mp s e v hn hon hoff hstate hc6, csrWrite_whole s v hk hkind⟩

/-! CORE_SIGNAL (R194). -/

/-- A raised request is pending with its detail on every core of the unit, and nothing else changes. -/
theorem State.raise_pends (i d e : Nat) (hi : i < 64) :
    { s.raise i d e with async := s.async } = s ∧ ∀ k ∈ s.unitCores e,
      bit (sget Async.cold (s.raise i d e).async k).pend i = true ∧
      sget 0 (sget Async.cold (s.raise i d e).async k).detail i = d := by
  have hbeside : { s.raise i d e with async := s.async } = s := by
    obtain ⟨a, ha⟩ := s.raise_async i d e
    rw [ha]
  refine ⟨hbeside, fun k hk => foldl_establishes (fun k t => bit (sget Async.cold t.async k).pend i = true ∧
    sget 0 (sget Async.cold t.async k).detail i = d) _ (fun t a => ?_) (fun t a b hb => ?_) _ s k hk⟩
  · simp [State.raiseOne, bit_setBit _ _ _ _ hi hi]
  · simp only [State.raiseOne, sget_sset]
    split
    · simp [bit_setBit _ _ _ _ hi hi]
    · exact hb

/-- The word that CLU_SIGNAL_WRITE writes. -/
def signalWord (code : BitVec 8) : Word := setFld (setBit 0 63 true) 23 16 code.toNat

theorem bit_signalWord_go (code : BitVec 8) : bit (signalWord code) 63 = true := by
  rw [signalWord, testBit_setFld _ _ _ _ _ (by decide) (by decide) (by decide), if_neg (by decide)]
  rfl

theorem fld_signalWord (code : BitVec 8) : fld (signalWord code) 23 16 = code.toNat := by
  rw [signalWord, fld_setFld _ _ _ _ (by decide) (by decide)]
  exact Nat.mod_eq_of_lt code.isLt

theorem exec_cluSignalWrite_mp {c : Fin 32} {k : Fin 8} (code : BitVec 8) (hon : s.clusterOn c = true)
    (hoff : s.offline c = false) (hspare : s.coreState (c.val * 8 + k) ≠ csSPARE)
    (hretired : s.coreState (c.val * 8 + k) ≠ csRETIRED) (hc6 : (s.core (c.val * 8 + k)).c6 = false) :
    exec (.cluSignalWrite .mp c k code) s = .next (s.raise 2 (code.toNat * 2 ^ 16 + 256) (c.val * 8 + k)) := by
  have hne : Reg.offset (.cluSignal c k) ≠ Reg.offset .keyFkset := by simp only [Reg.offset]; omega
  have hsignal : s.cluSignal mMP c k (signalWord code) =
      (s.raise 2 (code.toNat * 2 ^ 16 + 256) (c.val * 8 + k), true) := by
    simp [State.cluSignal, hspare, hretired, hc6, bit_signalWord_go, fld_signalWord]
  show Host.Outcome.next (s.mWrite .mp (Reg.offset (.cluSignal c k)) (signalWord code)) = _
  rw [State.mWrite_mp _ (State.ctlHeld_ne _ hne _), State.ctlWrite_cluSignal _ _ _ c.isLt k.isLt hon hoff, hsignal]

end Sys2Proof.Machine
end

section
/-!
PROOFS. Control space, last part: the keys of frames (R263, R266), and the statement on writes of control space.
-/
namespace Sys2Proof.Machine

/-! The word of a KEY_FKSET write (R263). -/

section
variable (frame : Nat) (query inv fp : Bool) (key : Nat)

theorem fld_fksetWord_frame (h : frame < 2 ^ 40) : fld (fksetWord frame query inv fp key) 51 12 = frame := by
  have hne (w : Word) (hi lo v : Nat) (hlo : lo ≤ hi) (hhi : hi < 12) :
      fld (setFld w hi lo v) 51 12 = fld w 51 12 :=
    fld_setFld_ne _ _ _ _ _ _ hlo (by omega) (by decide) (.inr hhi)
  rw [fksetWord, hne _ _ _ _ (by decide) (by decide), hne _ _ _ _ (by decide) (by decide),
    hne _ _ _ _ (by decide) (by decide), hne _ _ _ _ (by decide) (by decide), fld_setFld _ _ _ _ (by decide) (by decide)]
  exact Nat.mod_eq_of_lt h

theorem bit_fksetWord_query : bit (fksetWord frame query inv fp key) 11 = query := by
  cases query <;> simp [fksetWord, testBit_setFld, b2n]

theorem bit_fksetWord_inv : bit (fksetWord frame query inv fp key) 9 = inv := by
  cases inv <;> simp [fksetWord, testBit_setFld, b2n]

theorem bit_fksetWord_fp : bit (fksetWord frame query inv fp key) 8 = fp := by
  cases fp <;> simp [fksetWord, testBit_setFld, b2n]

theorem fld_fksetWord_key (h : key < 256) : fld (fksetWord frame query inv fp key) 7 0 = key := by
  rw [fksetWord, fld_setFld _ _ _ _ (by decide) (by decide)]
  exact Nat.mod_eq_of_lt h

end

variable (s : State)

/-! KEY_FKSET writes (R263, R266). -/

theorem area_keyed {a : Area} (h : a = .own ∨ a = .unmirrored) : (decide (a = .own) || decide (a = .unmirrored)) = true := by
  simpa using h

/-- A write that sets the key of a frame sets it, whatever it invalidates; cached copies go with INV = 1 alone. -/
theorem State.fkset_sets (m : Nat) {v : Word} {pa : Nat} (hpa : fld v 51 12 * 4096 = pa)
    (hok : s.area pa = .own ∨ s.area pa = .unmirrored)
    (hset : bit v 11 = false) :
    ∃ u : State, u.keys = (s.setFrameKey pa (fld v 7 0) (bit v 8)).keys ∧ u.cores = s.cores ∧
      u.mem = s.mem ∧ u.fabTlb = s.fabTlb ∧
      (s.fkset m v).1 = if bit v 9 then u.dropTlb (fun t => tlbFrame t != pa / 4096) else u := by
  subst hpa
  let u := s.setFrameKey (fld v 51 12 * 4096) (fld v 7 0) (bit v 8)
  let w : State := if u.hasPartner && u.area (fld v 51 12 * 4096) == .own then
    u.send u.partnerId false false (.tables ⟨1024, 0, 0, [], [(fld v 51 12 * 4096 / 4096, fld v 8 0)], []⟩) else u
  have hw : (s.fkset m v).1 =
      if bit v 9 then w.dropTlb (fun t => tlbFrame t != fld v 51 12 * 4096 / 4096) else w := by
    simp only [State.fkset, hset, area_keyed hok]
    rfl
  refine ⟨w, ?_, ?_, ?_, ?_, hw⟩
  all_goals
    simp only [w]
    split <;> rfl

/-- A query shows the key and its fetch protection in the master's KEY_FKRES, and changes no key. -/
theorem State.fkset_queries (m : Nat) {v : Word} {pa : Nat} (hpa : fld v 51 12 * 4096 = pa)
    (hok : s.area pa = .own ∨ s.area pa = .unmirrored)
    (hquery : bit v 11 = true) : (s.fkset m v).1 =
      s.wr (.keyFkres m) (setFld (setFld (setBit 0 63 true) 8 8 (b2n (s.frameKey pa).2)) 7 0 (s.frameKey pa).1) := by
  subst hpa
  simp only [State.fkset, hquery, area_keyed hok, if_true]

theorem State.frameKey_lt (pa : Nat) : (s.frameKey pa).1 < 256 := by
  unfold State.frameKey
  dsimp only
  split
  · decide
  · exact Nat.mod_lt _ (by decide)

theorem State.sget_setFrameKey (frame key : Nat) (fp : Bool) (h : key < 256) :
    sget 0 (s.setFrameKey (frame * 4096) key fp).keys frame = key + 256 * b2n fp := by
  simp [State.setFrameKey, Nat.mod_eq_of_lt h]

section
variable (frame : BitVec 40) (fp : Bool) (key : BitVec 8)

/-- A KEY_FKSET write does not wait unless it invalidates. -/
theorem State.ctlHeld_fkset (query : Bool) (key : Nat) :
    s.ctlHeld (Reg.offset .keyFkset) (fksetWord frame.toNat query false fp key) = false := by
  simp [State.ctlHeld, bit_fksetWord_inv]

/-- One that invalidates waits for the accesses that are queued on the frame. -/
theorem State.ctlHeld_invalidate (key : Nat) :
    s.ctlHeld (Reg.offset .keyFkset) (fksetWord frame.toNat false true fp key) =
      s.accessQueued (· == frame.toNat) := by
  simp [State.ctlHeld, bit_fksetWord_inv, bit_fksetWord_query, fld_fksetWord_frame _ _ _ _ _ frame.isLt]

variable (hok : s.area (frame.toNat * 4096) = .own ∨ s.area (frame.toNat * 4096) = .unmirrored)
include hok

theorem fksetWord_sets (inv : Bool) : ∃ u : State, sget 0 u.keys frame.toNat = key.toNat + 256 * b2n fp ∧
    u.cores = s.cores ∧ u.mem = s.mem ∧ u.fabTlb = s.fabTlb ∧
    (s.fkset mMP (fksetWord frame.toNat false inv fp key.toNat)).1 =
      if inv then u.dropTlb (fun t => tlbFrame t != frame.toNat) else u := by
  have hpa := congrArg (· * 4096) (fld_fksetWord_frame frame.toNat false inv fp key.toNat frame.isLt)
  obtain ⟨u, hkeys, hcores, hmem, htlb, hu⟩ := s.fkset_sets mMP hpa hok (bit_fksetWord_query ..)
  rw [fld_fksetWord_key _ _ _ _ _ key.isLt, bit_fksetWord_fp] at hkeys
  rw [bit_fksetWord_inv, Nat.mul_div_cancel _ (by decide)] at hu
  exact ⟨u, hkeys ▸ s.sget_setFrameKey _ _ _ key.isLt, hcores, hmem, htlb, hu⟩

theorem keyFksetSet_sets : Completes (.keyFksetSet .mp frame fp key) s fun t =>
    sget 0 t.keys frame.toNat = key.toNat + 256 * b2n fp ∧ t.cores = s.cores ∧ t.mem = s.mem := by
  refine ⟨_, rfl, ?_⟩
  obtain ⟨u, hkeys, hcores, hmem, _, hu⟩ := fksetWord_sets s frame fp key hok false
  rw [State.mWrite_mp _ (s.ctlHeld_fkset ..), State.ctlWrite_keyFkset, hu]
  exact ⟨hkeys, hcores, hmem⟩

theorem keyFksetQuery_shows : Completes (.keyFksetQuery .mp frame) s fun t => t.keys = s.keys ∧
    bit (t.rd (.keyFkres mMP)) 63 = true ∧ fld (t.rd (.keyFkres mMP)) 7 0 = (s.frameKey (frame.toNat * 4096)).1 ∧
    bit (t.rd (.keyFkres mMP)) 8 = (s.frameKey (frame.toNat * 4096)).2 := by
  refine ⟨_, rfl, ?_⟩
  have hpa := congrArg (· * 4096) (fld_fksetWord_frame frame.toNat true false false 0 frame.isLt)
  rw [State.mWrite_mp _ (s.ctlHeld_fkset ..), State.ctlWrite_keyFkset,
    s.fkset_queries mMP hpa hok (bit_fksetWord_query ..)]
  simp only [State.rd_wr, if_true]
  refine ⟨rfl, ?_, ?_, ?_⟩
  · simp [testBit_setFld, setBit, b2n]
  · rw [fld_setFld _ _ _ _ (by decide) (by decide)]
    exact Nat.mod_eq_of_lt (s.frameKey_lt _)
  · cases (s.frameKey (frame.toNat * 4096)).2 <;> simp [testBit_setFld, setBit, b2n]

theorem keyFksetInvalidate_drops (hq : s.accessQueued (· == frame.toNat) = false) :
    Completes (.keyFksetInvalidate .mp frame fp key) s fun t => sget 0 t.keys frame.toNat = key.toNat + 256 * b2n fp ∧
      (∀ k, ∀ i ∈ (t.core k).tlb, tlbFrame i ≠ frame.toNat) ∧ ∀ i ∈ t.fabTlb, tlbFrame i ≠ frame.toNat := by
  refine ⟨_, rfl, ?_⟩
  obtain ⟨u, hkeys, _, _, _, hu⟩ := fksetWord_sets s frame fp key hok true
  rw [State.mWrite_mp _ ((s.ctlHeld_invalidate ..).trans hq), State.ctlWrite_keyFkset, hu]
  refine ⟨hkeys, fun k i hi => ?_, fun i hi => ?_⟩
  · rw [if_pos rfl, State.core_dropTlb] at hi
    simpa using (List.mem_filter.mp hi).2
  · simpa using (List.mem_filter.mp hi).2

omit hok in
theorem keyFksetInvalidate_waits (hq : s.accessQueued (· == frame.toNat) = true) :
    Completes (.keyFksetInvalidate .mp frame fp key) s fun t => t = s := by
  refine ⟨_, rfl, ?_⟩
  rw [State.mWrite, if_pos ((s.ctlHeld_invalidate ..).trans hq)]

end

/-- A control-space access from outside P0 in partition 0 takes at most an exception (R53). -/
theorem State.coreAccess_refused (e : Nat) (wr : Bool) (f : State → State × Bool)
    (h : fld ((s.core e).view s.free).tbase 63 54 ≠ 0 ∨ pPRIV (s.core e).cur.psw ≠ 0) :
    (s.coreAccess e wr f).keys = s.keys ∧ (s.coreAccess e wr f).mem = s.mem := by
  unfold State.coreAccess
  split
  · exact ⟨rfl, rfl⟩
  · simp only [if_pos h]
    split <;> simp

theorem keyFksetSet_refused (e : Fin 256) (frame : BitVec 40) (fp : Bool) (key : BitVec 8)
    (h : fld ((s.core e).view s.free).tbase 63 54 ≠ 0 ∨ pPRIV (s.core e).cur.psw ≠ 0) :
    Completes (.keyFksetSet (.core e) frame fp key) s fun t => t.keys = s.keys ∧ t.mem = s.mem := by
  refine ⟨_, rfl, ?_⟩
  rw [State.mWrite, s.ctlHeld_fkset, if_neg Bool.false_ne_true]
  exact s.coreAccess_refused e true _ h

/-- Settles O53: each write reaches its register (the offsets of R49 to R51), and the register's own rule gives what it
changes. -/
theorem registerCommands : Obligations.RegisterCommands := by
  intro s
  refine ⟨fun v => ⟨devIdWrite_first s v, devIdWrite_locked s v⟩,
    fun e n v k hk hn hkind hon hoff hstate hc6 => csrControlWrite_stores s e n v k hk hn hkind hon hoff hstate hc6,
    fun c k code hon hoff hspare hretired hc6 =>
      ⟨_, exec_cluSignalWrite_mp s code hon hoff hspare hretired hc6, s.raise_pends 2 _ _ (by decide)⟩,
    fun frame fp key hok => ⟨keyFksetSet_sets s frame fp key hok, keyFksetQuery_shows s frame hok,
      keyFksetInvalidate_waits s frame fp key, keyFksetInvalidate_drops s frame fp key hok⟩,
    fun e frame fp key => keyFksetSet_refused s e frame fp key,
    fun nxt tick => ⟨tsqPeriodWrite_taken s nxt tick, tsqPeriodWrite_late s nxt tick⟩,
    rstCtlCold_requests s, rstCtlWarm_requests s, rstCtlWarm_overridden s, rstPartGo_requests s⟩

end Sys2Proof.Machine
end

section
/-!
PROOFS. The programming model, first part: the outcome of a core instruction by its operation, and what a bind and a
guard of an operation that completed have answered.
-/
namespace Sys2Proof.Machine

variable {α β : Type}

/-! From the operation of an instruction to its outcome. -/

theorem completes_retires {c : Instr} {s : State} {e w : Nat} {ok : Bool} {body : Op Unit} {y : Cx}
    (hexec : exec c s = .next (s.runIns e w ok body)) (hi : s.issues e w ok = true)
    (hb : body (s.start e w) = .ok () y) : Completes c s fun t => Retires s t e y :=
  ⟨_, hexec, runIns_retires hi hb⟩

theorem completes_waits {c : Instr} {s : State} {e w : Nat} {ok : Bool} {body : Op Unit} {y : Cx} {a : Act}
    (hexec : exec c s = .next (s.runIns e w ok body)) (hi : s.issues e w ok = true)
    (hb : body (s.start e w) = .error (.wait a) y) : Completes c s fun t => Waits t e y a :=
  ⟨_, hexec, runIns_waits hi hb⟩

/-- An exception that reports its own instruction and is no machine check is taken (R188). -/
theorem completes_raises {c : Instr} {s : State} {e w : Nat} {ok : Bool} {body : Op Unit} {y : Cx} {q : Exc}
    (hexec : exec c s = .next (s.runIns e w ok body)) (hi : s.issues e w ok = true)
    (hb : body (s.start e w) = .error (.exc q) y) (hafter : q.after = false) (hvec : q.vec ≠ vMACHINE_CHECK) :
    Completes c s fun t => Raises s t e y q := by
  refine ⟨_, hexec, ?_⟩
  have hquiet := runIns_raises hi hb
  simp only [finishOp, hafter, if_neg hvec, Bool.false_eq_true, if_false] at hquiet
  exact hquiet

/-- R76: an instruction that passes its decode check and whose condition is false retires from the context in which it
starts, at the cost of its length. -/
theorem runIns_condFalse {s : State} {e w : Nat} {ok : Bool} (body : Op Unit) (hi : s.issuesNow e = true)
    (hb : (s.stepping e && stepBlocked w) = false) (hok : ok = true) (hcond : fCOND w ≠ 15)
    (hf : condHolds (fCOND w) (s.core e).cur.psw = false) :
    Retires s (s.runIns e w ok body) e { s.start e w with cost := if fL w then 2 else 1 } := by
  have hfree := (preTrace_quiet s e).free
  have hc : ((s.preTrace e).startCx e w (insLen w)).c = s.core e := start_c s e w
  have heq : s.runIns e w ok body =
      (finishOp e s.free (setCost (if fL w then 2 else 1) (s.start e w))).postTrace (s.core e) e w (s.stepping e) := by
    simp only [State.runIns, hi, Bool.not_true, Bool.false_eq_true, if_false, State.around, hb, hok, hcond, hc, hf,
      Bool.not_false, if_true, hfree]
    rfl
  rw [heq]
  exact (postTrace_quiet _ _ _ _ _).unit (setCores_unit _ _ _)

/-- Settles O5: the outcome of a false condition does not depend on the operation of the instruction. -/
theorem falseConditionOnlyRetires : Obligations.FalseConditionOnlyRetires := by
  unfold Obligations.FalseConditionOnlyRetires
  intro e w x s hi hb hcond hf
  exact ⟨fun hok => ⟨_, rfl, runIns_condFalse _ hi hb hok hcond hf⟩,
    fun hok => ⟨_, rfl, runIns_condFalse _ hi hb hok hcond hf⟩,
    fun hok => ⟨_, rfl, runIns_condFalse _ hi hb hok hcond hf⟩,
    fun hok => ⟨_, rfl, runIns_condFalse _ hi hb hok hcond hf⟩⟩

/-! What an operation that completed has done. -/

theorem op_bind_ok {a : Op α} {f : α → Op β} {x z : Cx} {v : β} (h : (a >>= f) x = .ok v z) :
    ∃ u y, a x = .ok u y ∧ f u y = .ok v z := by
  rw [op_bind] at h
  split at h
  · next u y ha => exact ⟨u, y, ha, h⟩
  · cases h

theorem needTag_eq {t : Tag} {b : Bool} {n : Nat} {x y : Cx} {u : Unit} (h : needTag t b n x = .ok u y) : y = x :=
  ((within_needTag eq_preorder t b n).ok h).symm

theorem needAligned_ok {va : Nat} {wr : Bool} {x y : Cx} {u : Unit} (h : needAligned va wr x = .ok u y) :
    va % 8 = 0 ∧ y = x := by
  unfold needAligned at h
  split at h
  · next ha => cases h; exact ⟨ha, rfl⟩
  · cases h

theorem checkReadTag_ok {t : Tag} {va : Nat} {x y : Cx} {u : Unit} (h : checkReadTag t va x = .ok u y) :
    t ≠ tPOISON ∧ tagReserved t = false ∧ y = x := by
  unfold checkReadTag at h
  split at h
  · cases h
  next hp =>
    split at h
    · cases h
    next hr => cases h; exact ⟨hp, by simpa using hr, rfl⟩

/-- A word with a tag that may be read passes the check of its tag (R66). -/
theorem checkReadTag_pass {t : Tag} (va : Nat) (hp : t ≠ tPOISON) (hr : tagReserved t = false) :
    checkReadTag t va = pure () := by
  simp [checkReadTag, hp, hr]

theorem needAligned_pass {va : Nat} (wr : Bool) (h : va % 8 = 0) : needAligned va wr = pure () := if_pos h

end Sys2Proof.Machine
end

section
/-!
PROOFS. The programming model, second part: the bits of PSW after a flag write (R61, R121).
-/
namespace Sys2Proof.Machine

theorem bit_pswZN (p : Word) (z n : Bool) {i : Nat} (hi : i < 64) :
    bit (pswZN p z n) i = if i = 0 then z else if i = 1 then n else bit p i := by
  rw [pswZN, bit_setBit _ _ _ _ (by decide) hi, bit_setBit _ _ _ _ (by decide) hi]
  grind

theorem bit_pswZNV (p : Word) (z n v : Bool) {i : Nat} (hi : i < 64) :
    bit (pswZNV p z n v) i = if i = 0 then z else if i = 1 then n else if i = 3 then v else bit p i := by
  rw [pswZNV, bit_setBit _ _ _ _ (by decide) hi, bit_pswZN _ _ _ hi]
  grind

theorem bit_pswZNCV (p : Word) (z n c v : Bool) {i : Nat} (hi : i < 64) :
    bit (pswZNCV p z n c v) i
      = if i = 0 then z else if i = 1 then n else if i = 2 then c else if i = 3 then v else bit p i := by
  rw [pswZNCV, bit_setBit _ _ _ _ (by decide) hi, bit_pswZNV _ _ _ _ hi]
  grind

/-! The flags of an addition and of a subtraction. -/

/-- N is the sign of the result. -/
theorem bit_sign (r : Word) : bit r 63 = r.msb := (BitVec.msb_eq_getLsbD_last r).symm

/-- An integer between twice the bounds of a word reads back from 64 bits where it lies within the bounds, and nowhere else. -/
theorem ne_bmod_iff {n : Int} (hlo : -2 ^ 64 ≤ n) (hhi : n < 2 ^ 64) :
    n ≠ n.bmod (2 ^ 64) ↔ n < -2 ^ 63 ∨ 2 ^ 63 ≤ n := by
  rw [Int.bmod_def]
  norm_num at hlo hhi ⊢
  split <;> omega

theorem addV_iff (a b : Word) : addV a b = decide (a.toInt + b.toInt < -2 ^ 63 ∨ 2 ^ 63 ≤ a.toInt + b.toInt) := by
  have ha := a.le_toInt; have ha' := a.toInt_lt
  have hb := b.le_toInt; have hb' := b.toInt_lt
  norm_num at ha ha' hb hb'
  rw [addV, BitVec.toInt_add]
  exact decide_eq_decide.2 (ne_bmod_iff (by omega) (by omega))

theorem subV_iff (a b : Word) : subV a b = decide (a.toInt - b.toInt < -2 ^ 63 ∨ 2 ^ 63 ≤ a.toInt - b.toInt) := by
  have ha := a.le_toInt; have ha' := a.toInt_lt
  have hb := b.le_toInt; have hb' := b.toInt_lt
  norm_num at ha ha' hb hb'
  rw [subV, BitVec.toInt_sub]
  exact decide_eq_decide.2 (ne_bmod_iff (by omega) (by omega))

theorem sub_beq_zero (a b : Word) : (a - b == 0) = decide (a = b) :=
  decide_eq_decide.2 sub_eq_zero

/-- Settles O7: the bits of PSW after each write, with the flags of a sum and of a difference. -/
theorem flagWritesKeepTheOtherBits : Obligations.FlagWritesKeepTheOtherBits := by
  unfold Obligations.FlagWritesKeepTheOtherBits
  intro p a b z n c v i hi
  refine ⟨bit_pswZN p z n hi, bit_pswZNV p z n v hi, bit_pswZNCV p z n c v hi, ?_, ?_⟩
  · rw [addPsw, bit_pswZNCV _ _ _ _ _ hi, bit_sign, addV_iff]
    rfl
  · rw [subPsw, bit_pswZNCV _ _ _ _ _ hi, bit_sign, subV_iff, sub_beq_zero]
    rfl

end Sys2Proof.Machine
end

section
/-!
PROOFS. The programming model, third part: how an address is formed, and the base update (R77, R78).
-/
namespace Sys2Proof.Machine

/-- In the direct mode the address is a sum (R77). -/
theorem eaOf_direct {w : Nat} (h : fAM w = 0) (b : Bank) (scatw ia : Word) (d : Int) (n : Nat) :
    eaOf b scatw ia w d n = some (baseVal b ia w + (idxVal b w <<< fSCL w) + ofInt d) := by
  simp only [eaOf, h]

/-- Under pre-decrement the access width is taken off the sum (R77). -/
theorem eaOf_preDecrement {w : Nat} (h : fAM w = 3) (b : Bank) (scatw ia : Word) (d : Int) (n : Nat) :
    eaOf b scatw ia w d n = some (baseVal b ia w - BitVec.ofNat 64 n + (idxVal b w <<< fSCL w) + ofInt d) := by
  simp only [eaOf, h]

/-- In the modulo mode the address lies in the buffer at MB of ML bytes, at the offset modulo ML (R77). -/
theorem eaOf_modulo {w : Nat} (h : fAM w = 1) {b : Bank} {scatw ia v : Word} {d : Int} {n : Nat}
    (hv : eaOf b scatw ia w d n = some v) :
    ∃ r : Nat, r < b.ml.toNat ∧ v = b.mb + BitVec.ofNat 64 r ∧
      (b.ml.toNat : Int) ∣ (baseVal b ia w - b.mb + (idxVal b w <<< fSCL w) + ofInt d).toInt - r := by
  simp only [eaOf, h] at hv
  split at hv
  · cases hv
  next hml =>
    cases hv
    have hpos : (0 : Int) < b.ml.toNat := by
      have : b.ml.toNat ≠ 0 := fun h0 => hml (BitVec.eq_of_toNat_eq h0)
      omega
    generalize (baseVal b ia w - b.mb + (idxVal b w <<< fSCL w) + ofInt d).toInt = off
    obtain ⟨r, hr⟩ := Int.eq_ofNat_of_zero_le (Int.emod_nonneg off hpos.ne')
    have hlt := Int.emod_lt_of_pos off hpos
    refine ⟨r, by omega, by rw [hr, ofInt, BitVec.ofInt_natCast], ?_⟩
    rw [← hr]
    exact Int.dvd_self_sub_emod

/-! The address with its checks. -/

theorem needTag_iff {t : Tag} {b : Bool} {n : Nat} {x y : Cx} {u : Unit} :
    needTag t b n x = .ok u y ↔ needTag t b n = pure () ∧ y = x := by
  refine ⟨fun h => ⟨?_, needTag_eq h⟩, fun ⟨h, hy⟩ => by rw [h, hy]; rfl⟩
  unfold needTag at h ⊢
  split at h
  · cases h
  next htag =>
    rw [if_neg htag]
    split at h
    · cases h
    next hp => rw [if_neg hp]

/-- A tag check that is made on a condition and passes leaves what follows it. -/
theorem guard_iff {α : Type} {p : Prop} [Decidable p] {t : Tag} {b : Bool} {n : Nat} {k : Op α} {x z : Cx} {v : α} :
    (if p then do needTag t b n; k else k) x = .ok v z ↔ (p → needTag t b n = pure ()) ∧ k x = .ok v z := by
  by_cases hp : p
  · rw [if_pos hp]
    constructor
    · intro h
      obtain ⟨u, y, ht, hk⟩ := op_bind_ok h
      obtain ⟨hpass, rfl⟩ := needTag_iff.mp ht
      exact ⟨fun _ => hpass, hk⟩
    · rintro ⟨hpass, hk⟩
      rw [hpass hp, op_bind]
      exact hk
  · rw [if_neg hp]
    exact ⟨fun hk => ⟨fun h => absurd h hp, hk⟩, fun h => h.2⟩

/-- The tags of X1 and X2 as BASE and IDX pass (R65). -/
def Bank.AddrTags (w : Nat) (b : Bank) : Prop :=
  (fBASE w = 1 → needTag b.x1.tag (b.x1.tag == tPTR) 2 = pure ()) ∧
  (fBASE w = 2 → needTag b.x2.tag (b.x2.tag == tPTR) 3 = pure ()) ∧
  (fIDX w = 1 → needTag b.x1.tag (b.x1.tag == tINT) 2 = pure ()) ∧
  (fIDX w = 2 → needTag b.x2.tag (b.x2.tag == tINT) 3 = pure ())

/-- When an address is formed, and which: the one of R77, if the tags pass and it is below 2^42. -/
theorem formEa_iff {w : Nat} {d : Int} {n : Nat} {wr : Bool} {x y : Cx} {ea : Nat} :
    formEa w d n wr x = .ok ea y ↔ x.c.cur.AddrTags w ∧
      ∃ v, eaOf x.c.cur x.v.scatw x.ia w d n = some v ∧ v.toNat < 2 ^ 42 ∧ ea = v.toNat ∧ y = x := by
  unfold formEa
  rw [op_bind, op_cx]
  dsimp only
  rw [guard_iff, guard_iff, guard_iff, guard_iff, Bank.AddrTags]
  simp only [and_assoc, and_congr_right_iff]
  intro _ _ _ _
  cases eaOf x.c.cur x.v.scatw x.ia w d n with
  | none => simp
  | some v =>
    by_cases hlt : v.toNat < 2 ^ 42
    · simp only [if_neg (not_le.mpr hlt), op_pure, EStateM.Result.ok.injEq, Option.some.injEq, exists_eq_left', hlt,
        true_and, eq_comm]
    · simp only [if_pos (not_lt.mp hlt), op_raiseA, Option.some.injEq, exists_eq_left', hlt, false_and, reduceCtorEq]

/-- The address of an A-format instruction is the sum itself in the direct mode and under pre-decrement (R147). -/
theorem formA_sum {w : Nat} {d : Int} {x : Cx} (h : fAM w = 0 ∨ fAM w = 3) :
    formA w d x = (let ea := (baseVal x.c.cur x.ia w + (idxVal x.c.cur w <<< fSCL w) + ofInt d).toNat
      if ea ≥ 2 ^ 42 then raiseA vTRANSLATION 1 ea false false else pure ea : Op Nat) x := by
  have heq : eaOf x.c.cur x.v.scatw x.ia w d 0 =
      some (baseVal x.c.cur x.ia w + (idxVal x.c.cur w <<< fSCL w) + ofInt d) := by
    rcases h with h | h
    · exact eaOf_direct h ..
    · rw [eaOf_preDecrement h, BitVec.sub_zero]
  unfold formA
  rw [op_bind, op_cx]
  dsimp only
  rw [heq]
  rfl

theorem formA_lt {w : Nat} {d : Int} {x y : Cx} {ea : Nat} (h : formA w d x = .ok ea y) : ea < 2 ^ 42 := by
  unfold formA at h
  rw [op_bind, op_cx] at h
  dsimp only at h
  split at h
  · cases h
  next hlt => cases h; exact not_le.mp hlt

/-- What the base update of an access of n bytes makes of the bank (R78). -/
theorem based_eq (w n : Nat) (b : Bank) :
    (fAM w ≠ 3 → b.based w n = b) ∧
    (fAM w = 3 → fBASE w = 1 → b.based w n = { b with x1 := ⟨b.x1.val - BitVec.ofNat 64 n, b.x1.tag⟩ }) ∧
    (fAM w = 3 → fBASE w = 2 → b.based w n = { b with x2 := ⟨b.x2.val - BitVec.ofNat 64 n, b.x2.tag⟩ }) ∧
    (fAM w = 3 → fBASE w = 3 → b.based w n = { b with sp := b.sp - BitVec.ofNat 64 n }) := by
  unfold Bank.based Bank.basedFrom
  exact ⟨fun h => if_pos h, fun h hb => by simp [h, hb], fun h hb => by simp [h, hb], fun h hb => by simp [h, hb]⟩

/-- Settles O8: the address by the mode that forms it, the limit by the last check. -/
theorem addressesAndBaseUpdate : Obligations.AddressesAndBaseUpdate := by
  unfold Obligations.AddressesAndBaseUpdate
  refine ⟨fun w d n wr x y ea h => ?_, fun w d x => ⟨fun h hlt => ?_, fun h hge => ?_, fun y ea h => ?_⟩, based_eq⟩
  · obtain ⟨-, v, hv, hlt, rfl, rfl⟩ := formEa_iff.mp h
    refine ⟨rfl, hlt, fun hm => ?_, fun hm => ?_, fun hm => ?_⟩
    · rw [eaOf_direct hm] at hv
      cases hv
      rfl
    · rw [eaOf_preDecrement hm] at hv
      cases hv
      rfl
    · obtain ⟨r, hr, rfl, hdvd⟩ := eaOf_modulo hm hv
      exact ⟨r, hr, rfl, hdvd⟩
  · rw [formA_sum h]
    exact congrFun (if_neg (not_le.mpr hlt)) x
  · rw [formA_sum h]
    exact congrFun (if_pos hge) x
  · exact ⟨formA_ok h, formA_lt h⟩

end Sys2Proof.Machine
end

section
/-!
PROOFS. The programming model, fourth part: what reading a word operand can change (R66, R69): cached translations, the
state of a line and records, but no core and no byte of memory.
-/
namespace Sys2Proof.Machine

/-! The device: a translation and the reading of a line touch no core. -/

section
variable (s : State)

@[simp] theorem State.ite_cores (c : Prop) [Decidable c] (t u : State) :
    (if c then t else u).cores = if c then t.cores else u.cores :=
  apply_ite State.cores c t u

@[simp] theorem State.wf_cores (r : Reg) (hi lo v : Nat) : (s.wf r hi lo v).cores = s.cores := rfl

@[simp] theorem State.count_cores (r : Reg) (hi lo n : Nat) : (s.count r hi lo n).cores = s.cores := rfl

@[simp] theorem State.carveout_cores (pa : Nat) : (s.carveout pa).cores = s.cores := by
  unfold State.carveout
  split <;> simp

@[simp] theorem State.physChecks_cores (w : Who) (k : AK) (pa : Nat) (pf wr : Bool) (key : Nat) (fp : Bool) :
    (s.physChecks w k pa pf wr key fp).1.cores = s.cores := by
  unfold State.physChecks
  repeat' split
  all_goals simp

@[simp] theorem State.xlate_cores (tlb : List TlbItem) (w : Who) (k : AK) (va : Nat) (step2 : Bool) :
    (s.xlate tlb w k va step2).1.cores = s.cores := by
  unfold State.xlate
  dsimp only
  repeat' split
  all_goals simp

@[simp] theorem State.memUe_cores (pa : Nat) : (s.memUe pa).cores = s.cores := by simp [State.memUe]

@[simp] theorem State.askRepair_cores (pa : Nat) (lost : Bool) : (s.askRepair pa lost).cores = s.cores := by
  simp [State.askRepair, State.send, State.unprotect]

@[simp] theorem State.loseLine_cores (pa : Nat) : (s.loseLine pa).cores = s.cores := by
  simp [State.loseLine, State.poisonLine, State.poisonWords]

@[simp] theorem State.lineRead_cores (pa : Nat) (r : Reader) : (s.lineRead pa r).1.cores = s.cores := by
  unfold State.lineRead
  split
  · rfl
  · dsimp only
    split
    all_goals try split
    all_goals simp

end

/-! The operations. -/

section
variable {α β : Type} {R : Cx → Cx → Prop}

/-- What `Within` says of one context. -/
def WithinAt (R : Cx → Cx → Prop) (a : Op α) (x : Cx) : Prop :=
  match a x with | .ok _ y => R x y | .error _ y => R x y

theorem Within.at {a : Op α} (h : Within R a) (x : Cx) : WithinAt R a x := h x

/-- What follows the reading of the context starts from the context that it read. -/
theorem within_cx_bind {f : Cx → Op α} (h : ∀ x, WithinAt R (f x) x) : Within R (cx >>= f) := h

/-- What follows the setting of a related context. -/
theorem withinAt_set (hR : Preorder' R) {x y : Cx} {f : Unit → Op α} (hy : R x y) (h : Within R (f ())) :
    WithinAt R (set y >>= f) x := by
  have ha := h y
  show match f () y with | .ok _ z => R x z | .error _ z => R x z
  split <;> rename_i e <;> rw [e] at ha <;> exact hR.trans _ _ _ hy ha

end

/-- From x to y an operation may have changed the cached translations of the working copy and the device beside its cores. -/
def Cx.Reads (x y : Cx) : Prop :=
  y.c = { x.c with tlb := y.c.tlb } ∧ y.cost = x.cost ∧ y.npc = x.npc ∧ y.ent = x.ent ∧ y.s.cores = x.s.cores

theorem Cx.Reads.trans {x y z : Cx} (h : x.Reads y) (g : y.Reads z) : x.Reads z := by
  obtain ⟨hc, hcost, hnpc, hent, hcores⟩ := h
  obtain ⟨hc', hcost', hnpc', hent', hcores'⟩ := g
  exact ⟨by rw [hc', hc], hcost'.trans hcost, hnpc'.trans hnpc, hent'.trans hent, hcores'.trans hcores⟩

theorem reads_preorder : Preorder' Cx.Reads := ⟨fun _ => ⟨rfl, rfl, rfl, rfl, rfl⟩, fun _ _ _ => Cx.Reads.trans⟩

theorem within_modS_reads {f : State → State} (h : ∀ s, (f s).cores = s.cores) : Within Cx.Reads (modS f) :=
  fun x => ⟨rfl, rfl, rfl, rfl, h x.s⟩

/-- An access checks, and holds translations. -/
theorem within_access (k : AK) (va : Nat) (split2 : Bool) : Within Cx.Reads (access k va split2) := by
  unfold access
  refine within_cx_bind fun x => ?_
  split
  · exact (within_raiseA reads_preorder _ _ _ _ _).at x
  split
  · split
    · exact (within_raiseA reads_preorder _ _ _ _ _).at x
    split
    · exact (within_raiseA reads_preorder _ _ _ _ _).at x
    split
    · exact (within_raiseA reads_preorder _ _ _ _ _).at x
    · exact (within_pure reads_preorder _).at x
  split
  · exact (within_raiseA reads_preorder _ _ _ _ _).at x
  · refine withinAt_set reads_preorder ⟨rfl, rfl, rfl, rfl, x.s.xlate_cores ..⟩ ?_
    split <;> split
    · exact within_raiseA reads_preorder _ _ _ _ _
    · exact within_raiseV reads_preorder _ _
    · exact within_pure reads_preorder _
    · exact within_pure reads_preorder _

theorem within_lineCheck (pa va : Nat) (split2 : Bool) : Within Cx.Reads (lineCheck pa va split2) := by
  unfold lineCheck
  refine within_cx_bind fun x => withinAt_set reads_preorder ⟨rfl, rfl, rfl, rfl, x.s.lineRead_cores ..⟩ ?_
  split
  · exact within_pure reads_preorder _
  · exact within_raiseA reads_preorder _ _ _ _ _
  · exact within_bind reads_preorder (within_modS_reads fun _ => rfl) fun _ => within_throw reads_preorder _

theorem within_targetWord (tg : Target) (va : Nat) (split2 : Bool) : Within Cx.Reads (targetWord tg va split2) := by
  have hcx := within_cx reads_preorder
  unfold targetWord
  split
  · exact within_bind reads_preorder hcx fun _ => within_pure reads_preorder _
  · refine within_bind reads_preorder hcx fun x => ?_
    dsimp only
    split
    · exact within_bind reads_preorder (within_lineCheck _ _ _) fun _ =>
        within_bind reads_preorder hcx fun _ => within_pure reads_preorder _
    · exact within_bind reads_preorder hcx fun _ => within_pure reads_preorder _
  · exact within_pure reads_preorder _

/-- A word outside control space is read as the checked target gives it (R533). -/
theorem readTarget_eq {tg : Target} (h : ∀ off, tg ≠ .ctl off) (va : Nat) :
    readTarget tg va = targetWord tg va false := by
  cases tg with
  | ctl off => exact absurd rfl (h off)
  | tcm off => rfl
  | mem pa pf => rfl

/-- The steps of a word load that completed (R65, R66, R70). -/
theorem loadWord_steps {va : Nat} {x z : Cx} {v : TWord} (h : loadWord va x = .ok v z) :
    ∃ tg y, va % 8 = 0 ∧ access .read va false x = .ok tg y ∧ readTarget tg va y = .ok v z ∧
      v.tag ≠ tPOISON ∧ tagReserved v.tag = false := by
  unfold loadWord at h
  obtain ⟨_, x', halign, hrest⟩ := op_bind_ok h
  obtain ⟨tg, y, haccess, hrest⟩ := op_bind_ok hrest
  obtain ⟨v', z', hread, hrest⟩ := op_bind_ok hrest
  obtain ⟨_, z'', htag, hrest⟩ := op_bind_ok hrest
  cases hrest
  obtain ⟨hva, hx⟩ := needAligned_ok halign
  obtain ⟨hpoison, hreserved, hz⟩ := checkReadTag_ok htag
  subst hx hz
  exact ⟨tg, y, hva, haccess, hread, hpoison, hreserved⟩

/-- Settles O9: the steps of the load, each of which only reads the core. -/
theorem readingAWordKeepsRegistersAndMemory : Obligations.ReadingAWordKeepsRegistersAndMemory := by
  unfold Obligations.ReadingAWordKeepsRegistersAndMemory
  intro va x y z tg v haccess hctl hload
  obtain ⟨tg', y', hva, haccess', hread, hpoison, hreserved⟩ := loadWord_steps hload
  rw [haccess] at haccess'
  cases haccess'
  rw [readTarget_eq hctl] at hread
  obtain ⟨hc, hcost, hnpc, hent, hcores⟩ :=
    ((within_access _ _ _).ok haccess).trans ((within_targetWord _ _ _).ok hread)
  have hmem : z.s.mem = x.s.mem := (memSame_loadWord va).within.ok hload
  exact ⟨hva, hpoison, hreserved, hc, hcost, hnpc, hent, hcores, fun a => by rw [hmem]⟩

end Sys2Proof.Machine
end

section
/-!
PROOFS. The programming model, fifth part: the logical instructions (R65, R158) and the tag instructions (R68, R161).
-/
namespace Sys2Proof.Machine

/-! Operands tagged RAW or INT. -/

theorem needTag_rawInt {t : Tag} (h : t = tRAW ∨ t = tINT) (n : Nat) :
    needTag t (t == tRAW || t == tINT) n = pure () := by
  rcases h with rfl | rfl <;> rfl

theorem isRawInt {t : Tag} (h : t = tRAW ∨ t = tINT) : (t == tRAW || t == tINT) = true := by
  rcases h with rfl | rfl <;> rfl

theorem logicPsw_eq (p r : Word) : logicPsw p r = pswZNV p (decide (r = 0)) r.msb false := by
  rw [logicPsw, bit_sign]
  rfl

/-- The bank after a logical instruction: the tag of the row of R65, and Z and N from the result r (R158). -/
def Bank.logic (w : Nat) (a : Tag) (v : Tag) (r p : Word) (b : Bank) : Bank :=
  { b.based w 8 with acc := ⟨r, logicTag a v⟩, psw := pswZNV p (decide (r = 0)) r.msb false }

/-- A logical instruction on ACC and a word, both tagged RAW or INT. -/
theorem logicIns_retires {c : Instr} {e : Fin 256} {w x : BitVec 32} {f : Word → Word → Word} {s : State} {v : TWord}
    {z : Cx} (hexec : exec c s = .next (logicIns e w x f s)) (hi : s.issues e w.toNat (fmtOk .m w.toNat) = true)
    (hop : memOperand w x (s.start e w.toNat) = .ok v z) (ha : (s.core e).cur.acc.tag = tRAW ∨ (s.core e).cur.acc.tag = tINT)
    (hv : v.tag = tRAW ∨ v.tag = tINT) :
    Completes c s fun t => Retires s t e (z.with 1 (Bank.logic w.toNat (s.core e).cur.acc.tag v.tag
      (f (s.core e).cur.acc.val v.val) z.c.cur.psw)) := by
  refine completes_retires hexec hi ?_
  have hop' := memOperandTag_ok (ok := fun t => t == tRAW || t == tINT) hop (isRawInt hv)
  simp only [op_bind, op_curB, start_c, needTag_rawInt ha, op_pure, hop', op_baseUpdate, op_modB, op_done, cur_setCur,
    setCur_setCur, based_psw, logicPsw_eq]
  rfl

/-- Settles O14: the three instructions by the lemma on all logical instructions. -/
theorem logicalInstructions : Obligations.LogicalInstructions := by
  unfold Obligations.LogicalInstructions
  intro e w x s v z a hi hop ha hv
  exact ⟨logicIns_retires rfl hi hop ha hv, logicIns_retires rfl hi hop ha hv, logicIns_retires rfl hi hop ha hv⟩

/-! Tag changes (R68). -/

/-- The tags that RAW may become at P2 are those numbered 1 to 7 (R64, R68). -/
theorem customerTag_iff (t : Tag) :
    (t = tINT ∨ t = tPDEC ∨ t = tPTR ∨ t = tDESC ∨ t = tTEXT ∨ t = tBFP ∨ t = tDFP) ↔ 1 ≤ t.toNat ∧ t.toNat ≤ 7 := by
  revert t
  decide

theorem tagChange_forbidden {new : Tag} (h : new = tPOISON ∨ tagReserved new = true) (p : Nat) (old : Tag) :
    tagChange p old new = some vTAG_MISMATCH := by
  rw [tagChange, if_pos (by simpa using h)]

/-- A change to a tag that a word may carry raises PRIVILEGE where the privilege does not permit it. -/
theorem tagChange_carried {new : Tag} (hp : new ≠ tPOISON) (hr : tagReserved new = false) (p : Nat) (old : Tag) :
    tagChange p old new =
      if old = new ∨ p < 2 ∨ (old = tRAW ∧ 1 ≤ new.toNat ∧ new.toNat ≤ 7) then none else some vPRIVILEGE := by
  rw [tagChange, if_neg (by simp [hp, hr])]
  simp only [← customerTag_iff, Bool.and_eq_true, Bool.or_eq_true, decide_eq_true_eq, or_assoc]
  by_cases hsame : old = new
  · simp [hsame]
  by_cases hpriv : p < 2
  · simp [hpriv]
  · simp [hsame, hpriv]

/-- Settles O17: a tag that no word may carry, or a tag that a word may carry with the privilege that permits the change. -/
theorem permittedTagChanges : Obligations.PermittedTagChanges := by
  unfold Obligations.PermittedTagChanges
  intro p old new
  by_cases h : new = tPOISON ∨ tagReserved new = true
  · have hchange := tagChange_forbidden h p old
    refine ⟨?_, fun _ => hchange, .inr (.inl hchange)⟩
    rw [hchange]
    rcases h with h | h <;> simp [h]
  · have hp : new ≠ tPOISON := fun hn => h (.inl hn)
    have hr : tagReserved new = false := by simpa using fun hn => h (.inr hn)
    rw [tagChange_carried hp hr]
    refine ⟨?_, fun hn => absurd hn h, ?_⟩
    · split
      next hc => simp only [hp, hr, hc, ne_eq, not_false_eq_true, and_self]
      next hc => simp only [hc, reduceCtorEq, and_false]
    · split
      · exact .inl rfl
      · exact .inr (.inr rfl)

/-! The tag instructions (R161). -/

theorem tagChangeCheck_pass {old new : Tag} {x : Cx} (h : tagChange (pPRIV x.c.cur.psw) old new = none) (operand : Nat)
    (addr : Option Nat) : tagChangeCheck old new operand addr x = .ok () x := by
  simp only [tagChangeCheck, op_bind, op_privNow, h, op_pure]

theorem accTag_ok {x : Cx} (h : x.c.cur.acc.tag = tRAW ∨ x.c.cur.acc.tag = tINT) :
    accTag x = .ok (x.c.cur.acc.val.setWidth 4) x := by
  simp only [accTag, op_bind, op_curB, needTag_rawInt h, op_pure]

section
variable {e : Fin 256} {w x : BitVec 32} {s : State} {v : TWord} {z : Cx}

theorem ttst_retires (hi : s.issues e w.toNat (tagFormOk w.toNat x.toNat) = true) :
    Completes (.ttst e w x) s fun u => Retires s u e ((s.start e w.toNat).with 0 fun b =>
      { b with psw := setBit b.psw 6 (decide ((b.reg (fRD w.toNat)).tag = tagImm w.toNat x.toNat)) }) := by
  refine completes_retires rfl hi ?_
  simp only [op_bind, op_curB, op_setFlag, op_done]
  rfl

theorem tagset_retires (hi : s.issues e w.toNat (tagFormOk w.toNat x.toNat) = true)
    (hc : tagChange (pPRIV (s.core e).cur.psw) ((s.core e).cur.reg (fRD w.toNat)).tag (tagImm w.toNat x.toNat) = none) :
    Completes (.tagset e w x) s fun u => Retires s u e ((s.start e w.toNat).with 0 fun b =>
      b.setReg (fRD w.toNat) ⟨(b.reg (fRD w.toNat)).val, tagImm w.toNat x.toNat⟩) := by
  refine completes_retires rfl hi ?_
  rw [← start_c s e w.toNat] at hc
  simp only [op_bind, op_curB, tagChangeCheck_pass hc, op_modB, op_done]
  rfl

theorem ttstm_retires (hi : s.issues e w.toNat (fmtOk .m w.toNat) = true)
    (ha : (s.core e).cur.acc.tag = tRAW ∨ (s.core e).cur.acc.tag = tINT)
    (hop : memOperand w x (s.start e w.toNat) = .ok v z) :
    Completes (.ttstm e w x) s fun u => Retires s u e (z.with 1 fun b =>
      { b.based w.toNat 8 with psw := setBit b.psw 6 (decide (v.tag = (s.core e).cur.acc.val.setWidth 4)) }) := by
  refine completes_retires rfl hi ?_
  rw [← start_c s e w.toNat] at ha ⊢
  simp only [op_bind, accTag_ok ha, hop, op_baseUpdate, op_setFlag, op_done, cur_setCur, setCur_setCur, based_psw]
  rfl

theorem tagsetm_retires {ea : Nat} {tg : Target} {y' z' : Cx} (hi : s.issues e w.toNat (fmtOk .m w.toNat) = true)
    (ha : (s.core e).cur.acc.tag = tRAW ∨ (s.core e).cur.acc.tag = tINT)
    (hea : formEa w.toNat (dispOf w.toNat x.toNat) 8 true (s.start e w.toNat) = .ok ea (s.start e w.toNat))
    (halign : ea % 8 = 0) (haccess : access .write ea false (s.start e w.toNat) = .ok tg y') (hctl : ∀ off, tg ≠ .ctl off)
    (hword : targetWord tg ea false y' = .ok v z) (hp : v.tag ≠ tPOISON) (hr : tagReserved v.tag = false)
    (hc : tagChange (pPRIV z.c.cur.psw) v.tag ((s.core e).cur.acc.val.setWidth 4) = none)
    (hsame : v.tag = (s.core e).cur.acc.val.setWidth 4 → z' = z)
    (hwrite : v.tag ≠ (s.core e).cur.acc.val.setWidth 4 →
      writeTarget tg ea ⟨v.val, (s.core e).cur.acc.val.setWidth 4⟩ z = .ok () z') :
    Completes (.tagsetm e w x) s fun u => Retires s u e (z'.with 1 fun b => b.based w.toNat 8) := by
  refine completes_retires rfl hi ?_
  rw [← start_c s e w.toNat] at ha hc hsame hwrite
  have hrest : (if v.tag = (s.start e w.toNat).c.cur.acc.val.setWidth 4 then do baseUpdate w.toNat 8; done 2
      else do
        writeTarget tg ea ⟨v.val, (s.start e w.toNat).c.cur.acc.val.setWidth 4⟩
        baseUpdate w.toNat 8
        done 2 : Op Unit) z = .ok () (z'.with 1 fun b => b.based w.toNat 8) := by
    split
    next h => rw [hsame h]; rfl
    next h => simp only [op_bind, hwrite h, op_baseUpdate, op_done]; rfl
  cases tg
  case ctl off => exact absurd rfl (hctl off)
  all_goals
    simp only [op_bind, accTag_ok ha, hea, needAligned_pass _ halign, op_pure, haccess, hword, checkReadTag_pass _ hp hr,
      tagChangeCheck_pass hc, hrest]

end

/-- Settles O18: each instruction by its own lemma. -/
theorem tagInstructions : Obligations.TagInstructions := by
  unfold Obligations.TagInstructions
  intro e w x s v z y b rd t
  exact ⟨fun hi => ⟨ttst_retires hi, tagset_retires hi⟩, fun hi ha => ⟨ttstm_retires hi ha,
    fun ea tg y' z' hea halign haccess hctl hword hp hr hc hsame hwrite =>
      tagsetm_retires hi ha hea halign haccess hctl hword hp hr hc hsame hwrite⟩⟩

end Sys2Proof.Machine
end

section
/-!
PROOFS. The programming model, sixth part: STM and LDM (R81 to R83).
-/
namespace Sys2Proof.Machine

/-! The registers of a mask (R81). -/

/-- An element of a filtered range stands after those below it that pass. -/
theorem index_filter_range (p : Nat → Bool) {n i r : Nat} (h : ((List.range n).filter p)[i]? = some r) :
    i = ((List.range r).filter p).length := by
  induction n with
  | zero => simp at h
  | succ n ih =>
    rw [List.range_succ, List.filter_append] at h
    by_cases hi : i < ((List.range n).filter p).length
    · rw [List.getElem?_append_left hi] at h
      exact ih h
    · rw [List.getElem?_append_right (not_lt.mp hi)] at h
      cases hp : p n with
      | false => simp [hp] at h
      | true =>
        obtain ⟨hi', rfl⟩ : i - ((List.range n).filter p).length = 0 ∧ n = r := by
          simpa [hp, List.getElem?_singleton] using h
        omega

theorem maskRegs_mem {mask : Nat} {p : Nat × Nat} (h : p ∈ maskRegs mask) :
    p.1 < 9 ∧ mask.testBit p.1 = true ∧ p.2 = ((List.range p.1).filter mask.testBit).length := by
  obtain ⟨i, hi, rfl⟩ := List.mem_mapIdx.mp h
  have hmem := List.mem_filter.mp (List.getElem_mem hi)
  exact ⟨List.mem_range.mp hmem.1, hmem.2, index_filter_range _ (List.getElem?_eq_getElem hi)⟩

/-! One register (R82). -/

section
variable {f : Nat → Nat → Op Unit} {ea r i : Nat} {l : List (Nat × Nat)} {x z : Cx}

/-- A register in PROG is left out. -/
theorem eachReg_inProg (h : bit x.c.cur.psw (55 + r) = true) : eachReg f ea ((r, i) :: l) x = eachReg f ea l x := by
  simp only [eachReg, op_bind, op_curB, h, if_true]

theorem op_pause (x : Cx) :
    pause x = .error (.wait .run) { x with c := x.c.charge (chargeOf x.c x.s.free x.cost) } := rfl

/-- At a boundary at which to stop, with a register still to go, the instruction stops. -/
theorem eachReg_stops (h : bit x.c.cur.psw (55 + r) = false) (hlim : x.lim = some 0) :
    eachReg f ea ((r, i) :: l) x =
      .error (.wait .run) { x with c := x.c.charge (chargeOf x.c x.s.free x.cost) } := by
  simp only [eachReg, op_bind, op_curB, h, op_cx, if_pos hlim, op_pause, Bool.false_eq_true, if_false]

/-- Any other register is transferred and marked in PROG. -/
theorem eachReg_moves (h : bit x.c.cur.psw (55 + r) = false) (hlim : x.lim ≠ some 0)
    (hf : f r (ea + 8 * i) x = .ok () z) :
    eachReg f ea ((r, i) :: l) x = eachReg f ea l { z with
      c := z.c.setCur { z.c.cur with psw := setBit z.c.cur.psw (55 + r) true }, cost := z.cost + 1,
      lim := z.lim.map (· - 1) } := by
  simp only [eachReg, op_bind, op_curB, h, op_cx, hlim, Bool.false_eq_true, if_false, hf]
  rfl

end

/-! All registers: the contexts of `Transfers`, to the end or to a stop. -/

/-- No stop comes before register m of the list. -/
def NoStop (rs : List (Nat × Nat)) (u : Nat → Cx) (m : Nat) : Prop :=
  ∀ j p, j < m → rs[j]? = some p → bit (u j).c.cur.psw (55 + p.1) = false → (u j).lim ≠ some 0

/-- A stop comes at register m of the list. -/
def StopsAt (rs : List (Nat × Nat)) (u : Nat → Cx) (m : Nat) : Prop :=
  ∃ p, rs[m]? = some p ∧ bit (u m).c.cur.psw (55 + p.1) = false ∧ (u m).lim = some 0

/-- The transfer of the first m registers leads from the first context to that after them. -/
theorem eachReg_transfers {move : Nat → Nat → Cx → Cx → Prop} {f : Nat → Nat → Op Unit} {ea : Nat}
    {l : List (Nat × Nat)} (hf : ∀ p ∈ l, ∀ a v z, move p.1 a v z → f p.1 a v = .ok () z) {u : Nat → Cx} {m : Nat}
    (hm : m ≤ l.length) (ht : Transfers move ea l u m) (hgo : NoStop l u m) :
    eachReg f ea l (u 0) = eachReg f ea (l.drop m) (u m) := by
  induction m generalizing l u with
  | zero => rfl
  | succ m ih =>
    cases l with
    | nil => simp at hm
    | cons p l =>
      obtain ⟨hin, hout⟩ := ht 0 p (by omega) rfl
      have hstep : eachReg f ea (p :: l) (u 0) = eachReg f ea l (u 1) := by
        cases hp : bit (u 0).c.cur.psw (55 + p.1) with
        | true => rw [eachReg_inProg hp, hin hp]
        | false =>
          obtain ⟨z, hmove, hu⟩ := hout hp
          rw [eachReg_moves hp (hgo 0 p (by omega) rfl hp) (hf p (by simp) _ _ _ hmove), hu]
      rw [hstep, List.drop_succ_cons]
      exact ih (u := fun j => u (j + 1)) (fun q hq => hf q (by simp [hq])) (by simpa using hm)
        (fun j q hj hq => ht (j + 1) q (by omega) hq) (fun j q hj hq => hgo (j + 1) q (by omega) hq)

/-- A stop at register m leaves the transfers before it, with the cycles charged. -/
theorem eachReg_stopsAt {f : Nat → Nat → Op Unit} {ea m : Nat} {l : List (Nat × Nat)} {u : Nat → Cx}
    (h : StopsAt l u m) : eachReg f ea (l.drop m) (u m) =
      .error (.wait .run) { u m with c := (u m).c.charge (chargeOf (u m).c (u m).s.free (u m).cost) } := by
  obtain ⟨p, hp, hbit, hlim⟩ := h
  obtain ⟨hlt, rfl⟩ := List.getElem?_eq_some_iff.mp hp
  rw [List.drop_eq_getElem_cons hlt, eachReg_stops hbit hlim]

/-! The two instructions. -/

/-- Forming an address does not depend on when to stop. -/
theorem formEa_lim {w : Nat} {d : Int} {n : Nat} {wr : Bool} {y : Cx} {ea : Nat} (h : formEa w d n wr y = .ok ea y)
    (k : Option Nat) : formEa w d n wr { y with lim := k } = .ok ea { y with lim := k } := by
  obtain ⟨htags, v, hv, hlt, hea, -⟩ := formEa_iff.mp h
  exact formEa_iff.mpr ⟨htags, v, hv, hlt, hea, rfl⟩

/-- A tag that a store may write (R65, R66). -/
theorem storeTagCheck_pass {t : Tag} {r : Nat} {x : Cx} (hp : t ≠ tPOISON) (hr : tagReserved t = false)
    (hs : t = tSEAL → pPRIV x.c.cur.psw < 2) : storeTagCheck t r x = .ok () x := by
  simp only [storeTagCheck, needTag_ok t true r rfl hp hr, op_bind, op_pure, op_privNow]
  split
  next h =>
    simp only [Bool.and_eq_true, decide_eq_true_eq] at h
    exact absurd (hs h.1) (not_lt.mpr h.2)
  next => rfl

/-- STM may store every register of the list that is still to go. -/
def Cx.Storable (x : Cx) (rs : List (Nat × Nat)) : Prop :=
  ∀ p ∈ rs, bit x.c.cur.psw (55 + p.1) = false →
    (x.c.cur.reg p.1).tag ≠ tPOISON ∧ tagReserved (x.c.cur.reg p.1).tag = false ∧
      ((x.c.cur.reg p.1).tag = tSEAL → pPRIV x.c.cur.psw < 2)

theorem stmCheck_pass {x : Cx} {rs : List (Nat × Nat)} (h : x.Storable rs) : stmCheck rs x = .ok () x := by
  induction rs with
  | nil => rfl
  | cons p rs ih =>
    have hrest := ih fun q hq => h q (by simp [hq])
    simp only [stmCheck, op_bind, op_curB]
    cases hp : bit x.c.cur.psw (55 + p.1) with
    | true => exact hrest
    | false =>
      obtain ⟨hpoison, hreserved, hseal⟩ := h p (by simp) hp
      simp only [Bool.false_eq_true, if_false, op_bind, storeTagCheck_pass hpoison hreserved hseal, hrest]

/-- From v to z STM stores register r at a, with PROG of PSW 0 (R81, R83). -/
def StmMove (r a : Nat) (v z : Cx) : Prop :=
  storeWordAt a (if r = 8 then ⟨setFld v.c.cur.psw 63 55 0, tRAW⟩ else v.c.cur.reg r) v = .ok () z

theorem stmElem_ok {r a : Nat} {v z : Cx} (h : StmMove r a v z) : stmElem r a v = .ok () z := by
  unfold StmMove at h
  simp only [stmElem, op_bind, op_curB]
  split
  next h8 => subst h8; exact h
  next h8 => rw [if_neg h8] at h; exact h

/-- The tag that STM writes for a register, which LDM asks of a register above X2 (R81). -/
def stmTag (r : Nat) : Tag := if r = 4 ∨ r = 7 then tINT else if r = 5 ∨ r = 6 then tPTR else tRAW

theorem stmTag_eq {r : Nat} (hlo : 4 ≤ r) (hhi : r < 9) : (Bank.cold.reg r).tag = stmTag r := by
  interval_cases r <;> rfl

/-- From v to z LDM loads register r from a, PSW as CSRW writes it (R81, R83). -/
def LdmMove (r a : Nat) (v z : Cx) : Prop :=
  ∃ d v', loadWord a v = .ok d v' ∧ (4 ≤ r → d.tag = stmTag r) ∧
    (r < 8 → z = { v' with c := v'.c.setCur (v'.c.cur.setReg r d) }) ∧ (r = 8 → ldmPsw d v' = .ok () z)

theorem ldmElem_ok {r a : Nat} {v z : Cx} (hr : r < 9) (h : LdmMove r a v z) : ldmElem r a v = .ok () z := by
  obtain ⟨d, v', hload, htag, hreg, hpsw⟩ := h
  simp only [ldmElem, op_bind, hload]
  by_cases h4 : r < 4
  · rw [if_pos h4, hreg (by omega)]
    rfl
  · rw [if_neg h4, stmTag_eq (not_lt.mp h4) hr, if_neg (not_not.mpr (htag (not_lt.mp h4)))]
    by_cases h8 : r = 8
    · rw [if_pos h8, hpsw h8]
    · rw [if_neg h8, hreg (by omega)]
      rfl

/-- What ends STM or LDM after the last register: PROG is 0 and the base register is updated (R82). -/
def Cx.endMulti (w n : Nat) (v : Cx) : Cx :=
  { v with c := v.c.setCur ({ v.c.cur with psw := setFld v.c.cur.psw 63 55 0 }.based w n), cost := v.cost + 1 }

theorem op_endMulti (w n : Nat) (v : Cx) : endMulti w n v = .ok () (v.endMulti w n) := by
  simp only [endMulti, op_bind, op_modB, op_baseUpdate, op_addCost, cur_setCur, setCur_setCur]
  rfl

/-- t is the device after a stop in context v: the unit goes on at the instruction, with what it has done (R82). -/
def Paused (e : Nat) (v : Cx) (t : State) : Prop :=
  ∀ k ∈ v.s.unitCores e, (t.core k).banks = v.c.banks ∧ (t.core k).pc = v.c.pc ∧ (t.core k).retired = v.c.retired ∧
    (t.core k).act = .run

theorem charge_keeps (c : Core) (n : Nat) :
    (c.charge n).banks = c.banks ∧ (c.charge n).pc = c.pc ∧ (c.charge n).retired = c.retired := by
  unfold Core.charge
  split <;> exact ⟨rfl, rfl, rfl⟩

theorem waits_paused {t : State} {e n : Nat} {v : Cx} (h : Waits t e { v with c := v.c.charge n } .run) :
    Paused e v t := by
  intro k hk
  obtain ⟨hbanks, hpc, hretired⟩ := charge_keeps v.c n
  rw [h.1 k, if_pos hk]
  exact ⟨hbanks, hpc, hretired, rfl⟩

/-- An instruction whose operation, up to the registers, transfers them from the context u 0: it retires after the last, or
stops. -/
theorem multi_outcome {c : Instr} {s : State} {e w : Nat} {ok : Bool} {body : Op Unit} {n ea m : Nat}
    {f : Nat → Nat → Op Unit} {move : Nat → Nat → Cx → Cx → Prop} {rs : List (Nat × Nat)} {u : Nat → Cx}
    (hexec : exec c s = .next (s.runIns e w ok body)) (hi : s.issues e w ok = true)
    (hbody : body (s.start e w) = (do eachReg f ea rs; endMulti w n : Op Unit) (u 0))
    (hf : ∀ p ∈ rs, ∀ a v z, move p.1 a v z → f p.1 a v = .ok () z) (hm : m ≤ rs.length)
    (ht : Transfers move ea rs u m) (hgo : NoStop rs u m) :
    (m = rs.length → Completes c s fun t => Retires s t e ((u m).endMulti w n)) ∧
    (StopsAt rs u m → Completes c s (Paused e (u m))) := by
  have hregs := eachReg_transfers hf hm ht hgo
  rw [op_bind, hregs] at hbody
  constructor
  · rintro rfl
    rw [List.drop_length] at hbody
    exact completes_retires hexec hi (hbody.trans (op_endMulti w n _))
  · intro hstop
    rw [eachReg_stopsAt hstop] at hbody
    obtain ⟨t, ht, hwaits⟩ := completes_waits hexec hi hbody
    exact ⟨t, ht, waits_paused hwaits⟩

section
variable {e : Fin 256} {w x : BitVec 32} {stop : Option Nat} {s : State} {ea m : Nat} {u : Nat → Cx}

theorem stm_outcome (hu : u 0 = { s.start e w.toNat with lim := stop }) (halign : ea % 8 = 0)
    (hm : m ≤ (maskRegs (fMASK w.toNat)).length)
    (hi : s.issues e w.toNat (fmtOk .k w.toNat && fMASK w.toNat != 0) = true)
    (hregs : (s.start e w.toNat).Storable (maskRegs (fMASK w.toNat)))
    (hea : formEa w.toNat (dispK w.toNat x.toNat) (8 * (maskRegs (fMASK w.toNat)).length) true (s.start e w.toNat) =
      .ok ea (s.start e w.toNat))
    (ht : Transfers StmMove ea (maskRegs (fMASK w.toNat)) u m)
    (hgo : NoStop (maskRegs (fMASK w.toNat)) u m) :
    (m = (maskRegs (fMASK w.toNat)).length → Completes (.stm e w ⟨x, stop⟩) s fun t =>
      Retires s t e ((u m).endMulti w.toNat (8 * (maskRegs (fMASK w.toNat)).length))) ∧
    (StopsAt (maskRegs (fMASK w.toNat)) u m → Completes (.stm e w ⟨x, stop⟩) s (Paused e (u m))) := by
  refine multi_outcome rfl hi ?_ (fun p _ a v z => stmElem_ok) hm ht hgo
  have hcheck : stmCheck (maskRegs (fMASK w.toNat)) (u 0) = .ok () (u 0) := stmCheck_pass (by rw [hu]; exact hregs)
  have hform := formEa_lim hea stop
  rw [← hu] at hform
  have hstop : setStop stop (s.start e w.toNat) = .ok () (u 0) := by rw [hu]; rfl
  simp only [op_bind, hstop, hcheck, hform, needAligned_pass _ halign, op_pure]

theorem ldm_outcome (hu : u 0 = { s.start e w.toNat with lim := stop }) (halign : ea % 8 = 0)
    (hm : m ≤ (maskRegs (fMASK w.toNat)).length)
    (hi : s.issues e w.toNat (fmtOk .k w.toNat && fMASK w.toNat != 0 && !maskUses w.toNat) = true)
    (hea : formEa w.toNat (dispK w.toNat x.toNat) (8 * (maskRegs (fMASK w.toNat)).length) false (s.start e w.toNat) =
      .ok ea (s.start e w.toNat))
    (ht : Transfers LdmMove ea (maskRegs (fMASK w.toNat)) u m)
    (hgo : NoStop (maskRegs (fMASK w.toNat)) u m) :
    (m = (maskRegs (fMASK w.toNat)).length → Completes (.ldm e w ⟨x, stop⟩) s fun t =>
      Retires s t e ((u m).endMulti w.toNat (8 * (maskRegs (fMASK w.toNat)).length))) ∧
    (StopsAt (maskRegs (fMASK w.toNat)) u m → Completes (.ldm e w ⟨x, stop⟩) s (Paused e (u m))) := by
  refine multi_outcome rfl hi ?_ (fun p hp a v z => ldmElem_ok (maskRegs_mem hp).1) hm ht hgo
  have hform := formEa_lim hea stop
  rw [← hu] at hform
  have hstop : setStop stop (s.start e w.toNat) = .ok () (u 0) := by rw [hu]; rfl
  simp only [op_bind, hstop, hform, needAligned_pass _ halign, op_pure]

end

/-- Settles O19: the transfers by induction on the registers done, then the end of the instruction or the stop. -/
theorem multipleTransfers : Obligations.MultipleTransfers := by
  unfold Obligations.MultipleTransfers
  intro e w x stop s ea m u y rs n tagOf undone ended paused stored loaded clear held hu halign hm
  exact ⟨fun hi hregs hea ht hgo => stm_outcome hu halign hm hi hregs hea ht hgo,
    fun hi hea ht hgo => ldm_outcome hu halign hm hi hea ht hgo, fun p hp => maskRegs_mem hp⟩

end Sys2Proof.Machine
end

section
/-!
PROOFS. The programming model, seventh part: JMP, CALL and RET (R151, R152), with the return stack (R79, R80) and the shadow
stack of the Markhor check (R196, R197).
-/
namespace Sys2Proof.Machine

/-! Targets and stacks. -/

theorem needTarget_pass {ea : Nat} (h : ea % 4 = 0) : needTarget ea = pure () := if_pos h

theorem needTarget_fault {ea : Nat} (h : ea % 4 ≠ 0) (x : Cx) :
    needTarget ea x = .error (.exc ⟨vMISALIGNED, 0, some ea, false, false, false⟩) x := by
  rw [needTarget, if_neg h, op_raiseA]

/-- The states in which the Markhor check is active (R196). -/
theorem markhor_iff (c : Core) :
    markhor c = true ↔ c.stateCode = csBOOT ∨ c.stateCode = csTEST ∨ c.stateCode = csRECOVERY := by
  simp [markhor, or_assoc]

/-- The entries of the shadow stack (R197). -/
def Core.shadowDepth (c : Core) : Nat := fld c.shstk 40 32

/-- The core with the return address ra on the shadow stack, where the check is active. -/
def Core.shadowPushed (c : Core) (ra : Word) : Core :=
  if markhor c then { c with tcm := sset raw0 c.tcm (shadowWord c c.shadowDepth) ⟨ra, tCODE⟩,
                             shstk := setFld c.shstk 40 32 (c.shadowDepth + 1) }
  else c

theorem shadowPush_ok {x : Cx} (h : markhor x.c = true → x.c.shadowDepth < 256) (ra : Word) :
    shadowPush ra x = .ok () { x with c := x.c.shadowPushed ra } := by
  simp only [shadowPush, op_bind, op_cx, Core.shadowPushed]
  cases hm : markhor x.c with
  | false => rfl
  | true =>
    have hroom : ¬ fld x.c.shstk 40 32 ≥ 256 := Nat.not_le.mpr (h hm)
    simp only [Bool.not_true, Bool.false_eq_true, if_false, if_true, if_neg hroom, op_modC]
    rfl

theorem shadowPush_full {x : Cx} (hm : markhor x.c = true) (h : 256 ≤ x.c.shadowDepth) (ra : Word) :
    shadowPush ra x = .error (.exc ⟨vSHADOW_MISMATCH, 1, some ra.toNat, false, false, false⟩) x := by
  have hfull : fld x.c.shstk 40 32 ≥ 256 := h
  simp only [shadowPush, op_bind, op_cx, hm, Bool.not_true, Bool.false_eq_true, if_false, if_pos hfull, shadowFault,
    op_raiseA]

/-- The entry on top of the shadow stack. -/
def Core.shadowTop (c : Core) : TWord := sget raw0 c.tcm (shadowWord c (c.shadowDepth - 1))

/-- The shadow stack has ra on top, or the check is not active. -/
def Core.ShadowAgrees (c : Core) (ra : Word) : Prop :=
  markhor c = true → c.shadowDepth ≠ 0 ∧ c.shadowTop.tag ≠ tPOISON ∧ c.shadowTop.val = ra

/-- The core with the top entry taken off the shadow stack, where the check is active. -/
def Core.shadowPopped (c : Core) : Core :=
  { c with shstk := if markhor c = true then setFld c.shstk 40 32 (c.shadowDepth - 1) else c.shstk }

theorem shadowPop_ok {x : Cx} {ra : Word} (h : x.c.ShadowAgrees ra) :
    shadowPop ra x = .ok () { x with c := x.c.shadowPopped } := by
  simp only [shadowPop, op_bind, op_cx, Core.shadowPopped]
  cases hm : markhor x.c with
  | false => rfl
  | true =>
    obtain ⟨hdepth, htag, hval⟩ := h hm
    unfold Core.shadowTop at htag hval
    unfold Core.shadowDepth at hdepth htag hval
    simp only [Bool.not_true, Bool.false_eq_true, if_false, if_true, if_neg hdepth, if_neg htag, if_neg (not_not.mpr hval),
      op_modC]
    rfl

theorem shadowPop_empty {x : Cx} (hm : markhor x.c = true) (h : x.c.shadowDepth = 0) (ra : Word) :
    shadowPop ra x = .error (.exc ⟨vSHADOW_MISMATCH, 2, some ra.toNat, false, false, false⟩) x := by
  have hempty : fld x.c.shstk 40 32 = 0 := h
  simp only [shadowPop, op_bind, op_cx, hm, Bool.not_true, Bool.false_eq_true, if_false, if_pos hempty, shadowFault,
    op_raiseA]

theorem shadowPop_differs {x : Cx} {ra : Word} (hm : markhor x.c = true) (h : x.c.shadowDepth ≠ 0)
    (htag : x.c.shadowTop.tag ≠ tPOISON) (hval : x.c.shadowTop.val ≠ ra) :
    shadowPop ra x =
      .error (.exc ⟨vSHADOW_MISMATCH, 0, some x.c.shadowTop.val.toNat, false, false, false⟩) x := by
  have hdepth : ¬ fld x.c.shstk 40 32 = 0 := h
  unfold Core.shadowTop Core.shadowDepth at htag hval ⊢
  simp only [shadowPop, op_bind, op_cx, hm, Bool.not_true, Bool.false_eq_true, if_false, if_neg hdepth, if_neg htag,
    if_pos hval, shadowFault, op_raiseA]

/-! The instructions. -/

section
variable {e : Fin 256} {w x : BitVec 32} {s : State} {ea : Nat}

theorem jmp_retires (hi : s.issues e w.toNat (fmtOk .a w.toNat) = true)
    (hea : formA w.toNat (dispOf w.toNat x.toNat) (s.start e w.toNat) = .ok ea (s.start e w.toNat)) (h4 : ea % 4 = 0) :
    Completes (.jmp e w x) s fun t =>
      Retires s t e { s.start e w.toNat with npc := BitVec.ofNat 64 ea, cost := 2, xcost := 2 } := by
  refine completes_retires rfl hi ?_
  simp only [op_bind, hea, needTarget_pass h4, op_pure, op_goTo, op_done]
  rfl

theorem transfer_misaligned (hi : s.issues e w.toNat (fmtOk .a w.toNat) = true)
    (hea : formA w.toNat (dispOf w.toNat x.toNat) (s.start e w.toNat) = .ok ea (s.start e w.toNat)) (h4 : ea % 4 ≠ 0) :
    ∀ i ∈ [Instr.jmp e w x, .call e w x], Completes i s fun t =>
      Raises s t e (s.start e w.toNat) ⟨vMISALIGNED, 0, some ea, false, false, false⟩ := by
  intro i hmem
  simp only [List.mem_cons, List.not_mem_nil, or_false] at hmem
  rcases hmem with rfl | rfl
  · refine completes_raises rfl hi ?_ rfl (show vMISALIGNED ≠ vMACHINE_CHECK by decide)
    simp only [op_bind, hea, needTarget_fault h4]
  · refine completes_raises rfl hi ?_ rfl (show vMISALIGNED ≠ vMACHINE_CHECK by decide)
    simp only [op_bind, hea, needTarget_fault h4]

/-- The return stack of the core can take an entry (R80). -/
def Cx.CanPush (y : Cx) : Prop := y.v.wrap = true ∨ fld y.c.rsctl 5 0 ≠ 32

/-- The return stack of the core has an entry to give (R80). -/
def Cx.CanPop (y : Cx) : Prop := y.v.wrap = true ∨ fld y.c.rsctl 5 0 ≠ 0

theorem canPush_iff (y : Cx) : (!y.v.wrap && fld y.c.rsctl 5 0 == 32) = false ↔ y.CanPush := by
  rw [Cx.CanPush, ← Bool.not_eq_true, Bool.and_eq_true, not_and_or]
  simp

theorem canPop_iff (y : Cx) : (!y.v.wrap && fld y.c.rsctl 5 0 == 0) = false ↔ y.CanPop := by
  rw [Cx.CanPop, ← Bool.not_eq_true, Bool.and_eq_true, not_and_or]
  simp

theorem call_retires (hi : s.issues e w.toNat (fmtOk .a w.toNat) = true)
    (hea : formA w.toNat (dispOf w.toNat x.toNat) (s.start e w.toNat) = .ok ea (s.start e w.toNat)) (h4 : ea % 4 = 0)
    (hpush : (s.start e w.toNat).CanPush)
    (hroom : markhor (s.start e w.toNat).c = true → (s.start e w.toNat).c.shadowDepth < 256) :
    Completes (.call e w x) s fun t => Retires s t e { s.start e w.toNat with
      c := ((s.start e w.toNat).c.shadowPushed (s.start e w.toNat).npc).push ⟨(s.start e w.toNat).npc, tCODE⟩,
      npc := BitVec.ofNat 64 ea, cost := 3, xcost := 3 } := by
  refine completes_retires rfl hi ?_
  simp only [op_bind, hea, needTarget_pass h4, op_pure, op_cx, (canPush_iff _).mpr hpush, Bool.false_eq_true, if_false,
    shadowPush_ok hroom, op_modC, op_goTo, op_done]
  rfl

theorem call_overflow (hi : s.issues e w.toNat (fmtOk .a w.toNat) = true)
    (hea : formA w.toNat (dispOf w.toNat x.toNat) (s.start e w.toNat) = .ok ea (s.start e w.toNat)) (h4 : ea % 4 = 0)
    (hwrap : (s.start e w.toNat).v.wrap = false) (hfull : fld (s.start e w.toNat).c.rsctl 5 0 = 32) :
    Completes (.call e w x) s fun t =>
      Raises s t e (s.start e w.toNat) ⟨vRS_OVERFLOW, 0, none, false, false, false⟩ := by
  refine completes_raises rfl hi ?_ rfl (by decide)
  simp only [op_bind, hea, needTarget_pass h4, op_pure, op_cx, hwrap, hfull, Bool.not_false, beq_self_eq_true,
    Bool.and_self, if_true, op_raiseV]

theorem call_shadowFull (hi : s.issues e w.toNat (fmtOk .a w.toNat) = true)
    (hea : formA w.toNat (dispOf w.toNat x.toNat) (s.start e w.toNat) = .ok ea (s.start e w.toNat)) (h4 : ea % 4 = 0)
    (hpush : (s.start e w.toNat).CanPush) (hm : markhor (s.start e w.toNat).c = true)
    (hfull : 256 ≤ (s.start e w.toNat).c.shadowDepth) :
    Completes (.call e w x) s fun t => Raises s t e (s.start e w.toNat)
      ⟨vSHADOW_MISMATCH, 1, some (s.start e w.toNat).npc.toNat, false, false, false⟩ := by
  refine completes_raises rfl hi ?_ rfl (show vSHADOW_MISMATCH ≠ vMACHINE_CHECK by decide)
  simp only [op_bind, hea, needTarget_pass h4, op_pure, op_cx, (canPush_iff _).mpr hpush, Bool.false_eq_true, if_false,
    shadowPush_full hm hfull]

/-- The part of RET after the entry that it pops (R80, R196). -/
def retEntry (t : TWord) (c : Core) : Op Unit := do
  needTag t.tag (t.tag == tCODE) 9
  needTarget t.val.toNat
  shadowPop t.val
  modC fun c' => { c' with rsctl := c.rsctl }
  goTo t.val
  done 3

theorem execRet_eq (e : Fin 256) (w x : BitVec 32) (s : State) :
    execRet e w x s = .next (s.runIns e w.toNat (fmtOk .n w.toNat) do
      let k ← cx
      if !k.v.wrap && fld k.c.rsctl 5 0 == 0 then raiseV vRS_UNDERFLOW 0
      retEntry k.c.pop.1 k.c.pop.2) := rfl

theorem ret_retires (hi : s.issues e w.toNat (fmtOk .n w.toNat) = true) (hpop : (s.start e w.toNat).CanPop)
    (hcode : (s.start e w.toNat).c.pop.1.tag = tCODE) (h4 : (s.start e w.toNat).c.pop.1.val.toNat % 4 = 0)
    (hsh : (s.start e w.toNat).c.ShadowAgrees (s.start e w.toNat).c.pop.1.val) :
    Completes (.ret e w x) s fun t => Retires s t e { s.start e w.toNat with
      c := { (s.start e w.toNat).c.shadowPopped with rsctl := (s.start e w.toNat).c.pop.2.rsctl },
      npc := (s.start e w.toNat).c.pop.1.val, cost := 3, xcost := 3 } := by
  refine completes_retires (execRet_eq e w x s) hi ?_
  simp only [op_bind, op_cx, (canPop_iff _).mpr hpop, Bool.false_eq_true, if_false, op_pure, retEntry, hcode,
    beq_self_eq_true, needTag_code, needTarget_pass h4, shadowPop_ok hsh, op_modC, op_goTo, op_done]
  rfl

theorem ret_misaligned (hi : s.issues e w.toNat (fmtOk .n w.toNat) = true) (hpop : (s.start e w.toNat).CanPop)
    (hcode : (s.start e w.toNat).c.pop.1.tag = tCODE) (h4 : (s.start e w.toNat).c.pop.1.val.toNat % 4 ≠ 0) :
    Completes (.ret e w x) s fun t => Raises s t e (s.start e w.toNat)
      ⟨vMISALIGNED, 0, some (s.start e w.toNat).c.pop.1.val.toNat, false, false, false⟩ := by
  refine completes_raises (execRet_eq e w x s) hi ?_ rfl (show vMISALIGNED ≠ vMACHINE_CHECK by decide)
  simp only [op_bind, op_cx, (canPop_iff _).mpr hpop, Bool.false_eq_true, if_false, op_pure, retEntry, hcode,
    beq_self_eq_true, needTag_code, needTarget_fault h4]

theorem ret_shadowEmpty (hi : s.issues e w.toNat (fmtOk .n w.toNat) = true) (hpop : (s.start e w.toNat).CanPop)
    (hcode : (s.start e w.toNat).c.pop.1.tag = tCODE) (h4 : (s.start e w.toNat).c.pop.1.val.toNat % 4 = 0)
    (hm : markhor (s.start e w.toNat).c = true) (hempty : (s.start e w.toNat).c.shadowDepth = 0) :
    Completes (.ret e w x) s fun t => Raises s t e (s.start e w.toNat)
      ⟨vSHADOW_MISMATCH, 2, some (s.start e w.toNat).c.pop.1.val.toNat, false, false, false⟩ := by
  refine completes_raises (execRet_eq e w x s) hi ?_ rfl (show vSHADOW_MISMATCH ≠ vMACHINE_CHECK by decide)
  simp only [op_bind, op_cx, (canPop_iff _).mpr hpop, Bool.false_eq_true, if_false, op_pure, retEntry, hcode,
    beq_self_eq_true, needTag_code, needTarget_pass h4, shadowPop_empty hm hempty]

theorem ret_shadowDiffers (hi : s.issues e w.toNat (fmtOk .n w.toNat) = true) (hpop : (s.start e w.toNat).CanPop)
    (hcode : (s.start e w.toNat).c.pop.1.tag = tCODE) (h4 : (s.start e w.toNat).c.pop.1.val.toNat % 4 = 0)
    (hm : markhor (s.start e w.toNat).c = true) (hdepth : (s.start e w.toNat).c.shadowDepth ≠ 0)
    (htag : (s.start e w.toNat).c.shadowTop.tag ≠ tPOISON)
    (hval : (s.start e w.toNat).c.shadowTop.val ≠ (s.start e w.toNat).c.pop.1.val) :
    Completes (.ret e w x) s fun t => Raises s t e (s.start e w.toNat)
      ⟨vSHADOW_MISMATCH, 0, some (s.start e w.toNat).c.shadowTop.val.toNat, false, false, false⟩ := by
  refine completes_raises (execRet_eq e w x s) hi ?_ rfl (show vSHADOW_MISMATCH ≠ vMACHINE_CHECK by decide)
  simp only [op_bind, op_cx, (canPop_iff _).mpr hpop, Bool.false_eq_true, if_false, op_pure, retEntry, hcode,
    beq_self_eq_true, needTag_code, needTarget_pass h4, shadowPop_differs hm hdepth htag hval]

theorem ret_underflow (hi : s.issues e w.toNat (fmtOk .n w.toNat) = true) (hwrap : (s.start e w.toNat).v.wrap = false)
    (hempty : fld (s.start e w.toNat).c.rsctl 5 0 = 0) :
    Completes (.ret e w x) s fun t =>
      Raises s t e (s.start e w.toNat) ⟨vRS_UNDERFLOW, 0, none, false, false, false⟩ := by
  refine completes_raises (execRet_eq e w x s) hi ?_ rfl (by decide)
  simp only [op_bind, op_cx, hwrap, hempty, Bool.not_false, beq_self_eq_true, Bool.and_self, if_true, op_raiseV]

end

theorem shadowPushed_of_markhor {c : Core} (h : markhor c = true) (ra : Word) :
    c.shadowPushed ra = { c with tcm := sset raw0 c.tcm (shadowWord c c.shadowDepth) ⟨ra, tCODE⟩,
                                 shstk := setFld c.shstk 40 32 (c.shadowDepth + 1) } := if_pos h

theorem shadowPushed_of_not_markhor {c : Core} (h : ¬markhor c = true) (ra : Word) : c.shadowPushed ra = c := if_neg h

/-- The shadow stack leaves everything of the core but the TCM and CORE_SHSTK. -/
theorem shadowPushed_frame (c : Core) (ra : Word) :
    c.shadowPushed ra = { c with tcm := (c.shadowPushed ra).tcm, shstk := (c.shadowPushed ra).shstk } := by
  unfold Core.shadowPushed
  split <;> rfl

theorem push_shadowPushed (c : Core) (ra : Word) (t : TWord) :
    (c.shadowPushed ra).push t = { c.push t with tcm := (c.shadowPushed ra).tcm, shstk := (c.shadowPushed ra).shstk } := by
  rw [shadowPushed_frame]
  rfl

/-- Settles O20. -/
theorem jumpCallReturn : Obligations.JumpCallReturn := by
  intro e w x s ea
  dsimp only
  rw [← start_c s e w.toNat, if_congr (markhor_iff _).symm rfl rfl, ← markhor_iff]
  refine ⟨fun ⟨hi, hea⟩ h4 => ⟨jmp_retires hi hea h4, fun hpush hroom => ?_, call_overflow hi hea h4,
      fun hpush hm hfull => call_shadowFull hi hea h4 hpush hm hfull⟩,
    fun ⟨hi, hea⟩ h4 => transfer_misaligned hi hea h4,
    fun hi hpop hcode => ⟨fun h4 hsh => ret_retires hi hpop hcode h4 hsh, ret_misaligned hi hpop hcode,
      fun h4 hm hempty => ret_shadowEmpty hi hpop hcode h4 hm hempty,
      fun h4 hm hdepth htag hval => ret_shadowDiffers hi hpop hcode h4 hm hdepth htag hval⟩,
    ret_underflow⟩
  obtain ⟨t, ht, hret⟩ := call_retires hi hea h4 hpush hroom
  refine ⟨t, ht, _, hret, ?_, fun hm => ?_, fun hm => ?_⟩
  · exact push_shadowPushed _ _ _
  · rw [push_shadowPushed, shadowPushed_of_markhor hm]
    exact ⟨rfl, rfl⟩
  · rw [push_shadowPushed, shadowPushed_of_not_markhor hm]
    exact ⟨rfl, rfl⟩

end Sys2Proof.Machine
end

section
/-!
PROOFS. The programming model, eighth part: SYNC, WAIT and the wake-up (R86, R155). Dropping the requests with an invalid
vector entry (R185) leaves the cores, their units and the free values; WAIT_WAKEUP then retires the WAIT in each core of the
unit.
-/
namespace Sys2Proof.Machine

variable {s t : State}

/-! Units. -/

/-- The cores of a unit are read from the registers of the slots (R359, R390). -/
theorem unitCores_eq_of_slots (h : ∀ c sl, t.rd (.cluSlot c sl) = s.rd (.cluSlot c sl)) (e : Nat) :
    t.unitCores e = s.unitCores e := by
  have hstate (c sl : Nat) : t.slotState c sl = s.slotState c sl := by simp only [State.slotState, State.rf, h]
  have hcores (c sl : Nat) : t.slotCores c sl = s.slotCores c sl := by simp only [State.slotCores, h]
  have hslot : t.slotOf e = s.slotOf e := by simp only [State.slotOf, hstate, hcores]
  have hunit : t.unitOf e = s.unitOf e := by simp only [State.unitOf, hslot, hstate]
  rw [State.unitCores, State.unitCores, hunit]
  simp only [hcores]

/-- A core is one of the cores of its unit. -/
theorem mem_unitCores (s : State) (e : Nat) : e ∈ s.unitCores e := by
  unfold State.unitCores
  cases hunit : s.unitOf e with
  | none => exact List.mem_singleton_self e
  | some sl =>
    have hslot : s.slotOf e = some sl := by
      unfold State.unitOf at hunit
      split at hunit
      · next sl' hsl =>
        split at hunit
        · cases hunit
        · rwa [← hunit]
      · cases hunit
    have hin := List.find?_some hslot
    simp only [Bool.and_eq_true, List.contains_iff_mem] at hin
    exact hin.2

/-- t has the cores, the units and the free values of s. -/
def State.SameUnits (t s : State) : Prop :=
  t.cores = s.cores ∧ t.free = s.free ∧ ∀ c sl, t.rd (.cluSlot c sl) = s.rd (.cluSlot c sl)

theorem State.SameUnits.refl (s : State) : s.SameUnits s := ⟨rfl, rfl, fun _ _ => rfl⟩

theorem State.SameUnits.trans {u : State} (h : u.SameUnits t) (g : t.SameUnits s) : u.SameUnits s :=
  ⟨h.1.trans g.1, h.2.1.trans g.2.1, fun c sl => (h.2.2 c sl).trans (g.2.2 c sl)⟩

theorem foldl_sameUnits {α : Type} (f : State → α → State) (step : ∀ (s : State) (a : α), (f s a).SameUnits s) (l : List α)
    (s : State) : (l.foldl f s).SameUnits s :=
  foldl_rel (fun s t => t.SameUnits s) .refl (fun _ _ _ h h' => h'.trans h) f step l s

theorem State.SameUnits.core (h : t.SameUnits s) (e : Nat) : t.core e = s.core e := State.core_congr _ _ _ h.1

theorem State.SameUnits.unitCores (h : t.SameUnits s) (e : Nat) : t.unitCores e = s.unitCores e :=
  unitCores_eq_of_slots h.2.2 e

/-! Requests with an invalid vector entry. -/

theorem vecEntry_sameUnits (s : State) (vbr : Word) (v : Nat) : (s.vecEntry vbr v).1.SameUnits s := by
  have hcarve (pa : Nat) : (s.carveout pa).SameUnits s := by
    unfold State.carveout
    split <;> exact ⟨by simp, by simp, by simp⟩
  unfold State.vecEntry
  dsimp only
  split
  · split_ifs <;> exact .refl s
  · split_ifs <;> exact .refl s
  · exact hcarve _

theorem dbgReq_sameUnits (s : State) (d : Dbg) : { s.wf .dbgReq 63 63 0 with dbg := d }.SameUnits s :=
  ⟨rfl, rfl, fun _ _ => (s.rd_wf _ _ _ _ _).trans (if_neg nofun)⟩

theorem clearReq_sameUnits (s : State) (i e : Nat) : (s.clearReq i e).SameUnits s := by
  unfold State.clearReq
  dsimp only
  split
  · refine (dbgReq_sameUnits _ _).trans (foldl_sameUnits _ (fun _ _ => ?_) _ s)
    exact ⟨rfl, rfl, fun _ _ => rfl⟩
  · refine foldl_sameUnits _ (fun _ _ => ?_) _ s
    exact ⟨rfl, rfl, fun _ _ => rfl⟩

theorem dropInvalid_sameUnits (s : State) (e : Nat) : (s.dropInvalid e).SameUnits s := by
  refine foldl_sameUnits _ (fun u i => ?_) _ s
  have hvec := vecEntry_sameUnits u (u.core e).vbr (0x20 + i)
  split
  · split
    · next v hv =>
      rw [hv] at hvec
      have hclear := (clearReq_sameUnits v i e).trans hvec
      refine .trans ⟨?_, ?_, fun c sl => ?_⟩ hclear <;> simp
    · next v _ hv => rwa [hv] at hvec
  · exact .refl u

/-! The wake-up. -/

theorem trcWake_quiet (s : State) (e : Nat) (pc : Word) : (s.trcWake e pc).Quiet s := by
  unfold State.trcWake
  split
  · exact .refl s
  split
  · exact .refl s
  split
  · exact .refl s
  · dsimp only
    have hsync (k : Nat) (f : TrcSrc → TrcSrc) (bs : List Byte) : (((s.modSrc k f).trcEmit k pc bs).trcSync k pc).Quiet s :=
      (trcSync_quiet _ _ _).trans ((trcEmit_quiet _ _ _ _).trans (modSrc_quiet _ _ _))
    split
    · exact (trcEmit_quiet _ _ _ _).trans (hsync _ _ _)
    · exact hsync _ _ _

theorem charge_act (c : Core) (n : Nat) : (c.charge n).act = c.act := by
  unfold Core.charge
  split <;> rfl

/-- What a core that retires keeps, and where it goes. -/
theorem retire_keeps (c : Core) (npc : Word) (n : Nat) (ent : Option Entering) :
    (c.retire npc n ent).act = c.act ∧ (c.retire npc n ent).retired = c.retired + 1 ∧ (c.retire npc n ent).pc = npc ∧
      (c.retire npc n ent).banks = c.banks :=
  ⟨charge_act _ _, rfl, rfl, (charge_keeps _ _).1⟩

/-- The state in which the unit of core e runs again (R155). -/
def State.awake (u : State) (e : Nat) : State := u.setCores (u.unitCores e) { u.core e with act := .run }

theorem awake_core (u : State) (e : Nat) : (u.awake e).core e = { u.core e with act := .run } := by
  rw [State.awake, State.core_setCores, if_pos (mem_unitCores u e)]

/-- The WAIT retires in every core of the unit (R155). -/
theorem resume_wait_core {u : State} {e k : Nat} (hk : k ∈ u.unitCores e) :
    let d := (u.resume e 0 (done 1)).core k
    d.act = .run ∧ d.retired = (u.core e).retired + 1 ∧ d.pc = (u.core e).pc + 4 ∧ d.banks = (u.core e).banks := by
  have hresume : u.resume e 0 (done 1) = finishOp e (u.awake e).free (done 1 ((u.awake e).startCx e 0 4)) := rfl
  have hcores : k ∈ (u.awake e).takeFree.unitCores e := by
    rwa [unitCores_eq_of_slots (t := (u.awake e).takeFree) (s := u) fun _ _ => rfl]
  intro d
  have hd : d = ((u.awake e).core e).retire (((u.awake e).core e).pc + 4)
      (((u.awake e).startCx e 0 4).charged (u.awake e).free 1) none :=
    (congrArg (·.core k) hresume).trans ((State.core_setCores _ _ _ _).trans (if_pos hcores))
  obtain ⟨hact, hretired, hpc, hbanks⟩ := retire_keeps ((u.awake e).core e) (((u.awake e).core e).pc + 4)
    (((u.awake e).startCx e 0 4).charged (u.awake e).free 1) none
  rw [← hd, awake_core] at hact hretired hpc hbanks
  exact ⟨hact, hretired, hpc, hbanks⟩

theorem waitWakeup_retires {e : Fin 256} (hgo : (s.halted (e / 8) && !s.stepping e) = false)
    (hdue : (s.core e).act = .c1p ∨ ((s.core e).act = .c1 ∧
      ((s.dropInvalid e).pick e (effVal (s.dropInvalid e).free 0x14 (s.core e).lmask (s.core e).delayed) (s.core e).lev
        (s.core e).cur.psw (s.core e).vbr).isSome = true)) :
    Completes (.waitWakeup e) s fun t => ∀ k ∈ s.unitCores e, (t.core k).act = .run ∧
      (t.core k).retired = (s.core e).retired + 1 ∧ (t.core k).pc = (s.core e).pc + 4 ∧
      (t.core k).banks = (s.core e).banks := by
  have hsame := dropInvalid_sameUnits s e
  have hcond : (!(s.halted (e / 8) && !s.stepping e) && ((s.core e).act == .c1p || ((s.core e).act == .c1 &&
      ((s.dropInvalid e).pick e (effVal s.free 0x14 (s.core e).lmask (s.core e).delayed) (s.core e).lev
        (s.core e).cur.psw (s.core e).vbr).isSome))) = true := by
    rw [hsame.2.1] at hdue
    simpa only [hgo, Bool.not_false, Bool.true_and, Bool.or_eq_true, Bool.and_eq_true, beq_iff_eq] using hdue
  refine ⟨_, rfl, fun k hk => ?_⟩
  rw [hsame.core, if_pos hcond]
  have hquiet (v : State) (pc : Word) : State.Quiet (if s.stepping e then
      (v.trcWake ((s.unitCores e).headD e) pc).endStep false else v.trcWake ((s.unitCores e).headD e) pc) v := by
    split
    · exact (endStep_quiet _ _).trans (trcWake_quiet _ _ _)
    · exact trcWake_quiet _ _ _
  rw [(hquiet _ _).core, ← hsame.core]
  exact resume_wait_core (by rwa [hsame.unitCores])

/-! The obligation. -/

section
variable {e : Fin 256} {w x : BitVec 32}

theorem sync_retires (hi : s.issues e w.toNat (fmtOk .n w.toNat) = true) : Completes (.sync e w x) s fun t =>
    Retires s t e { s.start e w.toNat with c := (s.core e).sync, cost := 2, xcost := 2 } := by
  rw [← start_c s e w.toNat]
  exact completes_retires rfl hi rfl

/-- The decode check of WAIT passes outside tick-exact mode (R155). -/
theorem issues_wait {ok : Bool} {n : Nat} (hi : s.issues e n ok = true) (htx : (s.core e).tx = false) :
    s.issues e n (ok && !(s.core e).tx) = true := by
  rwa [htx, Bool.not_false, Bool.and_true]

theorem wait_retires {r : Nat × Word} (hi : s.issues e w.toNat (fmtOk .n w.toNat) = true) (htx : (s.core e).tx = false)
    (hpriv : pPRIV (s.core e).cur.psw < 2)
    (hpick : ((s.start e w.toNat).s.dropInvalid e).pick e (s.start e w.toNat).v.lmask (s.core e).lev (s.core e).cur.psw
      (s.core e).vbr = some r) :
    Completes (.wait e w x) s fun t =>
      Retires s t e { s.start e w.toNat with s := (s.start e w.toNat).s.dropInvalid e } := by
  rw [← start_c s e w.toNat] at hpriv hpick
  refine completes_retires rfl (issues_wait hi htx) ?_
  simp only [op_bind, op_privNow, if_neg (Nat.not_le.mpr hpriv), op_modS, op_cx, start_e, hpick, op_done]
  rfl

theorem wait_waits (hi : s.issues e w.toNat (fmtOk .n w.toNat) = true) (htx : (s.core e).tx = false)
    (hpriv : pPRIV (s.core e).cur.psw < 2)
    (hpick : ((s.start e w.toNat).s.dropInvalid e).pick e (s.start e w.toNat).v.lmask (s.core e).lev (s.core e).cur.psw
      (s.core e).vbr = none) :
    Completes (.wait e w x) s fun t =>
      Waits t e { s.start e w.toNat with s := (s.start e w.toNat).s.dropInvalid e } .c1 := by
  rw [← start_c s e w.toNat] at hpriv hpick
  refine completes_waits rfl (issues_wait hi htx) ?_
  simp only [op_bind, op_privNow, if_neg (Nat.not_le.mpr hpriv), op_modS, op_cx, start_e, hpick, op_throw]

end

/-- Settles O24. -/
theorem syncAndWait : Obligations.SyncAndWait := fun _ _ _ _ =>
  ⟨sync_retires, fun hi htx hpriv => ⟨fun _ => wait_retires hi htx hpriv, wait_waits hi htx hpriv⟩, waitWakeup_retires⟩

end Sys2Proof.Machine
end

section
/-!
PROOFS. The programming model, ninth part: CSRR and CSRW (R58, R59, R156), and the registers that hold what was written.
-/
namespace Sys2Proof.Machine

theorem needCsr_of {n : Nat} {k : Csr} (h : Csr.of n = some k) : needCsr n = pure k := by
  rw [needCsr, h]

section
variable {e : Fin 256} {w x : BitVec 32} {s : State} {k : Csr} {z z' : Cx}

theorem csrr_retires (hi : s.issues e w.toNat (fmtOk .c w.toNat) = true) (hk : Csr.of (fCSR w.toNat) = some k)
    (hpriv : pPRIV (s.core e).cur.psw ≤ k.readPriv) (hbase : k.isExt = false → z = s.start e w.toNat)
    (hext : k.isExt = true → extUse false (s.start e w.toNat) = .ok () z) :
    Completes (.csrr e w x) s fun t => Retires s t e (z.with 1 fun b => { b with acc := csrSeen z k }) := by
  rw [← start_c s e w.toNat] at hpriv
  refine completes_retires rfl hi ?_
  simp only [op_bind, needCsr_of hk, op_pure, op_privNow, if_neg (Nat.not_lt.mpr hpriv)]
  cases hx : k.isExt with
  | false =>
    rw [hbase hx]
    rfl
  | true =>
    simp only [if_true, op_bind, hext hx]
    rfl

theorem csrw_readOnly (hi : s.issues e w.toNat (fmtOk .c w.toNat) = true) (hk : Csr.of (fCSR w.toNat) = some k)
    (hpriv : pPRIV (s.core e).cur.psw ≤ k.writePriv) (hro : k.readOnly = true) :
    Completes (.csrw e w x) s fun t => Retires s t e { s.start e w.toNat with
      s := if k = .ucstat then (s.start e w.toNat).s.denyCsrw e k (s.core e).cur.acc.val else (s.start e w.toNat).s,
      cost := 2, xcost := 2 } := by
  rw [← start_c s e w.toNat] at hpriv ⊢
  refine completes_retires rfl hi ?_
  simp only [op_bind, needCsr_of hk, op_pure, op_privNow, if_neg (Nat.not_lt.mpr hpriv), hro, if_true]
  by_cases hu : k = .ucstat
  · simp only [if_pos hu, op_bind, op_curB, op_modS, op_done]
    rfl
  · simp only [if_neg hu, op_done]
    rfl

theorem csrw_retires (hi : s.issues e w.toNat (fmtOk .c w.toNat) = true) (hk : Csr.of (fCSR w.toNat) = some k)
    (hpriv : pPRIV (s.core e).cur.psw ≤ k.writePriv) (hro : k.readOnly = false) (hpoison : (s.core e).cur.acc.tag ≠ tPOISON)
    (hreserved : tagReserved (s.core e).cur.acc.tag = false)
    (hcheck : csrwCheck k (fCSR w.toNat) (s.core e).cur.acc (s.start e w.toNat) = .ok () (s.start e w.toNat))
    (hbase : k.isExt = false → z = s.start e w.toNat)
    (hext : k.isExt = true → extUse true (s.start e w.toNat) = .ok () z)
    (hstore : csrwStore k (s.core e).cur.acc z = .ok () z') :
    Completes (.csrw e w x) s fun t => Retires s t e { z' with cost := z'.cost + 1, xcost := z'.cost + 1 } := by
  rw [← start_c s e w.toNat] at hpriv hpoison hreserved hcheck hstore
  refine completes_retires rfl hi ?_
  simp only [op_bind, needCsr_of hk, op_pure, op_privNow, if_neg (Nat.not_lt.mpr hpriv), hro, op_curB, hreserved,
    decide_eq_false hpoison, Bool.or_self, Bool.false_eq_true, if_false, hcheck]
  cases hx : k.isExt with
  | false =>
    rw [hbase hx] at hstore
    simp only [Bool.false_eq_true, if_false, op_bind, hstore, op_done]
  | true => simp only [if_true, op_bind, hext hx, hstore, op_done]

end

/-! What a write leaves to be read. -/

/-- A register that holds a whole word takes no tag. -/
theorem csrStore_whole {k : Csr} (h : k.Whole) (c : Core) (mp : Bool) (v : TWord) : c.csrStore mp k v = c.csrStore mp k ⟨v.val, tRAW⟩ := by
  obtain rfl | ⟨b, rfl⟩ | ⟨i, rfl⟩ := h <;> rfl

theorem link_setLink (c : Core) (b : Nat) (l : Link) : (c.setLink b l).link b = l := by
  simp [Core.link, Core.setLink]

section
variable (c : Core) (mp : Bool) (id b : Nat) (pend : Word) (v : TWord)

theorem csrVal_csrStore_rsent (i : Nat) : (c.csrStore mp (.rsent i) v).csrVal id pend (.rsent i) = v := by
  simp [Core.csrStore, Core.csrVal]

theorem csrVal_csrStore_lpc : (c.csrStore mp (.lpc b) v).csrVal id pend (.lpc b) = ⟨v.val, tRAW⟩ := by
  simp only [Core.csrStore, Core.csrVal, link_setLink]

theorem csrVal_csrStore_lpct :
    (c.csrStore mp (.lpc b) v).csrVal id pend (.lpct b) = ⟨v.tag.setWidth 64, tRAW⟩ := by
  simp only [Core.csrStore, Core.csrVal, link_setLink]

end

/-- Settles O25. -/
theorem controlRegisterAccess : Obligations.ControlRegisterAccess := by
  refine ⟨fun e w x s k z z' => ?_, fun c mp id i b pend v => ?_⟩
  · exact fun hi hk => ⟨csrr_retires hi hk, csrw_readOnly hi hk, csrw_retires hi hk⟩
  · have hwhole {k : Csr} (h : k.Whole) : (c.csrStore mp k v).csrVal id pend k = ⟨v.val, tRAW⟩ := by
      rw [csrStore_whole h]
      exact Core.csrVal_csrStore h c mp v.val id pend
    exact ⟨hwhole (.inr (.inr ⟨i, rfl⟩)), hwhole (.inl rfl), hwhole (.inr (.inl ⟨b, rfl⟩)),
      csrVal_csrStore_rsent c mp id pend v i, csrVal_csrStore_lpc c mp id b pend v,
      csrVal_csrStore_lpct c mp id b pend v, rfl⟩

end Sys2Proof.Machine
end

section
/-!
PROOFS. Decimal fields, first part: what the steps of a decimal instruction answer (R99, R100, R102, R106).
-/
namespace Sys2Proof.Machine

/-- The context with its bank changed. -/
def Cx.changed (x : Cx) (f : Bank → Bank) : Cx := { x with c := x.c.setCur (f x.c.cur) }

theorem setFlag_changed (i : Nat) (v : Bool) (x : Cx) :
    setFlag i v x = .ok () (x.changed fun b => { b with psw := setBit b.psw i v }) := rfl

theorem flagsZNV_changed (z n v : Bool) (x : Cx) :
    flagsZNV z n v x = .ok () (x.changed fun b => { b with psw := pswZNV b.psw z n v }) := rfl

theorem modB_changed (f : Bank → Bank) (x : Cx) : modB f x = .ok () (x.changed f) := rfl

theorem changed_changed (x : Cx) (f g : Bank → Bank) : (x.changed f).changed g = x.changed fun b => g (f b) := by
  simp only [Cx.changed, cur_setCur, setCur_setCur]

theorem done_changed (z : Cx) (f : Bank → Bank) (n : Nat) : done (n + 1) (z.changed f) = .ok () (z.with n f) := rfl

theorem baseUpdate_done_changed (z : Cx) (f : Bank → Bank) (w n : Nat) :
    (do baseUpdate w 8; done (n + 1) : Op Unit) (z.changed f) = .ok () (z.with n fun b => (f b).based w 8) := by
  simp only [baseUpdate, op_bind, modB_changed, changed_changed]
  exact done_changed ..

/-! Validity (R99). -/

theorem validFields_valid {l : List (FDesc × List Byte)} (h : ∀ p ∈ l, ValidField p.1 p.2) (z : Cx) :
    validFields l z = .ok true z := by
  induction l with
  | nil => rfl
  | cons p r ih =>
    obtain ⟨hp, hr⟩ := List.forall_mem_cons.mp h
    rw [validFields, show badIndex p.1.kind p.2 = none from hp]
    exact ih hr

/-- With DDM = 1 an invalid field sets PSW.DI (R99). -/
theorem validFields_masked {l : List (FDesc × List Byte)} {z : Cx} (h : ¬∀ p ∈ l, ValidField p.1 p.2)
    (hddm : bit z.c.decctl 0 = true) :
    validFields l z = .ok false (z.changed fun b => { b with psw := setBit b.psw 4 true }) := by
  induction l with
  | nil => exact absurd (fun _ hp => absurd hp List.not_mem_nil) h
  | cons p r ih =>
    rw [validFields]
    cases hp : badIndex p.1.kind p.2 with
    | some i =>
      simp only [op_bind, badData, op_cx, hddm, if_true, setFlag_changed, op_pure]
    | none => exact ih fun hr => h (List.forall_mem_cons.mpr ⟨hp, hr⟩)

section
variable {d d1 d2 : FDesc} {bs b1 b2 : List Byte}

theorem valid_pair_iff : (∀ p ∈ [(d2, b2), (d1, b1)], ValidField p.1 p.2) ↔ ValidField d2 b2 ∧ ValidField d1 b1 := by
  rw [List.forall_mem_cons, List.forall_mem_singleton]

theorem validFields_one (h : ValidField d bs) (z : Cx) : validFields [(d, bs)] z = .ok true z :=
  validFields_valid (List.forall_mem_singleton.mpr h) z

theorem validFields_two (h2 : ValidField d2 b2) (h1 : ValidField d1 b1) (z : Cx) :
    validFields [(d2, b2), (d1, b1)] z = .ok true z :=
  validFields_valid (valid_pair_iff.mpr ⟨h2, h1⟩) z

end

/-! The result (R100, R102). -/

/-- The flags of a result that fits. -/
def Bank.decFlags (v : Int) (b : Bank) : Bank :=
  { b with psw := pswZNV b.psw (decide (v = 0)) (decide (v < 0)) false }

theorem flagsZNV_decFlags (v : Int) (x : Cx) :
    flagsZNV (v == 0) (decide (v < 0)) false x = .ok () (x.changed (Bank.decFlags v)) := rfl

section
variable {d : FDesc} {tg : List (Target × Nat)} {v : Int} {z z' : Cx}

theorem putResult_fits (hfit : d.fits v = true) (hw : writePieces tg (d.encode z.c.decctl v) z = .ok () z') :
    putResult d tg v z = .ok () (z'.changed (Bank.decFlags v)) := by
  simp only [putResult, hfit, if_true, op_bind, op_cx, hw, flagsZNV_decFlags]

theorem putResult_overflows (hfit : d.fits v = false) (hdom : bit z.c.decctl 1 = true)
    (hw : writePieces tg (d.encode z.c.decctl v) z = .ok () z') :
    putResult d tg v z = .ok () (z'.changed fun b =>
      { b with psw := pswZNV b.psw (decide (v.natAbs % 10 ^ d.digits = 0)) (decide (v < 0)) true }) := by
  simp only [putResult, hfit, Bool.false_eq_true, if_false, op_bind, overflow, op_cx, hdom, if_true, op_pure, hw,
    flagsZNV_changed, beq_eq_decide]

end

end Sys2Proof.Machine
end

section
/-!
PROOFS. Decimal fields, second part: the instructions on two fields (R101 to R103).
-/
namespace Sys2Proof.Machine

/-! DADD, DSUB and DMUL. -/

section
variable {d1 d2 : FDesc} {b1 b2 : List Byte} {tg : List (Target × Nat)} {y z z' : Cx}

section
variable {w x n : Nat} {op : Int → Int → Int} {cost : Nat → Nat → Nat}

theorem decBinary_ok {f : Bank → Bank} (h : FieldsRead w x kPACKED kPACKED y d1 d2 b1 b2 tg z) (hv1 : ValidField d1 b1)
    (hv2 : ValidField d2 b2) (hn : cost d1.len d2.len + d2.splits + 2 * d1.splits = n + 1)
    (hput : putResult d1 tg (op (fieldVal d1.kind b1) (fieldVal d2.kind b2)) z = .ok () (z'.changed f)) :
    decBinary w x op cost y = .ok () (z'.with n fun b => (f b).based w 8) := by
  obtain ⟨y1, y2, y3, hdesc, hread2, hread1, hcheck⟩ := h
  simp only [decBinary, op_bind, hdesc, hread2, hread1, hcheck, validFields_two hv2 hv1, if_true, hput, hn]
  exact baseUpdate_done_changed ..

theorem decBinary_masked (h : FieldsRead w x kPACKED kPACKED y d1 d2 b1 b2 tg z)
    (hbad : ¬(ValidField d1 b1 ∧ ValidField d2 b2)) (hddm : bit z.c.decctl 0 = true)
    (hn : cost d1.len d2.len + d2.splits + 2 * d1.splits = n + 1) :
    decBinary w x op cost y = .ok () (z.with n fun b => { b with psw := setBit b.psw 4 true }.based w 8) := by
  obtain ⟨y1, y2, y3, hdesc, hread2, hread1, hcheck⟩ := h
  have hinvalid := validFields_masked (z := z) (fun hp => hbad (valid_pair_iff.mp hp).symm) hddm
  simp only [decBinary, op_bind, hdesc, hread2, hread1, hcheck, hinvalid, Bool.false_eq_true, if_false, hn]
  exact baseUpdate_done_changed ..

end

section
variable {c : Instr} {e : Fin 256} {w x : BitVec 32} {s : State} {op : Int → Int → Int} {cost : Nat → Nat → Nat}
  {n : Nat}

/-- An instruction op1 := op op1 op2 on PACKED fields, with the n cycles of R162. -/
theorem decBinary_completes
    (hexec : exec c s = .next (s.runIns e w.toNat (fmtOk .m w.toNat) (decBinary w.toNat x.toNat op cost)))
    (hi : s.issues e w.toNat (fmtOk .m w.toNat) = true)
    (h : FieldsRead w.toNat x.toNat kPACKED kPACKED (s.start e w.toNat) d1 d2 b1 b2 tg z)
    (hn : cost d1.len d2.len + d2.splits + 2 * d1.splits = n) (hpos : 0 < n) :
    let r := op (fieldVal d1.kind b1) (fieldVal d2.kind b2)
    (ValidField d1 b1 → ValidField d2 b2 → writePieces tg (d1.encode z.c.decctl r) z = .ok () z' →
      (d1.fits r = true → Completes c s fun t => Retires s t e (z'.with (n - 1) fun b =>
        { b with psw := pswZNV b.psw (decide (r = 0)) (decide (r < 0)) false }.based w.toNat 8)) ∧
      (d1.fits r = false → bit z.c.decctl 1 = true → Completes c s fun t => Retires s t e (z'.with (n - 1) fun b =>
        { b with psw := pswZNV b.psw (decide (r.natAbs % 10 ^ d1.digits = 0)) (decide (r < 0)) true }.based
          w.toNat 8))) ∧
    (¬(ValidField d1 b1 ∧ ValidField d2 b2) → bit z.c.decctl 0 = true → Completes c s fun t =>
      Retires s t e (z.with (n - 1) fun b => { b with psw := setBit b.psw 4 true }.based w.toNat 8)) := by
  intro r
  have hcost : cost d1.len d2.len + d2.splits + 2 * d1.splits = n - 1 + 1 := by omega
  refine ⟨fun hv1 hv2 hw => ⟨fun hfit => ?_, fun hfit hdom => ?_⟩, fun hbad hddm => ?_⟩
  · exact completes_retires hexec hi (decBinary_ok h hv1 hv2 hcost (putResult_fits hfit hw))
  · exact completes_retires hexec hi (decBinary_ok h hv1 hv2 hcost (putResult_overflows hfit hdom hw))
  · exact completes_retires hexec hi (decBinary_masked h hbad hddm hcost)

end

end

/-- Settles O28: the three instructions by the lemma on an instruction op1 := op op1 op2. -/
theorem decimalArithmetic : Obligations.DecimalArithmetic := by
  unfold Obligations.DecimalArithmetic
  intro e w x s d1 d2 b1 b2 tg z z' y v1 v2 sp hi h
  have hsp (n : Nat) : n + d2.splits + 2 * d1.splits = n + sp := Nat.add_assoc ..
  simp only [List.forall_mem_cons, List.not_mem_nil, false_imp_iff, implies_true, and_true]
  exact ⟨decBinary_completes rfl hi h (hsp _) (by omega), decBinary_completes rfl hi h (hsp _) (by omega),
    decBinary_completes rfl hi h (hsp _) (by omega)⟩

/-! DDIV and DCMP. -/

section
variable {w x : BitVec 32} {e : Fin 256} {s : State} {d1 d2 : FDesc} {b1 b2 : List Byte} {tg : List (Target × Nat)}
  {z z' : Cx}

/-- The quotient and remainder fields of DDIV, where the quotient fits (R103). -/
theorem divResult_fits {v1 v2 : Int} (hlen : d2.len < d1.len)
    (hfit : FDesc.fits ⟨kPACKED, d1.addr, d1.len - d2.len⟩ (v1.tdiv v2) = true)
    (hw : writePieces tg (FDesc.encode ⟨kPACKED, d1.addr, d1.len - d2.len⟩ z.c.decctl (v1.tdiv v2) ++
      d2.encode z.c.decctl (v1.tmod v2)) z = .ok () z') :
    divResult d1 d2 tg v1 v2 z = .ok () (z'.changed (Bank.decFlags (v1.tdiv v2))) := by
  simp only [divResult, hlen, hfit, decide_true, Bool.and_self, if_true, op_bind, op_cx, hw, flagsZNV_decFlags]

/-- A quotient that does not fit sets V alone with DOM = 1 (R100, R103). -/
theorem divResult_overflows {v1 v2 : Int}
    (h : d1.len ≤ d2.len ∨ FDesc.fits ⟨kPACKED, d1.addr, d1.len - d2.len⟩ (v1.tdiv v2) = false)
    (hdom : bit z.c.decctl 1 = true) :
    divResult d1 d2 tg v1 v2 z = .ok () (z.changed fun b => { b with psw := setBit b.psw 3 true }) := by
  have hno : (decide (d2.len < d1.len) && FDesc.fits ⟨kPACKED, d1.addr, d1.len - d2.len⟩ (v1.tdiv v2)) = false := by
    rcases h with h | h
    · rw [decide_eq_false (Nat.not_lt.mpr h), Bool.false_and]
    · rw [h, Bool.and_false]
  simp only [divResult, hno, Bool.false_eq_true, if_false, op_bind, overflow, op_cx, hdom, if_true, op_pure, setFlag_changed]

theorem ddiv_retires {f : Bank → Bank} (hi : s.issues e w.toNat (fmtOk .m w.toNat) = true)
    (h : FieldsRead w.toNat x.toNat kPACKED kPACKED (s.start e w.toNat) d1 d2 b1 b2 tg z) (hv1 : ValidField d1 b1)
    (hv2 : ValidField d2 b2) (hne : fieldVal d2.kind b2 ≠ 0)
    (hdiv : divResult d1 d2 tg (fieldVal d1.kind b1) (fieldVal d2.kind b2) z = .ok () (z'.changed f)) :
    Completes (.ddiv e w x) s fun t => Retires s t e (z'.with
      (9 + 2 * d1.len * d2.len + 4 * d1.len + d2.splits + 2 * d1.splits) fun b => (f b).based w.toNat 8) := by
  obtain ⟨y1, y2, y3, hdesc, hread2, hread1, hcheck⟩ := h
  have hn : 10 + 2 * d1.len * d2.len + 4 * d1.len + d2.splits + 2 * d1.splits =
      9 + 2 * d1.len * d2.len + 4 * d1.len + d2.splits + 2 * d1.splits + 1 := by omega
  refine completes_retires rfl hi ?_
  simp only [op_bind, hdesc, hread2, hread1, hcheck, validFields_two hv2 hv1, if_true, if_neg hne, hdiv, hn]
  exact baseUpdate_done_changed ..

theorem dcmp_retires {y1 y2 : Cx} (hi : s.issues e w.toNat (fmtOk .m w.toNat) = true) (hv1 : ValidField d1 b1)
    (hv2 : ValidField d2 b2) (hdesc : twoDescs w.toNat x.toNat kPACKED kPACKED (s.start e w.toNat) = .ok (d1, d2) y1)
    (hread2 : readField d2.addr d2.len y1 = .ok b2 y2) (hread1 : readField d1.addr d1.len y2 = .ok b1 z) :
    Completes (.dcmp e w x) s fun t => Retires s t e (z.with (5 + d1.len + d2.len + d2.splits + d1.splits) fun b =>
      { b with psw := pswZNV b.psw (decide (fieldVal d1.kind b1 = fieldVal d2.kind b2))
                        (decide (fieldVal d1.kind b1 < fieldVal d2.kind b2)) false }.based w.toNat 8) := by
  have hn : costAdd d1.len d2.len + d2.splits + d1.splits = 5 + d1.len + d2.len + d2.splits + d1.splits + 1 := by
    simp only [costAdd]
    omega
  refine completes_retires rfl hi ?_
  simp only [op_bind, hdesc, hread2, hread1, validFields_two hv2 hv1, if_true, flagsZNV_changed, beq_eq_decide, hn]
  exact baseUpdate_done_changed ..

end

/-- Settles O29. -/
theorem decimalDivideAndCompare : Obligations.DecimalDivideAndCompare := by
  unfold Obligations.DecimalDivideAndCompare
  intro e w x s d1 d2 b1 b2 y v1 v2 q dq n hi hv1 hv2
  refine ⟨fun tg z h hne => ⟨fun z' hlen hfit hw => ?_, fun hno hdom => ?_⟩, fun y1 y2 z => dcmp_retires hi hv1 hv2⟩
  · exact ddiv_retires hi h hv1 hv2 hne (divResult_fits hlen hfit hw)
  · exact ddiv_retires hi h hv1 hv2 hne (divResult_overflows hno hdom)

end Sys2Proof.Machine
end

section
/-!
PROOFS. Decimal fields, third part: the instructions that move a value into op1 (R101, R104, R105).
-/
namespace Sys2Proof.Machine

section
variable {e : Fin 256} {w x : BitVec 32} {s : State} {d d1 d2 : FDesc} {bs b2 : List Byte} {tg : List (Target × Nat)}
  {v : Int} {y1 y2 z z' : Cx}

/-! DSET, PACK, UNPK and DADJ. -/

theorem decCopy_retires {c : Instr} {k1 k2 : Nat}
    (hexec : exec c s = .next (s.runIns e w.toNat (fmtOk .m w.toNat) (decCopy w.toNat x.toNat k1 k2)))
    (hi : s.issues e w.toNat (fmtOk .m w.toNat) = true)
    (hdesc : twoDescs w.toNat x.toNat k1 k2 (s.start e w.toNat) = .ok (d1, d2) y1)
    (hread : readField d2.addr d2.len y1 = .ok b2 y2) (hcheck : checkField d1.addr d1.len y2 = .ok tg z)
    (hv : ValidField d2 b2) (hfit : d1.fits (fieldVal d2.kind b2) = true)
    (hw : writePieces tg (d1.encode z.c.decctl (fieldVal d2.kind b2)) z = .ok () z') :
    Completes c s fun t => Retires s t e (z'.with (5 + d1.len + d2.len + d2.splits + d1.splits) fun b =>
      (Bank.decFlags (fieldVal d2.kind b2) b).based w.toNat 8) := by
  have hn : costAdd d1.len d2.len + d2.splits + d1.splits = 5 + d1.len + d2.len + d2.splits + d1.splits + 1 := by
    simp only [costAdd]
    omega
  refine completes_retires hexec hi ?_
  simp only [decCopy, op_bind, hdesc, hread, hcheck, validFields_one hv, if_true, putResult_fits hfit hw, hn]
  exact baseUpdate_done_changed ..

theorem needTag_accDesc (h : (s.core e).cur.acc.tag = tDESC) (n : Nat) :
    needTag (s.start e w.toNat).c.cur.acc.tag ((s.start e w.toNat).c.cur.acc.tag == tDESC) n = pure () := by
  rw [start_c, h]
  rfl

theorem dadj_retires (ha : (s.core e).cur.acc.tag = tDESC) (hread : readField d.addr d.len (s.start e w.toNat) = .ok bs y1)
    (hcheck : checkField d.addr d.len y1 = .ok tg z) (hv : ValidField d bs)
    (hi : s.issues e w.toNat (fmtOk .n w.toNat) = true)
    (hdesc : needDesc (s.core e).cur.acc.val (fun k => k == kPACKED || k == kZONED) 0 none (s.start e w.toNat) =
      .ok d (s.start e w.toNat))
    (hfit : d.fits (fieldVal d.kind bs) = true)
    (hw : writePieces tg (d.encode z.c.decctl (fieldVal d.kind bs)) z = .ok () z') :
    Completes (.dadj e w x) s fun t => Retires s t e (z'.with (3 + d.len + 2 * d.splits)
      (Bank.decFlags (fieldVal d.kind bs))) := by
  have hn : 4 + d.len + 2 * d.splits = 3 + d.len + 2 * d.splits + 1 := by omega
  rw [← start_c s e w.toNat] at hdesc
  refine completes_retires rfl hi ?_
  simp only [op_bind, op_curB, needTag_accDesc ha, op_pure, hdesc, hread, hcheck, validFields_one hv, if_true,
    putResult_fits hfit hw, hn]
  exact done_changed ..

end

/-- Settles O30: the three copies by their common operation. -/
theorem decimalMoves : Obligations.DecimalMoves := by
  unfold Obligations.DecimalMoves
  refine ⟨fun e w x s d1 d2 b2 tg y1 y2 z z' hi => ?_, fun e w x s d bs tg y1 z z' => dadj_retires⟩
  simp only [List.forall_mem_cons, List.not_mem_nil, false_imp_iff, implies_true, and_true]
  exact ⟨decCopy_retires rfl hi, decCopy_retires rfl hi, decCopy_retires rfl hi⟩

/-! DSRP (R104). -/

section
variable {v : Int} {ea n : Nat}

/-- A shift count from 0 to 31 multiplies by a power of ten. -/
theorem srpVal_left (h : ea % 64 = n) (hn : n < 32) : srpVal v ea = v * 10 ^ n := by
  have hs : sext 6 ea = n := by simp [sext, h, hn]
  simp only [srpVal, hs, Int.natAbs_natCast]
  obtain rfl | hpos := Nat.eq_zero_or_pos n
  · simp only [Nat.cast_zero, lt_irrefl, if_false]
    split <;> omega
  · simp only [gt_iff_lt, Nat.cast_pos, hpos, if_true, Nat.cast_mul, Nat.cast_pow, Nat.cast_ofNat]
    split
    · rw [Int.ofNat_natAbs_of_nonpos (by omega), Int.neg_mul, Int.neg_neg]
    · rw [Int.natAbs_of_nonneg (by omega)]

/-- A shift count from -32 to -1 divides the magnitude by a power of ten, rounded with the digit r, and keeps the sign. -/
theorem srpVal_right (h : ea % 64 = 64 - n) (hpos : 1 ≤ n) (hn : n ≤ 32) :
    srpVal v ea = signedVal (decide (v < 0)) ((v.natAbs + ea / 256 % 16 * 10 ^ (n - 1)) / 10 ^ n) := by
  have hs : sext 6 ea = -n := by
    have : ¬64 - n < 32 := by omega
    simp [sext, h, this]
    omega
  have hneg : -(n : Int) < 0 := by omega
  have hle : ¬-(n : Int) > 0 := by omega
  simp only [srpVal, hs, Int.natAbs_neg, Int.natAbs_natCast, hneg, hle, if_true, if_false, signedVal, decide_eq_true_eq]

theorem natAbs_signedVal (neg : Bool) (m : Nat) : (signedVal neg m).natAbs = m := by
  cases neg <;> simp [signedVal]

theorem signedVal_nonpos (m : Nat) (h : v < 0) : signedVal (decide (v < 0)) m ≤ 0 := by
  rw [decide_eq_true h]
  exact Int.neg_nonpos_of_nonneg (Int.natCast_nonneg m)

theorem signedVal_nonneg (m : Nat) (h : 0 ≤ v) : 0 ≤ signedVal (decide (v < 0)) m := by
  rw [decide_eq_false (not_lt.mpr h)]
  exact Int.natCast_nonneg m

end

theorem badRounding_masked {z : Cx} (h : bit z.c.decctl 0 = true) :
    badRounding z = .ok () (z.changed fun b => { b with psw := setBit b.psw 4 true }) := by
  simp only [badRounding, op_bind, op_cx, h, if_true, setFlag_changed]

theorem badRounding_raises {z : Cx} (h : bit z.c.decctl 0 = false) :
    badRounding z = .error (.exc ⟨vDECIMAL_DATA, 1, none, false, false, false⟩) z := by
  simp only [badRounding, op_bind, op_cx, h, Bool.false_eq_true, if_false, op_raiseV]

section
variable {e : Fin 256} {w x : BitVec 32} {s : State} {d : FDesc} {bs : List Byte} {tg : List (Target × Nat)} {ea : Nat}
  {y1 z z' : Cx}


variable (hi : s.issues e w.toNat (fmtOk .a w.toNat) = true) (ha : (s.core e).cur.acc.tag = tDESC)
  (hea : formA w.toNat (dispOf w.toNat x.toNat) (s.start e w.toNat) = .ok ea (s.start e w.toNat))
  (hdesc : needDesc (s.core e).cur.acc.val (· == kPACKED) 0 none (s.start e w.toNat) = .ok d (s.start e w.toNat))
  (hread : readField d.addr d.len (s.start e w.toNat) = .ok bs y1) (hcheck : checkField d.addr d.len y1 = .ok tg z)
  (hv : ValidField d bs)
include hi ha hea hdesc hread hcheck hv

theorem dsrp_retires (hr : ea / 256 % 16 ≤ 9) (hfit : d.fits (srpVal (fieldVal d.kind bs) ea) = true)
    (hw : writePieces tg (d.encode z.c.decctl (srpVal (fieldVal d.kind bs) ea)) z = .ok () z') :
    Completes (.dsrp e w x) s fun t => Retires s t e (z'.with (5 + 2 * d.len + 2 * d.splits)
      (Bank.decFlags (srpVal (fieldVal d.kind bs) ea))) := by
  have hn : 6 + 2 * d.len + 2 * d.splits = 5 + 2 * d.len + 2 * d.splits + 1 := by omega
  rw [← start_c s e w.toNat] at hdesc
  refine completes_retires rfl hi ?_
  simp only [op_bind, op_curB, needTag_accDesc ha, op_pure, hea, hdesc, hread, hcheck, validFields_one hv, if_true,
    if_neg (Nat.not_lt.mpr hr), putResult_fits hfit hw, hn]
  exact done_changed ..

theorem dsrp_masked (hr : 9 < ea / 256 % 16) (hddm : bit z.c.decctl 0 = true) :
    Completes (.dsrp e w x) s fun t => Retires s t e (z.with (5 + 2 * d.len + 2 * d.splits) fun b =>
      { b with psw := setBit b.psw 4 true }) := by
  have hn : 6 + 2 * d.len + 2 * d.splits = 5 + 2 * d.len + 2 * d.splits + 1 := by omega
  rw [← start_c s e w.toNat] at hdesc
  refine completes_retires rfl hi ?_
  simp only [op_bind, op_curB, needTag_accDesc ha, op_pure, hea, hdesc, hread, hcheck, validFields_one hv, if_true,
    if_pos hr, badRounding_masked hddm, hn]
  exact done_changed ..

theorem dsrp_raises (hr : 9 < ea / 256 % 16) (hddm : bit z.c.decctl 0 = false) :
    Completes (.dsrp e w x) s fun t => Raises s t e z ⟨vDECIMAL_DATA, 1, none, false, false, false⟩ := by
  rw [← start_c s e w.toNat] at hdesc
  refine completes_raises rfl hi ?_ rfl (by decide)
  simp only [op_bind, op_curB, needTag_accDesc ha, op_pure, hea, hdesc, hread, hcheck, validFields_one hv, if_true,
    if_pos hr, badRounding_raises hddm]

end

/-- Settles O31: the value shifted left and right, then DSRP with a valid rounding digit and with one above 9. -/
theorem shiftAndRound : Obligations.ShiftAndRound := by
  unfold Obligations.ShiftAndRound
  refine ⟨fun v ea r n hr => ⟨srpVal_left, fun h hpos hn => ?_⟩, fun e w x s ea d bs tg y1 z z' => ?_⟩
  · rw [srpVal_right h hpos hn, hr]
    exact ⟨natAbs_signedVal _ _, signedVal_nonpos _, signedVal_nonneg _⟩
  · exact fun hi ha hea hdesc hread hcheck hv => ⟨dsrp_retires hi ha hea hdesc hread hcheck hv,
      dsrp_masked hi ha hea hdesc hread hcheck hv, dsrp_raises hi ha hea hdesc hread hcheck hv⟩

/-! DCVB and DCVD (R105). -/

/-- The halves of a word of 128 bits. -/
theorem halves_append (p : BitVec 128) : (p >>> 64).setWidth 64 ++ p.setWidth 64 = p := by
  refine BitVec.eq_of_getLsbD_eq fun i hi => ?_
  rw [BitVec.getLsbD_append]
  split
  next h => simp [h]
  next h =>
    have hlt : i - 64 < 64 := by omega
    simp [hlt, Nat.add_sub_cancel' (Nat.not_lt.mp h)]

theorem sext_append (hi lo : Word) : sext 128 (hi.toNat * 2 ^ 64 + lo.toNat) = (hi ++ lo).toInt := by
  have hval : (hi ++ lo).toNat = hi.toNat * 2 ^ 64 + lo.toNat := by
    rw [BitVec.toNat_append, ← Nat.shiftLeft_add_eq_or_of_lt lo.isLt, Nat.shiftLeft_eq]
  rw [sext, ← hval, BitVec.toInt_eq_toNat_cond, Nat.mod_eq_of_lt (hi ++ lo).isLt]
  split <;> split <;> omega

section
variable {e : Fin 256} {w x : BitVec 32} {s : State} {d : FDesc} {bs : List Byte} {tg : List (Target × Nat)} {y1 z z' : Cx}

theorem dcvb_retires (hi : s.issues e w.toNat (fmtOk .m w.toNat) = true)
    (hdesc : descWord w.toNat x.toNat (· == kPACKED) (s.start e w.toNat) = .ok d y1)
    (hread : readField d.addr d.len y1 = .ok bs z) (hv : ValidField d bs) (hhi : fieldVal d.kind bs < 2 ^ 127)
    (hlo : -2 ^ 127 ≤ fieldVal d.kind bs) :
    let p := BitVec.ofInt 128 (fieldVal d.kind bs)
    Completes (.dcvb e w x) s fun t => Retires s t e (z.with (7 + 2 * d.len + d.splits) fun b =>
      (Bank.decFlags (fieldVal d.kind bs)
        { b with aex := ⟨(p >>> 64).setWidth 64, tINT⟩, acc := ⟨p.setWidth 64, tINT⟩ }).based w.toNat 8) := by
  have hn : 8 + 2 * d.len + d.splits = 7 + 2 * d.len + d.splits + 1 := by omega
  refine completes_retires rfl hi ?_
  simp only [op_bind, hdesc, hread, validFields_one hv, if_true, hlo, hhi, and_self, modB_changed,
    flagsZNV_decFlags, changed_changed, hn]
  exact baseUpdate_done_changed ..

theorem dcvd_retires (hi : s.issues e w.toNat (fmtOk .m w.toNat) = true)
    (hdesc : descWord w.toNat x.toNat (· == kPACKED) (s.start e w.toNat) = .ok d y1)
    (hacc : (s.core e).cur.acc.tag = tINT) (haex : (s.core e).cur.aex.tag = tINT)
    (hcheck : checkField d.addr d.len y1 = .ok tg z)
    (hfit : d.fits ((s.core e).cur.aex.val ++ (s.core e).cur.acc.val).toInt = true)
    (hw : writePieces tg (d.encode z.c.decctl ((s.core e).cur.aex.val ++ (s.core e).cur.acc.val).toInt) z = .ok () z') :
    Completes (.dcvd e w x) s fun t => Retires s t e (z'.with (7 + 2 * d.len + d.splits) fun b =>
      (Bank.decFlags ((s.core e).cur.aex.val ++ (s.core e).cur.acc.val).toInt b).based w.toNat 8) := by
  have hn : 8 + 2 * d.len + d.splits = 7 + 2 * d.len + d.splits + 1 := by omega
  refine completes_retires rfl hi ?_
  simp only [op_bind, op_curB, start_c, hacc, haex, beq_self_eq_true, needTag_int, op_pure, hdesc, hcheck, sext_append,
    putResult_fits hfit hw, hn]
  exact baseUpdate_done_changed ..

end

/-- Settles O32. -/
theorem decimalBinaryConversion : Obligations.DecimalBinaryConversion := by
  unfold Obligations.DecimalBinaryConversion
  intro e w x s d y1 z b hi hdesc
  refine ⟨?_, fun tg z' hacc haex => dcvd_retires hi hdesc hacc haex⟩
  intro bs hread hv v hhi hlo
  obtain ⟨t, hexec, hret⟩ := dcvb_retires hi hdesc hread hv hhi hlo
  exact ⟨t, hexec, _, _, halves_append _, hret⟩

end Sys2Proof.Machine
end

section
/-!
PROOFS. Decimal fields, fourth part: the digits, the sign and the bytes of a field that is written (R94 to R97).
-/
namespace Sys2Proof.Machine

/-! Digits. -/

section
variable (n m : Nat)

@[simp] theorem length_lowDigits : (lowDigits n m).length = n := by
  induction n with
  | zero => rfl
  | succ n ih => rw [lowDigits, List.length_cons, ih]

theorem lowDigits_le {d : Nat} (h : d ∈ lowDigits n m) : d ≤ 9 := by
  induction n with
  | zero => cases h
  | succ n ih =>
    rcases List.mem_cons.mp h with rfl | h
    · omega
    · exact ih h

/-- The low n digits spell the number modulo 10^n. -/
theorem digitsVal_lowDigits (a : Nat) : digitsVal (lowDigits n m) a = some (a * 10 ^ n + m % 10 ^ n) := by
  induction n generalizing a with
  | zero => simp [lowDigits, digitsVal, Nat.mod_one]
  | succ n ih =>
    have hd : m / 10 ^ n % 10 ≤ 9 := by omega
    rw [lowDigits, digitsVal, if_pos hd, ih, Nat.mod_pow_succ, pow_succ]
    ring_nf

end

/-! Signs (R96, R97). -/

/-- The sign nibble of a PACKED field in preferred form. -/
def packedSign (plus neg : Bool) : Nat := if neg then 0xD else if plus then 0xF else 0xC

/-- The sign nibble of a ZONED field in preferred form. -/
def zonedSign (plus neg : Bool) : Nat := if neg then 0xD else if plus then 0x3 else 0xC

theorem signPacked_packedSign (plus neg : Bool) : signPacked (packedSign plus neg) = some neg := by
  cases plus <;> cases neg <;> rfl

theorem signZoned_zonedSign (plus neg : Bool) : signZoned (zonedSign plus neg) = some neg := by
  cases plus <;> cases neg <;> rfl

theorem packedSign_lt (plus neg : Bool) : packedSign plus neg < 16 := by
  cases plus <;> cases neg <;> decide

theorem zonedSign_lt (plus neg : Bool) : zonedSign plus neg < 16 := by
  cases plus <;> cases neg <;> decide

/-! The nibbles of a byte. -/

theorem nibble_hi {a b : Nat} (ha : a < 16) (hb : b < 16) : (BitVec.ofNat 8 (a * 16 + b)).toNat / 16 = a := by
  have hbyte : a * 16 + b < 2 ^ 8 := by omega
  rw [BitVec.toNat_ofNat, Nat.mod_eq_of_lt hbyte]
  omega

theorem nibble_lo {a b : Nat} (ha : a < 16) (hb : b < 16) : (BitVec.ofNat 8 (a * 16 + b)).toNat % 16 = b := by
  have hbyte : a * 16 + b < 2 ^ 8 := by omega
  rw [BitVec.toNat_ofNat, Nat.mod_eq_of_lt hbyte]
  omega

theorem length_packNibbles (l : List Nat) : (packNibbles l).length = l.length / 2 := by
  induction l using packNibbles.induct with
  | case1 a b r ih => rw [packNibbles, List.length_cons, ih, List.length_cons, List.length_cons]; omega
  | case2 l h =>
    match l, h with
    | [], _ => rfl
    | [_], _ => simp [packNibbles]
    | a :: b :: r, h => exact absurd rfl (h a b r)

/-- The bytes hold the nibbles, an even number of them. -/
theorem nibbles_packNibbles {l : List Nat} (heven : l.length % 2 = 0) (hlt : ∀ x ∈ l, x < 16) :
    nibbles (packNibbles l) = l := by
  induction l using packNibbles.induct with
  | case1 a b r ih =>
    have ha := hlt a (by simp)
    have hb := hlt b (by simp)
    have hr := ih (by simp only [List.length_cons] at heven; omega) fun x hx => hlt x (by simp [hx])
    rw [packNibbles, nibbles, List.flatMap_cons, nibble_hi ha hb, nibble_lo ha hb]
    exact congrArg (fun t => a :: b :: t) hr
  | case2 l h =>
    match l, h with
    | [], _ => rfl
    | [_], _ => simp at heven
    | a :: b :: r, h => exact absurd rfl (h a b r)

/-- Byte i of a field spells its nibbles 2i and 2i + 1. -/
theorem nibbles_getD (bs : List Byte) (i : Nat) :
    (nibbles bs).getD (2 * i) 0 = (bs.getD i 0).toNat / 16 ∧
      (nibbles bs).getD (2 * i + 1) 0 = (bs.getD i 0).toNat % 16 := by
  induction bs generalizing i with
  | nil => simp [nibbles]
  | cons b r ih =>
    cases i with
    | zero => exact ⟨rfl, rfl⟩
    | succ i => exact ih i

/-! PACKED fields. -/

section
variable (plus neg : Bool) {L : Nat} (m : Nat)

/-- The nibbles of a PACKED field: its digits, then its sign (R94). -/
theorem nibbles_packedOf (hL : 1 ≤ L) :
    nibbles (packedOf plus L neg m) = lowDigits (2 * L - 1) m ++ [packedSign plus neg] := by
  refine nibbles_packNibbles ?_ fun x hx => ?_
  · simp only [List.length_append, length_lowDigits, List.length_singleton]
    omega
  · rcases List.mem_append.mp hx with hx | hx
    · exact Nat.lt_of_le_of_lt (lowDigits_le _ _ hx) (by decide)
    · rw [List.mem_singleton.mp hx]
      exact packedSign_lt plus neg

theorem length_packedOf (hL : 1 ≤ L) : (packedOf plus L neg m).length = L := by
  rw [packedOf, length_packNibbles, List.length_append, length_lowDigits, List.length_singleton]
  omega

theorem packedVal_packedOf (hL : 1 ≤ L) :
    packedVal (packedOf plus L neg m) = some (signedVal neg (m % 10 ^ (2 * L - 1))) := by
  simp only [packedVal, nibbles_packedOf plus neg m hL, List.dropLast_concat, List.getLastD_concat, digitsVal_lowDigits,
    signPacked_packedSign, zero_mul, zero_add]

theorem badByte_packedOf (hL : 1 ≤ L) {i : Nat} (hi : i < L) :
    badByte kPACKED L i ((packedOf plus L neg m).getD i 0) = false := by
  obtain ⟨hhi, hlo⟩ := nibbles_getD (packedOf plus L neg m) i
  rw [nibbles_packedOf plus neg m hL] at hhi hlo
  have hdigit {j : Nat} (hj : j < 2 * L - 1) :
      (lowDigits (2 * L - 1) m ++ [packedSign plus neg]).getD j 0 ≤ 9 := by
    rw [List.getD_append _ _ _ _ (by simpa using hj), List.getD_eq_getElem _ _ (by simpa using hj)]
    exact lowDigits_le _ _ (List.getElem_mem _)
  have hsign : (lowDigits (2 * L - 1) m ++ [packedSign plus neg]).getD (2 * L - 1) 0 = packedSign plus neg := by
    rw [List.getD_append_right _ _ _ _ (by simp), length_lowDigits, Nat.sub_self]
    rfl
  have hhigh : ¬((packedOf plus L neg m).getD i 0).toNat / 16 > 9 := by
    rw [← hhi]
    exact not_lt.mpr (hdigit (by omega))
  simp only [badByte, show kPACKED ≠ kZONED by decide, if_false, decide_eq_false hhigh, Bool.false_or]
  by_cases hlast : i + 1 = L
  · have hj : 2 * i + 1 = 2 * L - 1 := by omega
    rw [hj, hsign] at hlo
    rw [if_pos hlast, ← hlo, signPacked_packedSign]
    rfl
  · rw [if_neg hlast, ← hlo]
    exact decide_eq_false (not_lt.mpr (hdigit (by omega)))

end

/-! ZONED fields. -/

section
variable (plus neg : Bool) {L : Nat} (m : Nat)

theorem length_zonedOf : (zonedOf plus L neg m).length = L := by
  rw [zonedOf, List.length_mapIdx, length_lowDigits]

/-- Byte i of a ZONED field: its digit below a zone nibble, which is the sign in the last byte (R95). -/
theorem zonedOf_byte {i : Nat} (hi : i < L) :
    ∃ d ∈ lowDigits L m, (lowDigits L m)[i]? = some d ∧ ((zonedOf plus L neg m).getD i 0).toNat % 16 = d ∧
      (i + 1 = L → ((zonedOf plus L neg m).getD i 0).toNat / 16 = zonedSign plus neg) := by
  have hlen : i < (lowDigits L m).length := by rwa [length_lowDigits]
  have hmem := List.getElem_mem hlen
  have hd : (lowDigits L m)[i] < 16 := Nat.lt_of_le_of_lt (lowDigits_le _ _ hmem) (by decide)
  have hzone : (if i + 1 = L then zonedSign plus neg else 0x3) < 16 := by
    split
    · exact zonedSign_lt plus neg
    · decide
  have hbyte : (zonedOf plus L neg m).getD i 0 =
      BitVec.ofNat 8 ((if i + 1 = L then zonedSign plus neg else 0x3) * 16 + (lowDigits L m)[i]) := by
    rw [List.getD_eq_getElem _ _ (by rwa [length_zonedOf])]
    exact List.getElem_mapIdx ..
  refine ⟨_, hmem, List.getElem?_eq_getElem hlen, ?_, fun hlast => ?_⟩
  · rw [hbyte, nibble_lo hzone hd]
  · rw [hbyte, nibble_hi hzone hd, if_pos hlast]

theorem map_digit_zonedOf : (zonedOf plus L neg m).map (fun b => b.toNat % 16) = lowDigits L m := by
  refine List.ext_getElem? fun i => ?_
  by_cases hi : i < L
  · obtain ⟨d, -, hd, hlo, -⟩ := zonedOf_byte plus neg m hi
    rw [hd, ← hlo, List.getElem?_map, List.getElem?_eq_getElem (by rwa [length_zonedOf]), List.getD_eq_getElem]
    rfl
  · rw [List.getElem?_eq_none (by rw [List.length_map, length_zonedOf]; omega),
      List.getElem?_eq_none (by rw [length_lowDigits]; omega)]

theorem zonedVal_zonedOf (hL : 1 ≤ L) :
    zonedVal (zonedOf plus L neg m) = some (signedVal neg (m % 10 ^ L)) := by
  obtain ⟨d, -, -, -, hhi⟩ := zonedOf_byte plus neg m (show L - 1 < L by omega)
  have hlast : (zonedOf plus L neg m).getLastD 0 = (zonedOf plus L neg m).getD (L - 1) 0 := by
    rw [List.getLastD_eq_getLast?, List.getLast?_eq_getElem?, length_zonedOf, List.getD_eq_getElem?_getD]
  simp only [zonedVal, map_digit_zonedOf, digitsVal_lowDigits, hlast, hhi (by omega), signZoned_zonedSign, zero_mul,
    zero_add]

theorem badByte_zonedOf {i : Nat} (hi : i < L) : badByte kZONED L i ((zonedOf plus L neg m).getD i 0) = false := by
  obtain ⟨d, hmem, -, hlo, hhi⟩ := zonedOf_byte plus neg m hi
  have hdigit : ¬d > 9 := not_lt.mpr (lowDigits_le _ _ hmem)
  simp only [badByte, if_true, hlo, decide_eq_false hdigit, Bool.false_or]
  by_cases hlast : i + 1 = L
  · rw [hhi hlast, signZoned_zonedSign]
    simp
  · simp [hlast]

end

/-! The field that an instruction writes. -/

section
variable {d : FDesc} (ctl : Word) (v : Int)

theorem encode_packed (h : d.kind = kPACKED) :
    d.encode ctl v = packedOf (bit ctl 2) d.len (decide (v < 0)) v.natAbs :=
  if_neg (by rw [h]; decide)

theorem encode_zoned (h : d.kind = kZONED) :
    d.encode ctl v = zonedOf (bit ctl 2) d.len (decide (v < 0)) v.natAbs := if_pos h

theorem length_encode (hk : d.kind = kPACKED ∨ d.kind = kZONED) (hL : 1 ≤ d.len) : (d.encode ctl v).length = d.len := by
  rcases hk with hk | hk
  · rw [encode_packed ctl v hk, length_packedOf _ _ _ hL]
  · rw [encode_zoned ctl v hk, length_zonedOf]

theorem encode_valid (hk : d.kind = kPACKED ∨ d.kind = kZONED) (hL : 1 ≤ d.len) : ValidField d (d.encode ctl v) := by
  refine List.find?_eq_none.mpr fun i hi => ?_
  rw [length_encode ctl v hk hL] at hi ⊢
  rw [Bool.not_eq_true]
  rcases hk with hk | hk
  · rw [encode_packed ctl v hk, hk]
    exact badByte_packedOf _ _ _ hL (List.mem_range.mp hi)
  · rw [encode_zoned ctl v hk, hk]
    exact badByte_zonedOf _ _ _ (List.mem_range.mp hi)

/-- The value of a written field: that of the instruction cut to the digit positions (R100). -/
theorem fieldVal_encode (hk : d.kind = kPACKED ∨ d.kind = kZONED) (hL : 1 ≤ d.len) :
    fieldVal d.kind (d.encode ctl v) = signedVal (decide (v < 0)) (v.natAbs % 10 ^ d.digits) := by
  rcases hk with hk | hk
  · have hp : kPACKED ≠ kZONED := by decide
    rw [encode_packed ctl v hk, fieldVal, FDesc.digits, hk, if_neg hp, if_neg hp, packedVal_packedOf _ _ _ hL]
    rfl
  · rw [encode_zoned ctl v hk, fieldVal, FDesc.digits, hk, if_pos rfl, if_pos rfl, zonedVal_zonedOf _ _ _ hL]
    rfl

theorem signedVal_natAbs : signedVal (decide (v < 0)) v.natAbs = v := by
  by_cases h : v < 0
  · rw [decide_eq_true h, signedVal, if_pos rfl, Int.ofNat_natAbs_of_nonpos (le_of_lt h), Int.neg_neg]
  · rw [decide_eq_false h, signedVal, if_neg (by decide), Int.natAbs_of_nonneg (not_lt.mp h)]

end

/-- Settles O33: the length, the validity and the value of a written field, for each of its two kinds. -/
theorem writtenFieldHoldsTheValue : Obligations.WrittenFieldHoldsTheValue := by
  unfold Obligations.WrittenFieldHoldsTheValue
  intro d ctl v hk hL
  have hval := fieldVal_encode ctl v hk hL
  refine ⟨length_encode ctl v hk hL, encode_valid ctl v hk hL, fun hfit => ?_, ?_⟩
  · rw [hval, Nat.mod_eq_of_lt (of_decide_eq_true hfit), signedVal_natAbs]
  · rw [hval, natAbs_signedVal]

end Sys2Proof.Machine
end

section
/-!
PROOFS. String instructions: one element of each (R107, R108, R110, R111, R163).
-/
namespace Sys2Proof.Machine

/-! An element and the end of its instruction. -/

/-- The context after an element that has changed the bank by f and cost n cycles (R163). -/
def Cx.elem (x : Cx) (n : Nat) (f : Bank → Bank) : Cx := { x.changed f with cost := x.cost + n }

theorem modB_elem (x : Cx) (n : Nat) (f g : Bank → Bank) :
    modB g (x.elem n f) = .ok () (x.elem n fun b => g (f b)) := by
  simp only [op_modB, Cx.elem, Cx.changed, cur_setCur, setCur_setCur]

theorem addCost_changed (x : Cx) (n : Nat) (f : Bank → Bank) : addCost n (x.changed f) = .ok () (x.elem n f) := rfl

theorem done_elem (x : Cx) (n k : Nat) (f : Bank → Bank) : done (k + 1) (x.elem n f) = .ok () (x.with (n + k) f) := by
  simp only [op_done, Cx.elem, Cx.changed, Cx.with, Nat.add_sub_cancel, Nat.add_assoc]

theorem baseUpdateFrom_with (x : Cx) (w n k : Nat) (b0 : Bank) (f : Bank → Bank) :
    baseUpdateFrom w k b0 (x.with n f) = .ok () (x.with n fun b => Bank.basedFrom w k b0 (f b)) := by
  simp only [op_baseUpdateFrom, Cx.with, cur_setCur, setCur_setCur]

/-- An instruction starts with a stop after one element in a debug step, and otherwise with none (R480). -/
theorem start_lim (s : State) (e w : Nat) : (s.start e w).lim = none ∨ (s.start e w).lim = some 1 := by
  rw [State.start, State.startCx]
  split
  · exact .inr rfl
  · exact .inl rfl

theorem limited_one {y : Cx} (hlim : y.lim = none ∨ y.lim = some 1) : limited 1 y = .ok 1 y := by
  rcases hlim with h | h <;> simp [limited, op_bind, h]

theorem limited_zero (y : Cx) : limited 0 y = .ok 0 y := by
  cases h : y.lim <;> simp only [limited, op_bind, op_cx, h, Nat.min_zero, op_pure]

theorem strCount_zero (rep : Bool) : strCount rep 0 = 0 := by cases rep <;> rfl

/-- Without REP there is one element where CNT is not 0 (R110). -/
theorem strCount_single {n : Nat} (h : n ≠ 0) : strCount false n = 1 := Nat.min_eq_left (Nat.pos_of_ne_zero h)

theorem strLoop_one {elem : Op Bool} {early : Bool} {y u : Cx} (h : elem y = .ok early u) :
    strLoop elem 1 y = .ok early u := by
  cases early <;> simp only [strLoop, op_bind, h] <;> rfl

section
variable {elem : Op Bool} {fin : Op Unit} {f : Bank → Bank} {n : Nat} {y u z : Cx}

/-- The element ends the instruction early (R111). -/
theorem strRun_early (hcnt : y.c.cur.cnt ≠ 0) (hlim : y.lim = none ∨ y.lim = some 1)
    (h : elem y = .ok true (z.elem n f)) : strRun false elem fin y = .ok () (z.with (n + 3) f) := by
  have hn : strCount false y.c.cur.cnt.toNat = 1 := strCount_single fun h0 => hcnt (BitVec.eq_of_toNat_eq h0)
  simp only [strRun, op_bind, op_curB, hn, limited_one hlim, strLoop_one h, Bool.not_true, Bool.false_and,
    Bool.false_eq_true, if_false, if_true]
  exact done_elem ..

/-- The instruction ends with fin after its element. -/
theorem strRun_fin (hcnt : y.c.cur.cnt ≠ 0) (hlim : y.lim = none ∨ y.lim = some 1) (h : elem y = .ok false u)
    (hfin : fin u = .ok () (z.elem n f)) : strRun false elem fin y = .ok () (z.with (n + 3) f) := by
  have hn : strCount false y.c.cur.cnt.toNat = 1 := strCount_single fun h0 => hcnt (BitVec.eq_of_toNat_eq h0)
  simp only [strRun, op_bind, op_curB, hn, limited_one hlim, strLoop_one h, lt_irrefl, decide_false, Bool.and_false,
    Bool.false_eq_true, if_false, hfin]
  exact done_elem ..

end

theorem needCursors_pass {two : Bool} {y : Cx} (h1 : y.c.cur.x1.tag = tPTR) (h2 : two = true → y.c.cur.x2.tag = tPTR) :
    needCursors two y = .ok () y := by
  cases two with
  | false => simp only [needCursors, op_bind, op_curB, h1, beq_self_eq_true, needTag_ptr, op_pure]; rfl
  | true => simp only [needCursors, op_bind, op_curB, h1, h2, beq_self_eq_true, needTag_ptr, op_pure]; rfl

/-! The elements (R108). -/

/-- Both cursors moved by k, and CNT counted down. -/
def Bank.moved (k : Word) (b : Bank) : Bank :=
  { b with x1 := ⟨b.x1.val + k, b.x1.tag⟩, x2 := ⟨b.x2.val + k, b.x2.tag⟩, cnt := b.cnt - 1 }

/-- The source cursor moved by one, and CNT counted down. -/
def Bank.scanned (b : Bank) : Bank := { b with x1 := ⟨b.x1.val + 1, b.x1.tag⟩, cnt := b.cnt - 1 }

section
variable {d : FDesc} {tg : List (Target × Nat)} {v u : Byte} {y y1 y2 y3 z : Cx}

theorem elemMove_ok (hread : readByte y.c.cur.x1.val.toNat y = .ok v y1)
    (hcheck : checkByte y.c.cur.x2.val.toNat y1 = .ok tg y2) (hw : writePieces tg [v] y2 = .ok () z) :
    elemMove none y = .ok false (z.elem 1 (Bank.moved 1)) := by
  simp only [elemMove, op_bind, op_curB, hread, op_pure, hcheck, hw, moveX1, moveX2, decCnt, modB_changed,
    changed_changed, addCost_changed]
  rfl

theorem elemMove_table (hread : readByte y.c.cur.x1.val.toNat y = .ok v y1)
    (htable : readByte (d.addr + v.toNat) y1 = .ok u y2)
    (hcheck : checkByte y.c.cur.x2.val.toNat y2 = .ok tg y3) (hw : writePieces tg [u] y3 = .ok () z) :
    elemMove (some d) y = .ok false (z.elem 1 (Bank.moved 1)) := by
  simp only [elemMove, op_bind, op_curB, hread, htable, op_pure, hcheck, hw, moveX1, moveX2, decCnt, modB_changed,
    changed_changed, addCost_changed]
  rfl

theorem elemMoveRev_ok (hread : readByte (y.c.cur.x1.val - 1).toNat y = .ok v y1)
    (hcheck : checkByte (y.c.cur.x2.val - 1).toNat y1 = .ok tg y2) (hw : writePieces tg [v] y2 = .ok () z) :
    elemMoveRev y = .ok false (z.elem 1 (Bank.moved (-1))) := by
  simp only [elemMoveRev, op_bind, op_curB, hread, op_pure, hcheck, hw, moveX1, moveX2, decCnt, modB_changed,
    changed_changed, addCost_changed]
  rfl

theorem elemCompare_same (h1 : readByte y.c.cur.x1.val.toNat y = .ok v y1)
    (h2 : readByte y.c.cur.x2.val.toNat y1 = .ok v z) : elemCompare y = .ok false (z.elem 1 (Bank.moved 1)) := by
  simp only [elemCompare, op_bind, op_curB, h1, h2, op_addCost, if_true, moveX1, moveX2, decCnt, modB_changed,
    changed_changed, op_pure]
  rfl

theorem elemCompare_differ (h1 : readByte y.c.cur.x1.val.toNat y = .ok v y1)
    (h2 : readByte y.c.cur.x2.val.toNat y1 = .ok u z) (hne : v ≠ u) :
    elemCompare y = .ok true (z.elem 1 fun b => { b with
      psw := pswZNCV b.psw false (decide (v.toNat < u.toNat)) (decide (v.toNat < u.toNat)) false }) := by
  simp only [elemCompare, op_bind, op_curB, h1, h2, op_addCost, if_neg hne, op_flagsZNCV, op_pure]
  rfl

theorem elemTest_zero (h1 : readByte y.c.cur.x1.val.toNat y = .ok v y1)
    (htable : readByte (d.addr + v.toNat) y1 = .ok 0 z) : elemTest d y = .ok false (z.elem 1 Bank.scanned) := by
  simp only [elemTest, op_bind, op_curB, h1, htable, op_addCost, if_true, moveX1, decCnt, modB_changed, changed_changed,
    op_pure]
  rfl

theorem elemTest_found (h1 : readByte y.c.cur.x1.val.toNat y = .ok v y1)
    (htable : readByte (d.addr + v.toNat) y1 = .ok u z) (hne : u ≠ 0) :
    elemTest d y = .ok true (z.elem 1 fun b => { b with acc := ⟨u.setWidth 64, tRAW⟩, psw := setBit b.psw 0 true }) := by
  simp only [elemTest, op_bind, op_curB, h1, htable, op_addCost, if_neg hne, modB_changed, setFlag_changed, changed_changed,
    op_pure]
  rfl

theorem elemSearch_short (h : y.c.cur.cnt.toNat < d.len) :
    elemSearch d y = .ok true (y.elem 0 fun b => { b with psw := setBit b.psw 0 false }) := by
  simp only [elemSearch, op_bind, op_curB, if_pos h, setFlag_changed, op_pure]
  rfl

section
variable {vs as : List (Target × Nat × Nat × Bool)} {bs ar : List Byte} (h : d.len ≤ y.c.cur.cnt.toNat)
  (hvs : accessPieces .read (fieldPieces y.c.cur.x1.val.toNat d.len) false y = .ok vs y1)
  (has : accessPieces .read (fieldPieces d.addr d.len) false y1 = .ok as y2) (hbs : fetchPieces vs y2 = .ok bs y3)
  (har : fetchPieces as y3 = .ok ar z)
include h hvs has hbs har

theorem elemSearch_found (heq : bs = ar) :
    elemSearch d y = .ok true (z.elem (d.len + splits y.c.cur.x1.val.toNat d.len + d.splits) fun b =>
      { b with psw := setBit b.psw 0 true }) := by
  simp only [elemSearch, op_bind, op_curB, if_neg (Nat.not_lt.mpr h), hvs, has, hbs, har, op_addCost, if_pos heq,
    setFlag_changed, op_pure]
  rfl

theorem elemSearch_moves (hne : bs ≠ ar) :
    elemSearch d y = .ok false (z.elem (d.len + splits y.c.cur.x1.val.toNat d.len + d.splits) Bank.scanned) := by
  simp only [elemSearch, op_bind, op_curB, if_neg (Nat.not_lt.mpr h), hvs, has, hbs, har, op_addCost, if_neg hne, moveX1,
    decCnt, modB_changed, changed_changed, op_pure]
  rfl

end

end

/-! The instructions without a table or an argument. -/

section
variable {e : Fin 256} {w x : BitVec 32} {s : State} {d : FDesc} {tg : List (Target × Nat)} {v u : Byte}
  {y0 y1 y2 y3 z : Cx}

section
variable (h1 : (s.core e).cur.x1.tag = tPTR) (hcnt : (s.core e).cur.cnt ≠ 0)
  (hi : s.issues e w.toNat (fmtOk .n w.toNat) = true) (h2 : (s.core e).cur.x2.tag = tPTR)
include h1 hcnt hi h2

theorem mvs_retires (hread : readByte (s.core e).cur.x1.val.toNat (s.start e w.toNat) = .ok v y1)
    (hcheck : checkByte (s.core e).cur.x2.val.toNat y1 = .ok tg y2) (hw : writePieces tg [v] y2 = .ok () z) :
    Completes (.mvs e w x) s fun t => Retires s t e (z.with 4 (Bank.moved 1)) := by
  rw [← start_c s e w.toNat] at h1 hcnt h2 hread hcheck
  refine completes_retires rfl hi ?_
  rw [mvsOp, op_bind, needCursors_pass h1 fun _ => h2]
  exact strRun_fin hcnt (start_lim ..) (elemMove_ok hread hcheck hw) rfl

theorem mvsr_retires (hread : readByte ((s.core e).cur.x1.val - 1).toNat (s.start e w.toNat) = .ok v y1)
    (hcheck : checkByte ((s.core e).cur.x2.val - 1).toNat y1 = .ok tg y2) (hw : writePieces tg [v] y2 = .ok () z) :
    Completes (.mvsr e w x) s fun t => Retires s t e (z.with 4 (Bank.moved (-1))) := by
  rw [← start_c s e w.toNat] at h1 hcnt h2 hread hcheck
  refine completes_retires rfl hi ?_
  rw [mvsrOp, op_bind, needCursors_pass h1 fun _ => h2]
  exact strRun_fin hcnt (start_lim ..) (elemMoveRev_ok hread hcheck hw) rfl

theorem cms_same (hv : readByte (s.core e).cur.x1.val.toNat (s.start e w.toNat) = .ok v y1)
    (hu : readByte (s.core e).cur.x2.val.toNat y1 = .ok u z) (heq : v = u) :
    Completes (.cms e w x) s fun t => Retires s t e (z.with 4 fun b =>
      { b.moved 1 with psw := pswZNCV b.psw true false false false }) := by
  subst heq
  rw [← start_c s e w.toNat] at h1 hcnt h2 hv hu
  refine completes_retires rfl hi ?_
  rw [cmsOp, op_bind, needCursors_pass h1 fun _ => h2]
  exact strRun_fin hcnt (start_lim ..) (elemCompare_same hv hu) (modB_elem ..)

theorem cms_differ (hv : readByte (s.core e).cur.x1.val.toNat (s.start e w.toNat) = .ok v y1)
    (hu : readByte (s.core e).cur.x2.val.toNat y1 = .ok u z) (hne : v ≠ u) :
    Completes (.cms e w x) s fun t => Retires s t e (z.with 4 fun b => { b with
      psw := pswZNCV b.psw false (decide (v.toNat < u.toNat)) (decide (v.toNat < u.toNat)) false }) := by
  rw [← start_c s e w.toNat] at h1 hcnt h2 hv hu
  refine completes_retires rfl hi ?_
  rw [cmsOp, op_bind, needCursors_pass h1 fun _ => h2]
  exact strRun_early hcnt (start_lim ..) (elemCompare_differ hv hu hne)

end

/-! The instructions with a table or an argument. -/

section
variable {f : Bank → Bank} {n : Nat} (h1 : (s.core e).cur.x1.tag = tPTR)
  (hi : s.issues e w.toNat (fmtOk .m w.toNat) = true)
include h1 hi

theorem trn_retires (h2 : (s.core e).cur.x2.tag = tPTR)
    (hdesc : descWord w.toNat x.toNat (· == kTABLE) (s.start e w.toNat) = .ok d y0)
    (hrun : strRun false (elemMove (some d)) (pure ()) y0 = .ok () (z.with n f)) :
    Completes (.trn e w x) s fun t => Retires s t e (z.with n fun b => Bank.basedFrom w.toNat 8 (s.core e).cur (f b)) := by
  rw [← start_c s e w.toNat] at h1 h2 ⊢
  refine completes_retires rfl hi ?_
  simp only [trnOp, op_bind, op_curB, needCursors_pass h1 fun _ => h2, hdesc, hrun]
  exact baseUpdateFrom_with ..

theorem trt_retires (hdesc : descWord w.toNat x.toNat (· == kTABLE) (s.start e w.toNat) = .ok d y0)
    (hrun : strRun false (elemTest d) (setFlag 0 false) y0 = .ok () (z.with n f)) :
    Completes (.trt e w x) s fun t => Retires s t e (z.with n fun b => Bank.basedFrom w.toNat 8 (s.core e).cur (f b)) := by
  rw [← start_c s e w.toNat] at h1 ⊢
  refine completes_retires rfl hi ?_
  simp only [trtOp, op_bind, op_curB, needCursors_pass (two := false) h1 nofun, hdesc, hrun]
  exact baseUpdateFrom_with ..

theorem srch_retires (hdesc : descWord w.toNat x.toNat (· == kCHAR) (s.start e w.toNat) = .ok d y0)
    (hrun : strRun false (elemSearch d) (setFlag 0 false) y0 = .ok () (z.with n f)) :
    Completes (.srch e w x) s fun t => Retires s t e (z.with n fun b => Bank.basedFrom w.toNat 8 (s.core e).cur (f b)) := by
  rw [← start_c s e w.toNat] at h1 ⊢
  refine completes_retires rfl hi ?_
  simp only [srchOp, op_bind, op_curB, needCursors_pass (two := false) h1 nofun, hdesc, hrun]
  exact baseUpdateFrom_with ..

end

end

/-- Settles O34: the instructions with two cursors alone, then those with a table or an argument. -/
theorem stringElements : Obligations.StringElements := by
  unfold Obligations.StringElements
  intro e w x s d y0 y1 y2 y3 z v u tg y b up upd h1 hcnt
  refine ⟨fun hi h2 => ⟨mvs_retires h1 hcnt hi h2, mvsr_retires h1 hcnt hi h2,
    fun hv hu => ⟨cms_same h1 hcnt hi h2 hv hu, cms_differ h1 hcnt hi h2 hv hu⟩⟩,
    fun hi hdesc hcur hlim => ?_, fun hi hdesc hcur hlim => ?_⟩
  · have hcnt0 : y0.c.cur.cnt ≠ 0 := by rwa [hcur]
    have hlim0 : y0.lim = none ∨ y0.lim = some 1 := hlim ▸ start_lim ..
    refine ⟨fun h2 hread htable hcheck hw => ?_, fun hread htable => ⟨fun hz => ?_, fun hne => ?_⟩⟩
    · rw [← hcur] at hread hcheck
      exact trn_retires h1 hi h2 hdesc (strRun_fin hcnt0 hlim0 (elemMove_table hread htable hcheck hw) rfl)
    · rw [← hcur] at hread
      exact trt_retires h1 hi hdesc (strRun_fin hcnt0 hlim0 (elemTest_zero hread (hz ▸ htable)) (modB_elem ..))
    · rw [← hcur] at hread
      exact trt_retires h1 hi hdesc (strRun_early hcnt0 hlim0 (elemTest_found hread htable hne))
  · have hcnt0 : y0.c.cur.cnt ≠ 0 := by rwa [hcur]
    have hlim0 : y0.lim = none ∨ y0.lim = some 1 := hlim ▸ start_lim ..
    rw [← hcur]
    refine ⟨fun hshort => ?_, fun bs ar vs as hlen hvs has hbs har => ⟨fun heq => ?_, fun hne => ?_⟩⟩
    · exact srch_retires h1 hi hdesc (strRun_early hcnt0 hlim0 (elemSearch_short hshort))
    · exact srch_retires h1 hi hdesc (strRun_early hcnt0 hlim0 (elemSearch_found hlen hvs has hbs har heq))
    · exact srch_retires h1 hi hdesc
        (strRun_fin hcnt0 hlim0 (elemSearch_moves hlen hvs has hbs har hne) (modB_elem ..))

end Sys2Proof.Machine
end

section
/-!
PROOFS. EDIT and EDMK without REP (R112 to R114): what one pattern byte does, and the end of the instruction.
-/
namespace Sys2Proof.Machine

/-! A pattern byte. -/

/-- The digit that a digit slot takes from the source byte sb: RN names the nibble (R113). -/
def Bank.editNibble (b : Bank) (sb : Byte) : Nat := if bit b.cnt 63 then sb.toNat % 16 else sb.toNat / 16

/-- The bank after a digit slot or forced digit p with source byte sb, cursor X2 and the length excluded (R113, R114). -/
def Bank.afterDigit (mark : Bool) (b : Bank) (p sb : Byte) : Bank :=
  let d := b.editNibble sb
  let shown := p = 0x11 ∨ bit b.psw 5 = true ∨ d ≠ 0
  let sign := bit b.cnt 63 = false ∧ 9 < sb.toNat % 16
  let nz := if d = 0 then b.cnt else setBit b.cnt 62 true
  { b with
    x1 := if bit b.cnt 63 = true ∨ sign then ⟨b.x1.val + 1, b.x1.tag⟩ else b.x1
    aex := if shown ∧ mark = true ∧ bit b.psw 5 = false then ⟨b.x2.val, tPTR⟩ else b.aex
    psw := if shown then setBit b.psw 5 true else b.psw
    cnt := if bit b.cnt 63 then setBit nz 63 false
      else if sign then (if sb.toNat % 16 = 0xB ∨ sb.toNat % 16 = 0xD then setBit nz 61 true else nz)
      else setBit nz 63 true }

theorem editDigit_eq (mark : Bool) (b : Bank) (p sb : Byte) : editDigit mark b p sb =
    ⟨if p = 0x11 ∨ bit b.psw 5 = true ∨ b.editNibble sb ≠ 0 then BitVec.ofNat 8 (0x30 + b.editNibble sb)
      else b.acc.val.setWidth 8, b.afterDigit mark p sb⟩ := by
  unfold editDigit
  cases hrn : bit b.cnt 63 with
  | true => simp only [Bank.afterDigit, Bank.editNibble, hrn, if_true, ite_not, true_or, Bool.true_eq_false, false_and]
  | false =>
    by_cases hsign : 9 < sb.toNat % 16
    · simp only [Bank.afterDigit, Bank.editNibble, hrn, hsign, if_true, if_false, ite_not, Bool.false_eq_true,
        and_self, or_true]
    · simp only [Bank.afterDigit, Bank.editNibble, hrn, hsign, if_false, ite_not, Bool.false_eq_true, and_false,
        or_self]

section
variable {b : Bank} {p : Byte}

/-- A field reset ends significance and clears NZ, NG and NT (R114). -/
theorem editOther_reset : editOther b 0x12 =
    ⟨b.acc.val.setWidth 8, { b with psw := setBit b.psw 5 false, cnt := setFld b.cnt 62 60 0 }⟩ := rfl

/-- A negative text sets NT (R114). -/
theorem editOther_text : editOther b 0x13 =
    ⟨if bit b.cnt 61 then 0x20 else b.acc.val.setWidth 8, { b with cnt := setBit b.cnt 60 true }⟩ := rfl

/-- Any other byte is kept or filled (R114). -/
theorem editOther_char (h : p < 0x10 ∨ 0x13 < p) : editOther b p =
    ⟨if (if bit b.cnt 60 then bit b.cnt 61 else bit b.psw 5) then p else b.acc.val.setWidth 8, b⟩ := by
  have h12 : p ≠ 0x12 := by rintro rfl; revert h; decide
  have h13 : p ≠ 0x13 := by rintro rfl; revert h; decide
  unfold editOther
  simp only [if_neg h12, if_neg h13]
  split <;> rfl

end

/-! An element. -/

/-- The bank n of a pattern byte with X2 moved on from b, and the length counted down (R113). -/
def Bank.editMoved (b n : Bank) : Bank :=
  { n with x2 := ⟨b.x2.val + 1, b.x2.tag⟩, cnt := setFld n.cnt 59 0 (fld n.cnt 59 0 - 1) }

section
variable {mark : Bool} {p sb out : Byte} {n : Bank} {tg : List (Target × Nat)} {y y1 y2 y3 z : Cx}

theorem elemEdit_digit (hp : p = 0x10 ∨ p = 0x11) (hpat : readByte y.c.cur.x2.val.toNat y = .ok p y1)
    (hsrc : readByte y.c.cur.x1.val.toNat y1 = .ok sb y2) (hd : y.c.cur.editNibble sb ≤ 9)
    (hst : editDigit mark y.c.cur p sb = ⟨out, n⟩) (hcheck : checkByte y.c.cur.x2.val.toNat y2 = .ok tg y3)
    (hw : writePieces tg [out] y3 = .ok () z) : elemEdit mark y = .ok false (z.elem 2 fun _ => y.c.cur.editMoved n) := by
  have hvalid : ¬(if bit y.c.cur.cnt 63 = true then sb.toNat % 16 else sb.toNat / 16) > 9 := not_lt.mpr hd
  simp only [elemEdit, op_bind, op_curB, hpat, if_pos hp, hsrc, if_neg hvalid, op_pure, hst, hcheck, hw, modB_changed,
    addCost_changed]
  rfl

theorem elemEdit_invalid (hp : p = 0x10 ∨ p = 0x11) (hpat : readByte y.c.cur.x2.val.toNat y = .ok p y1)
    (hsrc : readByte y.c.cur.x1.val.toNat y1 = .ok sb y2) (hd : 9 < y.c.cur.editNibble sb) :
    elemEdit mark y = .error (.exc ⟨vDECIMAL_DATA, 0, some y.c.cur.x1.val.toNat, false, false, false⟩) y2 := by
  have hinvalid : (if bit y.c.cur.cnt 63 = true then sb.toNat % 16 else sb.toNat / 16) > 9 := hd
  simp only [elemEdit, op_bind, op_curB, hpat, if_pos hp, hsrc, if_pos hinvalid, op_raiseA]

theorem elemEdit_other (hp : ¬(p = 0x10 ∨ p = 0x11)) (hpat : readByte y.c.cur.x2.val.toNat y = .ok p y1)
    (hst : editOther y.c.cur p = ⟨out, n⟩) (hcheck : checkByte y.c.cur.x2.val.toNat y1 = .ok tg y3)
    (hw : writePieces tg [out] y3 = .ok () z) : elemEdit mark y = .ok false (z.elem 2 fun _ => y.c.cur.editMoved n) := by
  simp only [elemEdit, op_bind, op_curB, hpat, if_neg hp, op_pure, hst, hcheck, hw, modB_changed, addCost_changed]
  rfl

end

/-! The instruction (R111). -/

/-- The bank at the completion of EDIT and EDMK. -/
def Bank.editEnd (b : Bank) : Bank :=
  { b with psw := pswZNV b.psw (!bit b.cnt 62) (bit b.cnt 62 && bit b.cnt 61) false, cnt := 0 }

section
variable {mark : Bool} {f : Bank → Bank} {n : Nat} {y z : Cx} (h1 : y.c.cur.x1.tag = tPTR) (h2 : y.c.cur.x2.tag = tPTR)
  (hp : y.c.cur.acc.tag ≠ tPOISON) (hr : tagReserved y.c.cur.acc.tag = false)
include h1 h2 hp hr

theorem editOp_empty (h : fld y.c.cur.cnt 59 0 = 0) : editOp mark false y = .ok () (y.with 3 Bank.editEnd) := by
  simp only [editOp, op_bind, needCursors_pass h1 fun _ => h2, op_curB, needTag_ok _ _ 0 rfl hp hr, op_pure, h,
    strCount_zero, limited_zero, strLoop, lt_irrefl, if_false, endEdit, modB_changed]
  exact done_changed ..

theorem editOp_one (h : fld y.c.cur.cnt 59 0 ≠ 0) (hlim : y.lim = none ∨ y.lim = some 1)
    (helem : elemEdit mark y = .ok false (z.elem n f)) :
    editOp mark false y = .ok () (z.with (n + 3) fun b => (f b).editEnd) := by
  simp only [editOp, op_bind, needCursors_pass h1 fun _ => h2, op_curB, needTag_ok _ _ 0 rfl hp hr, op_pure,
    strCount_single h, limited_one hlim, strLoop_one helem, lt_irrefl, if_false, endEdit, modB_elem]
  exact done_elem ..

theorem editOp_stops {q : Exc} (h : fld y.c.cur.cnt 59 0 ≠ 0) (hlim : y.lim = none ∨ y.lim = some 1)
    (helem : elemEdit mark y = .error (.exc q) z) : editOp mark false y = .error (.exc q) z := by
  simp only [editOp, op_bind, needCursors_pass h1 fun _ => h2, op_curB, needTag_ok _ _ 0 rfl hp hr, op_pure,
    strCount_single h, limited_one hlim, strLoop, helem]

end

/-! The obligation. -/

section
variable {e : Fin 256} {w x : BitVec 32} {s : State} {mark : Bool}

theorem exec_edit : exec (if mark then .edmk e w x else .edit e w x) s =
    .next (s.runIns e w.toNat (fmtOk .n w.toNat) (editOp mark false)) := by
  cases mark <;> rfl

end

/-- A pattern byte is a digit slot, a forced digit, a field reset, a negative text or another byte (R112). -/
theorem pattern_kinds (p : Byte) : (p = 0x10 ∨ p = 0x11) ∨ p = 0x12 ∨ p = 0x13 ∨ p < 0x10 ∨ 0x13 < p := by
  bv_omega

/-- Settles O35: the end of the instruction, and what each kind of pattern byte does. -/
theorem editInstructions : Obligations.EditInstructions := by
  unfold Obligations.EditInstructions
  intro e w x s mark p sb out tg y1 y2 y3 z n y b i fin fill si rn d shown sign nz digit hi h1 h2 hp hr
  have hb : y.c.cur = b := congrArg Core.cur (start_c s e w.toNat)
  have hlim : y.lim = none ∨ y.lim = some 1 := start_lim s e w.toNat
  rw [← hb] at h1 h2 hp hr
  refine ⟨fun hlen => completes_retires exec_edit hi (editOp_empty h1 h2 hp hr (hb ▸ hlen)),
    fun hlen hpat => ⟨?_, ?_⟩⟩
  all_goals rw [← hb] at hlen hpat
  · intro hdig hsrc hd
    rw [← hb] at hsrc ⊢
    exact completes_raises exec_edit hi (editOp_stops h1 h2 hp hr hlen hlim
      (elemEdit_invalid hdig hpat hsrc (hb ▸ hd))) rfl (show vDECIMAL_DATA ≠ vMACHINE_CHECK by decide)
  · intro hdigit hother hreset htext hchar hcheck hw
    rw [← hb] at hcheck
    have helem : elemEdit mark y = .ok false (z.elem 2 fun _ => b.editMoved n) := by
      rw [← hb]
      by_cases hdig : p = 0x10 ∨ p = 0x11
      · obtain ⟨hsrc, hd, rfl, rfl⟩ := hdigit hdig
        rw [← hb] at hsrc
        exact elemEdit_digit hdig hpat hsrc (hb ▸ hd) (hb ▸ editDigit_eq mark b p sb) hcheck hw
      · have hst : editOther b p = ⟨out, n⟩ := by
          rcases pattern_kinds p with h | rfl | rfl | h
          · exact absurd h hdig
          · obtain ⟨rfl, rfl⟩ := hreset rfl
            exact editOther_reset
          · obtain ⟨rfl, rfl⟩ := htext rfl
            exact editOther_text
          · obtain ⟨rfl, rfl⟩ := hchar h
            exact editOther_char h
        obtain rfl := hother hdig
        exact elemEdit_other hdig hpat (hb ▸ hst) hcheck hw
    exact completes_retires exec_edit hi (editOp_one h1 h2 hp hr hlen hlim helem)

end Sys2Proof.Machine
end

section
/-!
PROOFS. REP (R115): the repeated instruction retires once; and a repeated MVS with CNT = 0, which leaves its bank alone.
-/
namespace Sys2Proof.Machine

/-! The outcome of REP. -/

section
variable {e : Fin 256} {r w x : BitVec 32} {stop : Option Nat} {s : State} {z : Cx}

/-- REP that issues runs the repeated instruction in the context in which the pair starts. -/
theorem exec_rep (hi : s.issues e r.toNat (repOk r.toNat w.toNat) = true) : exec (.rep e r w x stop) s =
    .next ((finishOp e s.free (repBody w.toNat x.toNat (s.repStart e r.toNat w.toNat stop))).postTrace (s.core e) e
      r.toNat (s.stepping e)) := by
  simp only [State.issues, Bool.and_eq_true, Bool.not_eq_true', bne_iff_ne, ne_eq] at hi
  obtain ⟨⟨⟨⟨hissues, hstep⟩, hok⟩, hcond⟩, hholds⟩ := hi
  have hfree := (preTrace_quiet s e).free
  have hc : ((s.preTrace e).startCx e r.toNat (4 + insLen w.toNat)).c = s.core e := (preTrace_quiet s e).core e
  rw [← hc] at hholds
  show execRep e r w x stop s = _
  simp only [execRep, hissues, Bool.not_true, Bool.false_eq_true, if_false, State.around, hstep, hok, hcond, hholds,
    hfree]
  rfl

theorem rep_retires (hi : s.issues e r.toNat (repOk r.toNat w.toNat) = true)
    (hbody : repBody w.toNat x.toNat (s.repStart e r.toNat w.toNat stop) = .ok () z) :
    Completes (.rep e r w x stop) s fun t => Retires s t e z := by
  refine ⟨_, exec_rep hi, ?_⟩
  rw [hbody]
  exact (postTrace_quiet _ _ _ _ _).unit (setCores_unit _ _ _)

theorem repStart_c (s : State) (e r w : Nat) (stop : Option Nat) : (s.repStart e r w stop).c = s.core e :=
  (preTrace_quiet s e).core e

theorem repBody_mvs {n : Nat} (h : fOPC n = 0x60) (k : Nat) : repBody n k = mvsOp true := by
  simp only [repBody, h]

theorem mvsOp_empty {y : Cx} (h1 : y.c.cur.x1.tag = tPTR) (h2 : y.c.cur.x2.tag = tPTR) (hcnt : y.c.cur.cnt = 0) :
    mvsOp true y = done 4 y := by
  rw [mvsOp, op_bind, needCursors_pass h1 fun _ => h2]
  have hn : y.c.cur.cnt.toNat = 0 := by
    rw [hcnt]
    rfl
  simp only [strRun, op_bind, op_curB, hn, strCount_zero, limited_zero, strLoop, op_pure, lt_irrefl, decide_false,
    Bool.and_false, Bool.false_eq_true, if_false]

/-- A repeated MVS with CNT = 0 performs no element (R110): it retires from the context in which it starts. -/
theorem rep_mvs_empty (hi : s.issues e r.toNat (repOk r.toNat w.toNat) = true) (hop : fOPC w.toNat = 0x60)
    (h1 : (s.core e).cur.x1.tag = tPTR) (h2 : (s.core e).cur.x2.tag = tPTR) (hcnt : (s.core e).cur.cnt = 0) :
    let y := s.repStart e r.toNat w.toNat stop
    Completes (.rep e r w x stop) s fun t => Retires s t e { y with cost := y.cost + 3, xcost := y.cost + 3 } := by
  rw [← repStart_c s e r.toNat w.toNat stop] at h1 h2 hcnt
  exact rep_retires hi ((congrFun (repBody_mvs hop _) _).trans (mvsOp_empty h1 h2 hcnt))

end

/-- The bank map of a core that has retired is that of the context in which it retired. -/
theorem retires_banks {s t : State} {e : Nat} {y : Cx} (h : Retires s t e y) : (t.core e).banks = y.c.banks := by
  have hcore := h.1 e
  rw [if_pos (mem_unitCores _ _)] at hcore
  rw [hcore]
  exact (retire_keeps ..).2.2.2

/-! A bank map that holds the bank of level 0 twice. -/

/-- Two cursors, and CNT = 0. -/
def idleCursors : Bank := { Bank.cold with x1 := ⟨0, tPTR⟩, x2 := ⟨0, tPTR⟩ }

/-- A core whose bank map lists the bank of level 0 twice: to read a bank takes the first, to write one removes both. -/
def twiceListed : Core := { Core.cold with banks := [(0, idleCursors), (0, idleCursors)] }

/-- The device after reset with that core as core 0. -/
def State.repIdle : State := { State.reset with cores := [(0, twiceListed)] }

theorem twiceListed_rewritten : (twiceListed.setCur twiceListed.cur).banks ≠ twiceListed.banks := by decide

/-- The first word of REP without a condition. -/
def repWord : BitVec 32 := 0x00C00000

/-- The word of MVS. -/
def mvsWord : BitVec 32 := 0x06000000

theorem repIdle_issues : State.repIdle.issues 0 repWord.toNat (repOk repWord.toNat mvsWord.toNat) = true := by
  decide +kernel

theorem repIdle_lim : (State.repIdle.repStart 0 repWord.toNat mvsWord.toNat none).lim = none := by decide +kernel

/-- Refutes O36: the clause on a repeated MVS with CNT elements to go says that its bank is written at its end. With CNT = 0 no
bank is written, and a bank map that lists the bank of level 0 twice, which a write would cut to one, is kept. -/
theorem not_repeatedInstructions : ¬ Obligations.RepeatedInstructions := by
  unfold Obligations.RepeatedInstructions
  intro h
  obtain ⟨-, -, hrep, -⟩ := h 0 repWord mvsWord 0 none State.repIdle
    (State.repIdle.repStart 0 repWord.toNat mvsWord.toNat none) repIdle_issues
  obtain ⟨t, hexec, hwritten⟩ := hrep rfl rfl rfl repIdle_lim rfl
  obtain ⟨u, hexec', hkept⟩ := rep_mvs_empty (e := 0) (r := repWord) (w := mvsWord) (x := 0) (stop := none)
    repIdle_issues rfl rfl rfl rfl
  rw [hexec] at hexec'
  cases hexec'
  exact twiceListed_rewritten ((retires_banks hwritten).symm.trans (retires_banks hkept))

end Sys2Proof.Machine
end

section
/-!
PROOFS. Integer arithmetic (R121 to R124): what an instruction on ACC and a word, and a division, make of the bank.
-/
namespace Sys2Proof.Machine

/-! The word operand. -/

/-- Control space reads as RAW (R533). -/
theorem readTarget_ctl_tag {off va : Nat} {x z : Cx} {v : TWord} (h : readTarget (.ctl off) va x = .ok v z) :
    v.tag = tRAW := by
  simp only [readTarget, op_bind, op_cx, op_set] at h
  generalize (x.s.setCores (x.s.unitCores x.e) x.c).ctlRead x.e off = r at h
  obtain ⟨t, _ | q⟩ := r
  · cases h
  · cases h
    rfl

/-- A word with another tag than RAW was read outside control space, which keeps the core but for translations. -/
theorem loadWord_reads {va : Nat} {x z : Cx} {v : TWord} (h : loadWord va x = .ok v z) (hv : v.tag ≠ tRAW) :
    x.Reads z := by
  obtain ⟨tg, y, -, haccess, hread, -, -⟩ := loadWord_steps h
  have hctl (off : Nat) : tg ≠ .ctl off := by
    rintro rfl
    exact hv (readTarget_ctl_tag hread)
  rw [readTarget_eq hctl] at hread
  exact ((within_access _ _ _).ok haccess).trans ((within_targetWord _ _ _).ok hread)

theorem memOperand_cur {w x : BitVec 32} {y z : Cx} {v : TWord} (h : memOperand w x y = .ok v z) (hv : v.tag ≠ tRAW) :
    z.c.cur = y.c.cur := by
  obtain ⟨ea, y', hea, hload⟩ := op_bind_ok h
  cases formEa_ok hea
  rw [(loadWord_reads hload hv).1]
  rfl

theorem memOperandTag_int {w x : BitVec 32} {y z : Cx} {v : TWord} (h : memOperand w x y = .ok v z) (hv : v.tag = tINT) :
    memOperandTag w x (· == tINT) y = .ok v z :=
  memOperandTag_ok (ok := (· == tINT)) h (beq_iff_eq.mpr hv)

/-! The flags of a sum and of a difference (R121). -/

theorem addPsw_eq (p a b : Word) : addPsw p a b = pswZNCV p (decide (a + b = 0)) (a + b).msb
    (decide (2 ^ 64 ≤ a.toNat + b.toNat)) (decide (a.toInt + b.toInt < -2 ^ 63 ∨ 2 ^ 63 ≤ a.toInt + b.toInt)) := by
  rw [addPsw, bit_sign, addV_iff]
  rfl

theorem subPsw_eq (p a b : Word) : subPsw p a b = pswZNCV p (decide (a - b = 0)) (a - b).msb
    (decide (a.toNat < b.toNat)) (decide (a.toInt - b.toInt < -2 ^ 63 ∨ 2 ^ 63 ≤ a.toInt - b.toInt)) := by
  rw [subPsw, bit_sign, subV_iff]
  rfl

/-! ADD, SUB, MUL, MULU and CMP. -/

section
variable {c : Instr} {e : Fin 256} {w x : BitVec 32} {f : Bank → Word → Bank} {g : Bank → Bank} {s : State} {v : TWord}
  {z : Cx} {n : Nat}

/-- An instruction on ACC and a word, both INT, makes f of the bank and the word. -/
theorem intIns_retires (hexec : exec c s = .next (intIns e w x (n + 1) f s))
    (hi : s.issues e w.toNat (fmtOk .m w.toNat) = true) (hop : memOperand w x (s.start e w.toNat) = .ok v z)
    (hv : v.tag = tINT) (hacc : (s.core e).cur.acc.tag = tINT) (hf : f (z.c.cur.based w.toNat 8) v.val = g z.c.cur) :
    Completes c s fun t => Retires s t e (z.with n g) := by
  refine completes_retires hexec hi ?_
  simp only [op_bind, op_curB, start_c, hacc, beq_self_eq_true, needTag_int, op_pure, memOperandTag_int hop hv,
    baseUpdate, modB_changed, changed_changed, done_changed]
  rw [Cx.with, hf]
  rfl

/-- A multiplication leaves the halves of the product m in AEX and ACC (R122). -/
theorem product_retires {m : Int} {wide : Bool} (hexec : exec c s = .next (intIns e w x 5 f s))
    (hi : s.issues e w.toNat (fmtOk .m w.toNat) = true) (hop : memOperand w x (s.start e w.toNat) = .ok v z)
    (hv : v.tag = tINT) (hacc : (s.core e).cur.acc.tag = tINT)
    (hf : f (z.c.cur.based w.toNat 8) v.val = mulBank (z.c.cur.based w.toNat 8) m wide) :
    Completes c s fun t => ∃ hi lo q, Retires s t e (z.with 4 fun b =>
        { b.based w.toNat 8 with aex := ⟨hi, tINT⟩, acc := ⟨lo, tINT⟩, psw := q }) ∧
      (hi ++ lo : BitVec 128) = BitVec.ofInt 128 m ∧
      q = pswZNCV z.c.cur.psw (decide (m = 0)) hi.msb wide wide := by
  obtain ⟨t, hnext, hret⟩ := intIns_retires hexec hi hop hv hacc (g := fun b => mulBank (b.based w.toNat 8) m wide) hf
  refine ⟨t, hnext, _, _, _, hret, halves_append _, ?_⟩
  rw [based_psw, bit_sign]
  rfl

/-- CMP sets the flags of the difference of ACC and the word and writes no register (R121). -/
theorem cmp_retires (hi : s.issues e w.toNat (fmtOk .m w.toNat) = true)
    (hop : memOperand w x (s.start e w.toNat) = .ok v z) (hsame : v.tag = (s.core e).cur.acc.tag)
    (hv : v.tag = tINT ∨ v.tag = tPTR) :
    Completes (.cmp e w x) s fun t => Retires s t e (z.with 1 fun b =>
      { b.based w.toNat 8 with psw := subPsw z.c.cur.psw z.c.cur.acc.val v.val }) := by
  refine completes_retires rfl hi ?_
  have hop' := memOperandTag_ok (ok := (· == (s.core e).cur.acc.tag)) hop (beq_iff_eq.mpr hsame)
  have hacc : needTag (s.core e).cur.acc.tag ((s.core e).cur.acc.tag == tINT || (s.core e).cur.acc.tag == tPTR) 0 =
      pure () := by
    rw [← hsame]
    rcases hv with hv | hv <;> rw [hv] <;> rfl
  have hcur : z.c.cur = (s.core e).cur := by
    rw [memOperand_cur hop (by rcases hv with hv | hv <;> rw [hv] <;> decide), start_c]
  simp only [op_bind, op_curB, start_c, hacc, op_pure, hop', baseUpdate, modB_changed, changed_changed, done_changed,
    Cx.with, based_psw, hcur]

end

/-- Settles O12: the four instructions on INT operands by the lemmas on what they make of the bank, then CMP. -/
theorem integerArithmetic : Obligations.IntegerArithmetic := by
  unfold Obligations.IntegerArithmetic
  intro e w x s v z hi hop hsame a p m u wide added taken
  refine ⟨fun hv => ?_, fun hv => ?_⟩
  · have hacc : (s.core e).cur.acc.tag = tINT := hsame.symm.trans hv
    refine ⟨intIns_retires rfl hi hop hv hacc ?_, intIns_retires rfl hi hop hv hacc ?_,
      product_retires rfl hi hop hv hacc ?_, ?_⟩
    · simp only [addBank, based_acc, based_psw, addPsw_eq]
      rfl
    · simp only [subBank, based_acc, based_psw, subPsw_eq]
      rfl
    · simp only [based_acc]
      rfl
    · have hmulu := product_retires (c := .mulu e w x) (m := (u : Int)) (wide := decide (2 ^ 64 ≤ u)) rfl hi hop hv hacc
        (by simp only [based_acc]; norm_cast)
      simpa only [BitVec.ofInt_natCast, Nat.cast_eq_zero] using hmulu
  · have hcmp := cmp_retires hi hop hsame hv
    rw [subPsw_eq] at hcmp
    exact hcmp

/-! DIV and DIVU. -/

theorem dividend_eq (b : Bank) : dividend b = (b.aex.val ++ b.acc.val).toNat := by
  rw [BitVec.toNat_append, ← Nat.shiftLeft_add_eq_or_of_lt b.acc.val.isLt, Nat.shiftLeft_eq]
  rfl

section
variable {c : Instr} {e : Fin 256} {w x : BitVec 32} {f : Bank → Word → Bank} {g : Bank → Bank} {s : State} {v : TWord}
  {z : Cx}

/-- A zero divisor raises DIVIDE_BY_ZERO at the end of the full time (R124). -/
theorem divIns_raises (hexec : exec c s = .next (divIns e w x f s))
    (hi : s.issues e w.toNat (fmtOk .m w.toNat) = true) (hop : memOperand w x (s.start e w.toNat) = .ok v z)
    (hv : v.tag = tINT) (hacc : (s.core e).cur.acc.tag = tINT) (haex : (s.core e).cur.aex.tag = tINT) (hzero : v.val = 0) :
    Completes c s fun t => Raises s t e { z with cost := z.cost + 67, xcost := z.cost + 67 }
      ⟨vDIVIDE_BY_ZERO, 0, none, false, false, false⟩ := by
  refine completes_raises hexec hi ?_ rfl (by decide)
  simp only [op_bind, op_curB, start_c, hacc, haex, beq_self_eq_true, needTag_int, op_pure, memOperandTag_int hop hv,
    op_done, hzero, if_true, op_raiseV]

/-- A division by another divisor makes f of the bank and the divisor (R123). -/
theorem divIns_retires (hexec : exec c s = .next (divIns e w x f s))
    (hi : s.issues e w.toNat (fmtOk .m w.toNat) = true) (hop : memOperand w x (s.start e w.toNat) = .ok v z)
    (hv : v.tag = tINT) (hacc : (s.core e).cur.acc.tag = tINT) (haex : (s.core e).cur.aex.tag = tINT) (hne : v.val ≠ 0)
    (hf : f (z.c.cur.based w.toNat 8) v.val = g z.c.cur) :
    Completes c s fun t => Retires s t e (z.with 67 g) := by
  refine completes_retires hexec hi ?_
  simp only [op_bind, op_curB, start_c, hacc, haex, beq_self_eq_true, needTag_int, op_pure, memOperandTag_int hop hv,
    op_done, if_neg hne, baseUpdate, modB_changed, changed_changed]
  rw [Cx.changed, hf]
  rfl

end

/-- The bank after a division whose quotient fits (R123). -/
theorem divBank_fits (b : Bank) (q r : Int) : divBank b q r true =
    { b with acc := ⟨ofInt q, tINT⟩, aex := ⟨ofInt r, tINT⟩,
             psw := pswZNV b.psw (decide (ofInt q = 0)) (ofInt q).msb false } := by
  rw [divBank, if_pos rfl, bit_sign]
  rfl

/-- The bank after a division whose quotient does not fit (R124). -/
theorem divBank_overflows (b : Bank) (q r : Int) : divBank b q r false = { b with psw := setBit b.psw 3 true } := rfl

/-- Settles O13: a zero divisor, then for each signedness a quotient that fits and one that does not. -/
theorem integerDivision : Obligations.IntegerDivision := by
  unfold Obligations.IntegerDivision
  intro e w x s v z hi hop hv hacc haex n p q qu
  have hsigned : sext 128 (dividend (z.c.cur.based w.toNat 8)) = n.toInt := by
    rw [dividend, based_aex, based_acc]
    exact sext_append _ _
  have hunsigned : dividend (z.c.cur.based w.toNat 8) = n.toNat := by
    rw [dividend_eq, based_aex, based_acc]
  refine ⟨fun hzero => ?_, fun hne => ⟨fun hfit => ?_, fun hover => ?_, fun hfit => ?_, fun hover => ?_⟩⟩
  · simp only [List.forall_mem_cons, List.not_mem_nil, false_imp_iff, implies_true, and_true]
    exact ⟨divIns_raises rfl hi hop hv hacc haex hzero, divIns_raises rfl hi hop hv hacc haex hzero⟩
  · refine divIns_retires rfl hi hop hv hacc haex hne ?_
    simp only [hsigned]
    rw [decide_eq_true hfit, divBank_fits, based_psw]
  · refine divIns_retires rfl hi hop hv hacc haex hne ?_
    simp only [hsigned]
    rw [decide_eq_false hover, divBank_overflows, based_psw]
  · refine divIns_retires rfl hi hop hv hacc haex hne ?_
    simp only [hunsigned]
    rw [decide_eq_true hfit, divBank_fits, based_psw]
  · refine divIns_retires rfl hi hop hv hacc haex hne ?_
    simp only [hunsigned]
    rw [decide_eq_false (Nat.not_lt.mpr hover), divBank_overflows, based_psw]

end Sys2Proof.Machine
end

section
/-!
PROOFS. Floating point, first part: the checks of an instruction, and the arithmetic instructions (R127, R130, R136, R171).
-/
namespace Sys2Proof.Machine

/-! The steps of a floating-point instruction. -/

theorem fpTag_carried (f : Nat) : fpTag f ≠ tPOISON ∧ tagReserved (fpTag f) = false := by
  unfold fpTag
  split <;> decide

section
variable {f : Nat} {x : Cx}

theorem rmCheck_pass (h : fld x.c.cur.psw 34 32 ≤ 4) : rmCheck x = .ok () x := by
  simp only [rmCheck, rmNow, op_bind, op_curB, op_pure, if_neg (Nat.not_lt.mpr h)]

theorem FpReady.rmCheck (h : FpReady f x.c.cur) : rmCheck x = .ok () x := rmCheck_pass h.1

theorem FpReady.fpFirstTags (h : FpReady f x.c.cur) : fpFirstTags f x = .ok () x := by
  obtain ⟨-, hacc, haex⟩ := h
  obtain ⟨hpoison, hreserved⟩ := fpTag_carried f
  simp only [Machine.fpFirstTags, op_bind, op_curB, hacc, needTag_ok _ _ _ (beq_self_eq_true _) hpoison hreserved, op_pure]
  split
  next hf => rw [haex hf]; rfl
  next => rfl

end

@[simp] theorem cur_orFlags (c : Core) (fl : FFlags) : (c.orFlags fl).cur = c.cur := by
  unfold Core.orFlags
  split <;> rfl

@[simp] theorem op_fpFlags (fl : FFlags) (x : Cx) : fpFlags fl x = .ok () { x with c := x.c.orFlags fl } := by
  cases fl <;> rfl

@[simp] theorem op_fpPut (f : Nat) (v : FV) (x : Cx) : fpPut f v x = .ok () (x.changed (Bank.putFp f v)) := rfl

@[simp] theorem op_rmNow (x : Cx) : rmNow x = .ok (fld x.c.cur.psw 34 32) x := rfl

@[simp] theorem op_feBit (i : Nat) (x : Cx) : feBit i x = .ok (bit x.c.cur.psw i) x := rfl

theorem done_changed_pred (n : Nat) (z : Cx) (f : Bank → Bank) : done n (z.changed f) = .ok () (z.with (n - 1) f) := rfl

/-- The exact result: the first NaN among the operands, or else the result r of the operation (R136). -/
def nanOr (vs : List FV) (r : Exact) : Exact :=
  match firstNan vs with
  | some v => .special v false false
  | none => r

/-- An arithmetic instruction once its memory operands ms are read. -/
def fpFinish (w f n : Nat) (op : Nat → List FV → Exact) (row : List Nat) (ms : List FV) : Op Unit := do
  extUse false
  let a := fpDecode f (fpFirstBits f (← curB))
  let (vs, fl) ← fpOperands f (a :: ms) false
  let rm ← rmNow
  let (v, fl2) ← fpRound f (nanOr vs (op rm vs))
  fpFlags (fl ++ fl2)
  fpPut f v
  if n ≠ 0 then baseUpdate w (fpWidth f)
  done (fpCost row f)

theorem fpArith_eq (w x f n : Nat) (op : Nat → List FV → Exact) (row : List Nat) : fpArith w x f n op row = (do
    rmCheck
    fpFirstTags f
    if n = 0 then fpFinish w f n op row [] else fpMem w x f n >>= fpFinish w f n op row) := rfl

section
variable {c : Instr} {e : Fin 256} {w x : BitVec 32} {s : State} {fm : Fmt} {f n : Nat} {op : Nat → List FV → Exact}
  {row : List Nat} {ms vs : List FV} {fl fl' : FFlags} {v : FV} {y1 y2 y3 z : Cx}

/-- The result is written, the flags are ORed into CORE_FPSR (R130), and a base register is updated where there are
memory operands (R77). -/
theorem fpFinish_ok {w : Nat} (huse : extUse false y1 = .ok () y2)
    (hopd : fpOperands f (fpDecode f (fpFirstBits f y2.c.cur) :: ms) false y2 = .ok (vs, fl) y3)
    (hround : fpRound f (nanOr vs (op (fld y3.c.cur.psw 34 32) vs)) y3 = .ok (v, fl') z) :
    fpFinish w f n op row ms y1 = .ok () ({ z with c := z.c.orFlags (fl ++ fl') }.with (fpCost row f - 1) fun b =>
      if n = 0 then b.putFp f v else (b.putFp f v).based w (fpWidth f)) := by
  simp only [fpFinish, op_bind, huse, op_curB, hopd, op_rmNow, hround, op_fpFlags, op_fpPut]
  by_cases hn : n = 0
  · simp only [hn, ne_eq, not_true_eq_false, if_false, if_true]
    rfl
  · simp only [hn, ne_eq, not_false_eq_true, if_true, if_false, op_bind, baseUpdate, modB_changed, changed_changed]
    rfl

/-- An arithmetic instruction whose operation gives r writes r, rounded, and the flags of its conditions. -/
theorem fpArith_retires {r : Exact}
    (hexec : exec c s = .next (s.runIns e w.toNat (fmtOk fm w.toNat) (fpArith w.toNat x.toNat f n op row)))
    (hr : op (fld y3.c.cur.psw 34 32) vs = r)
    (hready : FpReady f (s.core e).cur) (huse : extUse false y1 = .ok () y2)
    (hopd : fpOperands f (fpDecode f (fpFirstBits f y2.c.cur) :: ms) false y2 = .ok (vs, fl) y3)
    (hi : s.issues e w.toNat (fmtOk fm w.toNat) = true) (hnone : n = 0 → ms = [] ∧ y1 = s.start e w.toNat)
    (hmem : n ≠ 0 → fpMem w.toNat x.toNat f n (s.start e w.toNat) = .ok ms y1)
    (hround : fpRound f (nanOr vs r) y3 = .ok (v, fl') z) :
    Completes c s fun t => Retires s t e ({ z with c := z.c.orFlags (fl ++ fl') }.with (fpCost row f - 1) fun b =>
      if n = 0 then b.putFp f v else (b.putFp f v).based w.toNat (fpWidth f)) := by
  subst hr
  refine completes_retires hexec hi ?_
  rw [← start_c s e w.toNat] at hready
  simp only [fpArith_eq, op_bind, hready.rmCheck, hready.fpFirstTags]
  have hfinish := fpFinish_ok (w := w.toNat) (n := n) (row := row) huse hopd hround
  by_cases hn : n = 0
  · obtain ⟨rfl, rfl⟩ := hnone hn
    rw [if_pos hn]
    exact hfinish
  · rw [if_neg hn, op_bind, hmem hn]
    exact hfinish

end

/-- Settles O39: the six instructions by the lemma on an arithmetic instruction. -/
theorem floatArithmetic : Obligations.FloatArithmetic := by
  unfold Obligations.FloatArithmetic
  intro e w x s ms vs fl fl' v y1 y2 y3 z y f F a rm o hready huse hopd
  iterate 5 refine List.forall_mem_cons.mpr ⟨fpArith_retires rfl rfl hready huse hopd, ?_⟩
  exact List.forall_mem_singleton.mpr (fpArith_retires rfl rfl hready huse hopd)

end Sys2Proof.Machine
end

section
/-!
PROOFS. Floating point, second part: comparisons, signs and conversions (R127, R129, R137, R138).
-/
namespace Sys2Proof.Machine

/-! Comparisons (R138). -/

theorem setBit_comm (w : Word) {i j : Nat} (b d : Bool) (hij : i ≠ j) (hi : i < 64) (hj : j < 64) :
    setBit (setBit w i b) j d = setBit (setBit w j d) i b := by
  refine BitVec.eq_of_getLsbD_eq fun k hk => ?_
  change bit _ k = bit _ k
  rw [bit_setBit _ _ _ _ hj hk, bit_setBit _ _ _ _ hi hk, bit_setBit _ _ _ _ hi hk, bit_setBit _ _ _ _ hj hk]
  by_cases hki : k = i
  · rw [if_neg (fun h => hij (hki.symm.trans h)), if_pos hki, if_pos hki]
  · rw [if_neg hki, if_neg hki]

/-- The bank with the flags of the relation q: Z, N, C or V. -/
def Bank.related (q : FRel) (b : Bank) : Bank :=
  { b with psw := pswZNCV b.psw (decide (q = .eq)) (decide (q = .lt)) (decide (q = .gt)) (decide (q = .un)) }

theorem relFlags_changed (q : FRel) (x : Cx) : relFlags q x = .ok () (x.changed (Bank.related q)) := by
  have hflags (z n c v : Bool) : relFlags.flags z n c v x =
      .ok () (x.changed fun b => { b with psw := pswZNCV b.psw z n c v }) := by
    simp only [relFlags.flags, modB_changed, pswZNCV, pswZNV, pswZN,
      setBit_comm _ c v (by decide : 2 ≠ 3) (by decide) (by decide)]
  cases q <;> exact hflags _ _ _ _

section
variable {c : Instr} {e : Fin 256} {w x : BitVec 32} {s : State} {ms vs : List FV} {fl fl' : FFlags} {v : FV}
  {y1 y2 y3 z : Cx}

/-- A comparison sets the flags of its relation, and of its conditions, and updates a base register. -/
theorem fpCompare_retires {anyNan : Bool}
    (hexec : exec c s = .next (s.runIns e w.toNat (fmtOk .m w.toNat) (fpCompare w.toNat x.toNat anyNan)))
    (hi : s.issues e w.toNat (fmtOk .m w.toNat) = true) (hready : FpReady (fpF w.toNat) (s.core e).cur)
    (hmem : fpMem w.toNat x.toNat (fpF w.toNat) 1 (s.start e w.toNat) = .ok ms y1) (huse : extUse false y1 = .ok () y2)
    (hopd : fpOperands (fpF w.toNat) (fpDecode (fpF w.toNat) (fpFirstBits (fpF w.toNat) y2.c.cur) :: ms) anyNan y2 =
      .ok (vs, fl) z) :
    let q := fCmp (FFmt.of (fpF w.toNat)).radix (opd vs 0) (opd vs 1)
    Completes c s fun t => Retires s t e ({ z with c := z.c.orFlags fl }.with (fpCost [5, 5, 11, 17] (fpF w.toNat) - 1)
      fun b => (b.related q).based w.toNat (fpWidth (fpF w.toNat))) := by
  refine completes_retires hexec hi ?_
  rw [← start_c s e w.toNat] at hready
  simp only [fpCompare, op_bind, hready.rmCheck, hready.fpFirstTags, hmem, huse, op_curB, hopd, op_fpFlags, relFlags_changed,
    baseUpdate, modB_changed, changed_changed, done_changed_pred]

/-! The sign (R127). -/

/-- The bank with the sign bit of the value of format f in ACC or AEX:ACC replaced by what g gives for it. -/
def Bank.signed (f : Nat) (g : Bool → Bool) (b : Bank) : Bank :=
  if f = 0 then { b with acc := ⟨setBit (setFld b.acc.val 63 32 0) 31 (g (bit b.acc.val 31)), tBFP⟩ }
  else if f = 3 then { b with aex := ⟨setBit b.aex.val 63 (g (bit b.aex.val 63)), tDFP⟩ }
  else { b with acc := ⟨setBit b.acc.val 63 (g (bit b.acc.val 63)), b.acc.tag⟩ }

/-- FNEG and FABS raise no condition and touch the sign alone. -/
theorem fpSign_retires {g : Bool → Bool}
    (hexec : exec c s = .next (s.runIns e w.toNat (fmtOk .n w.toNat) (fpSign w.toNat g)))
    (hi : s.issues e w.toNat (fmtOk .n w.toNat) = true) (hready : FpReady (fpF w.toNat) (s.core e).cur)
    (huse : extUse false (s.start e w.toNat) = .ok () z) :
    Completes c s fun t => Retires s t e (z.with 0 (Bank.signed (fpF w.toNat) g)) := by
  refine completes_retires hexec hi ?_
  rw [← start_c s e w.toNat] at hready
  simp only [fpSign, op_bind, hready.rmCheck, hready.fpFirstTags, huse, modB_changed, done_changed]
  rw [Cx.with, Cx.with, Bank.signed]
  rcases fpF w.toNat with _ | _ | _ | _ | f <;> rfl

/-! Conversions (R127, R137). -/

/-- FCVTI where no trap is enabled for a condition present. -/
theorem fcvti_retires {i : Word × Bool × Bool} (hi : s.issues e w.toNat (fmtOk .n w.toNat) = true)
    (hready : FpReady (fpF w.toNat) (s.core e).cur) (huse : extUse false (s.start e w.toNat) = .ok () y2)
    (hopd : fpOperands (fpF w.toNat) [fpDecode (fpF w.toNat) (fpFirstBits (fpF w.toNat) y2.c.cur)] false y2 = .ok (vs, fl) z)
    (hint : toInteger (FFmt.of (fpF w.toNat)).radix (fld z.c.cur.psw 34 32) (opd vs 0) = i)
    (hinv : i.2.1 = true → bit z.c.cur.psw 31 = false) (hix : i.2.2 = true → bit z.c.cur.psw 27 = false) :
    Completes (.fcvti e w x) s fun t => Retires s t e
      ({ z with c := z.c.orFlags (fl ++ (if i.2.1 then [fsIV] else []) ++ if i.2.2 then [fsNX] else []) }.with
        (fpCost [5, 5, 13, 13] (fpF w.toNat) - 1) fun b => { b with acc := ⟨i.1, tINT⟩ }) := by
  refine completes_retires rfl hi ?_
  rw [← start_c s e w.toNat] at hready
  simp only [op_bind, hready.rmCheck, hready.fpFirstTags, huse, op_curB, hopd, op_rmNow, hint, op_feBit,
    Bool.and_eq_false_imp.mpr hinv, Bool.and_eq_false_imp.mpr hix, Bool.false_eq_true, if_false, op_fpFlags, modB_changed,
    done_changed_pred]

/-- What FCVT into format f rounds: a NaN with the payload that the conversion gives, or the value (R137). -/
def convExact (f : Nat) (v : FV) : Exact :=
  match v with
  | .nan n _ p => .special (.nan n false (convPayload f p)) false false
  | v => fConv v

/-- FCVT into format f. -/
def fpConvert (f : Nat) : Op Unit := do
  rmCheck
  fpFirstTags (convSource f)
  extUse false
  let a := fpDecode (convSource f) (fpFirstBits (convSource f) (← curB))
  let (vs, fl) ← fpOperands (convSource f) [a] false
  let (v, fl2) ← fpRound f (convExact f (opd vs 0))
  fpFlags (fl ++ fl2)
  fpPut f v
  done (fpCost [5, 5, 13, 13] f)

theorem exec_fcvt : exec (.fcvt e w x) s =
    .next (s.runIns e w.toNat (fmtOk .n w.toNat) (fpConvert (fpF w.toNat))) := rfl

theorem fcvt_retires (hi : s.issues e w.toNat (fmtOk .n w.toNat) = true)
    (hready : FpReady (convSource (fpF w.toNat)) (s.core e).cur) (huse : extUse false (s.start e w.toNat) = .ok () y2)
    (hopd : fpOperands (convSource (fpF w.toNat))
      [fpDecode (convSource (fpF w.toNat)) (fpFirstBits (convSource (fpF w.toNat)) y2.c.cur)] false y2 = .ok (vs, fl) y3)
    (hround : fpRound (fpF w.toNat) (convExact (fpF w.toNat) (opd vs 0)) y3 = .ok (v, fl') z) :
    Completes (.fcvt e w x) s fun t => Retires s t e ({ z with c := z.c.orFlags (fl ++ fl') }.with
      (fpCost [5, 5, 13, 13] (fpF w.toNat) - 1) (Bank.putFp (fpF w.toNat) v)) := by
  refine completes_retires exec_fcvt hi ?_
  rw [← start_c s e w.toNat] at hready
  simp only [fpConvert, op_bind, hready.rmCheck, hready.fpFirstTags, huse, op_curB, hopd, hround, op_fpFlags, op_fpPut,
    done_changed_pred]

theorem fcvtf_retires (hi : s.issues e w.toNat (fmtOk .n w.toNat) = true) (hacc : (s.core e).cur.acc.tag = tINT)
    (hrm : fld (s.core e).cur.psw 34 32 ≤ 4) (huse : extUse false (s.start e w.toNat) = .ok () y2)
    (hcur : (s.core e).cur = y2.c.cur)
    (hround : fpRound (fpF w.toNat) (if y2.c.cur.acc.val.toInt = 0 then .zero false 0
      else .rat (decide (y2.c.cur.acc.val.toInt < 0)) y2.c.cur.acc.val.toInt.natAbs 1 0 0) y2 = .ok (v, fl) z) :
    Completes (.fcvtf e w x) s fun t => Retires s t e ({ z with c := z.c.orFlags fl }.with
      (fpCost [5, 5, 13, 13] (fpF w.toNat) - 1) (Bank.putFp (fpF w.toNat) v)) := by
  refine completes_retires rfl hi ?_
  rw [← start_c s e w.toNat] at hrm
  rw [← hcur] at hround
  simp only [op_bind, rmCheck_pass hrm, op_curB, start_c, hacc, beq_self_eq_true, needTag_int, op_pure, huse, hround,
    op_fpFlags, op_fpPut, done_changed_pred]

end

/-- Settles O40: each kind of instruction by its own lemma. -/
theorem floatCompareAndConvert : Obligations.FloatCompareAndConvert := by
  unfold Obligations.FloatCompareAndConvert
  intro e w x s ms vs fl fl' v y1 y2 y3 z y f g cost rel i n
  refine ⟨?_, fun hi => ⟨fun hready huse => ?_, fun hready huse hopd => fcvti_retires hi hready huse hopd rfl,
    fun hready huse hopd hround => fcvt_retires hi hready huse hopd hround, fcvtf_retires hi⟩⟩
  · exact List.forall_mem_cons.mpr ⟨fpCompare_retires rfl, List.forall_mem_singleton.mpr (fpCompare_retires rfl)⟩
  · exact List.forall_mem_cons.mpr ⟨fpSign_retires (g := not) rfl hi hready huse,
      List.forall_mem_singleton.mpr (fpSign_retires (g := fun _ => false) rfl hi hready huse)⟩

end Sys2Proof.Machine
end

section
/-!
PROOFS. The instruction reference, first part: LD and LDE, the shifts and LEA (R158), and the register instructions (R151,
R159, R160).
-/
namespace Sys2Proof.Machine

theorem done_one_changed (z : Cx) (f : Bank → Bank) : done 1 (z.changed f) = .ok () (z.with 0 f) := done_changed z f 0

/-! Loads, shifts and LEA. -/

section
variable {c : Instr} {e : Fin 256} {w x : BitVec 32} {s : State}

/-- A word load leaves the word, with its tag, where put says. -/
theorem loadIns_retires {put : Bank → TWord → Bank} {v : TWord} {z : Cx} (hexec : exec c s = .next (loadIns e w x put s))
    (hi : s.issues e w.toNat (fmtOk .m w.toNat) = true) (hop : memOperand w x (s.start e w.toNat) = .ok v z) :
    Completes c s fun t => Retires s t e (z.with 1 fun b => put (b.based w.toNat 8) v) := by
  refine completes_retires hexec hi ?_
  simp only [op_bind, hop, baseUpdate, modB_changed, changed_changed, done_changed]

/-- Settles O10: both loads by the lemma on all word loads. -/
theorem wordLoads : Obligations.WordLoads := by
  unfold Obligations.WordLoads
  intro e w x s v z hi hop
  exact ⟨loadIns_retires (put := fun b v => { b with acc := v }) rfl hi hop,
    loadIns_retires (put := fun b v => { b with aex := v }) rfl hi hop⟩

theorem logicTag_self {t : Tag} (h : t = tRAW ∨ t = tINT) : logicTag t t = t := by
  rcases h with rfl | rfl <;> rfl

/-- The context after a shift by k that gives r, with the last bit shifted out (R158). -/
def Cx.shifted (y : Cx) (k : Nat) (r : Word) (out : Bool) : Cx :=
  y.with 0 fun b => { b with acc := ⟨r, y.c.cur.acc.tag⟩,
                             psw := pswZNCV b.psw (decide (r = 0)) r.msb (decide (k ≠ 0) && out) false }

/-- A shift of an ACC tagged RAW or INT by the low six bits of the address. -/
theorem shiftIns_retires {f : Word → Nat → Word × Bool} {ea : Nat} (hexec : exec c s = .next (shiftIns e w x f s))
    (hi : s.issues e w.toNat (fmtOk .a w.toNat) = true)
    (hea : formA w.toNat (dispOf w.toNat x.toNat) (s.start e w.toNat) = .ok ea (s.start e w.toNat))
    (ha : (s.core e).cur.acc.tag = tRAW ∨ (s.core e).cur.acc.tag = tINT) :
    Completes c s fun t => Retires s t e ((s.start e w.toNat).shifted (ea % 64)
      (f (s.core e).cur.acc.val (ea % 64)).1 (f (s.core e).cur.acc.val (ea % 64)).2) := by
  rw [← start_c s e w.toNat] at ha ⊢
  refine completes_retires hexec hi ?_
  simp only [op_bind, op_curB, needTag_rawInt ha, op_pure, hea, logicTag_self ha, bit_sign, modB_changed,
    done_one_changed, bne]
  simp only [beq_eq_decide, ← decide_not]
  rfl

theorem lea_retires {ea : Nat} (hi : s.issues e w.toNat (fmtOk .a w.toNat) = true)
    (hea : formA w.toNat (dispOf w.toNat x.toNat) (s.start e w.toNat) = .ok ea (s.start e w.toNat)) :
    Completes (.lea e w x) s fun t =>
      Retires s t e ((s.start e w.toNat).with 0 fun b => { b with acc := ⟨BitVec.ofNat 64 ea, tPTR⟩ }) := by
  refine completes_retires rfl hi ?_
  simp only [op_bind, hea, modB_changed, done_one_changed]

end

/-- Settles O15: LEA, and the three shifts by the lemma on all shifts. -/
theorem shiftsAndAddressLoad : Obligations.ShiftsAndAddressLoad := by
  unfold Obligations.ShiftsAndAddressLoad
  intro e w x s ea y a k hi hea
  refine ⟨lea_retires hi hea, fun ha => ?_⟩
  have hshift {c : Instr} {f : Word → Nat → Word × Bool} (hexec : exec c s = .next (shiftIns e w x f s)) :=
    shiftIns_retires hexec hi hea ha
  dsimp only [a]
  rw [← start_c s e w.toNat]
  rw [← start_c s e w.toNat] at hshift
  exact ⟨hshift (f := fun a k => (a <<< k, bit a (64 - k))) rfl, hshift (f := fun a k => (a >>> k, bit a (k - 1))) rfl,
    hshift (f := fun a k => (a.sshiftRight k, bit a (k - 1))) rfl⟩

/-! NOP, MOV, LDI, XADD, XSUB and XCMP. -/

/-- A further decode check that passes. -/
theorem issues_and {s : State} {e w : Nat} {ok more : Bool} (hi : s.issues e w ok = true) (h : more = true) :
    s.issues e w (ok && more) = true := by
  rwa [h, Bool.and_true]

theorem flagsZN_changed (z n : Bool) (x : Cx) :
    flagsZN z n x = .ok () (x.changed fun b => { b with psw := pswZN b.psw z n }) := rfl

/-- A tag check that passes leaves what follows it. -/
theorem guarded_eq {α : Type} {p : Prop} [Decidable p] {t : Tag} {b : Bool} {n : Nat} {k : Op α}
    (h : p → needTag t b n = pure ()) : (if p then do needTag t b n; k else k) = k := by
  split
  next hp => rw [h hp]; rfl
  next => rfl

section
variable {e : Fin 256} {w x : BitVec 32} {s : State}

theorem nop_retires (hi : s.issues e w.toNat (fmtOk .n w.toNat) = true) :
    Completes (.nop e w x) s fun t => Retires s t e (s.start e w.toNat) :=
  completes_retires rfl hi rfl

theorem mov_retires (hi : s.issues e w.toNat (fmtOk .r w.toNat) = true) (hrd : fRD w.toNat < 8) (hrs : fRS w.toNat < 8) :
    Completes (.mov e w x) s fun t =>
      Retires s t e ((s.start e w.toNat).with 0 fun b => b.setReg (fRD w.toNat) (b.reg (fRS w.toNat))) := by
  refine completes_retires rfl (issues_and (issues_and hi (decide_eq_true hrd)) (decide_eq_true hrs)) ?_
  simp only [op_bind, modB_changed, done_one_changed]

theorem ldi_retires (hi : s.issues e w.toNat (fmtOk .r w.toNat) = true) (hrd : fRD w.toNat < 8)
    (hrs : fRS w.toNat = 15) : Completes (.ldi e w x) s fun t => Retires s t e ((s.start e w.toNat).with 0 fun b =>
      b.setReg (fRD w.toNat) ⟨ofInt (immR w.toNat x.toNat), tINT⟩) := by
  refine completes_retires rfl (issues_and (issues_and hi (decide_eq_true hrd)) (beq_iff_eq.mpr hrs)) ?_
  simp only [op_bind, modB_changed, done_one_changed]

/-- RS names a register or stands for 0 (R146). -/
theorem rsNamed {rs : Nat} (h : rs < 8 ∨ rs = 15) : (decide (rs < 8) || rs == 0xF) = true := by
  simpa using h

/-- The tags of RD and RS that XADD and XSUB accept (R159): those of the registers that have one. -/
structure Bank.IndexTags (b : Bank) (rd rs : Nat) : Prop where
  dest : rd < 4 → (b.reg rd).tag = tPTR ∨ (b.reg rd).tag = tINT
  source : rs < 4 → (b.reg rs).tag = tINT

theorem Bank.IndexTags.dest_pass {b : Bank} {rd rs : Nat} (h : b.IndexTags rd rs) (hrd : rd < 4) :
    needTag (b.reg rd).tag ((b.reg rd).tag == tPTR || (b.reg rd).tag == tINT) rd = pure () := by
  rcases h.dest hrd with ht | ht <;> rw [ht] <;> rfl

theorem Bank.IndexTags.source_pass {b : Bank} {rd rs : Nat} (h : b.IndexTags rd rs) (hrs : rs < 4) :
    needTag (b.reg rs).tag ((b.reg rs).tag == tINT) rs = pure () := by
  rw [h.source hrs]
  rfl

/-- XADD and XSUB: f of RD and RS goes into RD, which keeps its tag, with Z and N. -/
theorem indexIns_retires {c : Instr} {f : Word → Word → Word} (hexec : exec c s = .next (indexIns e w f s))
    (hi : s.issues e w.toNat (fmtOk .r w.toNat) = true) (hlo : 2 ≤ fRD w.toNat) (hhi : fRD w.toNat ≤ 5)
    (hrs : fRS w.toNat < 8 ∨ fRS w.toNat = 15) (htags : (s.core e).cur.IndexTags (fRD w.toNat) (fRS w.toNat)) :
    Completes c s fun t => Retires s t e ((s.start e w.toNat).with 0 fun b =>
      let r := f (b.reg (fRD w.toNat)).val (rsVal (s.core e).cur (fRS w.toNat))
      let d := b.setReg (fRD w.toNat) ⟨r, (b.reg (fRD w.toNat)).tag⟩
      { d with psw := pswZN d.psw (decide (r = 0)) r.msb }) := by
  rw [← start_c s e w.toNat] at htags ⊢
  refine completes_retires hexec
    (issues_and (issues_and (issues_and hi (decide_eq_true hlo)) (decide_eq_true hhi)) (rsNamed hrs)) ?_
  generalize s.start e w.toNat = y at htags ⊢
  simp only [op_bind, op_curB, guarded_eq htags.dest_pass, guarded_eq htags.source_pass, modB_changed,
    flagsZN_changed, changed_changed, done_one_changed, bit_sign]
  rfl

theorem rsVal_eq (b : Bank) (rs : Nat) : rsVal b rs = if rs = 15 then 0 else (b.reg rs).val := rfl

/-- XCMP: the flags of RD less RS and the immediate. -/
theorem xcmp_retires (hi : s.issues e w.toNat (fmtOk .r w.toNat) = true) (hrd : fRD w.toNat < 8)
    (hrs : fRS w.toNat < 8 ∨ fRS w.toNat = 15)
    (hsame : fRD w.toNat < 4 → fRS w.toNat < 4 →
      ((s.core e).cur.reg (fRD w.toNat)).tag = ((s.core e).cur.reg (fRS w.toNat)).tag) :
    Completes (.xcmp e w x) s fun t => Retires s t e ((s.start e w.toNat).with 0 fun b =>
      { b with psw := subPsw b.psw (b.reg (fRD w.toNat)).val
                        (rsVal (s.core e).cur (fRS w.toNat) + ofInt (immR w.toNat x.toNat)) }) := by
  rw [← start_c s e w.toNat] at hsame ⊢
  refine completes_retires rfl (issues_and (issues_and hi (decide_eq_true hrd)) (rsNamed hrs)) ?_
  generalize s.start e w.toNat = y at hsame ⊢
  have hpass : (decide (fRD w.toNat < 4) && decide (fRS w.toNat < 4) &&
      (y.c.cur.reg (fRD w.toNat)).tag != (y.c.cur.reg (fRS w.toNat)).tag) = false := by
    simpa using hsame
  simp only [op_bind, op_curB, hpass, Bool.false_eq_true, if_false, modB_changed, done_one_changed]

end

/-- Settles O16: each instruction by its own lemma, XADD and XSUB by one. -/
theorem registerInstructions : Obligations.RegisterInstructions := by
  unfold Obligations.RegisterInstructions
  intro e w x s y b rd rs imm v
  refine ⟨nop_retires, fun hi => ⟨mov_retires hi, ldi_retires hi, fun hlo hhi hrs hdest hsource => ?_,
    fun hrd hrs hsame => xcmp_retires hi hrd hrs hsame⟩⟩
  have hindex {c : Instr} {f : Word → Word → Word} (hexec : exec c s = .next (indexIns e w f s)) :=
    indexIns_retires hexec hi hlo hhi hrs ⟨hdest, hsource⟩
  refine ⟨?_, ?_⟩
  · exact hindex (f := fun a b => a + b + imm) rfl
  · exact hindex (f := fun a b => a - b - imm) rfl

end Sys2Proof.Machine
end

section
/-!
PROOFS. The instruction reference, second part: INVT and INVTA (R157, R265).
-/
namespace Sys2Proof.Machine

/-! The steps of an invalidation. -/

/-- The partition that an invalidation names (R157): the one in ACC at P0, else the current one. -/
def Cx.invPart (y : Cx) : Nat := if pPRIV y.c.cur.psw = 0 then y.c.cur.acc.val.toNat else fld y.v.tbase 63 54

theorem invPart_eq (y : Cx) : Machine.invPart y = .ok y.invPart y := by
  simp only [Machine.invPart, Cx.invPart, op_bind, op_cx]
  split <;> rfl

/-- At P0 or P1, with an INT in ACC at P0, the register checks pass. -/
theorem invRegs_pass {y : Cx} (hpriv : pPRIV y.c.cur.psw < 2) (htag : pPRIV y.c.cur.psw = 0 → y.c.cur.acc.tag = tINT) :
    invRegs y = .ok () y := by
  simp only [invRegs, op_bind, op_curB, if_neg (Nat.not_le.mpr hpriv)]
  split
  next h => rw [htag h]; rfl
  next => rfl

/-- The context in which the translations that keep drops are gone, after 1,024 cc. -/
def Cx.dropped (y : Cx) (keep : TlbItem → Bool) : Cx :=
  { y with s := y.s.dropTlb keep, c := { y.c with tlb := y.c.tlb.filter keep }, cost := 1024, xcost := 1024 }

/-- What INVT and INVTA do once their checks have passed. -/
def invFinish (p : Nat) (keep : TlbItem → Bool) : Op Unit := do
  if p > 1023 then raiseV vTRANSLATION 4
  invWait keep
  invDrop keep
  done 1024

section
variable {y : Cx} {p : Nat} {keep : TlbItem → Bool}

theorem invFinish_drops (hp : p ≤ 1023) (hcost : y.cost = 1) (hheld : y.invHeld keep = false) :
    invFinish p keep y = .ok () (y.dropped keep) := by
  simp only [invFinish, if_neg (Nat.not_lt.mpr hp), op_bind, invWait, op_cx, hheld, Bool.false_eq_true, if_false, op_pure,
    invDrop, op_modS, op_modC, op_done, hcost]
  rfl

theorem invFinish_waits (hp : p ≤ 1023) (hheld : y.invHeld keep = true) :
    invFinish p keep y = .error (.wait .run) y := by
  simp only [invFinish, if_neg (Nat.not_lt.mpr hp), op_bind, invWait, op_cx, hheld, if_true, op_throw]

end

/-! What is left of the translations, and what a wait leaves. -/

theorem charge_tlb (c : Core) (n : Nat) : (c.charge n).tlb = c.tlb := by
  unfold Core.charge
  split <;> rfl

/-- A core that retires keeps its translations. -/
theorem retire_tlb (c : Core) (npc : Word) (n : Nat) (ent : Option Entering) : (c.retire npc n ent).tlb = c.tlb :=
  charge_tlb ..

theorem retires_dropped {s t : State} {e : Nat} {y : Cx} {keep : TlbItem → Bool} (h : Retires s t e (y.dropped keep)) :
    ∀ k, ∀ i ∈ (t.core k).tlb, keep i = true := by
  intro k i hi
  rw [h.1 k] at hi
  split at hi
  · rw [retire_tlb] at hi
    exact (List.mem_filter.mp hi).2
  · change i ∈ ((y.s.dropTlb keep).core k).tlb at hi
    rw [State.core_dropTlb] at hi
    exact (List.mem_filter.mp hi).2

theorem State.Beside.fabTlb {t u : State} (h : t.Beside u) : t.fabTlb = u.fabTlb := by
  have := congrArg State.fabTlb h.1
  exact this

theorem State.Beside.npus {t u : State} (h : t.Beside u) : t.npus = u.npus := by
  have := congrArg State.npus h.1
  exact this

/-- An instruction that waits before it has done anything leaves its core at it, and the device as it was. -/
theorem waits_start {s t : State} {e w : Nat} {a : Act} (h : Waits t e (s.start e w) a) :
    (t.core e).pc = (s.core e).pc ∧ (t.core e).retired = (s.core e).retired ∧ t.fabTlb = s.fabTlb ∧ t.npus = s.npus := by
  obtain ⟨hcores, hbeside⟩ := h
  have hpre : (s.preTrace e).Beside s := (preTrace_quiet s e).1
  have hcore := hcores e
  rw [if_pos (mem_unitCores _ _), start_c] at hcore
  rw [hcore]
  exact ⟨rfl, rfl, hbeside.fabTlb.trans hpre.fabTlb, hbeside.npus.trans hpre.npus⟩

/-! The instructions. -/

section
variable {c : Instr} {e : Fin 256} {w : BitVec 32} {s : State} {ok : Bool} {body : Op Unit} {keep : TlbItem → Bool}

/-- An instruction whose checks pass and that ends with an invalidation. -/
theorem invalidation_outcome (hexec : exec c s = .next (s.runIns e w.toNat ok body))
    (hi : s.issues e w.toNat ok = true) (hp : (s.start e w.toNat).invPart ≤ 1023)
    (hbody : body (s.start e w.toNat) = invFinish (s.start e w.toNat).invPart keep (s.start e w.toNat)) :
    ((s.start e w.toNat).invHeld keep = false → Completes c s fun t =>
      Retires s t e ((s.start e w.toNat).dropped keep) ∧ ∀ k, ∀ i ∈ (t.core k).tlb, keep i = true) ∧
    ((s.start e w.toNat).invHeld keep = true → Completes c s fun t => (t.core e).pc = (s.core e).pc ∧
      (t.core e).retired = (s.core e).retired ∧ t.fabTlb = s.fabTlb ∧ t.npus = s.npus) := by
  constructor
  · intro hheld
    obtain ⟨t, ht, hret⟩ := completes_retires hexec hi (hbody.trans (invFinish_drops hp rfl hheld))
    exact ⟨t, ht, hret, retires_dropped hret⟩
  · intro hheld
    obtain ⟨t, ht, hwaits⟩ := completes_waits hexec hi (hbody.trans (invFinish_waits hp hheld))
    exact ⟨t, ht, waits_start hwaits⟩

end

/-- Settles O26: both instructions end with the same invalidation. -/
theorem translationInvalidation : Obligations.TranslationInvalidation := by
  unfold Obligations.TranslationInvalidation
  intro e w x s ea y b p gone hpriv htag hp
  have hpart : p = (s.start e w.toNat).invPart := by
    rw [Cx.invPart, start_c]
  have hregs : invRegs (s.start e w.toNat) = .ok () (s.start e w.toNat) :=
    invRegs_pass (by rwa [start_c]) (by rwa [start_c])
  rw [hpart] at hp ⊢
  refine ⟨fun hi hea => ?_, fun hi => ?_⟩
  · refine invalidation_outcome (c := .invt e w x) (keep := invtKeeps (s.start e w.toNat).invPart ea) rfl hi hp ?_
    have hform : formA w.toNat (dispOf w.toNat x.toNat) (s.start e w.toNat) = .ok ea (s.start e w.toNat) := hea
    simp only [op_bind, hregs, hform, invPart_eq, invFinish]
  · obtain ⟨hdrops, hwaits⟩ := invalidation_outcome (c := .invta e w x)
      (keep := fun i => i.part != (s.start e w.toNat).invPart) rfl hi hp
      (by simp only [op_bind, hregs, invPart_eq, invFinish])
    refine ⟨fun hheld => ?_, hwaits⟩
    obtain ⟨t, ht, hret, hgone⟩ := hdrops hheld
    exact ⟨t, ht, hret, fun k i hik => by simpa using hgone k i hik⟩

end Sys2Proof.Machine
end

section
/-!
PROOFS. The instruction reference, third part: POST and PREAD (R165, R168, R287).
-/
namespace Sys2Proof.Machine

/-! What the posting unit's answer leaves in the core. -/

/-- The bank with the answer of a POST: the running value in ACC with its flags (R165). -/
def Bank.posted (v : Word) (c o : Bool) (b : Bank) : Bank :=
  { b with acc := ⟨v, tPDEC⟩, psw := pswZNCV b.psw (decide (wordVal v = 0)) (decide (wordVal v < 0)) c o }

/-- The bank with the answer of a PREAD: the running value in ACC with Z and N (R168). -/
def Bank.preadValue (v : Word) (b : Bank) : Bank :=
  { b with acc := ⟨v, tPDEC⟩, psw := pswZN b.psw (decide (wordVal v = 0)) (decide (wordVal v < 0)) }

theorem postResult_posted (v : Word) (c o : Bool) (x : Cx) :
    postResult v c o x = .ok () (x.changed (Bank.posted v c o)) := rfl

theorem readResult_preadValue (v : Word) (x : Cx) : readResult v x = .ok () (x.changed (Bank.preadValue v)) := rfl

theorem baseUpdate_changed (w n : Nat) (x : Cx) : baseUpdate w n x = .ok () (x.changed (Bank.based w n)) := rfl

theorem npuAnswer_post (w ea : Nat) (v : Word) (c o : Bool) (x : Cx) :
    npuAnswer true w ea (.done v c o) x = .ok () (x.with 159 fun b => (b.posted v c o).based w 8) := by
  simp only [npuAnswer, if_true, op_bind, postResult_posted, baseUpdate_changed, changed_changed, done_changed]

theorem npuAnswer_pread (w ea : Nat) (v : Word) (c o : Bool) (x : Cx) :
    npuAnswer false w ea (.done v c o) x = .ok () (x.with 159 fun b => (b.preadValue v).based w 8) := by
  simp only [npuAnswer, Bool.false_eq_true, if_false, op_bind, readResult_preadValue, baseUpdate_changed, changed_changed,
    done_changed]

/-! The register checks (R165). -/

/-- ACC holds an amount, and AEX a floor or RAW. -/
structure Bank.PostOperands (b : Bank) : Prop where
  acc : b.acc.tag = tPDEC
  aex : b.aex.tag = tPDEC ∨ b.aex.tag = tRAW
  amount : (pdecVal b.acc.val).isSome = true
  floor : b.aex.tag = tPDEC → (pdecVal b.aex.val).isSome = true

/-- The floor of a POST: AEX where it is tagged PDEC. -/
def Bank.postFloor (b : Bank) : Option Word := if b.aex.tag = tPDEC then some b.aex.val else none

theorem postRegs_pass {y : Cx} (h : y.c.cur.PostOperands) :
    postRegs y = .ok (y.c.cur.acc.val, y.c.cur.postFloor) y := by
  obtain ⟨hacc, haex, hamount, hfloor⟩ := h
  have hneed : needTag y.c.cur.aex.tag (y.c.cur.aex.tag == tPDEC || y.c.cur.aex.tag == tRAW) 1 = pure () := by
    rcases haex with ht | ht <;> rw [ht] <;> rfl
  have hvalid : ((pdecVal y.c.cur.acc.val).isNone || (y.c.cur.aex.tag == tPDEC && (pdecVal y.c.cur.aex.val).isNone)) =
      false := by
    rw [Option.isNone_eq_false_iff.mpr hamount, Bool.false_or, Bool.and_eq_false_imp]
    exact fun ht => Option.isNone_eq_false_iff.mpr (hfloor (beq_iff_eq.mp ht))
  have hneedAcc : needTag y.c.cur.acc.tag (y.c.cur.acc.tag == tPDEC) 0 = pure () := by
    rw [hacc]
    rfl
  simp only [postRegs, op_bind, op_curB, hneedAcc, hneed, op_pure, hvalid, Bool.false_eq_true, if_false, beq_iff_eq]
  rfl

/-! The instructions. -/

section
variable {e : Fin 256} {w x : BitVec 32} {s u : State} {ea pa isn key : Nat} {lane : Bool} {y1 : Cx} {v : Word}
  {c f : Bool}

section
variable (hi : s.issues e w.toNat (fmtOk .m w.toNat) = true) (hrun : runOf y1 = .ok (isn, key, lane) y1)
  (hops : (s.core e).cur.PostOperands)
  (hea : formEa w.toNat (dispOf w.toNat x.toNat) 8 true (s.start e w.toNat) = .ok ea (s.start e w.toNat))
  (hpa : postAccess .post ea (s.start e w.toNat) = .ok pa y1)
include hi hrun hops hea hpa

/-- A POST that its posting unit answers at once retires with the value. -/
theorem post_retires (hfree : y1.s.npuBehind pa lane = false)
    (hpost : y1.s.npuPost isn key pa (s.core e).cur.acc.val (s.core e).cur.postFloor = (u, .done v c f)) :
    Completes (.post e w x) s fun t =>
      Retires s t e ({ y1 with s := u }.with 159 fun b => (b.posted v c f).based w.toNat 8) := by
  rw [← start_c s e w.toNat] at hops hpost
  refine completes_retires rfl hi ?_
  simp only [op_bind, postRegs_pass hops, hea, hpa, hrun, op_cx, hfree, Bool.false_eq_true, if_false, hpost, reduceCtorEq,
    op_set, npuAnswer_post]

/-- A POST that waits, at the unit or behind an earlier request for its word, is queued. -/
theorem post_waits (hwait : (if y1.s.npuBehind pa lane = true then (y1.s, PostOut.wait)
      else y1.s.npuPost isn key pa (s.core e).cur.acc.val (s.core e).cur.postFloor) = (u, .wait)) :
    Completes (.post e w x) s fun t => Waits t e { y1 with
      s := u.npuEnqueue (chanOf pa)
        (.post e w.toNat ea isn key pa (s.core e).cur.acc.val (s.core e).cur.postFloor lane) } .reply := by
  rw [← start_c s e w.toNat] at hops hwait ⊢
  refine completes_waits rfl hi ?_
  simp only [op_bind, postRegs_pass hops, hea, hpa, hrun, op_cx, hwait, if_true, op_set, npuAnswer, op_throw]

end

section
variable (hi : s.issues e w.toNat (fmtOk .m w.toNat) = true) (hrun : runOf y1 = .ok (isn, key, lane) y1)
  (hea : formEa w.toNat (dispOf w.toNat x.toNat) 8 false (s.start e w.toNat) = .ok ea (s.start e w.toNat))
  (hpa : postAccess .pread ea (s.start e w.toNat) = .ok pa y1)
include hi hrun hea hpa

/-- A PREAD that its posting unit answers at once retires with the value. -/
theorem pread_retires (hfree : y1.s.npuBehind pa lane = false)
    (hread : y1.s.npuPread isn key pa = (u, .done v c f)) : Completes (.pread e w x) s fun t =>
      Retires s t e ({ y1 with s := u }.with 159 fun b => (b.preadValue v).based w.toNat 8) := by
  refine completes_retires rfl hi ?_
  simp only [op_bind, hea, hpa, hrun, op_cx, hfree, Bool.false_eq_true, if_false, hread, reduceCtorEq, op_set,
    npuAnswer_pread]

/-- A PREAD that waits, at the unit or behind an earlier request for its word, is queued. -/
theorem pread_waits (hwait : (if y1.s.npuBehind pa lane = true then (y1.s, PostOut.wait)
      else y1.s.npuPread isn key pa) = (u, .wait)) :
    Completes (.pread e w x) s fun t => Waits t e { y1 with
      s := u.npuEnqueue (chanOf pa) (.pread e w.toNat ea isn key pa lane) } .reply := by
  refine completes_waits rfl hi ?_
  simp only [op_bind, hea, hpa, hrun, op_cx, hwait, if_true, op_set, npuAnswer, op_throw]

end

end

/-- Settles O37: each instruction where the posting unit answers at once, and where it waits. -/
theorem postAndPread : Obligations.PostAndPread := by
  unfold Obligations.PostAndPread
  intro e w x s ea pa isn key lane y1 y b floor m res hi hrun
  have hbehind {o : State × PostOut} (h : y1.s.npuBehind pa lane = true) :
      (if y1.s.npuBehind pa lane = true then (y1.s, PostOut.wait) else o) = (y1.s, .wait) := if_pos h
  have hserved {o p : State × PostOut} (h : y1.s.npuBehind pa lane = false) (ho : o = p) :
      (if y1.s.npuBehind pa lane = true then (y1.s, PostOut.wait) else o) = p := by
    rw [h, if_neg Bool.false_ne_true, ho]
  refine ⟨fun hacc haex hamount hfloor hea hpa hfree => ?_, fun hea hpa hfree => ?_, fun hwait => ⟨?_, ?_⟩⟩
  · have hops : b.PostOperands := ⟨hacc, haex, hamount, hfloor⟩
    exact ⟨fun u v c f hpost => post_retires hi hrun hops hea hpa hfree hpost,
      fun u hpost => post_waits hi hrun hops hea hpa (hserved hfree hpost)⟩
  · exact ⟨fun u v c f hread => pread_retires hi hrun hea hpa hfree hread,
      fun u hread => pread_waits hi hrun hea hpa (hserved hfree hread)⟩
  · exact fun hacc haex hamount hfloor hea hpa =>
      post_waits hi hrun ⟨hacc, haex, hamount, hfloor⟩ hea hpa (hbehind hwait)
  · exact fun hea hpa => pread_waits hi hrun hea hpa (hbehind hwait)

end Sys2Proof.Machine
end

section
/-!
PROOFS. The instruction reference, fourth part: how a posting unit applies or refuses a POST (R165, R286, R290, R291, R297).
-/
namespace Sys2Proof.Machine

/-! Posting units in the state. -/

@[simp] theorem State.npu_setNpu (s : State) (u v : Nat) (n : Npu) :
    (s.setNpu u n).npu v = if v = u then n else s.npu v := by
  simp [State.npu, State.setNpu]

@[simp] theorem State.npu_count (s : State) (r : Reg) (hi lo n v : Nat) : (s.count r hi lo n).npu v = s.npu v := rfl

/-- Finding an entry that serves changes nothing. -/
theorem npuEntry_found {s s1 : State} {isn pa u : Nat} {needLog post : Bool} {x : NEntry}
    (h : s.npuEntry isn pa needLog post = (s1, .inr (u, x))) : s1 = s := by
  unfold State.npuEntry at h
  split at h
  · cases h
  · split at h
    · split at h <;> cases h
    · split at h
      · cases h
      · split at h <;> cases h
        rfl

/-! STATUS of a POST (R165, R286, R296, R297). -/

section
variable {log : List LogE} {pa : Nat} {b c a : Int} {floor : Option Int}

/-- The sum and the bounds of R296 that a POST must keep to 15 digits. -/
def postOver (log : List LogE) (pa : Nat) (b c a : Int) : Bool :=
  over15 (b + a) || over15 (c + debits log pa + min a 0) || over15 (c + credits log pa + max a 0)

theorem postStatus_of_over (h : postOver log pa b c a = true) : postStatus log pa b c a floor = .overflow := if_pos h

/-- Without an overflow the floors decide. -/
theorem postStatus_of_fits (h : postOver log pa b c a = false) :
    postStatus log pa b c a floor =
      if (∃ f, floor = some f ∧ b + a < f) ∨ ∃ f ∈ remoteFloors log pa, c + debits log pa + min a 0 < f then .floor
      else .done := by
  have hown : (match floor with | some f => decide (b + a < f) | none => false) =
      decide (∃ f, floor = some f ∧ b + a < f) := by
    cases floor <;> simp
  have hfits : postStatus log pa b c a floor =
      if (match floor with | some f => decide (b + a < f) | none => false) then PostSt.floor
      else if (remoteFloors log pa).any fun f => decide (c + debits log pa + min a 0 < f) then .floor else .done :=
    if_neg (by rw [← postOver, h]; exact Bool.false_ne_true)
  rw [hfits, hown]
  simp only [List.any_eq_true, decide_eq_true_eq]
  by_cases hf : ∃ f, floor = some f ∧ b + a < f
  · rw [if_pos hf, if_pos (Or.inl hf)]
  · rw [if_neg hf]
    exact if_congr (or_iff_right hf).symm rfl rfl

theorem postStatus_overflow_iff : postStatus log pa b c a floor = .overflow ↔ postOver log pa b c a = true := by
  cases h : postOver log pa b c a with
  | true => simp [postStatus_of_over h]
  | false =>
    rw [postStatus_of_fits h]
    split <;> simp

theorem postStatus_floor_iff : postStatus log pa b c a floor = .floor ↔ postOver log pa b c a = false ∧
    ((∃ f, floor = some f ∧ b + a < f) ∨ ∃ f ∈ remoteFloors log pa, c + debits log pa + min a 0 < f) := by
  cases h : postOver log pa b c a with
  | true => simp [postStatus_of_over h]
  | false =>
    rw [postStatus_of_fits h]
    split <;> simp_all

end

/-- The floors of the surviving REMOTE entries of a word (R297). -/
theorem mem_remoteFloors {log : List LogE} {pa : Nat} {f : Int} : f ∈ remoteFloors log pa ↔
    ∃ y ∈ log, y.word = pa ∧ y.rolled = false ∧ y.kind = .remote ∧ ∃ v, y.floor = some v ∧ wordVal v = f := by
  simp only [remoteFloors, survivors, List.mem_filterMap, List.mem_filter, Bool.and_eq_true, beq_iff_eq,
    Bool.not_eq_true', Option.ite_none_right_eq_some, Option.map_eq_some_iff, and_assoc]

/-- The low bound falls below the floor of a surviving REMOTE entry. -/
theorem exists_remoteFloor_iff {log : List LogE} {pa : Nat} {lo : Int} : (∃ f ∈ remoteFloors log pa, lo < f) ↔
    ∃ y ∈ log, y.word = pa ∧ y.rolled = false ∧ y.kind = .remote ∧ ∃ f, y.floor = some f ∧ lo < wordVal f := by
  constructor
  · rintro ⟨f, hf, hlo⟩
    obtain ⟨y, hy, hword, hrolled, hkind, v, hv, rfl⟩ := mem_remoteFloors.mp hf
    exact ⟨y, hy, hword, hrolled, hkind, v, hv, hlo⟩
  · rintro ⟨y, hy, hword, hrolled, hkind, v, hv, hlo⟩
    exact ⟨_, mem_remoteFloors.mpr ⟨y, hy, hword, hrolled, hkind, v, hv, rfl⟩, hlo⟩

/-! The answer. -/

section
variable {s s1 : State} {isn okey pa u : Nat} {x : NEntry} {amount : Word} {floor : Option Word} {b : Int}

/-- STATUS of the POST in the unit u, for the entry x with the running value b. -/
def State.postSt (s : State) (u pa : Nat) (x : NEntry) (b : Int) (amount : Word) (floor : Option Word) : PostSt :=
  postStatus (s.npu u).log pa b (wordVal x.c.val) (wordVal amount) (floor.map wordVal)

variable (hentry : s.npuEntry isn pa true true = (s1, .inr (u, x))) (htag : x.r.tag = tPDEC) (hval : pdecVal x.r.val = some b)
include hentry htag hval

theorem npuPost_done (hst : s1.postSt u pa x b amount floor = .done) :
    s.npuPost isn okey pa amount floor =
      ((s1.setNpu u ((s1.npu u).append x .post okey isn amount (pdecOf (b + wordVal amount)) (pdecOf (b + wordVal amount))
        floor.isSome none)).count (.npuCnt u) 63 32 1, .done (pdecOf (b + wordVal amount)) false false) := by
  unfold State.postSt at hst
  have hp : tPDEC ≠ tPOISON := by decide
  simp only [State.npuPost, hentry, htag, if_neg hp, ne_eq, not_true_eq_false, if_false, hval, hst]

theorem npuPost_refused (hst : s1.postSt u pa x b amount floor ≠ .done) :
    s.npuPost isn okey pa amount floor =
      ((s1.setNpu u ((s1.npu u).append x .refused okey isn amount (pdecOf b) x.r.val floor.isSome none)).count
        (.npuCnt u) 31 16 1, .done (pdecOf b) true (decide (s1.postSt u pa x b amount floor = .overflow))) := by
  unfold State.postSt at hst ⊢
  have hp : tPDEC ≠ tPOISON := by decide
  simp only [State.npuPost, hentry, htag, if_neg hp, ne_eq, not_true_eq_false, if_false, hval]
  rfl

end

/-- The answer touches the unit that holds the word. -/
theorem npuPost_frame {s s1 : State} {isn okey pa u : Nat} {x : NEntry} {amount : Word} {floor : Option Word} {n : Npu}
    {r : Reg} {hi lo : Nat} {o : PostOut} (hentry : s.npuEntry isn pa true true = (s1, .inr (u, x)))
    (hanswer : s.npuPost isn okey pa amount floor =
    ((s1.setNpu u n).count r hi lo 1, o)) :
    (∀ v, v ≠ u → (s.npuPost isn okey pa amount floor).1.npu v = s1.npu v) ∧
    (s.npuPost isn okey pa amount floor).1.cores = s.cores ∧ (s.npuPost isn okey pa amount floor).1.mem = s.mem ∧
    (s.npuPost isn okey pa amount floor).1.tags = s.tags := by
  obtain rfl := npuEntry_found hentry
  simp only [hanswer]
  exact ⟨fun v hv => by rw [State.npu_count, State.npu_setNpu, if_neg hv], rfl, rfl, rfl⟩

/-- Settles O43: the status by its two cases, and the answer by the status. -/
theorem postingUnitAppliesPosts : Obligations.PostingUnitAppliesPosts := by
  unfold Obligations.PostingUnitAppliesPosts
  intro s s1 isn okey pa u x amount floor b hentry htag hval a n st r ent c lo big
  have hfloor : (∃ f, floor.map wordVal = some f ∧ b + a < f) ↔ ∃ f, floor = some f ∧ b + a < wordVal f := by
    simp [Option.map_eq_some_iff]
  refine ⟨postStatus_overflow_iff, postStatus_floor_iff.trans ?_, fun hst => ?_, fun hst => ?_, ?_⟩
  · rw [exists_remoteFloor_iff, hfloor]
    exact Iff.rfl
  · rw [show r = _ from npuPost_done hentry htag hval hst]
    exact ⟨rfl, by simp [Npu.append, Npu.use, ent, n, a], by simp [Npu.append, Npu.use, n, a]⟩
  · rw [show r = _ from npuPost_refused hentry htag hval hst]
    exact ⟨rfl, by simp [Npu.append, Npu.use, ent, n], by simp [Npu.append, Npu.use, n]⟩
  · by_cases hst : st = .done
    · exact npuPost_frame hentry (npuPost_done hentry htag hval hst)
    · exact npuPost_frame hentry (npuPost_refused hentry htag hval hst)

end Sys2Proof.Machine
end

section
/-!
PROOFS. The instruction reference, fifth part: what a posting unit does by itself (R165, R168, R287, R288, R293, R300, R404).
-/
namespace Sys2Proof.Machine

/-! A late answer retires the instruction that waits for it. -/

/-- The core with a new count of stall cycles (R150). -/
def Core.stalled (c : Core) (v : Word) : Core := { c with txstall := v }

@[simp] theorem Core.stalled_cur (c : Core) (v : Word) : (c.stalled v).cur = c.cur := rfl

/-- The context after a late reply: in tick-exact mode with the stall of the memory behind it. -/
def Cx.late (x : Cx) : Cx :=
  if x.c.tx then
    { x with
      s := x.s.takeFree
      c := x.c.stalled (setFld x.c.txstall 31 0 (satAdd 32 (fld x.c.txstall 31 0) (Config.stallCycles x.s.free)))
      cost := x.cost + Config.stallCycles x.s.free
      xcost := x.xcost + Config.stallCycles x.s.free }
  else x

theorem lateReply_ok (x : Cx) : lateReply x = .ok () x.late := by
  simp only [lateReply, op_bind, op_cx, Cx.late]
  split
  · simp only [op_bind, op_modS, op_modC, op_addCost, op_modify, Core.stalled]
  · rfl

theorem late_cases {P : Cx → Prop} {x : Cx} (hx : P x) (hstall : ∀ v a b, P { x with
    s := x.s.takeFree, c := x.c.stalled v, cost := a, xcost := b }) : P x.late := by
  unfold Cx.late
  split
  · exact hstall _ _ _
  · exact hx

/-- The stall of a late reply changes neither the bank nor what retirement reads. -/
theorem late_keeps (x : Cx) : x.late.c.cur = x.c.cur ∧ x.late.c.act = x.c.act ∧ x.late.c.retired = x.c.retired ∧
    x.late.npc = x.npc ∧ x.late.s.npus = x.s.npus ∧ x.late.s.regs = x.s.regs ∧ x.late.s.fuses = x.s.fuses :=
  late_cases (P := fun y => y.c.cur = x.c.cur ∧ y.c.act = x.c.act ∧ y.c.retired = x.c.retired ∧ y.npc = x.npc ∧
    y.s.npus = x.s.npus ∧ y.s.regs = x.s.regs ∧ y.s.fuses = x.s.fuses) ⟨rfl, rfl, rfl, rfl, rfl, rfl, rfl⟩
    fun v _ _ => ⟨x.c.stalled_cur v, rfl, rfl, rfl, rfl, rfl, rfl⟩

theorem unitCores_eq_of_regs {s t : State} (h : t.regs = s.regs) (hf : t.fuses = s.fuses) (e : Nat) :
    t.unitCores e = s.unitCores e :=
  unitCores_eq_of_slots (fun c sl => by simp only [State.rd, h, hf]) e

theorem retire_cur (c : Core) (npc : Word) (n : Nat) (ent : Option Entering) : (c.retire npc n ent).cur = c.cur := by
  have hlev : (c.retire npc n ent).lev = c.lev := by
    unfold Core.retire Core.charge
    split <;> rfl
  simp only [Core.cur, Core.bank, hlev, (retire_keeps c npc n ent).2.2.2]

/-- The answer retires the waiting instruction in every core of the unit, with the bank that the answer leaves. -/
theorem resume_retires {u : State} {e w n : Nat} {g : Op Unit} {f : Bank → Bank}
    (hg : ∀ x : Cx, g x = .ok () (x.with n f)) :
    let t := u.resume e w (do lateReply; g)
    t.npus = u.npus ∧ ∀ k ∈ u.unitCores e, (t.core k).cur = f (u.core e).cur ∧ (t.core k).act = .run ∧
      (t.core k).pc = (u.core e).pc + BitVec.ofNat 64 (insLen w) ∧ (t.core k).retired = (u.core e).retired + 1 := by
  let x := (u.awake e).startCx e w (insLen w)
  obtain ⟨hcur, hact, hretired, hnpc, hnpus, hregs, hfuses⟩ := late_keeps x
  have hx : x.c = (u.awake e).core e := rfl
  have hpc : x.npc = x.c.pc + BitVec.ofNat 64 (insLen w) := rfl
  have hunit : x.late.s.unitCores e = u.unitCores e := unitCores_eq_of_regs hregs hfuses e
  intro t
  have ht : t = finishOp e (u.awake e).free (.ok () (x.late.with n f)) := by
    simp only [t, State.resume, op_bind, ← State.awake.eq_1, lateReply_ok, hg, x]
  rw [ht]
  refine ⟨hnpus, fun k hk => ?_⟩
  rw [hpc, hx, awake_core] at hnpc
  rw [hx, awake_core] at hcur hact hretired
  rw [finishOp, State.core_setCores, if_pos (by exact hunit ▸ hk), retire_cur]
  obtain ⟨hract, hrret, hrpc, -⟩ := retire_keeps (x.late.with n f).c (x.late.with n f).npc
    ((x.late.with n f).charged (u.awake e).free (x.late.with n f).cost) (x.late.with n f).ent
  rw [hract, hrret, hrpc]
  exact ⟨(cur_setCur ..).trans (congrArg f hcur), hact, hnpc, congrArg (· + 1) hretired⟩

/-! The request at the head of the queue. -/

section
variable {s s1 t : State} {u : Nat} {q : NReq}

theorem serveFirst_head {want : NReq → Bool} (hq : (s.npu u).queue.head? = some q) (hwant : want q = true)
    (hserve : s.serveAt u 0 q = (t, true)) : s.serveFirst u want = t := by
  obtain ⟨l, hl⟩ := List.head?_eq_some_iff.mp hq
  simp [State.serveFirst, hl, State.serveFrom, hwant, hserve]

/-- A command that serves the head of the queue ends in the state that the service leaves. -/
theorem serves_head {cmd : Instr} {want : NReq → Bool} {P : State → Prop}
    (hcmd : exec cmd s = .next (s.serveFirst u want)) (hq : (s.npu u).queue.head? = some q) (hwant : want q = true)
    (hserve : s.serveAt u 0 q = (t, true)) (hP : P t) : Completes cmd s P :=
  ⟨t, hcmd.trans (by rw [serveFirst_head hq hwant hserve]), hP⟩

theorem serveAt_post {e w ea isn okey pa : Nat} {a v : Word} {f : Option Word} {lane c o : Bool}
    (hpost : (s.setNpu u ((s.npu u).pull 0)).npuPost isn okey pa a f = (s1, .done v c o)) (hrun : s1.sameRun e isn = true) :
    s.serveAt u 0 (.post e w ea isn okey pa a f lane) =
      (s1.resume e w (do lateReply; npuAnswer true w ea (.done v c o)), true) := by
  simp only [State.serveAt, hpost, hrun, if_true]

theorem serveAt_pread {e w ea isn okey pa : Nat} {v : Word} {lane c o : Bool}
    (hread : (s.setNpu u ((s.npu u).pull 0)).npuPread isn okey pa = (s1, .done v c o)) (hrun : s1.sameRun e isn = true) :
    s.serveAt u 0 (.pread e w ea isn okey pa lane) =
      (s1.resume e w (do lateReply; npuAnswer false w ea (.done v c o)), true) := by
  simp only [State.serveAt, hread, hrun, if_true]

/-- The entry x as a touch of the run isn leaves it: held for the run (R288). -/
def NEntry.touched (x : NEntry) (isn : Nat) : NEntry :=
  { x with st := if x.st == .clean then .held else x.st, holders := x.holders ++ [isn] }

theorem touched_st (x : NEntry) (isn : Nat) : (x.touched isn).st ≠ .clean := by
  simp only [NEntry.touched]
  split_ifs with h
  · decide
  · exact fun hclean => h (beq_iff_eq.mpr hclean)

theorem serveAt_touch {isn pa v : Nat} {x : NEntry}
    (hentry : (s.setNpu u ((s.npu u).pull 0)).npuEntry isn pa false false = (s1, .inr (v, x))) :
    s.serveAt u 0 (.touch isn pa) = (s1.setNpu v ((s1.npu v).use (x.touched isn)), true) := by
  simp only [State.serveAt, State.npuTouch, hentry, NEntry.touched]

end

/-! Fills. -/

theorem lineRead_ok {s : State} {pa : Nat} {r : Reader} (hch : s.chanState (chanOf pa) ≠ 3) (hline : s.line pa = .ok)
    (halive : (pa / 64, r) ∉ s.lineDead) : s.lineRead pa r = (s, .good) := by
  have hstate : (s.chanState (chanOf pa) == 3) = false := beq_eq_false_iff_ne.mpr hch
  simp [State.lineRead, halive, hstate, hline]

theorem fillEntry_room {n : Npu} {pa : Nat} {v : TWord} (hnew : n.find pa = none)
    (hroom : (n.cache.filter (·.addr != pa)).length < 2048) :
    n.fillEntry pa v = { n with
      fills := n.fills.filter (· != pa)
      cache := ⟨pa, v, v, 0xFFFF, .clean, [], none, true⟩ :: n.cache.filter (·.addr != pa) } := by
  have hfind : ({ n with fills := n.fills.filter (· != pa) } : Npu).find pa = none := hnew
  simp only [Npu.fillEntry, hfind, Option.isSome_none, Bool.false_eq_true, if_false, hroom, if_true]

/-! Rollback. -/

section
variable (s : State)

@[simp] theorem State.ite_tags (c : Prop) [Decidable c] (t u : State) :
    (if c then t else u).tags = if c then t.tags else u.tags := apply_ite State.tags c t u

@[simp] theorem State.foldl_tags {α : Type} (f : State → α → State) (h : ∀ t a, (f t a).tags = t.tags) (l : List α)
    (s : State) : (l.foldl f s).tags = s.tags := foldl_keeps State.tags f h l s

@[simp] theorem State.count_tags (r : Reg) (hi lo n : Nat) : (s.count r hi lo n).tags = s.tags := by
  simp [State.count, State.wf]

@[simp] theorem State.modCore_tags (e : Nat) (f : Core → Core) : (s.modCore e f).tags = s.tags := by
  simp [State.modCore]

@[simp] theorem State.rollbackAll_tags (A : List Nat) : (s.rollbackAll A).tags = s.tags := by simp [State.rollbackAll]

@[simp] theorem State.abortRuns_tags (A : List Nat) (isOvr : Bool) : (s.abortRuns A isOvr).tags = s.tags := by
  simp [State.abortRuns]

@[simp] theorem State.cancelReqs_tags (es : List Nat) : (s.cancelReqs es).tags = s.tags := by
  simp -implicitDefEqProofs [State.cancelReqs]

@[simp] theorem State.dropRuns_tags (A : List Nat) : (s.dropRuns A).tags = s.tags := by simp [State.dropRuns]

@[simp] theorem State.abortNow_tags (A : List Nat) (isOvr : Bool) : (s.abortNow A isOvr).tags = s.tags := by
  simp [State.abortNow, State.dropExt]

end

/-- A POST that stands for an aborting run is rolled back by itself (R292). -/
theorem rolledBy_own {log : List LogE} {A : List Nat} {x : LogE} (hx : x ∈ log) (hkind : x.kind = .post)
    (hlive : x.rolled = false) (howner : x.owner ∈ A) : rolledBy log A x = true := by
  simp only [rolledBy, Bool.and_eq_true, List.any_eq_true]
  exact ⟨⟨by rw [hkind]; rfl, by rw [hlive]; rfl⟩, x, hx, by simp [hkind, hlive, howner]⟩

theorem rollback_rolled {n : Npu} {A : List Nat} {y : LogE} (hy : y ∈ (n.rollback A).1.log) (hkind : y.kind = .post)
    (howner : y.owner ∈ A) : y.rolled = true := by
  obtain ⟨x, hx, rfl⟩ := List.mem_map.mp hy
  by_cases hroll : rolledBy n.log A x = true
  · rw [if_pos hroll]
  · rw [if_neg hroll] at hkind howner ⊢
    by_contra hlive
    exact hroll (rolledBy_own hx hkind (Bool.eq_false_iff.mpr hlive) howner)

/-- The run that owns an entry is aborted. -/
theorem mem_aborted {s : State} {i : Nat} (h : (s.run i).any (fun r => r.st == .aborted) = true) :
    i ∈ (s.runs.filter fun r => r.st == .aborted).map (·.isn) := by
  obtain ⟨r, hr, hst⟩ := (Option.any_eq_true _ _).mp h
  have hisn : (r.isn == i) = true := List.find?_some (p := fun q : Run => q.isn == i) hr
  exact List.mem_map.mpr ⟨r, List.mem_filter.mpr ⟨List.mem_of_find?_eq_some hr, hst⟩, beq_iff_eq.mp hisn⟩

theorem npuRollback_completes (u : Fin 12) (s : State) : Completes (.npuRollback u) s fun t =>
    (∀ y ∈ (t.npu u).log, y.kind = .post → (s.run y.owner).any (fun r => r.st == .aborted) = true → y.rolled = true) ∧
    t.mem = s.mem ∧ t.tags = s.tags := by
  refine ⟨_, rfl, fun y hy hkind hdead => ?_, ?_, ?_⟩
  · rw [State.npu_count, State.npu_setNpu, if_pos rfl] at hy
    exact rollback_rolled hy hkind (mem_aborted hdead)
  · rw [State.count_mem, State.setNpu_mem, State.abortNow_mem]
  · rw [State.count_tags, State.setNpu_tags, State.abortNow_tags]

/-! Self-test slices. -/

section
variable {s : State} {u : Fin 12} {preempted : Bool}

theorem bistSlice_starts (htest : (s.npu u).test = false) (hon : bit (s.rd .fmuStctl) 0 = true) (hawake : s.fawn = false)
    (hserved : s.served u ≠ []) : Completes (.npuBistSlice u preempted false) s fun t =>
      t = if (s.npu u).queue = [] then s.setNpu u { s.npu u with test := true } else s := by
  refine ⟨_, rfl, ?_⟩
  have hnone : (s.served u).isEmpty = false := List.isEmpty_eq_false_iff.mpr hserved
  cases hq : (s.npu u).queue with
  | nil => simp [htest, hon, hawake, hnone, hq]
  | cons q l => simp [htest, hon, hawake, hnone]

theorem testAbort_npu (s : State) (u : Nat) :
    (s.testAbort u).npu u = { s.npu u with test := false, starved := (s.npu u).starved + 1 } := by
  simp only [State.testAbort]
  split
  · rw [State.npu, State.event_npus]
    exact (State.npu_setNpu ..).trans (if_pos rfl)
  · exact (State.npu_setNpu ..).trans (if_pos rfl)

theorem testAbort_frame (s : State) (u : Nat) : (s.testAbort u).cores = s.cores ∧ (s.testAbort u).mem = s.mem := by
  simp only [State.testAbort]
  split
  · exact ⟨State.event_cores .., State.event_mem ..⟩
  · exact ⟨rfl, rfl⟩

theorem bistSlice_ends (htest : (s.npu u).test = true) : Completes (.npuBistSlice u preempted false) s fun t =>
    t.npu u = (if preempted then { s.npu u with test := false, starved := (s.npu u).starved + 1 }
      else { s.npu u with test := false, starved := 0, slice := ((s.npu u).slice + 1) % 4096 }) ∧
    t.cores = s.cores ∧ t.mem = s.mem := by
  refine ⟨_, rfl, ?_⟩
  simp only [htest, if_true]
  cases preempted with
  | true => exact ⟨testAbort_npu s u, testAbort_frame s u⟩
  | false => exact ⟨(State.npu_setNpu ..).trans (if_pos rfl), rfl, rfl⟩

end

/-- Settles O44: each request, fill, rollback and slice by its lemma. -/
theorem postingUnitServesRequests : Obligations.PostingUnitServesRequests := by
  unfold Obligations.PostingUnitServesRequests
  intro u s s1 n s0
  refine ⟨fun e w ea isn okey pa a v f lane c o hq hpost hrun => ?_, fun e w ea isn okey pa v lane hq hread hrun => ?_,
    fun isn pa v x hq hentry => ?_, fun pa hfill hch hline halive hnew hroom => ?_, npuRollback_completes u s,
    fun preempted => ⟨bistSlice_starts, bistSlice_ends⟩⟩
  · obtain ⟨hnpus, hcore⟩ := resume_retires (u := s1) (e := e) (w := w) fun x => npuAnswer_post w ea v c o x
    refine serves_head rfl hq rfl (serveAt_post hpost hrun) ⟨hnpus, fun k hk => ?_⟩
    obtain ⟨hcur, hact, hpc, hretired⟩ := hcore k hk
    have hbit {i : Nat} (hi : i < 64) :=
      bit_pswZNCV (s1.core e).cur.psw (decide (wordVal v = 0)) (decide (wordVal v < 0)) c o hi
    refine ⟨?_, ?_, ?_, ?_, hact, hpc, hretired⟩ <;> rw [hcur]
    · rw [based_acc]; rfl
    · rw [based_psw]; exact hbit (by decide)
    · rw [based_psw]; exact hbit (by decide)
    · rw [based_psw]; exact hbit (by decide)
  · obtain ⟨hnpus, hcore⟩ := resume_retires (u := s1) (e := e) (w := w) fun x => npuAnswer_pread w ea v false false x
    refine serves_head rfl hq rfl (serveAt_pread hread hrun) ⟨hnpus, fun k hk => ?_⟩
    obtain ⟨hcur, hact, hpc, hretired⟩ := hcore k hk
    have hbit {i : Nat} (hi : i < 64) :=
      bit_pswZN (s1.core e).cur.psw (decide (wordVal v = 0)) (decide (wordVal v < 0)) hi
    refine ⟨?_, ?_, ?_, hact, hpc, hretired⟩ <;> rw [hcur]
    · rw [based_acc]; rfl
    · rw [based_psw]; exact hbit (by decide)
    · rw [based_psw]; exact hbit (by decide)
  · obtain rfl := npuEntry_found hentry
    refine serves_head rfl hq rfl (serveAt_touch hentry) ⟨rfl, rfl, x.touched isn, ?_, rfl, rfl, rfl,
      touched_st x isn, ?_⟩
    · rw [State.npu_setNpu, if_pos rfl]; rfl
    · exact List.mem_append_right _ (List.mem_singleton_self isn)
  · refine ⟨_, rfl, ?_⟩
    rw [if_pos (List.contains_iff_mem.mpr hfill)]
    simp only [State.fill, lineRead_ok hch hline halive]
    exact congrArg (s.setNpu u) (fillEntry_room hnew hroom)

end Sys2Proof.Machine
end

section
/-!
PROOFS. The instruction reference, sixth part: customer instructions (R172, R205, R206, R214, R219).
-/
namespace Sys2Proof.Machine

section
variable {e : Fin 256} {w x : BitVec 32} {s : State} {m : Mseq} {ea : Nat} {y0 y1 y2 z : Cx}

/-- A customer instruction whose decode entry reads runs the microcode from the entry's address to its END (R172). -/
theorem customer_retires (hi : s.issues e w.toNat (customerOk (s.core e) w.toNat) = true)
    (hentry : (s.core e).parity.contains (0x0104, decAddr (s.core e) w.toNat) = false)
    (hpriv : pPRIV (s.core e).cur.psw ≤ fld (decEntry (s.core e) w.toNat) 59 58)
    (hnone : bit (decEntry (s.core e) w.toNat) 60 = true → ea = 0 ∧ y0 = s.start e w.toNat)
    (hform : bit (decEntry (s.core e) w.toNat) 60 = false →
      formA w.toNat (dispU w.toNat x.toNat) (s.start e w.toNat) = .ok ea y0)
    (hext : bit (decEntry (s.core e) w.toNat) 61 = true → extUse false y0 = .ok () y1)
    (hplain : bit (decEntry (s.core e) w.toNat) 61 = false → y1 = y0)
    (hrun : uRun 4096 (mseqStart y1.c y1.s.free ea) (fld (decEntry (s.core e) w.toNat) 11 0)
      (fld (decEntry (s.core e) w.toNat) 11 0 + 1)
      { y1 with cost := fld (decEntry (s.core e) w.toNat) 43 32, xcost := fld (decEntry (s.core e) w.toNat) 43 32,
                path := some (2 + (y1.cost - y0.cost)) } = .ok m y2)
    (hend : uRetire m y2 = .ok () z) : Completes (.customerInstruction e w x) s fun t => Retires s t e z := by
  refine completes_retires (if_neg (by rw [hentry]; exact Bool.false_ne_true)) hi ?_
  simp only [op_bind, op_cx, op_privNow, start_c, gt_iff_lt, if_neg (Nat.not_lt.mpr hpriv)]
  cases hno : bit (decEntry (s.core e) w.toNat) 60 with
  | true =>
    obtain ⟨rfl, rfl⟩ := hnone hno
    cases hx : bit (decEntry (s.core e) w.toNat) 61 with
    | true => simp only [if_true, op_bind, op_pure, op_cx, hext hx, op_set, hrun, hend]
    | false =>
      obtain rfl := hplain hx
      simp only [if_true, Bool.false_eq_true, if_false, op_bind, op_pure, op_cx, op_set, hrun, hend]
  | false =>
    simp only [Bool.false_eq_true, if_false, op_bind, hform hno, op_cx]
    cases hx : bit (decEntry (s.core e) w.toNat) 61 with
    | true => simp only [if_true, op_bind, op_cx, hext hx, op_set, hrun, hend]
    | false =>
      obtain rfl := hplain hx
      simp only [Bool.false_eq_true, if_false, op_bind, op_cx, op_set, hrun, hend]

end

/-! The sequencer at START (R209, R210). -/

/-- The sequencer holds the registers of b, with no result and no store under way. -/
structure Mseq.Holds (m : Mseq) (b : Bank) : Prop where
  reg : ∀ r < 8, m.rd r = b.reg r
  late : m.late = []
  held : m.held = []
  psw : m.psw = b.psw
  xs : m.xs = false

theorem rd_of_lt (m : Mseq) {r : Nat} (hr : r < 8) : m.rd r = sget raw0 m.vals r := if_neg (by omega)

/-- Values beside the registers change nothing that it holds. -/
theorem Mseq.Holds.setVals {m : Mseq} {b : Bank} {v : SMap TWord} (h : m.Holds b)
    (hv : ∀ r < 8, sget raw0 v r = sget raw0 m.vals r) : { m with vals := v }.Holds b :=
  { h with reg := fun r hr => by rw [← h.reg r hr, rd_of_lt _ hr, rd_of_lt _ hr, hv r hr] }

theorem Mseq.Holds.latched {m : Mseq} {b : Bank} (h : m.Holds b) (c o : Bool) : { m with carry := c, ovf := o }.Holds b :=
  { h with }

theorem holds_foldl {b : Bank} {f : Mseq → Nat → Mseq} (hf : ∀ m i, m.Holds b → (f m i).Holds b) (l : List Nat)
    {m : Mseq} (h : m.Holds b) : (l.foldl f m).Holds b := by
  induction l generalizing m with
  | nil => exact h
  | cons i l ih => exact ih (hf m i h)

/-- The registers below n are loaded. -/
theorem startRegs_vals (b : Bank) (m : Mseq) (n : Nat) :
    ∃ v, (List.range n).foldl (fun m r => { m with vals := sset raw0 m.vals r (b.reg r) }) m = { m with vals := v } ∧
      ∀ r < n, sget raw0 v r = b.reg r := by
  induction n with
  | zero => exact ⟨m.vals, rfl, fun r hr => absurd hr (Nat.not_lt_zero r)⟩
  | succ n ih =>
    obtain ⟨v, hfold, hv⟩ := ih
    refine ⟨sset raw0 v n (b.reg n), by rw [List.range_succ, List.foldl_append, hfold]; rfl, fun r hr => ?_⟩
    rw [sget_sset]
    split
    next h => rw [h]
    next h => exact hv r (by omega)

theorem mseqStart_holds (c : Core) (free ea : Nat) : (mseqStart c free ea).Holds c.cur := by
  obtain ⟨v, hfold, hv⟩ := startRegs_vals c.cur ⟨[], [], false, false, false, false, 0, c.cur.psw, [], false⟩ 8
  have hregs : Mseq.Holds ⟨v, [], false, false, false, false, 0, c.cur.psw, [], false⟩ c.cur :=
    ⟨fun r hr => (rd_of_lt _ hr).trans (hv r hr), rfl, rfl, rfl, rfl⟩
  have hea : Mseq.Holds
      ⟨sset raw0 v 8 ⟨BitVec.ofNat 64 ea, tPTR⟩, [], false, false, false, false, 0, c.cur.psw, [], false⟩ c.cur := hregs.setVals fun r hr => by rw [sget_sset, if_neg (by omega)]
  simp only [mseqStart, hfold]
  refine holds_foldl (fun m i h => h.setVals fun r hr => ?_) _ (holds_foldl (fun m i h => h.setVals fun r hr => ?_) _ hea)
  · rw [sget_sins, if_neg (by omega)]
  · rw [sget_sset, if_neg (by omega)]

/-! A microprogram of one word. -/

/-- A word with END that neither branches nor touches memory is the last of the path (R208, R217). -/
theorem uRun_end {fuel pc npc : Nat} {m m1 : Mseq} {x : Cx} {w : BitVec 32} (hpc : pc < 4096)
    (hpar : x.c.parity.contains (0x0103, pc) = false) (hw : sget 0 x.c.cstore pc = w) (hend : uEND w = true)
    (hop : uOP w < 0x0D) (hexec : uExec m w { x with path := x.path.map (· + 1) } =
      .ok m1 { x with path := x.path.map (· + 1) }) :
    uRun (fuel + 1) m pc npc x = .ok m1.tickLate { x with path := x.path.map (· + 1) } := by
  have htouch : uTouches w = false := by simp [uTouches, Nat.not_le.mpr hop]
  have hbranch (m : Mseq) : uBranch m w pc = (m, none) := by
    rw [uBranch, if_neg (by omega), if_neg (by omega)]
  simp only [uRun, op_bind, op_cx, Nat.mod_eq_of_lt hpc, hpar, Bool.false_eq_true, if_false, hw, op_set, htouch,
    Bool.or_false, hexec, hbranch, hend, if_true, op_pure]

/-- The bank with the values of the sequencer in its registers. -/
theorem setRegs_eq (b : Bank) (f : Nat → TWord) : (List.range 8).foldl (fun b r => b.setReg r (f r)) b =
    ⟨f 0, f 1, f 2, f 3, (f 4).val, (f 5).val, (f 6).val, (f 7).val, b.psw⟩ := rfl

/-- At END with nothing under way the registers take the sequencer's values, and the path has one cycle more (R214). -/
theorem uRetire_quiet {m : Mseq} {x : Cx} (hlate : m.late = []) (hheld : m.held = []) (hxs : m.xs = false) :
    uRetire m x = .ok () { x with
      path := x.path.map (· + 1)
      c := x.c.setCur { (List.range 8).foldl (fun b r => b.setReg r (m.rd r)) x.c.cur with psw := m.psw } } := by
  have hstore : storeHeld [] x = .ok () x := rfl
  simp only [uRetire, hheld, op_bind, hstore, op_modify, hlate, List.foldl_nil, op_modB, hxs, Bool.false_eq_true, if_false,
    op_pure]

/-- Values that hold the registers leave the bank as it is. -/
theorem setRegs_holds {m : Mseq} {b : Bank} (h : m.Holds b) :
    { (List.range 8).foldl (fun b r => b.setReg r (m.rd r)) b with psw := m.psw } = b := by
  simp only [setRegs_eq, h.psw, h.reg _ (by decide : 0 < 8), h.reg _ (by decide : 1 < 8), h.reg _ (by decide : 2 < 8),
    h.reg _ (by decide : 3 < 8), h.reg _ (by decide : 4 < 8), h.reg _ (by decide : 5 < 8), h.reg _ (by decide : 6 < 8),
    h.reg _ (by decide : 7 < 8)]
  rfl

/-- The values after the result v for the register d: an untagged register takes the value only (R209). -/
theorem setRegs_put {m : Mseq} {b : Bank} {d : Nat} {v : TWord} (h : m.Holds b) (hd : d < 8) :
    { (List.range 8).foldl (fun b r => b.setReg r ((m.put d v).rd r)) b with psw := (m.put d v).psw } = b.setReg d v := by
  have hreg (r : Nat) (hr : r < 8) : (m.put d v).rd r =
      if r = d then (untagged d).elim v (⟨v.val, ·⟩) else b.reg r := by
    rw [rd_of_lt _ hr, Mseq.put, if_neg (by omega)]
    cases untagged d <;>
      simp only [if_neg (show ¬(10 ≤ d ∧ d ≤ 13) by omega), sget_sset, ← h.reg r hr, rd_of_lt _ hr, Option.elim_none,
        Option.elim_some]
  have hpsw : (m.put d v).psw = b.psw := by rw [Mseq.put, if_neg (by omega)]; exact h.psw
  simp only [setRegs_eq, hpsw, hreg _ (by decide : 0 < 8), hreg _ (by decide : 1 < 8), hreg _ (by decide : 2 < 8),
    hreg _ (by decide : 3 < 8), hreg _ (by decide : 4 < 8), hreg _ (by decide : 5 < 8), hreg _ (by decide : 6 < 8),
    hreg _ (by decide : 7 < 8)]
  interval_cases d <;> rfl

theorem put_quiet {m : Mseq} {b : Bank} {d : Nat} {v : TWord} (h : m.Holds b) (hd : d < 8) :
    (m.put d v).late = [] ∧ (m.put d v).held = [] ∧ (m.put d v).xs = false := by
  rw [Mseq.put, if_neg (by omega)]
  refine ⟨h.late, h.held, ?_⟩
  rw [h.xs, Bool.false_or, Bool.and_eq_false_imp]
  exact fun h10 => absurd (of_decide_eq_true h10) (by omega)

theorem tickLate_quiet {m : Mseq} (h : m.late = []) : m.tickLate = m := by
  obtain ⟨⟩ := m
  cases h
  rfl

/-- A result at distance 1 is there for the next word (R216). -/
theorem tickLate_later {m : Mseq} {d : Nat} {v : TWord} {c o : Bool} (h : m.late = []) :
    ({ m.later 1 (.opd d v) with carry := c, ovf := o } : Mseq).tickLate = { m with carry := c, ovf := o }.put d v := by
  obtain ⟨⟩ := m
  cases h
  unfold Mseq.tickLate Mseq.later Mseq.put
  split <;> simp [Mseq.arrive, Mseq.put, *]

theorem uExec_none {m : Mseq} {w : BitVec 32} (x : Cx) (hop : uOP w = 0) : uExec m w x = .ok m x := by
  simp only [uExec, hop, op_pure]

theorem uExec_add {m : Mseq} {w : BitVec 32} (x : Cx) (hop : uOP w = 1)
    (ha : needTag (m.rd (uA w)).tag true (uOperand (uA w)) = pure ())
    (hb : needTag (m.rd (uB w)).tag true (uOperand (uB w)) = pure ()) :
    uExec m w x = .ok { m.later 1 (.opd (uD w) ⟨(m.rd (uA w)).val + (m.rd (uB w)).val, aluTag (m.rd (uA w)).tag⟩) with
      carry := addC (m.rd (uA w)).val (m.rd (uB w)).val, ovf := addV (m.rd (uA w)).val (m.rd (uB w)).val } x := by
  simp only [uExec, hop, uRead, op_bind, ha, hb, op_pure]

/-- Settles O41: any microprogram by its run, and one of a single word by its run computed. -/
theorem customerInstructionRuns : Obligations.CustomerInstructionRuns := by
  unfold Obligations.CustomerInstructionRuns
  refine ⟨fun e w x s => ?_, fun e w x s m ea y0 y1 y2 z hi hentry hpriv hnone hform hext hplain hrun hend =>
    customer_retires hi hentry hpriv hnone hform hext hplain hrun hend⟩
  intro y c d u a b n readable hi hentry hpar hpriv hnone hext hend
  have hpc : fld d 11 0 < 4096 := fld_lt ..
  have hyc : y.c = c := start_c s e w.toNat
  have hstart : (mseqStart y.c y.s.free 0).Holds c.cur := hyc ▸ mseqStart_holds y.c y.s.free 0
  have hplain {p : Prop} : bit d 61 = true → p := fun h => absurd (hext.symm.trans h) Bool.false_ne_true
  have hform {p : Prop} : bit d 60 = false → p := fun h => absurd (hnone.symm.trans h) Bool.noConfusion
  have hone {m1 : Mseq} {b : Bank} (hop : uOP u < 0x0D)
      (hexec : ∀ x, uExec (mseqStart y.c y.s.free 0) u x = .ok m1 x)
      (hquiet : m1.tickLate.late = [] ∧ m1.tickLate.held = [] ∧ m1.tickLate.xs = false)
      (hbank : { (List.range 8).foldl (fun b r => b.setReg r (m1.tickLate.rd r)) c.cur with psw := m1.tickLate.psw } = b) :
      Completes (.customerInstruction e w x) s fun t =>
        Retires s t e { y with c := c.setCur b, cost := n, xcost := n, path := some 4 } := by
    refine customer_retires (y1 := y) (ea := 0) hi hentry hpriv (fun _ => ⟨rfl, rfl⟩) hform hplain (fun _ => rfl)
      (uRun_end hpc (by rw [hyc]; exact hpar) (by rw [hyc]) hend hop (hexec _)) ?_
    rw [uRetire_quiet hquiet.1 hquiet.2.1 hquiet.2.2, ← hbank, ← hyc]
    simp only [Option.map_some]
    rfl
  refine ⟨fun hop => ?_, fun hop hD hA hB ha hb => ?_⟩
  · have htick := tickLate_quiet hstart.late
    refine hone (by omega) (uExec_none · hop) ?_ ?_ <;> rw [htick]
    · exact ⟨hstart.late, hstart.held, hstart.xs⟩
    · exact setRegs_holds hstart
  · have hread {r : Nat} (k : Nat) (hr : r < 8) (h : readable (c.cur.reg r)) :
        needTag ((mseqStart y.c y.s.free 0).rd r).tag true k = pure () := by
      rw [hstart.reg r hr]
      exact needTag_ok _ _ _ rfl h.2 h.1
    have hexec (x : Cx) := uExec_add x hop (hread _ hA ha) (hread _ hB hb)
    rw [hstart.reg _ hA, hstart.reg _ hB] at hexec
    have hsum := hstart.latched (addC a.val b.val) (addV a.val b.val)
    refine hone (by omega) hexec ?_ ?_ <;> rw [tickLate_later hstart.late]
    · exact put_quiet hsum hD
    · exact setRegs_put hsum hD

end Sys2Proof.Machine
end

section
/-!
PROOFS. The instruction reference, seventh part: RETL (R153, R174, R184, R195).
-/
namespace Sys2Proof.Machine

/-! What a synchronising event and a retirement leave of a core. -/

/-- d has the course of c: its level, links and activity, and the marks of level 0. -/
structure Core.SameCourse (c d : Core) : Prop where
  lev : d.lev = c.lev
  links : d.links = c.links
  active : d.active = c.active
  act : d.act = c.act
  dead0 : d.dead0 = c.dead0
  aborted0 : d.aborted0 = c.aborted0

theorem Core.SameCourse.refl (c : Core) : c.SameCourse c := ⟨rfl, rfl, rfl, rfl, rfl, rfl⟩

theorem Core.SameCourse.trans {c d f : Core} (h : c.SameCourse d) (h' : d.SameCourse f) : c.SameCourse f :=
  ⟨h'.lev.trans h.lev, h'.links.trans h.links, h'.active.trans h.active, h'.act.trans h.act, h'.dead0.trans h.dead0,
    h'.aborted0.trans h.aborted0⟩

theorem applyHeld_course (c : Core) (h : Held) : c.SameCourse (c.applyHeld h) := by
  unfold Core.applyHeld
  split <;> exact ⟨rfl, rfl, rfl, rfl, rfl, rfl⟩

theorem sync_course (c : Core) : c.SameCourse c.sync :=
  have h := foldl_rel Core.SameCourse Core.SameCourse.refl (fun _ _ _ => Core.SameCourse.trans) Core.applyHeld
    applyHeld_course c.held c
  ⟨h.lev, h.links, h.active, h.act, h.dead0, h.aborted0⟩

theorem charge_course (c : Core) (n : Nat) : c.SameCourse (c.charge n) := by
  unfold Core.charge
  split <;> exact ⟨rfl, rfl, rfl, rfl, rfl, rfl⟩

theorem retire_course (c : Core) (npc : Word) (n : Nat) (ent : Option Entering) : c.SameCourse (c.retire npc n ent) :=
  have h := charge_course c.leaveMid.ageWindow n
  ⟨h.lev, h.links, h.active, h.act, h.dead0, h.aborted0⟩

theorem charge_delayed (c : Core) (n : Nat) : (c.charge n).delayed = c.delayed := by
  unfold Core.charge
  split <;> rfl

theorem retire_delayed {c : Core} (npc : Word) (n : Nat) (ent : Option Entering) (h : c.delayed = []) :
    (c.retire npc n ent).delayed = [] := by
  have hage : c.leaveMid.ageWindow.delayed = [] := by
    simp only [Core.ageWindow, Core.leaveMid, h, List.map_nil, List.filter_nil]
  exact (charge_delayed _ n).trans hage

/-! The entry of a level in a chain (R180, R183, R184). -/

section
variable (c : Core) (k : Nat) (ent : Word) (lpc : TWord) (info : Word) (addr : Option Nat) (lret vec : Nat)

theorem enter_lev : (c.enter k ent lpc info addr lret vec).lev = k := rfl

theorem enter_pc : (c.enter k ent lpc info addr lret vec).pc = setFld 0 41 2 (fld ent 41 2) := rfl

theorem enter_active : (c.enter k ent lpc info addr lret vec).active = setBit c.active k true := rfl

theorem enter_link : (c.enter k ent lpc info addr lret vec).link k = ⟨lpc, info, BitVec.ofNat 64 (addr.getD 0)⟩ := by
  simp only [Core.enter, Core.link, (sync_course _).links]
  exact link_setLink _ _ _

end

/-- The level to return to stands in the link group. -/
theorem linfoWord_lret {vec lret escr fvec : Nat} {q : Exc} {chain : Bool} (h : lret < 32) :
    fld (linfoWord vec lret escr q chain fvec) 55 51 = lret := by
  unfold linfoWord
  simp only [fld_setFld_ne, fld_setFld, Nat.reduceLeDiff, Nat.reduceLT, or_true, Nat.reduceAdd, Nat.reduceSub]
  exact Nat.mod_eq_of_lt h

theorem linfoWord_chain {vec lret escr fvec : Nat} {q : Exc} {chain : Bool} :
    fld (linfoWord vec lret escr q chain fvec) 44 44 = b2n chain := by
  unfold linfoWord
  simp only [fld_setFld_ne, fld_setFld, Nat.reduceLeDiff, Nat.reduceLT, or_true, Nat.reduceAdd, Nat.reduceSub]
  cases chain <;> rfl

/-! The instruction. -/

/-- The core once RETL has left its level: synchronised, with the level no longer active. -/
def Core.leftLevel (c : Core) : Core := { c.sync with active := setBit c.active c.lev false }

/-- The level to return to. -/
def Core.lret (c : Core) : Nat := fld (c.link c.lev).linfo 55 51

/-- The request that RETL chains into in u. -/
def Core.chainPick (c : Core) (u : State) (e : Nat) : Option (Nat × Word) :=
  u.pick e c.leftLevel.lmask c.lret (c.leftLevel.bank c.lret).psw c.leftLevel.vbr

/-- The core that has entered the level of the vector entry ent from a RETL, with the link group handed on (R184). -/
def Core.chained (c : Core) (ent : Word) (q : Exc) : Core :=
  c.leftLevel.enter (fld ent 63 60) ent (c.link c.lev).lpc (linfoWord q.vec c.lret 0 q true 0) none c.lret q.vec

/-- The core that waits again in the DISPATCH of level 0 (R169, R195). -/
def Core.dispatchAgain (c : Core) : Core :=
  let d := c.leftLevel
  let d := if c.aborted0 then { d.setBank 0 { d.bank 0 with psw := dispPsw d } with aborted0 := false } else d
  { d with lev := 0, act := .disp }

section
variable {e : Fin 256} {w x : BitVec 32} {s : State} {y : Cx} {c : Core} (hc : y.c = c)
include hc

theorem retlBody_returns (hpick : c.chainPick y.s y.e = none) (hdead : ¬(c.lret = 0 ∧ c.dead0 = true)) :
    retlBody y = ({ y with c := { c.leftLevel with lev := c.lret }, npc := (c.link c.lev).lpc.val }, 8) := by
  subst hc
  have hcond : (decide (y.c.lret = 0) && y.c.leftLevel.dead0) = false := by
    rw [show y.c.leftLevel.dead0 = y.c.dead0 from (sync_course y.c).dead0]
    exact Bool.eq_false_iff.mpr fun h => hdead (by simpa using h)
  unfold Core.chainPick Core.lret Core.leftLevel at *
  simp only [retlBody, hpick, hcond, Bool.false_eq_true, if_false]

theorem retlBody_waits (hpick : c.chainPick y.s y.e = none) (hret : c.lret = 0) (hdead : c.dead0 = true) :
    retlBody y = ({ y with c := c.dispatchAgain }, 8) := by
  subst hc
  have hcond : (decide (y.c.lret = 0) && y.c.leftLevel.dead0) = true := by
    rw [show y.c.leftLevel.dead0 = y.c.dead0 from (sync_course y.c).dead0, hret, hdead]
    rfl
  have haborted : y.c.leftLevel.aborted0 = y.c.aborted0 := (sync_course y.c).aborted0
  unfold Core.dispatchAgain
  rw [← haborted]
  unfold Core.chainPick Core.lret Core.leftLevel at *
  simp only [retlBody, hpick, hcond, if_true]

theorem retlBody_chains {i : Nat} {ent : Word} (hpick : c.chainPick y.s y.e = some (i, ent)) :
    retlBody y = ({ y with
      s := y.s.clearReq i y.e
      c := c.chained ent (y.s.asyncExc y.e i)
      npc := (c.chained ent (y.s.asyncExc y.e i)).pc
      ent := (c.chained ent (y.s.asyncExc y.e i)).entering }, 3) := by
  subst hc
  unfold Core.chainPick Core.lret Core.leftLevel at hpick
  simp only [retlBody, hpick]
  rfl

end

theorem dispatchAgain_facts (c : Core) : c.dispatchAgain.lev = 0 ∧ c.dispatchAgain.act = .disp ∧
    c.dispatchAgain.delayed = [] ∧
    c.dispatchAgain.cur =
      if c.aborted0 then { c.leftLevel.bank 0 with psw := dispPsw c.leftLevel } else c.leftLevel.bank 0 := by
  unfold Core.dispatchAgain
  cases c.aborted0 with
  | true =>
    refine ⟨rfl, rfl, rfl, ?_⟩
    simp only [if_true, Core.cur]
    exact (bank_setBank ..).trans (if_pos rfl)
  | false => exact ⟨rfl, rfl, rfl, rfl⟩

section
variable {e : Fin 256} {w x : BitVec 32} {s : State}

section
variable (hi : s.issues e w.toNat (fmtOk .n w.toNat) = true) (hlev : (s.core e).lev ≠ 0)
  (htag : ((s.core e).link (s.core e).lev).lpc.tag = tCODE)
include hi hlev htag

/-- RETL whose body passes its transfer check retires with what the body gives. -/
theorem retl_retires {n : Nat} {z : Cx}
    (hbody : retlBody { s.start e w.toNat with s := (s.start e w.toNat).s.dropInvalid e } = (z, n + 1))
    (hcost : z.cost = 1) (hgo : z.c.act = .disp ∨ n + 1 ≠ 8 ∨ z.npc.toNat % 4 = 0) :
    Completes (.retl e w x) s fun t => Retires s t e { z with cost := n + 1, xcost := n + 1 } := by
  rw [← start_c s e w.toNat] at hlev htag
  refine completes_retires rfl hi ?_
  simp only [op_bind, op_cx, if_neg hlev, htag, ne_eq, not_true_eq_false, if_false, op_modS, hbody]
  split
  next h =>
    simp only [Bool.and_eq_true, decide_eq_true_eq, bne_iff_ne, ne_eq] at h
    have halign := (hgo.resolve_left h.2).resolve_left (not_not_intro h.1)
    simp only [op_bind, needTarget_pass halign, op_pure, op_set, op_done, hcost, Nat.add_sub_cancel, Nat.add_comm 1]
  next => simp only [op_bind, op_set, op_done, hcost, Nat.add_sub_cancel, Nat.add_comm 1]

/-- RETL to a link address that is no multiple of 4 is misaligned (R70). -/
theorem retl_misaligned {z : Cx}
    (hbody : retlBody { s.start e w.toNat with s := (s.start e w.toNat).s.dropInvalid e } = (z, 8))
    (hact : z.c.act ≠ .disp) (hodd : z.npc.toNat % 4 ≠ 0) :
    Completes (.retl e w x) s fun t =>
      Raises s t e { s.start e w.toNat with s := (s.start e w.toNat).s.dropInvalid e }
        ⟨vMISALIGNED, 0, some z.npc.toNat, false, false, false⟩ := by
  rw [← start_c s e w.toNat] at hlev htag
  refine completes_raises rfl hi ?_ rfl (show vMISALIGNED ≠ vMACHINE_CHECK by decide)
  have hcheck : (decide True && z.c.act != .disp) = true := by simp [hact]
  simp only [op_bind, op_cx, if_neg hlev, htag, ne_eq, not_true_eq_false, if_false, op_modS, hbody, hcheck, if_true,
    needTarget_fault hodd]

end

end

/-- A core that issues an instruction runs. -/
theorem issues_act {s : State} {e w : Nat} {ok : Bool} (hi : s.issues e w ok = true) : (s.core e).act = .run := by
  simp only [State.issues, State.issuesNow, State.canIssue, Bool.and_eq_true, beq_iff_eq] at hi
  tauto

theorem retires_core {s t : State} {e k : Nat} {y : Cx} (h : Retires s t e y) (hk : k ∈ y.s.unitCores e) :
    t.core k = y.c.retire y.npc (y.charged s.free y.cost) y.ent := (h.1 k).trans (if_pos hk)

theorem Core.SameCourse.link {c d : Core} (h : c.SameCourse d) (k : Nat) : d.link k = c.link k := by
  rw [Core.link, h.links, Core.link]

/-- Settles O23: RETL by what its body does, which the request to chain into and the marks of level 0 decide. -/
theorem returnFromLevel : Obligations.ReturnFromLevel := by
  unfold Obligations.ReturnFromLevel
  intro e w x s y u c l lret out p hi hlev htag
  have hc : y.c = c := start_c s e w.toNat
  have hpick : c.chainPick u e = p := rfl
  have hcost : y.cost = 1 := start_cost ..
  refine ⟨fun hp hdead => ?_, fun hp hret hdead => ?_, fun i ent hp => ?_⟩
  · have hbody := retlBody_returns (y := { y with s := u }) hc (hpick.trans hp) hdead
    have hact : c.leftLevel.act ≠ .disp := by
      rw [show c.leftLevel.act = .run from (sync_course c).act.trans (issues_act hi)]
      decide
    refine ⟨fun halign => ?_, fun hodd => ?_⟩
    · have h := retl_retires (x := x) hi hlev htag hbody hcost (.inr (.inr halign))
      exact h
    · have h := retl_misaligned (x := x) hi hlev htag hbody hact hodd
      exact h
  · have hbody := retlBody_waits (y := { y with s := u }) hc (hpick.trans hp) hret hdead
    obtain ⟨hlev0, hact, hdelayed, hcur⟩ := dispatchAgain_facts c
    obtain ⟨t, ht, hretires⟩ := retl_retires (x := x) hi hlev htag hbody hcost (.inl hact)
    refine ⟨t, ht, fun k hk => ?_⟩
    rw [retires_core hretires hk, retire_cur]
    exact ⟨(retire_course ..).lev.trans hlev0, (retire_course ..).act.trans hact, retire_delayed _ _ _ hdelayed, hcur⟩
  · have hbody := retlBody_chains (y := { y with s := u }) hc (hpick.trans hp)
    obtain ⟨t, ht, hretires⟩ := retl_retires (x := x) hi hlev htag hbody hcost (.inr (.inl (by decide)))
    refine ⟨t, ht, fun k hk => ?_⟩
    have hcourse := retire_course (c.chained ent (u.asyncExc y.e i))
    rw [retires_core hretires hk]
    dsimp only
    rw [(hcourse _ _ _).link, (hcourse _ _ _).lev, (hcourse _ _ _).active]
    have hlink : (c.chained ent (u.asyncExc y.e i)).link (fld ent 63 60) = _ := enter_link ..
    rw [hlink]
    refine ⟨rfl, rfl, rfl, linfoWord_lret (fld_lt ..), linfoWord_chain, ?_⟩
    exact (bit_setBit _ _ _ _ ((fld_lt ..).trans (by decide)) ((fld_lt ..).trans (by decide))).trans (if_pos rfl)

end Sys2Proof.Machine
end

section
/-!
PROOFS. The instruction reference, eighth part: SVC with a held control-space write (R60, R84, R154, R180).
-/
namespace Sys2Proof.Machine

/-! A write to the PSW of level 0 through control space that waits for a synchronising event (R60, R84). -/

/-- SVC 5. -/
def svcWord : BitVec 32 := 0x00600005

/-- A core of level 0 with a held write of 3 to CT of its own PSW. -/
def ctHeld : Core :=
  { Core.cold with
    banks := [(0, { Bank.cold with psw := 0 })], mode := 2, lmask := 0, held := [⟨0x10000, false, setFld 0 36 35 3⟩] }

/-- The vector entry of SVC: level 1, P0, the handler at 0x100. -/
def svcEntry : Word := 0x1000000000000100

/-- The device with that unit, and the vector table at 0. -/
def State.svcHeld : State :=
  ({ State.reset with layout := ⟨2 ^ 36, 2 ^ 35, 2 ^ 20, 0⟩, cores := [(0, ctHeld), (1, ctHeld)] }).putWord (8 * vSVC)
    ⟨svcEntry, tRAW⟩

theorem svcHeld_issues : State.svcHeld.issues 0 svcWord.toNat (fmtOk .i svcWord.toNat) = true := by decide +kernel

theorem svcHeld_entry : ((State.svcHeld.start 0 svcWord.toNat).s.vecEntry (State.svcHeld.core 0).vbr vSVC).2 =
    some svcEntry := by decide +kernel

theorem svcHeld_unmasked : (State.svcHeld.core 0).lev < 16 ∧ (State.svcHeld.core 0).lev < fld svcEntry 63 60 ∧
    masked (State.svcHeld.core 0).lmask (State.svcHeld.core 0).cur.psw (fld svcEntry 63 60) = false := by decide +kernel

theorem exec_svc (e : Fin 256) (w x : BitVec 32) (s : State) : exec (.svc e w x) s =
    .next (s.runIns e w.toNat (fmtOk .i w.toNat) (raiseExc ⟨vSVC, fN w.toNat, none, false, false, true⟩)) := rfl

/-- The level entry puts the held write into effect: CT of the bank that is left is 3. -/
theorem svcHeld_entered : fld (((State.svcHeld.runIns (0 : Fin 256) svcWord.toNat (fmtOk .i svcWord.toNat)
    (raiseExc ⟨vSVC, fN svcWord.toNat, none, false, false, true⟩)).core 0).bank 0).psw 36 35 = 3 := by decide +kernel

theorem svcHeld_left : fld ((State.svcHeld.core (0 : Fin 256)).bank 0).psw 36 35 = 0 := by decide +kernel

/-- Refutes O21: the statement says that no register of the bank that is left changes, but the entry is a synchronising event
(R180), and a write to CT of the PSW of that bank that control space still holds takes effect with it (R60, R84). -/
theorem not_supervisorCall : ¬ Obligations.SupervisorCall := by
  unfold Obligations.SupervisorCall
  intro h
  obtain ⟨hlev, habove, hmask⟩ := svcHeld_unmasked
  obtain ⟨t, hexec, hunit⟩ := h 0 svcWord 0 State.svcHeld _ svcEntry svcHeld_issues hlev
    (Prod.mk.eta.symm.trans (congrArg (Prod.mk _) svcHeld_entry)) habove hmask
  rw [exec_svc] at hexec
  cases hexec
  obtain ⟨-, -, -, -, -, -, -, -, -, -, -, hbanks, -⟩ := hunit 0 (mem_unitCores _ _)
  have hct := svcHeld_entered
  rw [(hbanks 0 (by decide)).1, svcHeld_left] at hct
  exact absurd hct (by decide)

end Sys2Proof.Machine
end

section
/-!
PROOFS. The instruction reference, ninth part: YIELD.SUS over a lost channel (R170, R279, R284).
-/
namespace Sys2Proof.Machine

/-- YIELD.SUS. -/
def susWord : BitVec 32 := 0x00B00000

/-- A core of level 0 in the context of a request whose context save area is at 0x2000. -/
def suspending : Core :=
  { Core.cold with banks := [(0, Bank.cold)], mode := 2, ctx := some ⟨1, 1, 0x2000, false⟩ }

/-- The device with that unit; the memory channel of the save area is LOST. -/
def State.saveLost : State :=
  { State.reset with
    layout := ⟨2 ^ 36, 2 ^ 35, 2 ^ 20, 0⟩
    cores := [(0, suspending), (1, suspending)]
    regs := [(.mcuStatus (chanOf 0x2000), 3)] }

theorem saveLost_issues : State.saveLost.issues 0 susWord.toNat (fmtOk .n susWord.toNat) = true := by decide +kernel

theorem saveLost_phys : (State.saveLost.start 0 susWord.toNat).s.physOk 0x2000 = true ∧
    (State.saveLost.start 0 susWord.toNat).s.physOk (0x2000 + 0x57) = true := by decide +kernel

/-- What YIELD.SUS leaves in the word of ACC reads POISON. -/
theorem saveLost_saved : (match exec (.yieldSus 0 susWord 0) State.saveLost with
    | .next t => decide ((t.memWord 0x2000).tag = tPOISON)
    | _ => false) = true := by decide +kernel

/-- Refutes O27: the clause on YIELD.SUS says that the context save area then reads as the registers with their tags, but a
word of a channel that is LOST reads POISON whatever was written (R279, R284), and the instruction does not fail for it. -/
theorem not_dispatchAndYield : ¬ Obligations.DispatchAndYield := by
  unfold Obligations.DispatchAndYield
  intro h
  obtain ⟨-, -, hsus⟩ := h 0 susWord 0 State.saveLost 0 [] (State.saveLost.start 0 susWord.toNat)
    ⟨1, 1, 0x2000, false⟩ rfl
  obtain ⟨t, hexec, -, hregs, -⟩ := hsus rfl saveLost_issues saveLost_phys.1 saveLost_phys.2 (by decide)
  have hsaved := saveLost_saved
  simp only [hexec, decide_eq_true_eq] at hsaved
  have hacc : (t.memWord 0x2000).tag = tRAW := congrArg TWord.tag (hregs 0 (by decide))
  exact absurd (hacc.symm.trans hsaved) (by decide)

end Sys2Proof.Machine
end

section
/-!
PROOFS. The instruction reference, tenth part: RREAD of a word of the mirror partner in custody (R167, R435).
-/
namespace Sys2Proof.Machine

/-- RREAD. -/
def rreadWord : BitVec 32 := 0x07300000

/-- A core with the remote address 5 × 2^52 in X1. -/
def remoteReader : Core :=
  { Core.cold with banks := [(0, { Bank.cold with x1 := ⟨BitVec.ofNat 64 (5 * 2 ^ 52), tPTR⟩ })], mode := 2 }

/-- A synchronised device in custody of its mirror partner, device 5, which port 0 still reaches. -/
def State.inCustody : State :=
  { State.reset with
    cores := [(0, remoteReader), (1, remoteReader)]
    regs := [(.tsqStatus, setBit 0 4 true), (.fabPstatus 0, 3), (.fabRoute 5, setBit 0 63 true),
      (.fabPartner, setFld 0 43 32 5)]
    fab := { Fab.cold with custody := true } }

theorem inCustody_issues : State.inCustody.issues 0 rreadWord.toNat (fmtOk .n rreadWord.toNat) = true := by decide +kernel

theorem inCustody_ready : let y := State.inCustody.start 0 rreadWord.toNat
    bit (y.s.rd .tsqStatus) 4 = true ∧ y.s.sched.unsealed = [] ∧ 5 ≠ y.s.devId ∧ (y.s.reaches 5).2 = true ∧
    y.s.fab.out = [] := by decide +kernel

/-- The device decides the RREAD itself: it sends nothing (R435). -/
theorem inCustody_silent : (match exec (.rread 0 rreadWord 0) State.inCustody with
    | .next t => t.fab.out.isEmpty
    | _ => false) = true := by decide +kernel

/-- Refutes O38: a device in custody of its mirror partner decides an RREAD of a word of the partner from its own replica and
sends no request (R435), although the partner is another device that is reached. -/
theorem not_remoteOperationsAreSent : ¬ Obligations.RemoteOperationsAreSent := by
  unfold Obligations.RemoteOperationsAreSent
  intro h
  obtain ⟨hsync, hsealed, hother, hup, hout⟩ := inCustody_ready
  have hdev : raDev (State.inCustody.core (0 : Fin 256)).cur.x1.val.toNat = 5 := by decide +kernel
  obtain ⟨-, hread⟩ := h 0 rreadWord 0 State.inCustody
    ((State.inCustody.start (0 : Fin 256) rreadWord.toNat).s.reaches 5).1 0 0 false 0 rsDONE inCustody_issues rfl rfl hsync
    hsealed (hdev ▸ hother) (by rw [hdev]; exact Prod.mk.eta.symm.trans (congrArg (Prod.mk _) hup))
  obtain ⟨t, hexec, ⟨-, hsent, -⟩, -⟩ := hread rfl
  have hsilent := inCustody_silent
  simp only [hexec, List.isEmpty_iff] at hsilent
  rw [hsilent, List.nil_eq_append_iff] at hsent
  exact absurd hsent.2 (List.cons_ne_nil _ _)

end Sys2Proof.Machine
end

section
/-!
PROOFS. The instruction reference, eleventh part: a store to KEY_FKSET that waits (R158, R266).
-/
namespace Sys2Proof.Machine

/-- ST in the long form, at 0x1000. -/
def stWord : BitVec 32 := 0x01180000

/-- A core of level 0 with translation on, its root table at 0x2000, and in ACC the invalidation of frame 1 for KEY_FKSET. -/
def keyWriter : Core :=
  { Core.cold with
    banks := [(0, { Bank.cold with acc := ⟨fksetWord 1 false true false 5, tINT⟩ })], mode := 2, tbase := 0x2001 }

/-- The tables map the frame at 0x1000 to that of KEY_FKSET in control space; a touch of a word of frame 1 waits in a posting
unit. -/
def State.keyWrite : State :=
  ((({ State.reset with
    layout := ⟨2 ^ 36, 2 ^ 35, 2 ^ 20, 0⟩
    cores := [(0, keyWriter), (1, keyWriter)]
    npus := [(1, { Npu.cold with queue := [.touch 1 0x1000] })] }.putWord 0x2000
    ⟨0x8000000000004000, tINT⟩).putWord 0x4000 ⟨0x8000000000006000, tINT⟩).putWord 0x6008 ⟨0xA00F000000048000, tINT⟩)

theorem keyWrite_issues : State.keyWrite.issues 0 stWord.toNat (fmtOk .m stWord.toNat) = true := by decide +kernel

/-- The address is formed, and its access reaches KEY_FKSET, which takes the write. -/
theorem keyWrite_reaches : (let y := State.keyWrite.start (0 : Fin 256) stWord.toNat
    match formEa stWord.toNat (dispOf stWord.toNat (0x1000 : BitVec 32).toNat) 8 true y, access .write 0x1000 false y with
    | .ok ea _, .ok tg z => ea == 0x1000 && tg == .ctl (Reg.offset .keyFkset) && targetTag z tg != tSEAL &&
        ((z.s.setCores (z.s.unitCores (0 : Fin 256)) z.c).ctlWrite (0 : Fin 256) (Reg.offset .keyFkset)
          (fksetWord 1 false true false 5)).2
    | _, _ => false) = true := by decide +kernel

/-- While the touch waits, the store has not retired. -/
theorem keyWrite_waits : (match exec (.st 0 stWord 0x1000) State.keyWrite with
    | .next t => (t.core (0 : Fin 256)).retired == 0
    | _ => false) = true := by decide +kernel

theorem retires_counts {s t : State} {e : Nat} {y : Cx} (h : Retires s t e y) : (t.core e).retired = y.c.retired + 1 := by
  rw [retires_core h (mem_unitCores _ _)]
  exact (retire_keeps ..).2.1

/-- Refutes O11: the clause on control space says that the store retires whenever the register takes its write, but one to
KEY_FKSET with INV = 1 waits while an access checked with the frame's old key waits in a posting unit (R266). -/
theorem not_wordStores : ¬ Obligations.WordStores := by
  unfold Obligations.WordStores
  intro h
  have hreach := keyWrite_reaches
  simp only at hreach
  split at hreach
  next ea y' tg z hform haccess =>
    simp only [Bool.and_eq_true, beq_iff_eq, bne_iff_ne, ne_eq] at hreach
    obtain ⟨⟨⟨rfl, rfl⟩, hseal⟩, hwrites⟩ := hreach
    obtain rfl := formEa_ok hform
    obtain ⟨-, -, hctl⟩ := h 0 stWord 0x1000 State.keyWrite 0 0x1000 (.ctl (Reg.offset .keyFkset)) z keyWrite_issues
      (.inl rfl) (by decide) (by decide) (fun hs => absurd hs (by decide)) hform (by decide) haccess hseal
    obtain ⟨t, hexec, hretires⟩ := hctl _ _ rfl (Prod.mk.eta.symm.trans (congrArg (Prod.mk _) hwrites))
    have hwaits := keyWrite_waits
    rw [if_pos rfl] at hexec
    simp only [hexec, beq_iff_eq, retires_counts hretires] at hwaits
    exact absurd hwaits (Nat.succ_ne_zero _)
  next => cases hreach

end Sys2Proof.Machine
end

section
/-!
PROOFS. Levels and exceptions, first part: retiring inside a customer instruction (R220, R225), and an escalation with a held
control-space write (R60, R84, R180, R185).
-/
namespace Sys2Proof.Machine

/-! Retirement is a boundary of the microcode too. -/

/-- A core in a customer instruction that waits for a remote repair. -/
def midCore : Core := { Core.cold with mid := true }

/-- Refutes O6: the statement names the PC, the count, the entry in progress, the budget and the windows as all that
retiring changes, but it also ends a customer instruction under way: a core in the middle of one stands at a boundary once it
has retired (R220), where an activation of microcode that came meanwhile switches the banks (R225). -/
theorem not_retiringChangesOnlyTheCourse : ¬ Obligations.RetiringChangesOnlyTheCourse := by
  unfold Obligations.RetiringChangesOnlyTheCourse
  intro h
  obtain ⟨-, -, -, -, -, hframe⟩ := h midCore 0 0 none
  have hmid : false = true := congrArg Core.mid hframe
  exact absurd hmid Bool.false_ne_true

/-! The unit of State.svcHeld, with its held write to CT of level 0, meets an unassigned word: only vector 0 and that of SVC
have valid entries. -/

/-- ILLEGAL_OPCODE of the word 0. -/
def unassignedExc : Exc := ⟨vILLEGAL_OPCODE, 0, none, false, false, false⟩

theorem svcHeld_unmapped : (State.svcHeld.vecEntry ctHeld.vbr vILLEGAL_OPCODE).2 = none := by decide +kernel

theorem svcHeld_guard : ((State.svcHeld.vecEntry ctHeld.vbr vILLEGAL_OPCODE).1.vecEntry ctHeld.vbr 0).2 = some 0 := by
  decide +kernel

theorem svcHeld_escr : escOf ctHeld vILLEGAL_OPCODE none = 3 := by decide

/-- The entry of G puts the held write into effect: CT of level 0 is 3. -/
theorem svcHeld_escalated :
    fld (((State.svcHeld.takeExc 0 ctHeld unassignedExc 0).core 0).bank 0).psw 36 35 = 3 := by decide +kernel

/-- Refutes O22: the statement says that no bank but that of G changes, but the entry is a synchronising event (R180), and a
write to CT of the PSW of the level that is left, which control space still holds, takes effect with it (R60, R84). -/
theorem not_escalationToTheGuardLevel : ¬ Obligations.EscalationToTheGuardLevel := by
  unfold Obligations.EscalationToTheGuardLevel
  intro h
  have hescr := svcHeld_escr
  obtain ⟨-, -, -, -, -, -, -, -, -, -, -, -, hbanks⟩ := h 0 State.svcHeld _ _ ctHeld unassignedExc 0 0 none (by decide)
    (Prod.mk.eta.symm.trans (congrArg (Prod.mk _) svcHeld_unmapped)) (hescr.trans_ne (by decide)) (hescr.trans_ne (by decide))
    (Prod.mk.eta.symm.trans (congrArg (Prod.mk _) svcHeld_guard)) (by decide) (by decide) 0 (mem_unitCores _ _)
  have hct := svcHeld_escalated
  rw [hbanks 0 (by decide)] at hct
  exact absurd hct (by decide)

end Sys2Proof.Machine
end

section
/-!
PROOFS. Levels and exceptions, second part: the entry of a level for an exception (R180, R183, R185).
-/
namespace Sys2Proof.Machine

variable {s t : State}

/-! What a report, a vector read and trace leave of the device. -/

theorem State.Told.unitCores (h : s.Told t) (e : Nat) : t.unitCores e = s.unitCores e :=
  unitCores_eq_of_slots (fun _ _ => h.rd _) e

theorem State.Told.free (h : s.Told t) : t.free = s.free := by obtain ⟨_, _, rfl⟩ := h; rfl

/-- A report changes no vector entry. -/
theorem State.Told.vecEntry (h : s.Told t) (vbr : Word) (v : Nat) : (t.vecEntry vbr v).2 = (s.vecEntry vbr v).2 := by
  obtain ⟨f, a, rfl⟩ := h
  have harea (pa : Nat) : State.area { s with fmu := f, async := a } pa = s.area pa := rfl
  have hword (pa : Nat) : State.memWord { s with fmu := f, async := a } pa = s.memWord pa := rfl
  unfold State.vecEntry
  simp only [harea, hword]
  split
  · split_ifs <;> rfl
  · split_ifs <;> rfl
  · rfl

theorem vecEntry_told (s : State) (vbr : Word) (v : Nat) : s.Told (s.vecEntry vbr v).1 := by
  have hcarve (pa : Nat) : s.Told (s.carveout pa) := by
    unfold State.carveout
    split
    · exact s.alarm_told ..
    · exact s.alarm_told ..
    · exact .refl s
  unfold State.vecEntry
  dsimp only
  split
  · split_ifs <;> exact .refl s
  · split_ifs <;> exact .refl s
  · exact hcarve _

theorem trcExc_quiet (s : State) (e vec lev : Nat) (rpc : Word) : (s.trcExc e vec lev rpc).Quiet s := by
  unfold State.trcExc
  split
  · exact .refl s
  · exact (trcEmit_quiet ..).trans (trcBegin_quiet ..)

/-- The cores of a unit after one core state was written to them and the entry was traced. -/
theorem trcExc_setCores_core (s : State) (e vec lev : Nat) (rpc : Word) {es : List Nat} {k : Nat} (c : Core) (hk : k ∈ es) :
    ((s.setCores es c).trcExc e vec lev rpc).core k = c :=
  ((trcExc_quiet ..).core k).trans ((s.core_setCores es c k).trans (if_pos hk))

/-! The fields of CORE_LINFO (R183). -/

section
variable {vec lret escr fvec : Nat} {q : Exc} {chain : Bool}

theorem linfoWord_vec (h : vec < 256) : fld (linfoWord vec lret escr q chain fvec) 63 56 = vec := by
  unfold linfoWord
  simp only [fld_setFld_ne, fld_setFld, Nat.reduceLeDiff, Nat.reduceLT, or_true, Nat.reduceAdd, Nat.reduceSub]
  exact Nat.mod_eq_of_lt h

theorem linfoWord_escr (h : escr < 8) : fld (linfoWord vec lret escr q chain fvec) 50 48 = escr := by
  unfold linfoWord
  simp only [fld_setFld_ne, fld_setFld, Nat.reduceLeDiff, Nat.reduceLT, or_true, Nat.reduceAdd, Nat.reduceSub]
  exact Nat.mod_eq_of_lt h

theorem linfoWord_detail (h : q.detail < 2 ^ 32) : fld (linfoWord vec lret escr q chain fvec) 31 0 = q.detail := by
  unfold linfoWord
  rw [fld_setFld _ _ _ _ (by decide) (by decide)]
  exact Nat.mod_eq_of_lt h

end

/-- The source of a machine check is the upper half of its DETAIL. -/
theorem fld_source (w : Word) : fld w 31 16 = fld w 31 0 / 2 ^ 16 := by
  simp only [fld, Nat.reduceAdd, Nat.reduceSub, Nat.reducePow]
  omega

theorem fld_restart (w : Word) : fld w 0 0 = fld w 31 0 % 2 := by
  simp only [fld, Nat.reduceAdd, Nat.reduceSub, Nat.reducePow]
  omega

/-! The core that has taken an exception. -/

/-- The core that enters level k by the vector entry ent for the exception q, with the reported PC rpc. -/
def Core.takes (c : Core) (free k : Nat) (ent : Word) (escr : Nat) (q : Exc) (rpc : Word) : Core :=
  c.entered free k ent ⟨rpc, tCODE⟩ (linfoWord q.vec c.lev escr q false 0) q.addr c.lev q.vec

theorem takes_facts (c : Core) (free k : Nat) (ent : Word) (escr : Nat) (q : Exc) (rpc : Word) :
    let d := c.takes free k ent escr q rpc
    d.lev = k ∧ d.pc = setFld 0 41 2 (fld ent 41 2) ∧
      d.link k = ⟨⟨rpc, tCODE⟩, linfoWord q.vec c.lev escr q false 0, BitVec.ofNat 64 (q.addr.getD 0)⟩ :=
  ⟨enter_lev .., enter_pc .., enter_link ..⟩

section
variable {u : State} {e : Nat} {c : Core} {q : Exc} {rpc ent : Word} {k : Nat} (hlev : c.lev < 16) (hk : k ∈ s.unitCores e)
include hlev hk

/-- An exception is delivered to the level of its vector entry, in every core of the unit (R180). -/
theorem takeExc_delivered (hvec : s.vecEntry c.vbr q.vec = (u, some ent)) (hesc : escOf c q.vec (some ent) = 0) :
    (s.takeExc e c q rpc).core k = c.takes s.free (fld ent 63 60) ent 0 q rpc := by
  have hfree : u.free = s.free := (congrArg (·.1.free) hvec).symm.trans (vecEntry_told ..).free
  unfold State.takeExc
  simp only [if_neg hlev.ne, hvec, hesc, if_true, Option.getD_some, hfree]
  exact trcExc_setCores_core _ _ _ _ _ _ hk

/-- A machine check goes to G, whatever its own vector entry (R185). -/
theorem takeExc_machineCheck (hvec : q.vec = vMACHINE_CHECK) (hguard : (s.vecEntry c.vbr 0).2 = some ent) :
    (s.takeExc e c q rpc).core k = c.takes s.free 16 ent 5 q rpc := by
  have htold := vecEntry_told s c.vbr q.vec
  have hesc : escOf c q.vec (s.vecEntry c.vbr q.vec).2 = 5 := if_pos hvec
  have hentry := (htold.vecEntry c.vbr 0).trans hguard
  have hfree := (vecEntry_told _ c.vbr 0).free.trans htold.free
  unfold State.takeExc
  simp only [if_neg hlev.ne, hesc, hentry, hfree, if_neg (show (5 : Nat) ≠ 0 by decide),
    show ((5 : Nat) == 4) = false from rfl]
  split
  case h_1 hfour => cases hfour
  case h_2 => exact trcExc_setCores_core _ _ _ _ _ _ hk

end

/-! A machine check (R189, R395). -/

/-- The machine check of a source, with its code and its restart bit as DETAIL. -/
def machineCheckExc (src : Nat) : Exc := ⟨vMACHINE_CHECK, src * 65536 + restartBit src, none, false, false, false⟩

theorem restartBit_lt (src : Nat) : restartBit src < 2 := by
  unfold restartBit
  split <;> decide

/-- Outside a unit's control stores, a machine check is reported, and taken with its source and restart bit as DETAIL. -/
theorem machineCheck_core {e src : Nat} {c : Core} {rpc ent : Word}
    (hstore : ¬(0x0101 ≤ src ∧ src ≤ 0x0104)) (hlev : c.lev < 16) (hguard : (s.vecEntry c.vbr 0).2 = some ent) {k : Nat}
    (hk : k ∈ s.unitCores e) :
    (s.machineCheck e c src (restartBit src) rpc).core k =
      c.takes s.free 16 ent 5 (machineCheckExc src) rpc := by
  have hunit : ¬(0x0101 ≤ src ∧ src ≤ 0x0104 ∧ (s.unitOf e).isSome) := fun h => hstore ⟨h.1, h.2.1⟩
  have hsecond : (decide (0x0101 ≤ src) && decide (src ≤ 0x0104)) = false := by
    simpa only [Bool.and_eq_false_imp, decide_eq_true_eq, decide_eq_false_iff_not, not_and] using hstore
  have htold := s.alarm_told sgMACHINE_CHECK (s.locOfExec e) (detExc (src * 65536 + restartBit src) vMACHINE_CHECK)
  unfold State.machineCheck
  simp only [if_neg hunit, hsecond, Bool.false_and, Bool.false_eq_true, if_false]
  rw [takeExc_machineCheck hlev (by rwa [htold.unitCores]) rfl ((htold.vecEntry ..).trans hguard), htold.free]
  rfl

/-- CORE_LINFO of a machine check holds its source and its restart bit (R183, R189). -/
theorem linfoWord_machineCheck {src lret : Nat} (hsrc : src < 0x8000) :
    let i := linfoWord vMACHINE_CHECK lret 5 (machineCheckExc src) false 0
    fld i 31 16 = src ∧ fld i 0 0 = restartBit src := by
  have hbit := restartBit_lt src
  have hdetail : (machineCheckExc src).detail = src * 65536 + restartBit src := rfl
  intro i
  have hi : fld i 31 0 = src * 65536 + restartBit src := linfoWord_detail (by omega)
  rw [fld_source, fld_restart, hi]
  omega

theorem levelEntry_machineCheck {e : Fin 256} {src addr : Nat} {ent : Word} (hgo : s.checkable e = true) (hsrc : src < 0x8000)
    (hstore : ¬(0x0101 ≤ src ∧ src ≤ 0x0104)) (hlev : (s.core e).lev < 16)
    (hguard : (s.vecEntry (s.core e).vbr 0).2 = some ent) :
    Completes (.levelEntry e (.machineCheck src addr)) s fun t => ∀ k ∈ s.unitCores e,
      let d := t.core k
      let i := (d.link 16).linfo
      d.lev = 16 ∧ d.pc = setFld 0 41 2 (fld ent 41 2) ∧ (d.link 16).lpc = ⟨(s.core e).pc, tCODE⟩ ∧
      fld i 63 56 = vMACHINE_CHECK ∧ fld i 50 48 = 5 ∧ fld i 31 16 = src ∧ fld i 0 0 = restartBit src := by
  refine ⟨_, rfl, fun k hk => ?_⟩
  have hcore := machineCheck_core (c := { s.core e with act := .run }) (rpc := (s.core e).pc) hstore hlev hguard hk
  obtain ⟨hlev', hpc, hlink⟩ := takes_facts { s.core e with act := .run } s.free 16 ent 5 (machineCheckExc src) (s.core e).pc
  obtain ⟨hsource, hrestart⟩ := linfoWord_machineCheck (lret := (s.core e).lev) hsrc
  simp only [hgo, Bool.not_true, Bool.false_eq_true, if_false, if_neg hstore]
  rw [hcore, hlev', hpc, hlink]
  exact ⟨rfl, rfl, rfl, linfoWord_vec (show vMACHINE_CHECK < 256 by decide), linfoWord_escr (by decide), hsource, hrestart⟩

/-! BUDGET_EXCEEDED (R176, R189, R247). -/

/-- BUDGET_EXCEEDED is delivered to its level above level 0 when that level is not masked, also during an entry (R185). -/
theorem escOf_budget {c : Core} {ent : Word} (habove : c.lev < fld ent 63 60)
    (hmask : masked c.lmask c.cur.psw (fld ent 63 60) = false) : escOf c vBUDGET_EXCEEDED (some ent) = 0 := by
  have hentering : (c.entering.isSome && vBUDGET_EXCEEDED != vSVC && vBUDGET_EXCEEDED != vBUDGET_EXCEEDED) = false :=
    Bool.and_eq_false_imp.mpr fun _ => rfl
  unfold escOf
  simp only [if_neg (show vBUDGET_EXCEEDED ≠ vMACHINE_CHECK by decide),
    if_neg (show vBUDGET_EXCEEDED ≠ vSHADOW_MISMATCH by decide), hentering, if_neg (Nat.not_le.mpr habove), hmask,
    Bool.false_eq_true, if_false]

/-- An entry leaves the budget as the charge for it has made it, and BUDGET_EXCEEDED armed or not. -/
theorem takes_budget (c : Core) (free k : Nat) (ent : Word) (escr : Nat) (q : Exc) (rpc : Word) :
    let d := c.takes free k ent escr q rpc
    d.budget = (c.charge (chargeOf c free 12)).budget ∧ d.armed = c.armed := by
  have hheld (c : Core) (h : Held) : (c.applyHeld h).budget = c.budget ∧ (c.applyHeld h).armed = c.armed := by
    unfold Core.applyHeld
    split <;> exact ⟨rfl, rfl⟩
  have hsync (c : Core) : c.sync.budget = c.budget ∧ c.sync.armed = c.armed :=
    foldl_rel (fun c d : Core => d.budget = c.budget ∧ d.armed = c.armed) (fun _ => ⟨rfl, rfl⟩)
      (fun _ _ _ h h' => ⟨h'.1.trans h.1, h'.2.trans h.2⟩) Core.applyHeld hheld c.held c
  have hcharge : (c.charge (chargeOf c free 12)).armed = c.armed := by
    unfold Core.charge
    split <;> rfl
  simp only [Core.takes, Core.entered, Core.enter, hsync]
  exact ⟨rfl, hcharge⟩

/-- BUDGET_EXCEEDED of a core, with OVER as DETAIL. -/
def budgetExc (c : Core) : Exc := ⟨vBUDGET_EXCEEDED, fld c.budget 63 32, none, false, false, false⟩

/-- A core with BUDGET_EXCEEDED no longer armed. -/
def Core.disarmed (c : Core) : Core := { c with armed := false }

theorem disarmed_charge_budget (c : Core) (n : Nat) : (c.disarmed.charge n).budget = (c.charge n).budget := by
  unfold Core.charge Core.disarmed
  cases c.ctx <;> rfl

theorem budgetDue_lev {e : Nat} (h : s.budgetDue e = true) : (s.core e).lev = 0 := by
  simp only [State.budgetDue, Bool.and_eq_true, beq_iff_eq] at h
  exact h.1.1.1.1

theorem budgetExceeded_enters {e : Fin 256} {u : State} {ent : Word} (hgo : s.canIssue e = true)
    (hdue : s.budgetDue e = true) (hvec : s.vecEntry (s.core e).vbr vBUDGET_EXCEEDED = (u, some ent))
    (habove : 0 < fld ent 63 60) (hmask : masked (s.core e).lmask (s.core e).cur.psw (fld ent 63 60) = false) :
    Completes (.budgetExceeded e) s fun t => ∀ k ∈ s.unitCores e,
      let d := t.core k
      let l := fld ent 63 60
      d.lev = l ∧ d.pc = setFld 0 41 2 (fld ent 41 2) ∧ (d.link l).lpc = ⟨(s.core e).pc, tCODE⟩ ∧
      fld (d.link l).linfo 63 56 = vBUDGET_EXCEEDED ∧ fld (d.link l).linfo 31 0 = fld (s.core e).budget 63 32 ∧
      d.armed = false ∧ d.budget = ((s.core e).charge (chargeOf (s.core e) s.free 12)).budget := by
  have hlev : (s.core e).disarmed.lev = 0 := budgetDue_lev hdue
  have hcond : (s.canIssue e && s.budgetDue e) = true := Bool.and_eq_true_iff.mpr ⟨hgo, hdue⟩
  refine ⟨s.takeExc e (s.core e).disarmed (budgetExc (s.core e)) (s.core e).pc, congrArg _ (if_pos hcond), fun k hk => ?_⟩
  rw [takeExc_delivered (q := budgetExc _) (hlev.trans_lt (by decide)) hk hvec (escOf_budget (hlev.trans_lt habove) hmask)]
  obtain ⟨hlev', hpc, hlink⟩ := takes_facts (s.core e).disarmed s.free (fld ent 63 60) ent 0 (budgetExc (s.core e))
    (s.core e).pc
  obtain ⟨hbudget, harmed⟩ := takes_budget (s.core e).disarmed s.free (fld ent 63 60) ent 0 (budgetExc (s.core e))
    (s.core e).pc
  dsimp only
  rw [hlev', hpc, hlink]
  exact ⟨rfl, rfl, rfl, linfoWord_vec (show vBUDGET_EXCEEDED < 256 by decide), linfoWord_detail (fld_lt ..), harmed,
    hbudget.trans (disarmed_charge_budget _ _)⟩

end Sys2Proof.Machine
end

section
/-!
PROOFS. Levels and exceptions, third part: requests (R176, R191), the causes of LEVEL_ENTRY (R149, R238, R245), and the
statement on both.
-/
namespace Sys2Proof.Machine

variable {s t : State}

/-! A request becomes pending (R191). -/

/-- A raised request reaches no core outside the unit. -/
theorem State.raise_others {e k : Nat} (i d : Nat) (hk : k ∉ s.unitCores e) :
    sget Async.cold (s.raise i d e).async k = sget Async.cold s.async k := by
  refine List.foldlRecOn (motive := fun t : State => sget Async.cold t.async k = sget Async.cold s.async k) _ _ rfl
    fun t ht a ha => ?_
  have hne : k ≠ a := fun h => hk (h ▸ ha)
  simpa only [State.raiseOne, sget_sset, if_neg hne] using ht

/-- SCHED_MESSAGE and MP_NOTIFY, with the request that each makes. -/
theorem exec_request {e : Fin 256} {code : BitVec 32} {p : Instr × Nat} (hgo : s.listens e = true)
    (hp : p = (.schedMessage e code, 1) ∨ p = (.mpNotify e code, 3)) :
    p.2 < 64 ∧ exec p.1 s = .next (s.raise p.2 code.toNat e) := by
  rcases hp with rfl | rfl
  · exact ⟨Nat.lt_of_sub_eq_succ rfl, congrArg _ (if_pos hgo)⟩
  · exact ⟨Nat.lt_of_sub_eq_succ rfl, congrArg _ (if_pos hgo)⟩

theorem request_pends {e : Fin 256} {code : BitVec 32} {p : Instr × Nat} (hgo : s.listens e = true)
    (hp : p = (.schedMessage e code, 1) ∨ p = (.mpNotify e code, 3)) :
    Completes p.1 s fun t => { t with async := s.async } = s ∧ ∀ k, if k ∈ s.unitCores e
      then bit (sget Async.cold t.async k).pend p.2 = true ∧ sget 0 (sget Async.cold t.async k).detail p.2 = code.toNat
      else sget Async.cold t.async k = sget Async.cold s.async k := by
  obtain ⟨hi, hexec⟩ := exec_request hgo hp
  obtain ⟨hbeside, hpend⟩ := s.raise_pends p.2 code.toNat e hi
  refine ⟨_, hexec, hbeside, fun k => ?_⟩
  split
  · next hk => exact hpend k hk
  · next hk => exact State.raise_others _ _ hk

/-! A request is taken (R176, R180). -/

/-- The request that is picked is one of the six, and its level lies above the current one (R174). -/
theorem pick_spec {e lv i : Nat} {lmask psw vbr ent : Word} (h : s.pick e lmask lv psw vbr = some (i, ent)) :
    i < 6 ∧ lv < fld ent 63 60 := by
  refine List.foldlRecOn (motive := fun best : Option (Nat × Word) =>
    ∀ r, best = some r → r.1 < 6 ∧ lv < fld r.2 63 60) _ _ (fun _ hnone => by cases hnone) (fun best hbest j hj => ?_) _ h
  have hj6 : j < 6 := List.mem_range.mp hj
  dsimp only
  split
  · exact hbest
  split
  · exact hbest
  · next w _ =>
    split
    · exact hbest
    · next hmask =>
      have habove : lv < fld w 63 60 := by
        simp only [Bool.or_eq_true, decide_eq_true_eq, not_or, not_le] at hmask
        exact hmask.1
      have htakes (r : Nat × Word) (hr : some (j, w) = some r) : r.1 < 6 ∧ lv < fld r.2 63 60 := by
        cases hr
        exact ⟨hj6, habove⟩
      split
      · split
        · exact htakes
        · exact hbest
      · exact htakes

theorem requestDue_spec {e i : Nat} {ent : Word} (h : s.requestDue e = some (i, ent)) :
    i < 6 ∧ (s.core e).lev < fld ent 63 60 := by
  unfold State.requestDue at h
  dsimp only at h
  split at h
  · cases h
  · exact pick_spec h

/-- The request that is taken is no longer pending on any core of the unit (R191). -/
theorem clearReq_pend {i e k : Nat} (hi : i < 64) (hk : k ∈ s.unitCores e) :
    bit (sget Async.cold (s.clearReq i e).async k).pend i = false := by
  have hfold := foldl_establishes (fun k (t : State) => bit (sget Async.cold t.async k).pend i = false)
    (fun (u : State) k =>
      let a := sget Async.cold u.async k
      { u with async := sset Async.cold u.async k ⟨setBit a.pend i false, sset 0 a.detail i 0⟩ })
    (fun t a => by simp [bit_setBit _ _ _ _ hi hi])
    (fun t a b hb => by
      simp only [sget_sset]
      split
      · exact (bit_setBit _ _ _ _ hi hi).trans (if_pos rfl)
      · exact hb) (s.unitCores e) s k hk
  unfold State.clearReq
  dsimp only
  split <;> exact hfold

theorem State.Quiet.async (h : t.Quiet s) : t.async = s.async := by
  have := congrArg State.async h.1.1
  exact this

/-- A request that core c takes at its PC enters its level on every core of the unit, and is cleared. -/
theorem takeAsync_enters {e i k : Nat} {c : Core} {ent rpc : Word} (hi : i < 64) (hk : k ∈ s.unitCores e) :
    let t := s.takeAsync e c i ent rpc c.lev none
    t.core k = c.takes s.free (fld ent 63 60) ent 0 (s.asyncExc e i) rpc ∧
    bit (sget Async.cold t.async k).pend i = false := by
  intro t
  let u := s.takeFree.setCores (s.unitCores e) (c.takes s.free (fld ent 63 60) ent 0 (s.asyncExc e i) rpc)
  have hquiet : t.Quiet (u.clearReq i e) := trcExc_quiet ..
  have hunit : u.unitCores e = s.unitCores e := unitCores_eq_of_slots (fun _ _ => rfl) e
  constructor
  · rw [hquiet.core, (clearReq_sameUnits u i e).core]
    exact (State.core_setCores ..).trans (if_pos hk)
  · rw [hquiet.async]
    exact clearReq_pend hi (hunit ▸ hk)

theorem exec_levelEntry_request {e : Fin 256} {i : Nat} {ent : Word} (hgo : s.atBoundary e = true)
    (hbudget : s.budgetDue e = false) (hdue : (s.dropInvalid e).requestDue e = some (i, ent)) :
    let u := s.dropInvalid e
    exec (.levelEntry e .request) s = .next (u.takeAsync e (u.core e) i ent (u.core e).pc (u.core e).lev none) := by
  show execLevelEntry e .request s = _
  simp only [execLevelEntry, hgo, hbudget, hdue, Bool.not_true, Bool.or_self, Bool.false_eq_true, if_false]

theorem levelEntry_request {e : Fin 256} {i : Nat} {ent : Word} (hgo : s.atBoundary e = true) (hbudget : s.budgetDue e = false)
    (hdue : (s.dropInvalid e).requestDue e = some (i, ent)) :
    let u := s.dropInvalid e
    Completes (.levelEntry e .request) s fun t => ∀ k ∈ u.unitCores e,
      let d := t.core k
      let l := fld ent 63 60
      d.lev = l ∧ d.pc = setFld 0 41 2 (fld ent 41 2) ∧ (d.link l).lpc = ⟨(u.core e).pc, tCODE⟩ ∧
      fld (d.link l).linfo 63 56 = 0x20 + i ∧ fld (d.link l).linfo 55 51 = (u.core e).lev ∧
      bit (sget Async.cold t.async k).pend i = false := by
  intro u
  obtain ⟨hi, habove⟩ : i < 6 ∧ (u.core e).lev < fld ent 63 60 := requestDue_spec hdue
  have hlev32 : (u.core e).lev < 32 := habove.trans ((fld_lt ent 63 60).trans (by decide))
  refine ⟨_, exec_levelEntry_request hgo hbudget hdue, fun k hk => ?_⟩
  obtain ⟨hcore, hpend⟩ := takeAsync_enters (c := u.core e) (ent := ent) (rpc := (u.core e).pc) (show i < 64 by omega) hk
  obtain ⟨hlev, hpc, hlink⟩ := takes_facts (u.core e) u.free (fld ent 63 60) ent 0 (u.asyncExc e i) (u.core e).pc
  dsimp only
  rw [hcore, hlev, hpc, hlink]
  exact ⟨rfl, rfl, rfl, linfoWord_vec (show 0x20 + i < 256 by omega), linfoWord_lret hlev32, hpend⟩

/-! The exceptions of the next instruction (R148, R149). -/

theorem levelEntry_unassigned {e : Fin 256} {w : BitVec 32} (hgo : s.issuesNow e = true) (hstep : s.stepping e = false) :
    Completes (.levelEntry e (.unassigned w)) s fun t =>
      Raises s t e (s.start e w.toNat) ⟨vILLEGAL_OPCODE, w.toNat, none, false, false, false⟩ := by
  have hfree := (preTrace_quiet s e).free
  have hrun : s.runIns e w.toNat false (pure ()) =
      (finishOp e s.free (illegal (s.start e w.toNat))).postTrace (s.core e) e w.toNat (s.stepping e) := by
    simp only [State.runIns, hgo, Bool.not_true, Bool.not_false, Bool.false_eq_true, if_false, if_true, State.around, hstep,
      Bool.false_and, hfree]
    rfl
  refine ⟨_, rfl, ?_⟩
  dsimp only
  rw [hrun]
  exact postTrace_quiet _ _ _ _ _

theorem levelEntry_fetch {e : Fin 256} {q : Exc} {z : Cx} (hgo : s.issuesNow e = true)
    (hfault : fetchOp (s.startCx e 0 4) = .error (.exc q) z) (hafter : q.after = false) (hvec : q.vec ≠ vMACHINE_CHECK) :
    Completes (.levelEntry e .fetch) s fun t => Raises s t e z q := by
  refine ⟨z.s.takeExc e (z.c.leaveMid.charge (z.charged s.free z.xcost)) q z.ipc, ?_, .refl _, rfl⟩
  show Host.Outcome.next (if s.issuesNow e then s.probe e fetchOp else s) = _
  rw [if_pos hgo, State.probe, hfault]
  simp only [finishOp, hafter, if_neg hvec, Bool.false_eq_true, if_false]

/-! Uncorrectable errors (R238, R245). -/

theorem poisonWords_one (u : State) (i : Nat) : u.poisonWords i 1 = { u with tags := sset tRAW u.tags i tPOISON } := rfl

/-- Marking words one by one changes the tags alone, and every one of them is POISON afterwards (R66). -/
theorem poisonWords_each (s : State) (ws : List Nat) :
    let t := ws.foldl (fun (u : State) pa => u.poisonWords (pa / 8) 1) s
    t.mem = s.mem ∧ t.cores = s.cores ∧ ∀ pa ∈ ws, sget tRAW t.tags (pa / 8) = tPOISON := by
  simp only [poisonWords_one]
  refine ⟨foldl_keeps State.mem _ (fun _ _ => by rfl) ws s, foldl_keeps State.cores _ (fun _ _ => by rfl) ws s,
    fun pa hpa => ?_⟩
  refine foldl_establishes (fun pa (t : State) => sget tRAW t.tags (pa / 8) = tPOISON) _ (fun u a => ?_) (fun u a b hb => ?_)
    ws s pa hpa
  · simp only [sget_sset, if_true]
  · simp only [sget_sset, hb, ite_self]

/-- An error in a cache marks the words of working storage among those it affects. -/
theorem cacheUe_eq (s : State) (e : Nat) (ws : List Nat) : s.cacheUe e ws = if (ws.filter s.physOk).isEmpty then s
    else ((ws.filter s.physOk).foldl (fun (u : State) pa => u.poisonWords (pa / 8) 1) s).alarm sgMEM_UE (s.locCore e) 0 := by
  unfold State.cacheUe
  rw [List.filter_congr (q := s.physOk)]
  intro pa _
  unfold State.physOk
  cases s.area pa <;> rfl

theorem mem_filter_physOk {ws : List Nat} {pa : Nat} (hpa : pa ∈ ws) (harea : s.area pa = .own ∨ s.area pa = .unmirrored) :
    pa ∈ ws.filter s.physOk := by
  refine List.mem_filter.mpr ⟨hpa, ?_⟩
  simpa only [State.physOk, Bool.or_eq_true, decide_eq_true_eq] using harea

theorem levelEntry_cacheError {e : Fin 256} {ws : List Nat} :
    Completes (.levelEntry e (.cacheError ws)) s fun t => t.mem = s.mem ∧ t.cores = s.cores ∧
      ∀ pa ∈ ws, s.area pa = .own ∨ s.area pa = .unmirrored → sget tRAW t.tags (pa / 8) = tPOISON := by
  refine ⟨s.cacheUe e ws, rfl, ?_⟩
  rw [cacheUe_eq]
  split
  · next hnone =>
    refine ⟨rfl, rfl, fun pa hpa harea => ?_⟩
    have hin := mem_filter_physOk hpa harea
    rw [List.isEmpty_iff.mp hnone] at hin
    cases hin
  · obtain ⟨hmem, hcores, htags⟩ := poisonWords_each s (ws.filter s.physOk)
    rw [State.alarm_mem, State.alarm_cores, State.alarm_tags]
    exact ⟨hmem, hcores, fun pa hpa harea => htags pa (mem_filter_physOk hpa harea)⟩

/-- The core with TCM word i marked POISON. -/
def Core.poisonTcm (i : Nat) (c : Core) : Core :=
  { c with tcm := sset raw0 c.tcm i { sget raw0 c.tcm i with tag := tPOISON } }

theorem poisonTcm_idem (i : Nat) (c : Core) : (c.poisonTcm i).poisonTcm i = c.poisonTcm i := by
  simp [Core.poisonTcm]

theorem tcmUe_eq {e i : Nat} (hi : i < 32768) : s.tcmUe e i = { s with
    cores := (s.unitCores e).foldl (fun m k => sset Core.cold m k ((sget Core.cold m k).poisonTcm i)) s.cores } := by
  unfold State.tcmUe
  rw [if_pos hi]
  refine List.foldl_hom (fun m => { s with cores := m }) ?_
  exact fun _ _ => rfl

theorem levelEntry_tcmError {e : Fin 256} {i : Nat} (hi : i < 32768) :
    Completes (.levelEntry e (.tcmError i)) s fun t => { t with cores := s.cores } = s ∧
      ∀ k ∈ s.unitCores e, sget raw0 (t.core k).tcm i = ⟨(sget raw0 (s.core k).tcm i).val, tPOISON⟩ := by
  refine ⟨s.tcmUe e i, rfl, ?_⟩
  rw [tcmUe_eq hi]
  refine ⟨rfl, fun k hk => ?_⟩
  rw [State.core, sget_foldl_update _ _ (poisonTcm_idem i), if_pos hk]
  exact (sget_sset ..).trans (if_pos rfl)

/-- Settles O42, command by command: each clause is the lemma on what its command does. -/
theorem levelEntriesAndRequests : Obligations.LevelEntriesAndRequests := by
  unfold Obligations.LevelEntriesAndRequests
  intro e s c
  refine ⟨fun hgo _ _ hp => request_pends hgo hp, fun hgo hbudget _ _ => levelEntry_request hgo hbudget,
    fun _ _ _ hgo hsrc hstore hlev hguard => levelEntry_machineCheck hgo hsrc hstore hlev hguard,
    fun _ hgo hstep => levelEntry_unassigned hgo hstep, fun _ => levelEntry_cacheError, fun _ => levelEntry_tcmError,
    fun _ _ hgo hfault hafter hvec => levelEntry_fetch hgo hfault hafter hvec,
    fun _ _ hgo hdue hvec habove hmask => budgetExceeded_enters hgo hdue hvec habove hmask⟩

end Sys2Proof.Machine
end

section
/-!
PROOFS. The commands on units, images, credentials, Fawn mode, mailboxes, roles, the partner and the fabric (R464, R465):
how a command that has been taken ends, and what each of them does.
-/
namespace Sys2Proof.Machine

variable {s u : State} {src : OmiSrc} {rq : OmiReq} {env : OmiEnv}

/-! Parameters (R463). -/

theorem ofBytes_lt (bs : List Byte) : ofBytes bs < 256 ^ bs.length := by
  suffices h : ∀ a : Nat, bs.foldl (fun a b => a * 256 + b.toNat) a < (a + 1) * 256 ^ bs.length by
    simpa [ofBytes] using h 0
  induction bs with
  | nil => simp
  | cons b bs ih =>
    intro a
    have hb := b.isLt
    calc (b :: bs).foldl (fun a b => a * 256 + b.toNat) a
        < (a * 256 + b.toNat + 1) * 256 ^ bs.length := ih _
      _ ≤ ((a + 1) * 256) * 256 ^ bs.length := Nat.mul_le_mul_right _ (by omega)
      _ = (a + 1) * 256 ^ (b :: bs).length := by rw [List.length_cons, Nat.pow_succ']; ring

/-- A parameter of one byte. -/
theorem OmiReq.p_byte_lt (rq : OmiReq) (o : Nat) : rq.p o 1 < 2 ^ 8 := by
  have hlen : ((rq.params.drop o).take 1 ++
      List.replicate (1 - ((rq.params.drop o).take 1).length) (0 : Byte)).length = 1 := by
    simp only [List.length_append, List.length_take, List.length_replicate]; omega
  exact (ofBytes_lt _).trans_eq (by rw [hlen]; rfl)

/-! Fields of registers. -/

/-- A field reads a value that fits it. -/
theorem State.rf_wf_fits (s : State) (r : Reg) {hi lo v : Nat} (h : lo ≤ hi) (h64 : hi < 64) (hv : v < 2 ^ (hi + 1 - lo)) :
    (s.wf r hi lo v).rf r hi lo = v :=
  (s.rf_wf_same r hi lo v h h64).trans (Nat.mod_eq_of_lt hv)

/-- Another field of the register keeps its value. -/
theorem State.rf_wf_other (s : State) (r : Reg) (hi lo v hi' lo' : Nat)
    (h : lo ≤ hi ∧ hi < 64 ∧ hi' < 64 ∧ (hi' < lo ∨ hi < lo') := by decide) :
    (s.wf r hi lo v).rf r hi' lo' = s.rf r hi' lo' := by
  obtain ⟨hle, h64, h64', hapart⟩ := h
  exact s.rf_wf_apart r hi lo v hi' lo' hle h64 h64' hapart

theorem State.rf_modMp (s : State) (f : MpState → MpState) (r : Reg) (hi lo : Nat) :
    (s.modMp f).rf r hi lo = s.rf r hi lo := rfl

theorem State.rf_modFab (s : State) (f : Fab → Fab) (r : Reg) (hi lo : Nat) : (s.modFab f).rf r hi lo = s.rf r hi lo := rfl

theorem State.rf_modSched (s : State) (f : Sched → Sched) (r : Reg) (hi lo : Nat) :
    (s.modSched f).rf r hi lo = s.rf r hi lo := rfl

theorem State.rf_setMbx (s : State) (m : Nat) (x : Mbx) (r : Reg) (hi lo : Nat) :
    (s.setMbx m x).rf r hi lo = s.rf r hi lo := rfl

/-! The checks before a command, and its end (R458 to R463). -/

/-- A request is in order where its length is right and neither a reserved byte nor a range is at fault. -/
theorem OmiCmd.badAt_eq_none (c : OmiCmd) {range : OmiRange} (hlen : rq.params.length = c.plen) (hA : rq.rsvA = 0)
    (hB : rq.rsvB = 0) (hrsv : ∀ p ∈ c.rsv, bytesAt rq.params p.1 p.2 = 0) (hrange : ∀ x ∈ range, x.2 = false) :
    c.badAt rq range = none := by
  unfold OmiCmd.badAt
  rw [if_neg (not_not_intro hlen)]
  have hnone : (((0x0A, rq.rsvA != 0) :: (0x1C, rq.rsvB != 0) ::
      (c.rsv.map (fun p => prm p.1 (bytesAt rq.params p.1 p.2 != 0)) ++ range)).filter (·.2)) = [] := by
    rw [List.filter_eq_nil_iff]
    intro x hx
    simp only [List.mem_cons, List.mem_append, List.mem_map] at hx
    obtain rfl | rfl | ⟨p, hp, rfl⟩ | hx := hx
    · simp [hA]
    · simp [hB]
    · simp [prm, hrsv p hp]
    · simp [hrange x hx]
  dsimp only
  rw [hnone]
  rfl

/-- A command that has been taken passes the checks before every command if its parameters are in range. -/
theorem Taken.omiCheck {c : OmiCmd} {names : List Nat} {range : OmiRange}
    (h : Taken s u src rq c.cmd c.who c.fawn c.plen c.rsv names) (hrange : ∀ x ∈ range, x.2 = false) :
    u.omiCheck c src rq names range = none := by
  obtain ⟨_, hwho, hfawn, hlen, hA, hB, hrsv, hfree⟩ := h
  have hbusy : (u.mp.busy.any fun b => names.contains b.obj) = false := by
    simpa [List.any_eq_false] using hfree
  unfold State.omiCheck
  rw [c.badAt_eq_none hlen hA hB hrsv hrange, hbusy, if_neg (by simpa using hwho)]
  cases hf : u.fawn
  · rfl
  · rw [hfawn hf]; rfl

/-- A command that is not for a device in Fawn mode is taken by a device that is not in it. -/
theorem Taken.fawn_eq {cmd plen : Nat} {who : List OmiWho} {rsv : List (Nat × Nat)} {names : List Nat}
    (h : Taken s u src rq cmd who false plen rsv names) : u.fawn = false := by
  obtain ⟨_, _, hfawn, _⟩ := h
  exact Bool.eq_false_iff.mpr fun hf => Bool.false_ne_true (hfawn hf)

section
variable {i : Instr} (c : OmiCmd) {names : List Nat} {range : State → OmiRange} {body : State → OmiAns} {data : List Byte}
  {f : State → Prop}

/-- A command whose body is done answers OK, with the body's data. -/
theorem Taken.answers (hexec : exec i s = .next (s.omiRun c src rq names range body))
    (h : Taken s u src rq c.cmd c.who c.fawn c.plen c.rsv names) (hrange : ∀ x ∈ range u, x.2 = false)
    (hbody : ∃ v, body u = v.omiOk data ∧ f v) :
    Completes i s fun t => ∃ v, Answers t v src rq c.cmd c.keeps data ∧ f v := by
  obtain ⟨v, hv, hf⟩ := hbody
  refine ⟨_, hexec, v, ?_, hf⟩
  rw [State.omiRun, h.1]
  dsimp only
  rw [h.omiCheck hrange, hv]
  rfl

/-- A command whose body leaves the answer open stays BUSY, and holds the first object that it names. -/
theorem Taken.staysBusy (hexec : exec i s = .next (s.omiRun c src rq names range body))
    (h : Taken s u src rq c.cmd c.who c.fawn c.plen c.rsv names) (hrange : ∀ x ∈ range u, x.2 = false)
    (hbody : ∃ v, body u = ⟨v, none⟩ ∧ f v) :
    Completes i s fun t => ∃ v, StaysBusy t v src rq c.cmd (names.headD 0) ∧ f v := by
  obtain ⟨v, hv, hf⟩ := hbody
  refine ⟨_, hexec, v, ?_, hf⟩
  rw [State.omiRun, h.1]
  dsimp only
  rw [h.omiCheck hrange, hv]
  rfl
end

/-! Units and clusters. -/

/-- The locator that LOC names (R465). -/
abbrev OmiReq.loc (rq : OmiReq) : Loc := Loc.of (rq.p 0 4)

/-- LOC is a locator of this device at a DEPTH (R42, R465). -/
def State.LocHere (u : State) (rq : OmiReq) (d : Nat) : Prop :=
  u.locValid (rq.p 0 4) = true ∧ rq.loc.dev = u.devId ∧ rq.loc.depth = d

theorem State.LocHere.locArg_eq {d : Nat} (h : u.LocHere rq d) : u.locArg rq d = some rq.loc := by
  obtain ⟨hvalid, hdev, hdepth⟩ := h
  simp [State.locArg, hvalid, hdev, hdepth]

theorem State.slotX_modSlotX (s : State) (c sl : Nat) (f : SlotX → SlotX) :
    (s.modSlotX c sl f).slotX c sl = f (s.slotX c sl) := by
  simp [State.slotX, State.modSlotX]

/-- OMI_UNIT_MODE_SET in a MODE that the row handles: what it does with the slot that LOC names. -/
theorem unitMode_staysBusy {i : Instr} {mine : Nat → Bool} {body : State → Nat → Nat → OmiAns} {f : State → Prop}
    (hexec : exec i s = .next (s.unitMode src rq mine body)) (hmine : mine (rq.p 4 1) = true) (hmode : rq.p 4 1 ≤ 1)
    (h : Taken s u src rq 0x20 [.owner] false 16 [(5, 3)]
      [obSlot rq.loc.clusterDw rq.loc.slot, obCluster rq.loc.clusterDw])
    (hloc : u.LocHere rq 5) (hbody : ∃ v, body u rq.loc.clusterDw rq.loc.slot = ⟨v, none⟩ ∧ f v) :
    Completes i s fun t => ∃ v, StaysBusy t v src rq 0x20 (obSlot rq.loc.clusterDw rq.loc.slot) ∧ f v := by
  have hrun := hexec.trans (congrArg Host.Outcome.next (if_neg (by simp [hmine])))
  refine Taken.staysBusy _ hrun h (by simpa [prm] using hmode) ?_
  rwa [hloc.locArg_eq]

theorem omiUnitSplit_staysBusy
    (h : Taken s u src rq 0x20 [.owner] false 16 [(5, 3)]
      [obSlot rq.loc.clusterDw rq.loc.slot, obCluster rq.loc.clusterDw])
    (hloc : u.LocHere rq 5) (hmode : rq.p 4 1 = 1)
    (hslot : u.slotState rq.loc.clusterDw rq.loc.slot = slACTIVE) (hpair : u.cluMode rq.loc.clusterDw = 0)
    (hspare : bit (u.rd (.cluSlot rq.loc.clusterDw rq.loc.slot)) 27 = false) :
    Completes (.omiUnitSplit src rq env) s fun t => ∃ v, StaysBusy t v src rq 0x20 (obSlot rq.loc.clusterDw rq.loc.slot) ∧
      (v.slotX rq.loc.clusterDw rq.loc.slot).splitAt = some (rq.p 8 8) ∧ v.regs = u.regs := by
  refine unitMode_staysBusy rfl (by simp [hmode]) hmode.le h hloc ⟨_, if_neg (by simp [hslot, hpair, hspare]), ?_, rfl⟩
  rw [State.slotX_modSlotX]

theorem omiUnitRejoin_staysBusy
    (h : Taken s u src rq 0x20 [.owner] false 16 [(5, 3)]
      [obSlot rq.loc.clusterDw rq.loc.slot, obCluster rq.loc.clusterDw])
    (hloc : u.LocHere rq 5) (hmode : rq.p 4 1 = 0)
    (hslot : u.slotState rq.loc.clusterDw rq.loc.slot = slSPLIT ∨ u.slotState rq.loc.clusterDw rq.loc.slot = slHELD)
    (hcores : (u.slotCores rq.loc.clusterDw rq.loc.slot).all (fun e => u.coreState e != csRETIRED) = true) :
    Completes (.omiUnitRejoin src rq env) s fun t => ∃ v, StaysBusy t v src rq 0x20 (obSlot rq.loc.clusterDw rq.loc.slot) ∧
      (v.slotX rq.loc.clusterDw rq.loc.slot).rejoinAt = some (rq.p 8 8) ∧ v.regs = u.regs := by
  have hgone : ((u.slotCores rq.loc.clusterDw rq.loc.slot).filter fun e => u.coreState e == csRETIRED) = [] := by
    simpa [List.filter_eq_nil_iff] using hcores
  refine unitMode_staysBusy rfl (by simp [hmode]) (by omega) h hloc
    ⟨_, (if_neg (by simpa [not_and_or, or_iff_not_imp_left] using hslot)).trans (if_neg (by simp [hgone])), ?_, rfl⟩
  rw [State.slotX_modSlotX]

theorem omiClusterModeSet_staysBusy
    (h : Taken s u src rq 0x21 [.owner] false 8 [(5, 3)]
      (obCluster rq.loc.clusterDw :: (List.range 5).map (obSlot rq.loc.clusterDw)))
    (hloc : u.LocHere rq 4) (hmode : rq.p 4 1 ≤ 1)
    (hsplit : (List.range 5).all (fun i => u.slotState rq.loc.clusterDw i != slSPLIT) = true) :
    Completes (.omiClusterModeSet src rq env) s fun t => ∃ v, StaysBusy t v src rq 0x21 (obCluster rq.loc.clusterDw) ∧
      v.rf (.cluMode rq.loc.clusterDw) 1 1 = rq.p 4 1 ∧ v.cluMode rq.loc.clusterDw = u.cluMode rq.loc.clusterDw ∧
      (rq.loc.clusterDw, u.tick + 1) ∈ v.cluDrain := by
  refine Taken.staysBusy ⟨0x21, byOwner, false, false, 8, [(5, 3)]⟩ rfl h (by simpa [prm] using hmode) ?_
  rw [hloc.locArg_eq]
  refine ⟨_, if_neg (by simpa using hsplit), ?_, ?_, ?_⟩
  · exact u.rf_wf_fits _ le_rfl (by decide) (Nat.lt_succ_of_le hmode)
  · exact u.rf_wf_other _ 1 1 _ 0 0
  · have htick : (u.wf (.cluMode rq.loc.clusterDw) 1 1 (rq.p 4 1)).tick = u.tick := u.rf_wf_ne (by simp) ..
    simp [htick]

/-! Microcode, firmware, credentials. -/

/-- A fold of updates changes each of the listed cores once. -/
theorem State.core_foldl_modCore (g : Core → Core) {l : List Nat} (hl : l.Nodup) (s : State) (e : Nat) :
    (l.foldl (fun t k => t.modCore k g) s).core e = if e ∈ l then g (s.core e) else s.core e := by
  induction l generalizing s with
  | nil => rfl
  | cons k l ih =>
    obtain ⟨hk, hl⟩ := List.nodup_cons.mp hl
    rw [List.foldl_cons, ih hl, State.core_modCore]
    by_cases he : e = k
    · subst he; simp [hk]
    · simp [he]

theorem omiMicrocodeLoad_staysBusy (h : Taken s u src rq 0x22 [.owner] false 8 [] [obStores]) (hdma : env.dmaOk = true)
    (himg : imgReason ((u.mp.creds.find? fun k => k.kind == 2 && k.index == bytesAt (rq.data env) 0xC 4).map (·.key))
      (rq.data env) u.mp.ucode u.mp.image.isSome (decide (rq.p 0 8 < u.tick + 16)) = none) :
    Completes (.omiMicrocodeLoad src rq env) s fun t => ∃ v, StaysBusy t v src rq 0x22 obStores ∧
      v.mp.image = some (rq.p 0 8, rq.data env) ∧
      ∀ e < 256, u.clusterOn (e / 8) = true → u.coreState e ≠ csRETIRED → v.core e =
        (u.core e).storeImage ((freeBase u.mp.ucode (imgWords (rq.data env)).length).getD 0) (imgWords (rq.data env))
          (imgEntries (rq.data env)) := by
  have himg' : imgReason ((u.mp.creds.find? fun k => k.kind == 2 && k.index == bytesAt (rq.data env) 0xC 4).map (·.key))
      (rq.data env) (u.readBuffer src rq).mp.ucode ((u.readBuffer src rq).mp.image.isSome || (u.readBuffer src rq).fawn)
      (decide (rq.p 0 8 < (u.readBuffer src rq).tick + 16)) = none := by
    rw [show (u.readBuffer src rq).fawn = false from h.fawn_eq, Bool.or_false]
    exact himg
  refine Taken.staysBusy ⟨0x22, byOwner, false, false, 8, []⟩ rfl h (by simp) ?_
  dsimp only
  rw [if_neg (by simp [hdma]), himg']
  refine ⟨_, rfl, rfl, fun e he hon hret => ?_⟩
  exact (State.core_foldl_modCore _ (List.nodup_range.filter _) (u.readBuffer src rq) e).trans
    (if_pos (List.mem_filter.mpr ⟨List.mem_range.mpr he, by simpa using ⟨hon, hret⟩⟩))

theorem omiFirmwareUpdate_answers {img : FwImg} (h : Taken s u src rq 0x23 [.owner] false 0 [] []) (hdma : env.dmaOk = true)
    (hvalid : img.valid = true) (hroll : u.mp.antiRollback ≤ img.version) (hmin : img.minver ≤ img.version) :
    Completes (.omiFirmwareUpdate src rq env img) s fun t => ∃ v, Answers t v src rq 0x23 true [] ∧
      v.mp = { u.mp with fw := u.mp.fw.set (1 - u.mp.running) img } := by
  have hold : ¬ img.version < (u.readBuffer src rq).mp.antiRollback := Nat.not_lt.mpr hroll
  exact Taken.answers ⟨0x23, byOwner, false, true, 0, []⟩ rfl h (by simp)
    ⟨_, (if_neg (by simp [hdma])).trans (if_neg (by simp [hvalid, hold, hmin])), rfl⟩

theorem State.copyCreds_mp (s : State) : s.copyCreds.mp = s.mp := by
  unfold State.copyCreds
  split <;> rfl

/-- A credential takes the place of the one of its KIND and INDEX. -/
theorem Cred.mem_enrolled {creds : List Cred} {kind index key : Nat} :
    let l := creds.filter (fun c => !(c.kind == kind && c.index == index)) ++ [(⟨kind, index, key⟩ : Cred)]
    (⟨kind, index, key⟩ : Cred) ∈ l ∧ ∀ k ∈ l, k.kind = kind → k.index = index → k.key = key := by
  refine ⟨by simp, fun k hk hkind hindex => ?_⟩
  obtain hk | hk := List.mem_append.mp hk
  · simp [hkind, hindex] at hk
  · rw [List.mem_singleton.mp hk]

/-- The credential that the buffer brings: all of it but the signature, its last 96 bytes (R471). -/
abbrev OmiReq.credKey (rq : OmiReq) (env : OmiEnv) : Nat := ofBytes ((rq.data env).take ((rq.data env).length - 96))

theorem omiCredentialEnroll_answers {r : Cred} (h : Taken s u src rq 0x24 [.owner] false 8 [(2, 6)] [])
    (hkind : rq.p 0 1 ≤ 5) (hindex : rq.p 0 1 = 3 ∨ rq.p 0 1 = 4 → rq.p 1 1 ≤ 3) (hdma : env.dmaOk = true)
    (hroot : u.mp.creds.find? (fun k => k.kind == 0) = some r) (hlen : 96 < (rq.data env).length)
    (hsig : Config.ecdsaVerify r.key (rq.credKey env) (ofBytes ((rq.data env).drop ((rq.data env).length - 96))) = true) :
    Completes (.omiCredentialEnroll src rq env) s fun t => ∃ v, Answers t v src rq 0x24 true [] ∧
      (⟨rq.p 0 1, rq.p 1 1, rq.credKey env⟩ : Cred) ∈ v.mp.creds ∧
      ∀ k ∈ v.mp.creds, k.kind = rq.p 0 1 → k.index = rq.p 1 1 → k.key = rq.credKey env := by
  refine Taken.answers ⟨0x24, byOwner, false, true, 8, [(2, 6)]⟩ rfl h ?_ ?_
  · have hindex' : (rq.p 0 1 = 3 ∨ rq.p 0 1 = 4) → ¬ 3 < rq.p 1 1 := fun hk => not_lt.mpr (hindex hk)
    simpa [prm, hkind] using hindex'
  · dsimp only
    rw [if_neg (by simp [hdma]), hroot]
    refine ⟨_, if_pos (by simp [hlen, hsig]), ?_⟩
    rw [State.copyCreds_mp]
    exact Cred.mem_enrolled

/-! Degradation, Fawn mode, mailboxes, roles. -/

theorem omiDegradationClear_answers (h : Taken s u src rq 0x25 [.owner] true 8 [(6, 2)] (s.obLoc (rq.p 0 4)))
    (hvalid : u.locValid (rq.p 0 4) = true)
    (hmine : u.mp.ledger.any (fun d => d.loc == rq.p 0 4 && d.sig == rq.p 4 2) = true) :
    Completes (.omiDegradationClear src rq env true) s fun t => ∃ v, Answers t v src rq 0x25 true [] ∧
      v.mp.ledger = u.mp.ledger.filter fun d => !(d.loc == rq.p 0 4 && d.sig == rq.p 4 2) :=
  Taken.answers ⟨0x25, byOwner, true, true, 8, [(6, 2)]⟩ rfl h (by simp)
    ⟨_, (if_neg (by simp [hvalid])).trans <| (if_neg (by simp [hmine])).trans (if_neg (by decide)), rfl⟩

theorem omiFawnExit_answers (h : Taken s u src rq 0x26 [.owner] true 0 [] []) (hfawn : u.fawn = true)
    (hcauses : u.causes = 0) (hhand : u.fab.handAck = false) (hlease : u.rf .fabLease 63 61 ≠ 5) :
    Completes (.omiFawnExit src rq env) s fun t => ∃ v, Answers t v src rq 0x26 false [] ∧ v.fawn = false ∧
      v.sched.isOpen = false ∧ v.sched.opening = (u.sched.isOpen || u.sched.opening) := by
  refine Taken.answers ⟨0x26, byOwner, true, false, 0, []⟩ rfl h (by simp)
    ⟨_, (if_neg (by simp [hfawn])).trans (if_neg (by simp [hcauses, hhand, hlease])), ?_, rfl, ?_⟩
  · have hmode : ((u.wf .fmuStatus 61 60 0).wf .fmuStatus 55 48 0).rf .fmuStatus 61 60 = 0 :=
      (State.rf_wf_other _ _ 55 48 0 61 60).trans (u.rf_wf_same _ 61 60 0 (by decide) (by decide))
    rw [State.fawn, State.rf_modSched, State.rf, State.alarm_rd, ← State.rf, hmode]
    rfl
  · rw [State.modSched_sched, State.alarm_sched]
    rfl

theorem State.mbx_setMbx (s : State) (m : Nat) (x : Mbx) : (s.setMbx m x).mbx m = x := by
  simp [State.mbx, State.setMbx]

theorem omiMailboxAssign_answers (h : Taken s u src rq 0x27 [.owner] false 8 [(2, 6)] [obFn (rq.p 1 1)])
    (hpos : 1 ≤ rq.p 0 1) (hle : rq.p 0 1 ≤ 31) (hidle : u.rf (.mbxStatus (rq.p 0 1)) 1 0 ≠ 1) :
    Completes (.omiMailboxAssign src rq env) s fun t => ∃ v, Answers t v src rq 0x27 false [] ∧
      v.rf (.mbxOwner (rq.p 0 1)) 7 0 = rq.p 1 1 ∧ v.rf (.mbxStatus (rq.p 0 1)) 63 32 = 0 ∧
      v.rf (.mbxStatus (rq.p 0 1)) 1 0 = 0 ∧ v.mbx (rq.p 0 1) = Mbx.cold := by
  refine Taken.answers ⟨0x27, byOwner, false, false, 8, [(2, 6)]⟩ rfl h (by simpa [prm] using hle)
    ⟨_, (if_neg (by omega)).trans (if_neg hidle), ?_, ?_, ?_, State.mbx_setMbx ..⟩
  · rw [State.rf_setMbx, State.rf_wf_ne _ (by simp), State.rf_wf_ne _ (by simp)]
    exact u.rf_wf_fits _ (by decide) (by decide) (rq.p_byte_lt 1)
  · rw [State.rf_setMbx, State.rf_wf_other _ _ 1 0 0 63 32]
    exact State.rf_wf_same _ _ 63 32 0 (by decide) (by decide)
  · rw [State.rf_setMbx]
    exact State.rf_wf_same _ _ 1 0 0 (by decide) (by decide)

theorem omiRoleSet_answers (h : Taken s u src rq 0x28 [.owner] false 8 [(2, 6)] []) :
    Completes (.omiRoleSet src rq env) s fun t => ∃ v, Answers t v src rq 0x28 true [] ∧
      v.rf .fabRole 31 24 = rq.p 0 1 ∧ v.rf .fabRole 23 16 = rq.p 1 1 ∧ v.mp.prio = (rq.p 0 1, rq.p 1 1) := by
  refine Taken.answers ⟨0x28, byOwner, false, true, 8, [(2, 6)]⟩ rfl h (by simp) ⟨_, rfl, ?_, ?_, rfl⟩
  · rw [State.rf_modMp, State.rf_wf_other _ _ 23 16 _ 31 24]
    exact u.rf_wf_fits _ (by decide) (by decide) (rq.p_byte_lt 0)
  · rw [State.rf_modMp]
    exact State.rf_wf_fits _ _ (by decide) (by decide) (rq.p_byte_lt 1)

/-! The mirror partner. -/

/-- FAB_PARTNER as OMI_PARTNER_SET writes it (R431). -/
def partnerWord (w p path : Nat) : Word := setFld (setFld (setFld (setBit 0 63 true) 59 48 w) 43 32 p) 2 0 path

theorem partnerWord_valid (w p path : Nat) : bit (partnerWord w p path) 63 = true := by
  unfold partnerWord
  rw [testBit_setFld _ 2 0 _ 63 (by decide) (by decide) (by decide), if_neg (by decide),
    testBit_setFld _ 43 32 _ 63 (by decide) (by decide) (by decide), if_neg (by decide),
    testBit_setFld _ 59 48 _ 63 (by decide) (by decide) (by decide), if_neg (by decide),
    bit_setBit _ _ _ _ (by decide) (by decide), if_pos rfl]

theorem partnerWord_partner {p : Nat} (w path : Nat) (hp : p ≤ 4095) : fld (partnerWord w p path) 43 32 = p := by
  unfold partnerWord
  rw [fld_setFld_ne _ 2 0 _ 43 32 (by decide) (by decide) (by decide) (.inr (by decide)),
    fld_setFld _ 43 32 _ (by decide) (by decide)]
  exact Nat.mod_eq_of_lt (by omega)

theorem partnerWord_witness {w : Nat} (p path : Nat) (hw : w ≤ 4095) : fld (partnerWord w p path) 59 48 = w := by
  unfold partnerWord
  rw [fld_setFld_ne _ 2 0 _ 59 48 (by decide) (by decide) (by decide) (.inr (by decide)),
    fld_setFld_ne _ 43 32 _ 59 48 (by decide) (by decide) (by decide) (.inr (by decide)),
    fld_setFld _ 59 48 _ (by decide) (by decide)]
  exact Nat.mod_eq_of_lt (by omega)

theorem partnerWord_path {path : Nat} (w p : Nat) (hpath : path ≤ 7) : fld (partnerWord w p path) 2 0 = path := by
  unfold partnerWord
  rw [fld_setFld _ 2 0 _ (by decide) (by decide)]
  exact Nat.mod_eq_of_lt (by omega)

theorem omiPartnerSet_answers (h : Taken s u src rq 0x30 [.fabric] false 8 [(5, 3)] [obPartner]) (hp : rq.p 0 2 ≤ 4095)
    (hw : rq.p 2 2 ≤ 4095) (hpd : rq.p 0 2 ≠ u.devId) (hwd : rq.p 2 2 ≠ u.devId) (hpw : rq.p 0 2 ≠ rq.p 2 2)
    (hpath : rq.p 4 1 ≤ 7) :
    Completes (.omiPartnerSet src rq env) s fun t => ∃ v, Answers t v src rq 0x30 false [] ∧ v.hasPartner = true ∧
      v.partnerId = rq.p 0 2 ∧ v.witnessId = rq.p 2 2 ∧ v.rf .fabPartner 2 0 = rq.p 4 1 ∧ v.rf .fabLease 63 61 = 1 := by
  refine Taken.answers ⟨0x30, [.fabric], false, false, 8, [(5, 3)]⟩ rfl h
    (by simp [prm, hp, hw, hpath, hpd, hwd, Ne.symm hpw]) ?_
  have hrd : (((u.wr .fabPartner (partnerWord (rq.p 2 2) (rq.p 0 2) (rq.p 4 1))).wf .fabLease 63 61 1).wf
      .fabLease 59 56 0).rd .fabPartner = partnerWord (rq.p 2 2) (rq.p 0 2) (rq.p 4 1) := by simp
  refine ⟨_, rfl, ?_, ?_, ?_, ?_, ?_⟩
  · rw [State.hasPartner, State.rd_modFab]
    exact (congrArg (bit · 63) hrd).trans (partnerWord_valid ..)
  · rw [State.partnerId, State.rf_modFab]
    exact (congrArg (fld · 43 32) hrd).trans (partnerWord_partner _ _ hp)
  · rw [State.witnessId, State.rf_modFab]
    exact (congrArg (fld · 59 48) hrd).trans (partnerWord_witness _ _ hw)
  · rw [State.rf_modFab]
    exact (congrArg (fld · 2 0) hrd).trans (partnerWord_path _ _ hpath)
  · rw [State.rf_modFab, State.rf_wf_other _ _ 59 56 0 63 61]
    exact State.rf_wf_fits _ _ (by decide) (by decide) (by decide)

theorem omiPartnerRestore_staysBusy (h : Taken s u src rq 0x31 [.owner, .fabric] true 8 [] [obPartner])
    (hcustody : u.fab.custody = true ∨ u.fab.handAck = true) :
    Completes (.omiPartnerRestore src rq env) s fun t => ∃ v, StaysBusy t v src rq 0x31 obPartner ∧
      v.fab = { u.fab with asked := false, restoreAt := some (rq.p 0 8) } := by
  have hgo : (u.fab.custody || u.fab.handAck) = true := by simpa using hcustody
  exact Taken.staysBusy ⟨0x31, [.owner, .fabric], true, false, 8, []⟩ rfl h (by simp)
    ⟨_, if_neg (by simp [hgo]), rfl⟩

/-! The restore of a ledger (R355). -/

theorem State.putWord_vault (s : State) (pa : Nat) (v : TWord) : (s.putWord pa v).vault = s.vault := rfl

theorem State.putImage_vault (s : State) (pa : Nat) (im : FrameImg) : (s.putImage pa im).vault = s.vault := by
  unfold State.putImage
  exact foldl_keeps (·.vault) _ (fun t _ => t.putWord_vault ..) _ s

theorem State.applyAbove_vault (s : State) (m : Nat) : (s.applyAbove m).vault = s.vault := by
  unfold State.applyAbove
  exact foldl_keeps (·.vault) _ (fun t _ => t.putWord_vault ..) _ s

theorem State.restoreRun_vault (counts : Nat → Bool) (s : State) (b : JBody) :
    (State.restoreRun counts s b).vault = s.vault := by
  cases b with
  | accept =>
    unfold State.restoreRun
    dsimp only
    split <;> rfl
  | _ => rfl

theorem State.restoreRelease_vault (s : State) (b : JBody) : (s.restoreRelease b).vault = s.vault := by
  cases b <;> rfl

theorem State.restoreRuns_vault (s : State) (counts : Nat → Bool) : (s.restoreRuns counts).vault = s.vault :=
  (foldl_keeps (·.vault) _ State.restoreRelease_vault _ _).trans
    (foldl_keeps (·.vault) _ (State.restoreRun_vault counts) _ s)

/-- The ledger as the image gives it, with what the journal holds above its tick. -/
def State.withImage (s : State) (image : List FrameImg) (m : Nat) : State :=
  ((image.foldl (fun (s : State) im => s.putImage (4096 * im.frame) im) s).applyAbove m).restoreRuns fun _ => true

/-- The image and what the journal holds above it leave the journal as it was. -/
theorem State.lastCommit_withImage (s : State) (image : List FrameImg) (m : Nat) :
    (s.withImage image m).lastCommit = s.lastCommit := by
  have hvault : (s.withImage image m).vault = s.vault := by
    unfold State.withImage
    rw [State.restoreRuns_vault, State.applyAbove_vault]
    exact foldl_keeps (·.vault) _ (fun t im => t.putImage_vault _ im) image s
  simp only [State.lastCommit, hvault]

/-- A message that may go out leaves the registers as they are. -/
theorem State.rf_ite_send (s : State) (p : Prop) [Decidable p] (d : Nat) (m : Msg) (r : Reg) (hi lo : Nat) :
    (if p then s.send d false false m else s).rf r hi lo = s.rf r hi lo := by
  split <;> rfl

theorem omiLedgerLoad_answers {image : List FrameImg} (h : Taken s u src rq 0x32 [.owner] false 8 [] [])
    (hwait : u.sched.waitLoad = true) (hrtick : (u.rd .vltRtick).toNat ≤ rq.p 0 8) (hdma : env.dmaOk = true) :
    Completes (.omiLedgerLoad src rq env image) s fun t => ∃ v, Answers t v src rq 0x32 false [] ∧
      v.sched.waitLoad = false ∧ v.rf .vltStatus 61 60 = 0 ∧
      v.rf .tsqSealed 47 0 = max (rq.p 0 8) u.lastCommit % 2 ^ 48 := by
  refine Taken.answers ⟨0x32, byOwner, false, false, 8, []⟩ rfl h (by simp)
    ⟨_, (if_neg (by simp [hwait, hrtick])).trans (if_neg (by simp [hdma])), rfl, ?_, ?_⟩
  · rw [State.rf_modSched, State.rf_ite_send]
    exact State.rf_wf_same _ _ 61 60 0 (by decide) (by decide)
  · have hlast : ((u.readBuffer src rq).withImage image (rq.p 0 8)).lastCommit = u.lastCommit :=
      State.lastCommit_withImage ..
    rw [State.rf_modSched, State.rf_ite_send, State.rf_wf_ne _ (by simp), ← hlast]
    exact State.rf_wf_same _ _ 47 0 _ (by decide) (by decide)

/-! Device IDs and the tick period. -/

theorem State.fab_foldl_send (m : Msg) (l : List Nat) (s : State) :
    (l.foldl (fun (s : State) d => s.send d false false m) s).fab =
      { s.fab with out := s.fab.out ++ l.map fun d => ⟨d, false, false, m, false⟩ } := by
  induction l generalizing s with
  | nil => simp
  | cons d l ih => rw [List.foldl_cons, ih]; simp [State.send]

theorem omiDeviceIdRelease_answers {x : Nat × Nat} (h : Taken s u src rq 0x33 [.fabric] false 8 [] [])
    (hfind : u.fab.ids.find? (fun i => i.1 == rq.p 0 8) = some x) (hpartner : ¬(u.hasPartner = true ∧ u.partnerId = x.2)) :
    Completes (.omiDeviceIdRelease src rq env false) s fun t => ∃ v, Answers t v src rq 0x33 true [] ∧
      v.fab = { u.fab with
        ids := u.fab.ids.filter fun i => i.1 != x.1,
        out := u.fab.out ++ u.candidates.map fun d => ⟨d, false, false, .manage (.unbind x.1), false⟩ } := by
  refine Taken.answers ⟨0x33, [.fabric], false, true, 8, []⟩ rfl h (by simp) ?_
  dsimp only
  rw [hfind]
  exact ⟨_, if_neg (by simpa using hpartner), State.fab_foldl_send ..⟩

theorem omiTickPeriodSet_answers (h : Taken s u src rq 0x34 [.fabric] false 16 [(1, 7)] []) (hmin : 4 ≤ rq.p 0 1)
    (hmax : rq.p 0 1 ≤ 64) (htick : rq.p 8 8 < 2 ^ 48) (hlate : u.tick + 16 ≤ rq.p 8 8) :
    Completes (.omiTickPeriodSet src rq env) s fun t => ∃ v, Answers t v src rq 0x34 false [] ∧
      v.rf .tsqPeriod 55 48 = rq.p 0 1 ∧ v.rf .tsqPeriod 47 0 = rq.p 8 8 ∧ v.period = u.period := by
  refine Taken.answers ⟨0x34, [.fabric], false, false, 16, [(1, 7)]⟩ rfl h
    (by simpa [prm] using ⟨⟨hmin, hmax⟩, htick⟩) ⟨_, if_neg (by omega), ?_, ?_, ?_⟩
  · rw [State.rf_wf_other _ _ 47 0 _ 55 48]
    exact u.rf_wf_fits _ (by decide) (by decide) (rq.p_byte_lt 0)
  · exact State.rf_wf_fits _ _ (by decide) (by decide) htick
  · rw [State.period, State.rf_wf_other _ _ 47 0 _ 63 56, State.rf_wf_other _ _ 55 48 _ 63 56, ← State.period]

/-- Settles O56, command by command: each clause is the lemma on what its command does. -/
theorem systemCommands : Obligations.SystemCommands := by
  unfold Obligations.SystemCommands
  intro s u src rq env
  refine ⟨fun h hloc => ⟨omiUnitSplit_staysBusy h hloc, omiUnitRejoin_staysBusy h hloc⟩, omiClusterModeSet_staysBusy,
    omiMicrocodeLoad_staysBusy, fun _ => omiFirmwareUpdate_answers, fun _ => omiCredentialEnroll_answers,
    omiDegradationClear_answers, omiFawnExit_answers, omiMailboxAssign_answers, omiRoleSet_answers, omiPartnerSet_answers,
    omiPartnerRestore_staysBusy, fun _ => omiLedgerLoad_answers, fun _ => omiDeviceIdRelease_answers,
    omiTickPeriodSet_answers⟩

end Sys2Proof.Machine
end

section
/-!
PROOFS. What mirror partners, issuers and targets exchange: a reply for a core whose clocks are stopped (R439, R479).
-/
namespace Sys2Proof.Machine

/-- What is inserted under a key is found there. -/
theorem find?_sins {α : Type} (m : SMap α) (k : Nat) (v : α) : (sins m k v).find? (·.1 == k) = some (k, v) := by
  induction m with
  | nil => simp [sins]
  | cons p m ih =>
    obtain ⟨a, b⟩ := p
    unfold sins
    split_ifs with hlt heq
    · simp
    · simp
    · rwa [List.find?_cons_of_neg (by simpa using Ne.symm heq)]

section
variable {s : State} {r : RReply} {w : RWait} (hwait : s.fab.waits.find? (·.1 == r.rid) = some (r.rid, w))
include hwait

/-- The reply to a read goes to the wait that carries its tag. -/
theorem exec_rreply_read (hread : w.isRead = true) : exec (.rreply r) s = .next (s.rreply r) := by
  show execRreply r s = _
  rw [execRreply, hwait]
  exact congrArg Host.Outcome.next (if_neg (by simp [hread]))

/-- A reply for a core whose clocks are stopped is held in its wait, which stays (R479). -/
theorem State.rreply_halted (hhalt : s.halted (w.core / 8) = true) :
    (s.rreply r).fab.waits.find? (·.1 == r.rid) = some (r.rid, { w with held := some r }) := by
  unfold State.rreply
  rw [hwait]
  dsimp only
  rw [if_pos (by simp [hhalt])]
  exact find?_sins ..

end

/-- Core 0 waits for the value of an RREAD to device 1; no reply has come yet. -/
def awaitedRead : RWait := ⟨0, 0, 1, 2 ^ 52, true, 0, none⟩

/-- Core 0 waits for the value of its RREAD, and debug, in a LAB session, holds the clocks of its cluster. -/
def State.readWhileHalted : State :=
  { State.replyHeld with fab := { Fab.cold with waits := [(0, awaitedRead)] } }

/-- The tick has come that a reply of tick 0 names, and core 0 runs nothing but the instruction that waits. -/
theorem readWhileHalted_awaits : 0 ≤ State.readWhileHalted.tick ∧ State.readWhileHalted.awaits 0 = true ∧
    (State.readWhileHalted.core 0).ctx.all (fun k => k.isn == 0) = true := by decide +kernel

/-- Refutes O51: its last clause says that a reply to the RREAD of a waiting core takes its wait away and ends the
instruction, but while debug holds the clocks of the core's cluster the endpoint keeps the reply in the wait (R479, log 126). -/
theorem not_mirrorAndRemoteMessages : ¬ Obligations.MirrorAndRemoteMessages := by
  unfold Obligations.MirrorAndRemoteMessages
  intro h
  obtain ⟨-, -, -, -, -, -, -, hreply⟩ := h 0 State.readWhileHalted
  obtain ⟨htick, hawaits, hctx⟩ := readWhileHalted_awaits
  obtain ⟨t, hexec, hgone, -⟩ := hreply ⟨0, rsDONE, 0, 0, 0x1C, 0⟩ awaitedRead rfl rfl rfl htick hawaits hctx
  rw [exec_rreply_read rfl rfl] at hexec
  cases hexec
  rw [State.rreply_halted rfl replyHeld_halted] at hgone
  cases hgone

end Sys2Proof.Machine
end

section
/-!
PROOFS. The mailbox (R449, R457 to R460): its doorbell, its request area, and the response that is stored.
-/
namespace Sys2Proof.Machine

variable {s : State} {m : Fin 32}

/-! The message of a mailbox (R452, R458). -/

/-- An MSI-X message changes the host interface, but no mailbox. -/
theorem State.msix_mbx (s : State) (f v : Nat) : ∃ h, s.msix f v = { s with hif := h } ∧ h.mbx = s.hif.mbx := by
  unfold State.msix
  dsimp only
  split
  · exact ⟨_, rfl, rfl⟩
  · split <;> exact ⟨_, rfl, rfl⟩

theorem State.mbxMsg_frame (s : State) (m : Nat) : ∃ h, s.mbxMsg m = { s with hif := h } ∧ h.mbx = s.hif.mbx := by
  unfold State.mbxMsg
  split
  · exact s.msix_mbx ..
  · exact ⟨_, rfl, rfl⟩

@[simp] theorem State.mbxMsg_cores (s : State) (m : Nat) : (s.mbxMsg m).cores = s.cores := by
  obtain ⟨h, e, -⟩ := s.mbxMsg_frame m
  rw [e]

theorem State.rd_mbxMsg (s : State) (m : Nat) (r : Reg) : (s.mbxMsg m).rd r = s.rd r := by
  obtain ⟨h, e, -⟩ := s.mbxMsg_frame m
  rw [e]
  rfl

theorem State.mbx_mbxMsg (s : State) (m k : Nat) : (s.mbxMsg m).mbx k = s.mbx k := by
  obtain ⟨h, e, hmbx⟩ := s.mbxMsg_frame m
  rw [e, State.mbx, State.mbx, hmbx]

/-! The response (R458). -/

/-- A response that is stored makes its mailbox DONE, and leaves cores, memory and the other registers as they are. -/
theorem State.omiStore_mbx (v : State) (m : Fin 32) (x : OmiResp) :
    let t := v.omiStore (.mbx m) x
    t.rf (.mbxStatus m) 1 0 = 2 ∧ (t.mbx m).resp = some x ∧ t.cores = v.cores ∧ t.mem = v.mem ∧
      ∀ r, r ≠ .mbxStatus m → t.rd r = v.rd r := by
  unfold State.omiStore
  dsimp only
  refine ⟨?_, ?_, State.mbxMsg_cores .., State.mbxMsg_mem .., fun r hr => ?_⟩
  · rw [State.rf, State.rd_mbxMsg]
    exact State.rf_wf_same _ _ 1 0 2 (by decide) (by decide)
  · rw [State.mbx_mbxMsg]
    exact congrArg Mbx.resp (v.mbx_setMbx ..)
  · rw [State.rd_mbxMsg]
    exact (State.rd_wf ..).trans (if_neg hr)

/-- The end of a command notes it where it persists, and stores its response. -/
theorem State.omiEnd_eq_omiStore (v : State) (src : OmiSrc) (cmd seq : Nat) (keeps : Bool) (r : Nat × Nat × List Byte) :
    ∃ p, v.omiEnd src cmd seq keeps r = State.omiStore { v with mp := p } src ⟨cmd, r.1, seq, r.2.1, r.2.2⟩ := by
  unfold State.omiEnd
  split
  · exact ⟨_, rfl⟩
  · exact ⟨v.mp, rfl⟩

/-- A command of a mailbox that is over stores its response there, whether it persists or not. -/
theorem State.omiEnd_mbx (v : State) (m : Fin 32) (cmd seq st d : Nat) (keeps : Bool) (data : List Byte) :
    let t := v.omiEnd (.mbx m) cmd seq keeps (st, d, data)
    t.rf (.mbxStatus m) 1 0 = 2 ∧ (t.mbx m).resp = some ⟨cmd, st, seq, d, data⟩ ∧ t.cores = v.cores ∧ t.mem = v.mem ∧
      ∀ r, r ≠ .mbxStatus m → t.rd r = v.rd r := by
  obtain ⟨p, h⟩ := v.omiEnd_eq_omiStore (.mbx m) cmd seq keeps (st, d, data)
  rw [h]
  exact State.omiStore_mbx { v with mp := p } m ⟨cmd, st, seq, d, data⟩

/-! The doorbell (R449, R458, R459). -/

section
variable {seq : BitVec 32} {fn : Fin 256} {size : Nat}

/-- A doorbell of a function that does not own the mailbox, or of another size, is discarded. -/
theorem mbxDoorbell_discarded (h : s.rf (.mbxOwner m) 7 0 ≠ fn ∨ (size ≠ 4 ∧ size ≠ 8)) :
    Completes (.mbxDoorbell m seq fn size) s (· = s) := by
  refine ⟨_, rfl, if_pos ?_⟩
  obtain hfn | ⟨h4, h8⟩ := h
  · simp [hfn]
  · simp [h4, h8]

variable (hfw : s.mp.fwFail = false) (hpfail : s.pfail = false) (howner : s.rf (.mbxOwner m) 7 0 = fn)
  (hsize : size = 4 ∨ size = 8)
include hfw hpfail howner hsize

/-- What the doorbell of the owner does, by SEQ, LASTSEQ and STATE. -/
theorem exec_mbxDoorbell : exec (.mbxDoorbell m seq fn size) s = .next (
    if seq.toNat = (s.rf (.mbxStatus m) 63 32 + 1) % 2 ^ 32 ∧ s.rf (.mbxStatus m) 1 0 ≠ 1 then
      if (s.areaReq m).2.seq = seq.toNat then
        if omiAssigned (s.areaReq m).1 = true then s.mbxTake m (s.areaReq m).1 (s.areaReq m).2
        else (s.wf (.mbxStatus m) 63 32 (s.areaReq m).2.seq).omiEnd (.mbx m) (s.areaReq m).1 (s.areaReq m).2.seq false
          (stUNKNOWN_COMMAND, 0, [])
      else s.wf (.mbxStatus m) 2 2 1
    else if seq.toNat = s.rf (.mbxStatus m) 63 32 ∧ s.rf (.mbxStatus m) 1 0 = 2 then s.mbxMsg m
    else if seq.toNat = s.rf (.mbxStatus m) 63 32 ∧ s.rf (.mbxStatus m) 1 0 = 1 then s
    else (s.wf (.mbxStatus m) 2 2 1).event sgMBX_SEQ_ERROR (s.locElement elMP) (detBytes 1 m)) := by
  show execMbxDoorbell m seq fn size s = _
  have hgo : ¬((s.mp.fwFail || s.pfail || !(size == 4 || size == 8) || decide (s.rf (.mbxOwner m) 7 0 ≠ fn)) = true) := by
    simpa [hfw, hpfail, howner, or_iff_not_imp_left] using hsize
  unfold execMbxDoorbell
  simp only [if_neg hgo, Bool.and_eq_true, decide_eq_true_eq, bne_iff_ne, beq_iff_eq]

/-- The next SEQ takes the request of an assigned command, with that SEQ in its area. -/
theorem mbxDoorbell_takes (hnext : seq.toNat = (s.rf (.mbxStatus m) 63 32 + 1) % 2 ^ 32)
    (hidle : s.rf (.mbxStatus m) 1 0 ≠ 1) (hseq : (s.areaReq m).2.seq = seq.toNat)
    (hcmd : omiAssigned (s.areaReq m).1 = true) :
    Completes (.mbxDoorbell m seq fn size) s fun t => t = s.mbxTake m (s.areaReq m).1 (s.areaReq m).2 ∧
      t.rf (.mbxStatus m) 63 32 = seq.toNat ∧ t.rf (.mbxStatus m) 1 0 = 1 ∧ (t.mbx m).busy = some (s.areaReq m) ∧
      t.hif.taken = s.hif.taken ++ [m.val] := by
  have hexec := exec_mbxDoorbell (seq := seq) hfw hpfail howner hsize
  rw [if_pos ⟨hnext, hidle⟩, if_pos hseq, if_pos hcmd] at hexec
  refine ⟨_, hexec, rfl, ?_, ?_, ?_, rfl⟩
  · calc (s.mbxTake m (s.areaReq m).1 (s.areaReq m).2).rf (.mbxStatus m) 63 32
        = (s.wf (.mbxStatus m) 63 32 (s.areaReq m).2.seq).rf (.mbxStatus m) 63 32 := State.rf_wf_other _ _ 1 0 1 63 32
      _ = (s.areaReq m).2.seq := s.rf_wf_fits _ (by decide) (by decide) (hseq ▸ seq.isLt)
      _ = seq.toNat := hseq
  · exact State.rf_wf_same _ _ 1 0 1 (by decide) (by decide)
  · exact congrArg Mbx.busy (State.mbx_setMbx ..)

theorem mbxDoorbell_unassigned (hnext : seq.toNat = (s.rf (.mbxStatus m) 63 32 + 1) % 2 ^ 32)
    (hidle : s.rf (.mbxStatus m) 1 0 ≠ 1) (hseq : (s.areaReq m).2.seq = seq.toNat)
    (hcmd : omiAssigned (s.areaReq m).1 = false) :
    Completes (.mbxDoorbell m seq fn size) s fun t => t.rf (.mbxStatus m) 1 0 = 2 ∧
      (t.mbx m).resp = some ⟨(s.areaReq m).1, stUNKNOWN_COMMAND, seq.toNat, 0, []⟩ := by
  have hexec := exec_mbxDoorbell (seq := seq) hfw hpfail howner hsize
  rw [if_pos ⟨hnext, hidle⟩, if_pos hseq, if_neg (by simp [hcmd]), hseq] at hexec
  obtain ⟨hstate, hresp, -⟩ := (s.wf (.mbxStatus m) 63 32 seq.toNat).omiEnd_mbx m (s.areaReq m).1 seq.toNat
    stUNKNOWN_COMMAND 0 false []
  exact ⟨_, hexec, hstate, hresp⟩

theorem mbxDoorbell_otherSeq (hnext : seq.toNat = (s.rf (.mbxStatus m) 63 32 + 1) % 2 ^ 32)
    (hidle : s.rf (.mbxStatus m) 1 0 ≠ 1) (hseq : (s.areaReq m).2.seq ≠ seq.toNat) :
    Completes (.mbxDoorbell m seq fn size) s fun t => t = s.wf (.mbxStatus m) 2 2 1 := by
  have hexec := exec_mbxDoorbell (seq := seq) hfw hpfail howner hsize
  rw [if_pos ⟨hnext, hidle⟩, if_neg hseq] at hexec
  exact ⟨_, hexec, rfl⟩

/-- LASTSEQ again: the message of a command that is done is repeated, and one that is BUSY goes on. -/
theorem mbxDoorbell_repeats (hlast : seq.toNat = s.rf (.mbxStatus m) 63 32) :
    (s.rf (.mbxStatus m) 1 0 = 2 → Completes (.mbxDoorbell m seq fn size) s fun t => t = s.mbxMsg m) ∧
    (s.rf (.mbxStatus m) 1 0 = 1 → Completes (.mbxDoorbell m seq fn size) s fun t => t = s) := by
  have hexec := exec_mbxDoorbell (seq := seq) hfw hpfail howner hsize
  have hsame : ¬(seq.toNat = (s.rf (.mbxStatus m) 63 32 + 1) % 2 ^ 32 ∧ s.rf (.mbxStatus m) 1 0 ≠ 1) := by
    have hlt := seq.isLt
    omega
  rw [if_neg hsame] at hexec
  refine ⟨fun hdone => ⟨_, hexec, if_pos ⟨hlast, hdone⟩⟩, fun hbusy => ⟨_, hexec, ?_⟩⟩
  rw [if_neg (by omega), if_pos ⟨hlast, hbusy⟩]

/-- Any other SEQ is an error: SEQERR is set and an event recorded. -/
theorem mbxDoorbell_seqErr
    (hnext : ¬(seq.toNat = (s.rf (.mbxStatus m) 63 32 + 1) % 2 ^ 32 ∧ s.rf (.mbxStatus m) 1 0 ≠ 1))
    (hlast : ¬(seq.toNat = s.rf (.mbxStatus m) 63 32 ∧ (s.rf (.mbxStatus m) 1 0 = 1 ∨ s.rf (.mbxStatus m) 1 0 = 2))) :
    Completes (.mbxDoorbell m seq fn size) s fun t =>
      t.rf (.mbxStatus m) 2 2 = 1 ∧ t.hif = s.hif ∧ ∀ r, r ≠ .mbxStatus m → t.rd r = s.rd r := by
  have hexec := exec_mbxDoorbell (seq := seq) hfw hpfail howner hsize
  rw [if_neg hnext, if_neg (by tauto), if_neg (by tauto)] at hexec
  refine ⟨_, hexec, ?_, ?_, fun r hr => ?_⟩
  · rw [State.rf, State.event_rd, ← State.rf]
    exact s.rf_wf_same _ 2 2 1 (by decide) (by decide)
  · rw [State.event_hif]
    rfl
  · rw [State.event_rd, State.rd_wf, if_neg hr]

end

/-! The request area (R457). -/

theorem length_toBytes (n v : Nat) : (toBytes n v).length = n := by
  induction n with
  | zero => rfl
  | succ n ih => rw [toBytes, List.length_cons, ih]

/-- Bytes that are written one after another from place b on stand there; the other places keep theirs. -/
theorem sget_foldl_bytes (l : List Byte) (b n : Nat) (a : SMap Byte) (k : Nat) :
    sget 0 ((l.zipIdx n).foldl (fun a p => sset 0 a (b + p.2) p.1) a) k =
      if b + n ≤ k ∧ k < b + n + l.length then l.getD (k - (b + n)) 0 else sget 0 a k := by
  induction l generalizing n a with
  | nil => simp
  | cons x l ih =>
    rw [List.zipIdx_cons, List.foldl_cons, ih, sget_sset, List.length_cons]
    obtain hk | hk | hk : k < b + n ∨ k = b + n ∨ b + n < k := by omega
    · rw [if_neg (by omega), if_neg (by omega), if_neg (by omega)]
    · subst hk
      rw [if_neg (by omega), if_pos rfl, if_pos (by omega), Nat.sub_self, List.getD_cons_zero]
    · obtain ⟨d, rfl⟩ : ∃ d, k = b + n + (d + 1) := ⟨k - (b + n) - 1, by omega⟩
      rw [if_neg (by omega : b + n + (d + 1) ≠ b + n), show b + n + (d + 1) - (b + (n + 1)) = d by omega,
        Nat.add_sub_cancel_left, List.getD_cons_succ]
      exact if_congr (by omega) rfl rfl

/-- The request area of mailbox m with a word written at its byte 8i. -/
def State.areaPut (s : State) (m i : Nat) (v : Word) : SMap Byte :=
  ((toBytes 8 v.toNat).zipIdx).foldl (fun a p => sset 0 a (8 * i + p.2) p.1) (s.mbx m).area

theorem State.sget_areaPut (s : State) (m i : Nat) (v : Word) (k : Nat) : sget 0 (s.areaPut m i v) k =
    if 8 * i ≤ k ∧ k < 8 * i + 8 then (toBytes 8 v.toNat).getD (k - 8 * i) 0 else sget 0 (s.mbx m).area k := by
  have h := sget_foldl_bytes (toBytes 8 v.toNat) (8 * i) 0 (s.mbx m).area k
  rwa [length_toBytes] at h

section
variable {fn : Fin 256} {i : Nat} {v : BitVec 64} (hi : i < 248)
include hi

theorem State.mbxWrite_area : s.mbxWrite m (0x40 + 8 * i) 8 v = s.setMbx m { s.mbx m with area := s.areaPut m i v } := by
  unfold State.mbxWrite
  dsimp only
  have hlow (o : Nat) (ho : o ≤ 0x10) :
      ¬(((0x40 + 8 * i == o && (8 : Nat) == 8) || (0x40 + 8 * i == o + 4 && (8 : Nat) == 4)) = true) := by
    simp only [Bool.or_eq_true, Bool.and_eq_true, beq_iff_eq]
    omega
  rw [if_neg (hlow _ (by decide)), if_neg (hlow _ (by decide)), if_pos (by omega)]
  simp only [Nat.add_sub_cancel_left]
  rfl

/-- A write to the request area reaches the mailbox if the function owns it. -/
theorem exec_areaWrite :
    exec (.registerWrite (.host fn .bar0 8) (BitVec.ofNat 48 (0x1000 * m + 0x40 + 8 * i)) v) s =
      .next (if s.rf (.mbxOwner m) 7 0 = fn then s.setMbx m { s.mbx m with area := s.areaPut m i v } else s) := by
  have hm := m.isLt
  have hoff : (BitVec.ofNat 48 (0x1000 * m + 0x40 + 8 * i)).toNat = 0x1000 * m + 0x40 + 8 * i := by
    rw [BitVec.toNat_ofNat]
    omega
  have hpage : (0x1000 * m.val + 0x40 + 8 * i) / 0x1000 = m := by omega
  have hbyte : (0x1000 * m.val + 0x40 + 8 * i) % 0x1000 = 0x40 + 8 * i := by omega
  show execRegisterWrite (.host fn .bar0 8) (BitVec.ofNat 48 (0x1000 * m + 0x40 + 8 * i)) v s = _
  unfold execRegisterWrite
  dsimp only
  rw [hoff]
  unfold State.bar0Write
  have haligned : (0x1000 * m.val + 0x40 + 8 * i) % 8 = 0 := by omega
  rw [if_neg (by simpa using haligned), if_pos (by omega), hpage, hbyte, State.mbxWrite_area hi]

theorem areaWrite_stranger (hfn : s.rf (.mbxOwner m) 7 0 ≠ fn) :
    Completes (.registerWrite (.host fn .bar0 8) (BitVec.ofNat 48 (0x1000 * m + 0x40 + 8 * i)) v) s (· = s) :=
  ⟨_, exec_areaWrite hi, if_neg hfn⟩

theorem areaWrite_owner (hfn : s.rf (.mbxOwner m) 7 0 = fn) :
    Completes (.registerWrite (.host fn .bar0 8) (BitVec.ofNat 48 (0x1000 * m + 0x40 + 8 * i)) v) s fun t =>
      t.areaBytes m (8 * i) 8 = toBytes 8 v.toNat ∧ t.regs = s.regs ∧ (t.mbx m).busy = (s.mbx m).busy ∧
      ∀ k, k < 8 * i ∨ 8 * i + 8 ≤ k → t.areaBytes m k 1 = s.areaBytes m k 1 := by
  refine ⟨_, (exec_areaWrite hi).trans (congrArg _ (if_pos hfn)), ?_, rfl, ?_, fun k hk => ?_⟩
  · refine List.ext_getElem (by simp [State.areaBytes, length_toBytes]) fun j hj hj' => ?_
    have hj8 : j < 8 := length_toBytes 8 v.toNat ▸ hj'
    simp only [State.areaBytes, State.mbx_setMbx, State.sget_areaPut, List.getElem_map, List.getElem_range]
    rw [if_pos (by omega), Nat.add_sub_cancel_left, List.getD_eq_getElem _ _ hj']
  · rw [State.mbx_setMbx]
  · simp only [State.areaBytes, State.mbx_setMbx, State.sget_areaPut]
    refine List.map_congr_left fun j hj => if_neg ?_
    have := List.mem_range.mp hj
    omega

end

end Sys2Proof.Machine
end

section
/-!
PROOFS. The commands that set up partitions, functions, queues, grants, memory, the journal key and admission, and those
that read health and the log (R464, R465): what each of them does with admissible parameters.
-/
namespace Sys2Proof.Machine

variable {s u : State} {src : OmiSrc} {rq : OmiReq} {env : OmiEnv}

/-- A parameter of n bytes (R463). -/
theorem OmiReq.p_lt (rq : OmiReq) (o n : Nat) : rq.p o n < 256 ^ n := by
  have hlen : ((rq.params.drop o).take n ++
      List.replicate (n - ((rq.params.drop o).take n).length) (0 : Byte)).length = n := by
    simp only [List.length_append, List.length_take, List.length_replicate]
    omega
  exact (ofBytes_lt _).trans_eq (by rw [hlen])

/-! Health and the log (R400, R464). -/

theorem omiHealthRead_answers (h : Taken s u src rq 0x01 [.owner, .vf, .fabric] true 0 [] []) :
    Completes (.omiHealthRead src rq env) s fun t => Answers t u src rq 0x01 false u.health := by
  obtain ⟨t, hexec, v, hans, rfl⟩ := Taken.answers (i := .omiHealthRead src rq env) (f := (· = u))
    ⟨0x01, [.owner, .vf, .fabric], true, false, 0, []⟩ rfl h (by simp) ⟨u, rfl, rfl⟩
  exact ⟨t, hexec, hans⟩

/-- The records that OMI_FAULT_LOG_READ returns, in RSEQ order: those from RSEQ on, at most MAX and as many as fit. -/
def State.logRead (u : State) (src : OmiSrc) (rq : OmiReq) : List Rec :=
  (u.fmu.log.foldl (fun l x => if rq.p 0 8 ≤ x.2.rseq then insRec x.2 l else l) []).take
    (min (rq.p 8 2) (if u.omiWho src == .fabric then 31 else rq.dlen / 64))

theorem omiFaultLogRead_answers (h : Taken s u src rq 0x02 [.owner, .vf, .fabric] true 16 [(10, 6)] [])
    (hkeep : rq.flags.testBit 0 = false) (hdma : env.dmaOk = true) :
    Completes (.omiFaultLogRead src rq env) s fun t =>
      Answers t (if u.omiWho src == .fabric || (u.logRead src rq).isEmpty then u
        else u.toHost (.buffer (u.srcFn src) rq.daddr ((u.logRead src rq).flatMap Rec.bytes))) src rq 0x02 false
        (toBytes 2 (u.logRead src rq).length ++ toBytes 6 0 ++
          toBytes 8 (match (u.logRead src rq).getLast? with | some r => r.rseq + 1 | none => rq.p 0 8) ++
          (if u.omiWho src == .fabric then (u.logRead src rq).flatMap Rec.bytes else [])) := by
  obtain ⟨t, hexec, v, hans, rfl⟩ := Taken.answers (i := .omiFaultLogRead src rq env) (f := (· = _))
    ⟨0x02, [.owner, .vf, .fabric], true, false, 16, [(10, 6)]⟩ rfl h (by simp)
    ⟨_, (if_neg (by simp [hkeep])).trans ((if_neg (by simp [hdma])).trans
      (congrArg (State.omiOk · _) (if_neg (by simp [hkeep])))), rfl⟩
  exact ⟨t, hexec, hans⟩

/-! Partitions (R252, R264, R465). -/

/-- KEY_PTCTL as OMI_PARTITION_CREATE writes it for a new partition. -/
def OmiReq.ptctl (rq : OmiReq) : Word :=
  setFld (setFld (setFld (setFld (setBit 0 63 true) 62 62 (rq.p 2 1)) 61 61 (rq.p 3 1)) 55 48 (rq.p 4 1)) 47 47 (rq.p 5 1)

theorem OmiReq.ptctl_fields (hmir : rq.p 2 1 ≤ 1) (hunv : rq.p 3 1 ≤ 1) (hmkey : rq.p 5 1 ≤ 1) :
    bit rq.ptctl 63 = true ∧ fld rq.ptctl 62 62 = rq.p 2 1 ∧ fld rq.ptctl 61 61 = rq.p 3 1 ∧
      fld rq.ptctl 55 48 = rq.p 4 1 ∧ fld rq.ptctl 47 47 = rq.p 5 1 := by
  have hmask := rq.p_byte_lt 4
  unfold OmiReq.ptctl
  simp only [testBit_setFld, bit_setBit, fld_setFld_ne, fld_setFld, Nat.reduceLeDiff, Nat.reduceLT, or_true, and_false, if_true,
    if_false, Nat.reduceAdd, Nat.reduceSub]
  refine ⟨trivial, ?_, ?_, ?_, ?_⟩ <;> omega

/-- The registers of partition p name the tables, the program table and the request area of the request. -/
def State.HasTables (v : State) (rq : OmiReq) (p : Nat) : Prop :=
  v.rf (.keyPtroot p) 51 13 * 8192 = rq.p 8 8 ∧ v.rf (.intProgtab p) 51 6 * 64 = rq.p 16 8 ∧
    v.rf (.intRqarea p) 51 16 * 65536 = rq.p 24 8 ∧ v.rf (.intRqarea p) 14 0 = rq.p 32 2

/-- The addresses of OMI_PARTITION_CREATE are aligned and physical, and the request area has at most 16,384 frames. -/
def OmiReq.TablesOk (rq : OmiReq) : Prop :=
  (rq.p 8 8 % 8192 = 0 ∧ rq.p 8 8 < 2 ^ 52) ∧ (rq.p 16 8 % 64 = 0 ∧ rq.p 16 8 < 2 ^ 52) ∧
    (rq.p 24 8 % 65536 = 0 ∧ rq.p 24 8 < 2 ^ 52) ∧ rq.p 32 2 ≤ 16384

/-- The registers of partition p take what the request gives. -/
def State.putTables (s : State) (rq : OmiReq) (p : Nat) : State :=
  ((s.wr (.keyPtroot p) rq.root).wr (.intProgtab p) rq.progtab).wr (.intRqarea p) rq.rqarea

theorem State.putTables_hasTables (s : State) {v : State} {p : Nat} (hok : rq.TablesOk)
    (hv : ∀ r, v.rd r = (s.putTables rq p).rd r) : v.HasTables rq p := by
  obtain ⟨⟨ha, ha'⟩, ⟨hb, hb'⟩, ⟨hc, hc'⟩, hn⟩ := hok
  unfold State.HasTables
  simp only [State.rf, hv, State.putTables, State.rd_wr, reduceCtorEq, if_true, if_false, OmiReq.root, OmiReq.progtab,
    OmiReq.rqarea, fld_setFld_ne, fld_setFld, Nat.reduceLeDiff, Nat.reduceLT, or_true, Nat.reduceAdd, Nat.reduceSub]
  omega

theorem State.rd_putTables (s : State) (p q : Nat) : (s.putTables rq p).rd (.keyPtctl q) = s.rd (.keyPtctl q) := by
  simp [State.putTables]

/-- Requests that get their frames change the requests alone. -/
theorem State.giveFrames_runs (s : State) (p : Nat) : ∃ rs, s.giveFrames p = { s with runs := rs } := by
  refine foldl_rel (fun s t : State => ∃ rs, t = { s with runs := rs }) (fun s => ⟨s.runs, rfl⟩)
    (fun _ _ _ h h' => ?_) _ (fun s r => ?_) _ s
  · obtain ⟨_, rfl⟩ := h
    obtain ⟨rs, rfl⟩ := h'
    exact ⟨rs, rfl⟩
  · split
    · exact ⟨_, rfl⟩
    · exact ⟨s.runs, rfl⟩

/-- What is shipped to the partner, if there is one, is a message (R276). -/
theorem State.shipTables_fab (s : State) (p : Nat) (keys : List (Nat × Nat)) (frames : List FrameImg) :
    ∃ f, s.shipTables p keys frames = { s with fab := f } := by
  unfold State.shipTables
  split
  · exact ⟨_, rfl⟩
  · exact ⟨s.fab, rfl⟩

theorem State.rd_giveFrames (s : State) (p : Nat) (r : Reg) : (s.giveFrames p).rd r = s.rd r := by
  obtain ⟨rs, h⟩ := s.giveFrames_runs p
  rw [h]
  rfl

theorem State.giveFrames_cores (s : State) (p : Nat) : (s.giveFrames p).cores = s.cores := by
  obtain ⟨rs, h⟩ := s.giveFrames_runs p
  rw [h]

theorem State.rd_shipTables (s : State) (p : Nat) (keys : List (Nat × Nat)) (frames : List FrameImg) (r : Reg) :
    (s.shipTables p keys frames).rd r = s.rd r := by
  obtain ⟨f, h⟩ := s.shipTables_fab p keys frames
  rw [h]
  rfl

theorem State.shipTables_cores (s : State) (p : Nat) (keys : List (Nat × Nat)) (frames : List FrameImg) :
    (s.shipTables p keys frames).cores = s.cores := by
  obtain ⟨f, h⟩ := s.shipTables_fab p keys frames
  rw [h]

/-- What may be shipped leaves the registers as they are. -/
theorem State.rd_ite_shipTables (s : State) (c : Prop) [Decidable c] (p : Nat) (r : Reg) :
    (if c then s.shipTables p [] [] else s).rd r = s.rd r := by
  split
  · exact s.rd_shipTables ..
  · rfl

theorem State.ite_shipTables_cores (s : State) (c : Prop) [Decidable c] (p : Nat) :
    (if c then s.shipTables p [] [] else s).cores = s.cores := by
  split
  · exact s.shipTables_cores ..
  · rfl

theorem State.rd_dropTlb (s : State) (keep : TlbItem → Bool) (r : Reg) : (s.dropTlb keep).rd r = s.rd r := rfl

/-- No core keeps a translation of a partition whose translations are dropped. -/
theorem State.dropTlb_part (s : State) (p k : Nat) : ∀ i ∈ ((s.dropTlb fun t => t.part != p).core k).tlb, i.part ≠ p := by
  intro i hi
  rw [State.core_dropTlb] at hi
  simpa using (List.mem_filter.mp hi).2

/-- The device once OMI_PARTITION_CREATE has written the registers of partition p; one that was active keeps its KEY_PTCTL
and loses its cached translations. -/
def State.created (u : State) (rq : OmiReq) (p : Nat) : State :=
  let v := (if u.partActive p then u else u.wr (.keyPtctl p) rq.ptctl).putTables rq p
  if u.partActive p then v.dropTlb fun t => t.part != p else v

theorem State.created_new {p : Nat} (h : u.partActive p = false) :
    u.created rq p = (u.wr (.keyPtctl p) rq.ptctl).putTables rq p := by
  simp [State.created, h]

theorem State.created_active {p : Nat} (h : u.partActive p = true) :
    u.created rq p = (u.putTables rq p).dropTlb fun t => t.part != p := by
  simp [State.created, h]

section
variable (h : Taken s u src rq 0x10 [.owner] false 40 [(6, 2), (34, 6)] [obPart (rq.p 0 2)]) (hp : rq.p 0 2 ≤ 1023)
  (hmir : rq.p 2 1 ≤ 1) (hunv : rq.p 3 1 ≤ 1) (hmkey : rq.p 5 1 ≤ 1) (hok : rq.TablesOk)
  (hpartner : rq.p 2 1 = 1 → u.partnerValid = true)
include h hp hmir hunv hmkey hok hpartner

/-- With admissible parameters the registers and the cached translations are as created; what else may change are the frames
of waiting requests and what is sent to the partner. -/
theorem omiPartitionCreate_answers
    (hkind : u.partActive (rq.p 0 2) = true → u.rf (.keyPtctl (rq.p 0 2)) 62 62 = rq.p 2 1 ∧
      u.rf (.keyPtctl (rq.p 0 2)) 61 61 = rq.p 3 1)
    (hbusy : u.partActive (rq.p 0 2) = true → u.partBusy (rq.p 0 2) = false ∨ u.rd (.intRqarea (rq.p 0 2)) = rq.rqarea) :
    Completes (.omiPartitionCreate src rq env) s fun t => ∃ v, Answers t v src rq 0x10 false [] ∧
      (∀ r, v.rd r = (u.created rq (rq.p 0 2)).rd r) ∧ v.cores = (u.created rq (rq.p 0 2)).cores := by
  obtain ⟨⟨hroot, hroot'⟩, ⟨hprog, hprog'⟩, ⟨harea, harea'⟩, hn⟩ := hok
  refine Taken.answers ⟨0x10, byOwner, false, false, 40, [(6, 2), (34, 6)]⟩ rfl h
    (by simpa [prm, hp, hmir, hunv, hmkey, hroot, hprog, harea, hn] using ⟨hroot', hprog', harea'⟩)
    ⟨_, (if_neg ?_).trans ((if_neg ?_).trans (if_neg ?_)), fun r => ?_, ?_⟩
  · simpa using hkind
  · simpa using hpartner
  · simpa [or_iff_not_imp_left] using hbusy
  · exact (State.rd_ite_shipTables ..).trans (State.rd_giveFrames ..)
  · exact (State.ite_shipTables_cores ..).trans (State.giveFrames_cores ..)

theorem omiPartitionCreate_new (hnew : u.partActive (rq.p 0 2) = false) :
    Completes (.omiPartitionCreate src rq env) s fun t => ∃ v, Answers t v src rq 0x10 false [] ∧
      v.HasTables rq (rq.p 0 2) ∧ v.partActive (rq.p 0 2) = true ∧ v.rf (.keyPtctl (rq.p 0 2)) 62 62 = rq.p 2 1 ∧
      v.rf (.keyPtctl (rq.p 0 2)) 61 61 = rq.p 3 1 ∧ v.rf (.keyPtctl (rq.p 0 2)) 55 48 = rq.p 4 1 ∧
      v.rf (.keyPtctl (rq.p 0 2)) 47 47 = rq.p 5 1 ∧ v.cores = u.cores := by
  obtain ⟨t, hexec, v, hans, hrd, hcores⟩ := omiPartitionCreate_answers (env := env) h hp hmir hunv hmkey hok hpartner
    (fun hold => by simp [hnew] at hold) (fun hold => by simp [hnew] at hold)
  rw [State.created_new hnew] at hrd hcores
  have hctl : v.rd (.keyPtctl (rq.p 0 2)) = rq.ptctl := by
    rw [hrd, State.rd_putTables, State.rd_wr, if_pos rfl]
  obtain ⟨hactive, h62, h61, h55, h47⟩ := rq.ptctl_fields hmir hunv hmkey
  rw [← hctl] at hactive h62 h61 h55 h47
  exact ⟨t, hexec, v, hans, State.putTables_hasTables _ hok hrd, hactive, h62, h61, h55, h47, hcores⟩

theorem omiPartitionCreate_active (hold : u.partActive (rq.p 0 2) = true)
    (h62 : u.rf (.keyPtctl (rq.p 0 2)) 62 62 = rq.p 2 1) (h61 : u.rf (.keyPtctl (rq.p 0 2)) 61 61 = rq.p 3 1)
    (hbusy : u.partBusy (rq.p 0 2) = false ∨ u.rd (.intRqarea (rq.p 0 2)) = rq.rqarea) :
    Completes (.omiPartitionCreate src rq env) s fun t => ∃ v, Answers t v src rq 0x10 false [] ∧
      v.HasTables rq (rq.p 0 2) ∧ v.rd (.keyPtctl (rq.p 0 2)) = u.rd (.keyPtctl (rq.p 0 2)) ∧
      ∀ k, ∀ i ∈ (v.core k).tlb, i.part ≠ rq.p 0 2 := by
  obtain ⟨t, hexec, v, hans, hrd, hcores⟩ := omiPartitionCreate_answers (env := env) h hp hmir hunv hmkey hok hpartner
    (fun _ => ⟨h62, h61⟩) (fun _ => hbusy)
  rw [State.created_active hold] at hrd hcores
  have hrd' (r : Reg) : v.rd r = (u.putTables rq (rq.p 0 2)).rd r := (hrd r).trans (State.rd_dropTlb ..)
  refine ⟨t, hexec, v, hans, State.putTables_hasTables u hok hrd', (hrd' _).trans (u.rd_putTables ..), fun k => ?_⟩
  rw [State.core_congr _ _ k hcores]
  exact State.dropTlb_part _ _ k

end

/-- The registers of a list take their cold values. -/
def State.coldRegs (s : State) (rs : List Reg) : State := rs.foldl (fun s r => s.wr r (Reg.cold s.fuses r)) s

theorem State.rd_coldRegs (s : State) (rs : List Reg) (r : Reg) :
    (s.coldRegs rs).rd r = if r ∈ rs then Reg.cold s.fuses r else s.rd r := by
  induction rs generalizing s with
  | nil => rfl
  | cons a rs ih =>
    refine (ih (s.wr a (Reg.cold s.fuses a))).trans ?_
    rw [State.rd_wr, State.wr_fuses]
    by_cases hr : r ∈ rs
    · simp [hr]
    · by_cases ha : r = a
      · subst ha; simp
      · simp [hr, ha]

theorem cold_keyPtctl_inactive (fu : Fuses) (p : Nat) : bit (Reg.cold fu (.keyPtctl p)) 63 = false := by
  show bit (coldWord (Reg.keyPtctl 0).fields) 63 = false
  decide

theorem any_eq_false_of_all {α : Type} {f g : α → Bool} {l : List α} (hall : l.all g = true) (hfg : ∀ x, g x = !f x) :
    l.any f = false := by
  rw [funext hfg, ← List.not_any_eq_all_not] at hall
  simpa using hall

theorem omiPartitionDelete_answers (h : Taken s u src rq 0x11 [.owner] false 8 [(2, 6)] [obPart (rq.p 0 2)])
    (h0 : rq.p 0 2 ≠ 0) (hp : rq.p 0 2 ≤ 1023) (hactive : u.partActive (rq.p 0 2) = true)
    (hbusy : u.partBusy (rq.p 0 2) = false) (hgrants : u.grantsOf (rq.p 0 2) = [])
    (hbound : u.regs.all (fun r => match r.1 with
      | .keyQbind _ => !(bit r.2 63 && fld r.2 9 0 == rq.p 0 2)
      | .keyFnbind _ => !(bit r.2 63 && fld r.2 9 0 == rq.p 0 2)
      | _ => true) = true) :
    Completes (.omiPartitionDelete src rq env) s fun t => ∃ v, Answers t v src rq 0x11 false [] ∧
      v.partActive (rq.p 0 2) = false ∧ ∀ k, ∀ i ∈ (v.core k).tlb, i.part ≠ rq.p 0 2 := by
  refine Taken.answers ⟨0x11, byOwner, false, false, 8, [(2, 6)]⟩ rfl h (by simpa [prm] using hp)
    ⟨_, (if_neg h0).trans ((if_neg (by simp [hactive])).trans (if_neg ?_)), ?_, fun k => ?_⟩
  · have hfree := any_eq_false_of_all hbound (f := fun r => match r.1 with
      | .keyQbind _ => bit r.2 63 && fld r.2 9 0 == rq.p 0 2
      | .keyFnbind _ => bit r.2 63 && fld r.2 9 0 == rq.p 0 2
      | _ => false) (fun ⟨r, w⟩ => by cases r <;> rfl)
    rw [hbusy, hgrants]
    exact fun hbad => Bool.false_ne_true (hfree.symm.trans ((Bool.or_false _).symm.trans hbad))
  · have hcold := u.rd_coldRegs [.keyPtctl (rq.p 0 2), .keyPtroot (rq.p 0 2), .intProgtab (rq.p 0 2),
      .intRqarea (rq.p 0 2)] (.keyPtctl (rq.p 0 2))
    rw [if_pos (by simp)] at hcold
    rw [State.partActive, State.rd_ite_shipTables, State.rd_dropTlb]
    exact (congrArg (bit · 63) hcold).trans (cold_keyPtctl_inactive ..)
  · rw [State.core_congr _ _ k (State.ite_shipTables_cores ..)]
    exact State.dropTlb_part _ _ k

/-! Functions (R272 to R274, R452). -/

/-- The device with function f bound to partition p, and n MSI-X entries from b on as its vectors. -/
def State.bindFn (u : State) (f p b n : Nat) : State :=
  (u.wr (.keyFnbind f) (setFld (setBit 0 63 true) 9 0 p)).modHif fun h => { h with
    fns := sset Fn.cold h.fns f { sget Fn.cold h.fns f with vbase := b, nvec := n, table := [], pend := [] } }

theorem State.bindFn_fields (u : State) {f p b n : Nat} (hp : p ≤ 1023) :
    let v := u.bindFn f p b n
    bit (v.rd (.keyFnbind f)) 63 = true ∧ v.rf (.keyFnbind f) 9 0 = p ∧ (v.fn f).vbase = b ∧ (v.fn f).nvec = n := by
  have hword : (u.bindFn f p b n).rd (.keyFnbind f) = setFld (setBit 0 63 true) 9 0 p :=
    (State.rd_wr ..).trans (if_pos rfl)
  have hfn : (u.bindFn f p b n).fn f = { u.fn f with vbase := b, nvec := n, table := [], pend := [] } :=
    (sget_sset ..).trans (if_pos rfl)
  dsimp only
  rw [State.rf, hword, hfn, testBit_setFld _ 9 0 _ 63 (by decide) (by decide) (by decide), if_neg (by decide),
    bit_setBit _ _ _ _ (by decide) (by decide), fld_setFld _ 9 0 _ (by decide) (by decide)]
  exact ⟨if_pos rfl, Nat.mod_eq_of_lt (by omega), rfl, rfl⟩

theorem omiFunctionBind_answers {b : Nat}
    (h : Taken s u src rq 0x12 [.owner] false 8 [(1, 1), (6, 2)] [obFn (rq.p 0 1), obPart (rq.p 2 2)])
    (hf : rq.p 0 1 ≠ 0) (hp : rq.p 2 2 ≤ 1023) (hactive : u.partActive (rq.p 2 2) = true)
    (hruns : u.runs.all (fun r => !(r.st != .journaled && r.adopted.isNone && bit (u.rd (.keyQbind r.queue)) 63 &&
      u.rf (.keyQbind r.queue) 55 48 == rq.p 0 1)) = true)
    (hqueues : u.regs.all (fun r => match r.1 with
      | .keyQbind _ => !(bit r.2 63 && fld r.2 55 48 == rq.p 0 1)
      | _ => true) = true)
    (hn : rq.p 4 2 ≤ 2048) (hvecs : u.freeVecs (rq.p 0 1) (rq.p 4 2) = some b) :
    Completes (.omiFunctionBind src rq env) s fun t => ∃ v, Answers t v src rq 0x12 false (toBytes 2 b ++ toBytes 6 0) ∧
      bit (v.rd (.keyFnbind (rq.p 0 1))) 63 = true ∧ v.rf (.keyFnbind (rq.p 0 1)) 9 0 = rq.p 2 2 ∧
      (v.fn (rq.p 0 1)).vbase = b ∧ (v.fn (rq.p 0 1)).nvec = rq.p 4 2 := by
  have hbind : (rq.p 2 2 == 0xFFFF) = false := beq_false_of_ne (by omega)
  have hidle := any_eq_false_of_all hruns (fun _ => rfl)
  have hnone := any_eq_false_of_all hqueues (f := fun r => match r.1 with
    | .keyQbind _ => bit r.2 63 && fld r.2 55 48 == rq.p 0 1
    | _ => false) (fun ⟨r, w⟩ => by cases r <;> rfl)
  refine Taken.answers ⟨0x12, byOwner, false, false, 8, [(1, 1), (6, 2)]⟩ rfl h (by simp [prm, hp])
    ⟨u.bindFn (rq.p 0 1) (rq.p 2 2) b (rq.p 4 2), (if_neg hf).trans ((if_neg (by simp [hactive])).trans
      ((if_neg ?_).trans ((if_neg (by simp [hbind])).trans ?_))), u.bindFn_fields hp⟩
  · rw [Bool.or_eq_true, not_or, Bool.and_eq_true, not_and_or]
    exact ⟨fun hbad => Bool.false_ne_true (hidle.symm.trans hbad),
      .inl fun hbad => Bool.false_ne_true (hnone.symm.trans hbad)⟩
  · rw [if_neg (by omega), hvecs]
    rfl

/-! Queues (R273, R333, R358). -/

/-- INT_QCFG as OMI_QUEUE_CREATE writes it. -/
def OmiReq.qcfg (rq : OmiReq) : Word :=
  setFld (setFld (setFld (setFld (setFld (setBit 0 63 true) 62 62 (rq.p 3 1)) 61 59 (rq.p 4 1)) 55 52 (rq.p 5 1 % 16)) 51 48
    (rq.p 6 1 % 16)) 10 0 (rq.p 8 2)

theorem OmiReq.qcfg_fields (hord : rq.p 3 1 ≤ 1) (hreg : rq.p 4 1 ≤ 7) (hvec : rq.p 8 2 < 2048) :
    bit rq.qcfg 63 = true ∧ fld rq.qcfg 62 62 = rq.p 3 1 ∧ fld rq.qcfg 61 59 = rq.p 4 1 ∧
      fld rq.qcfg 55 52 = rq.p 5 1 % 16 ∧ fld rq.qcfg 51 48 = rq.p 6 1 % 16 ∧ fld rq.qcfg 10 0 = rq.p 8 2 := by
  unfold OmiReq.qcfg
  simp only [testBit_setFld, bit_setBit, fld_setFld_ne, fld_setFld, Nat.reduceLeDiff, Nat.reduceLT, or_true, and_false, if_true,
    if_false, Nat.reduceAdd, Nat.reduceSub]
  refine ⟨trivial, ?_, ?_, ?_, ?_, ?_⟩ <;> omega

/-- KEY_QBIND of a queue of function f and partition p. -/
def qbindWord (f p : Nat) : Word := setFld (setFld (setBit 0 63 true) 55 48 f) 9 0 p

theorem qbindWord_fields {f p : Nat} (hf : f < 2 ^ 8) (hp : p < 2 ^ 10) :
    bit (qbindWord f p) 63 = true ∧ fld (qbindWord f p) 55 48 = f ∧ fld (qbindWord f p) 9 0 = p := by
  unfold qbindWord
  simp only [testBit_setFld, bit_setBit, fld_setFld_ne, fld_setFld, Nat.reduceLeDiff, Nat.reduceLT, or_true, and_false, if_true,
    if_false, Nat.reduceAdd, Nat.reduceSub]
  refine ⟨trivial, ?_, ?_⟩ <;> omega

/-- The registers of queue q take what the request gives, but for INT_CQTAIL. -/
def State.putQueue (u : State) (rq : OmiReq) (q f : Nat) : State :=
  let s := u.wr (.intQcfg q) rq.qcfg
  let s := s.wr (.keyQbind q) (qbindWord f (s.rf (.keyFnbind f) 9 0))
  (s.wr (.intSqbase q) (BitVec.ofNat 64 (rq.p 16 8))).wr (.intCqbase q) (BitVec.ofNat 64 (rq.p 24 8))

/-- The device with queue q of function f as the request gives it. -/
def State.createQueue (u : State) (rq : OmiReq) (q f : Nat) : State :=
  let s := u.putQueue rq q f
  let s := (s.wr (.intCqtail q) (BitVec.ofNat 64 (rq.p 32 8))).setQueue q { Queue.cold with
    relKey := (s.queue q).relKey, held := !s.fnMaster f }
  { s with runs := s.runs.map fun (r : Run) => if r.queue = q && r.adopted.isNone then { r with region := rq.p 4 1 } else r }

theorem State.queue_runs (s : State) (rs : List Run) (q : Nat) : State.queue { s with runs := rs } q = s.queue q := rfl

theorem State.rd_createQueue_eq (u : State) (rq : OmiReq) (q f : Nat) (r : Reg) : (u.createQueue rq q f).rd r =
    ((u.putQueue rq q f).wr (.intCqtail q) (BitVec.ofNat 64 (rq.p 32 8))).rd r := by
  unfold State.createQueue
  exact (State.rd_runs ..).trans (State.rd_setQueue ..)

theorem State.rd_createQueue (u : State) (rq : OmiReq) (q f : Nat) :
    let v := u.createQueue rq q f
    v.rd (.intQcfg q) = rq.qcfg ∧ v.rd (.keyQbind q) = qbindWord f (u.rf (.keyFnbind f) 9 0) ∧
      v.rd (.intSqbase q) = BitVec.ofNat 64 (rq.p 16 8) ∧ v.rd (.intCqbase q) = BitVec.ofNat 64 (rq.p 24 8) ∧
      v.rd (.intCqtail q) = BitVec.ofNat 64 (rq.p 32 8) := by
  simp [State.rd_createQueue_eq, State.putQueue, State.rf]

theorem State.fnMaster_putQueue (u : State) (rq : OmiReq) (q f : Nat) : (u.putQueue rq q f).fnMaster f = u.fnMaster f := by
  simp [State.fnMaster, State.fn, State.putQueue, State.rf]

theorem State.queue_createQueue (u : State) (rq : OmiReq) (q f : Nat) :
    ((u.createQueue rq q f).queue q).acc = [] ∧ ((u.createQueue rq q f).queue q).held = !u.fnMaster f := by
  have hqueue : (u.createQueue rq q f).queue q = { Queue.cold with
      relKey := ((u.putQueue rq q f).queue q).relKey, held := !(u.putQueue rq q f).fnMaster f } := by
    unfold State.createQueue
    exact (State.queue_runs ..).trans ((State.queue_setQueue ..).trans (if_pos rfl))
  rw [hqueue, State.fnMaster_putQueue]
  exact ⟨rfl, rfl⟩

theorem omiQueueCreate_answers
    (h : Taken s u src rq 0x13 [.owner] false 40 [(7, 1), (10, 6)] [obQueue (rq.p 0 2), obFn (rq.p 2 1)])
    (hq : rq.p 0 2 ≤ 4095) (hord : rq.p 3 1 ≤ 1) (hreg : rq.p 4 1 ≤ 7) (hsq : 4 ≤ rq.p 5 1) (hsq' : rq.p 5 1 ≤ 16)
    (hcq : rq.p 5 1 < rq.p 6 1) (hcq' : rq.p 6 1 ≤ 17) (hsqbase : rq.p 16 8 % 512 = 0) (hcqbase : rq.p 24 8 % 128 = 0)
    (hbound : bit (u.rd (.keyFnbind (rq.p 2 1))) 63 = true ∨ rq.p 2 1 = 0) (hvec : rq.p 8 2 < (u.fnVecs (rq.p 2 1)).2)
    (hvecs : (u.fnVecs (rq.p 2 1)).2 ≤ 2048) (hfree : bit (u.rd (.intQcfg (rq.p 0 2))) 63 = false) :
    Completes (.omiQueueCreate src rq env) s fun t => ∃ v, Answers t v src rq 0x13 false [] ∧
      bit (v.rd (.intQcfg (rq.p 0 2))) 63 = true ∧ v.rf (.intQcfg (rq.p 0 2)) 62 62 = rq.p 3 1 ∧
      v.rf (.intQcfg (rq.p 0 2)) 61 59 = rq.p 4 1 ∧ v.rf (.intQcfg (rq.p 0 2)) 55 52 = rq.p 5 1 % 16 ∧
      v.rf (.intQcfg (rq.p 0 2)) 51 48 = rq.p 6 1 % 16 ∧ v.rf (.intQcfg (rq.p 0 2)) 10 0 = rq.p 8 2 ∧
      bit (v.rd (.keyQbind (rq.p 0 2))) 63 = true ∧ v.rf (.keyQbind (rq.p 0 2)) 55 48 = rq.p 2 1 ∧
      v.rf (.keyQbind (rq.p 0 2)) 9 0 = u.rf (.keyFnbind (rq.p 2 1)) 9 0 ∧
      v.rd (.intSqbase (rq.p 0 2)) = BitVec.ofNat 64 (rq.p 16 8) ∧
      v.rd (.intCqbase (rq.p 0 2)) = BitVec.ofNat 64 (rq.p 24 8) ∧
      v.rd (.intCqtail (rq.p 0 2)) = BitVec.ofNat 64 (rq.p 32 8) ∧ (v.queue (rq.p 0 2)).acc = [] ∧
      (v.queue (rq.p 0 2)).held = !u.fnMaster (rq.p 2 1) := by
  obtain ⟨hqcfg, hqbind, hbases⟩ := u.rd_createQueue rq (rq.p 0 2) (rq.p 2 1)
  obtain ⟨h63, h62, h61, h55, h51, h10⟩ := rq.qcfg_fields hord hreg (hvec.trans_le hvecs)
  obtain ⟨hb63, hb55, hb9⟩ := qbindWord_fields (rq.p_byte_lt 2) (fld_lt (u.rd (.keyFnbind (rq.p 2 1))) 9 0)
  rw [← hqcfg] at h63 h62 h61 h55 h51 h10
  rw [← State.rf, ← hqbind] at hb63 hb55 hb9
  obtain ⟨hsqb, hcqb, hcqt⟩ := hbases
  refine Taken.answers ⟨0x13, byOwner, false, false, 40, [(7, 1), (10, 6)]⟩ rfl h
    (by simpa [prm, hq, hord, hreg, hsqbase, hcqbase, hsq, hsq', hcq, hcq'] using fun _ => hvec)
    ⟨u.createQueue rq (rq.p 0 2) (rq.p 2 1), (if_neg ?_).trans (if_neg (by simp [hfree])), h63, h62, h61, h55, h51, h10,
      hb63, hb55, hb9, hsqb, hcqb, hcqt, u.queue_createQueue ..⟩
  simpa [or_iff_not_imp_left] using hbound

theorem cold_intQcfg_disabled (fu : Fuses) (q : Nat) : bit (Reg.cold fu (.intQcfg q)) 63 = false := by
  refine (testBit_setFld _ 61 59 _ 63 (by decide) (by decide) (by decide)).trans ((if_neg (by decide)).trans ?_)
  show bit (coldWord (Reg.intQcfg 0).fields) 63 = false
  decide

theorem cold_keyQbind_unbound (fu : Fuses) (q : Nat) : bit (Reg.cold fu (.keyQbind q)) 63 = false := by
  show bit (coldWord (Reg.keyQbind 0).fields) 63 = false
  decide

theorem omiQueueDelete_answers (h : Taken s u src rq 0x14 [.owner] false 8 [(2, 6)] [obQueue (rq.p 0 2)])
    (hq : rq.p 0 2 ≤ 4095) (henabled : bit (u.rd (.intQcfg (rq.p 0 2))) 63 = true) (hbusy : u.queueBusy (rq.p 0 2) = false) :
    Completes (.omiQueueDelete src rq env) s fun t => ∃ v, Answers t v src rq 0x14 false [] ∧
      bit (v.rd (.intQcfg (rq.p 0 2))) 63 = false ∧ bit (v.rd (.keyQbind (rq.p 0 2))) 63 = false ∧
      v.queue (rq.p 0 2) = Queue.cold := by
  have hcold (r : Reg) := u.rd_coldRegs [.intQcfg (rq.p 0 2), .keyQbind (rq.p 0 2), .intSqbase (rq.p 0 2),
    .intCqbase (rq.p 0 2), .intCqtail (rq.p 0 2)] r
  refine Taken.answers ⟨0x14, byOwner, false, false, 8, [(2, 6)]⟩ rfl h (by simpa [prm] using hq)
    ⟨_, (if_neg (by simp [henabled])).trans (if_neg (by simp [hbusy])), ?_, ?_, (State.queue_setQueue ..).trans (if_pos rfl)⟩
  · rw [State.rd_setQueue]
    exact (congrArg (bit · 63) ((hcold _).trans (if_pos (by simp)))).trans (cold_intQcfg_disabled ..)
  · rw [State.rd_setQueue]
    exact (congrArg (bit · 63) ((hcold _).trans (if_pos (by simp)))).trans (cold_keyQbind_unbound ..)

/-! Grants and tables (R270, R276). -/

theorem omiGrantSet_answers
    (h : Taken s u src rq 0x15 [.owner] false 16 [(2, 6)] [obPart (fld (BitVec.ofNat 64 (rq.p 8 8) : Word) 9 0)])
    (hg : rq.p 0 2 ≤ 4095) (h59 : fld (BitVec.ofNat 64 (rq.p 8 8) : Word) 59 48 = 0)
    (h35 : fld (BitVec.ofNat 64 (rq.p 8 8) : Word) 35 34 = 0) (h15 : fld (BitVec.ofNat 64 (rq.p 8 8) : Word) 15 10 = 0)
    (hack : env.ack = true) :
    Completes (.omiGrantSet src rq env) s fun t => ∃ v, Answers t v src rq 0x15 false [] ∧
      v.rd (.keyGrant (rq.p 0 2)) = BitVec.ofNat 64 (rq.p 8 8) ∧ ∀ r, r ≠ .keyGrant (rq.p 0 2) → v.rd r = u.rd r := by
  refine Taken.answers ⟨0x15, byOwner, false, false, 16, [(2, 6)]⟩ rfl h (by simp [prm, hg, h59, h35, h15])
    ⟨_, if_neg (by simp [hack]), ?_, fun r hr => ?_⟩
  · rw [State.rd_ite_shipTables, State.rd_ite_shipTables, State.rd_wr, if_pos rfl]
  · rw [State.rd_ite_shipTables, State.rd_ite_shipTables, State.rd_wr, if_neg hr]

/-- The addresses that the buffer of OMI_TABLES_SHIP holds. -/
abbrev OmiReq.frameAddrs (rq : OmiReq) (env : OmiEnv) : List Nat :=
  (List.range ((rq.data env).length / 8)).map fun i => bytesAt (rq.data env) (8 * i) 8

theorem State.shipTables_out (s : State) (p : Nat) (keys : List (Nat × Nat)) (frames : List FrameImg)
    (hpartner : s.hasPartner = true) : (s.shipTables p keys frames).fab.out = s.fab.out ++
      [⟨s.partnerId, false, false,
        .tables ⟨p, s.rd (.keyPtctl p), s.rd (.keyPtroot p), s.grantsOf p, keys, frames⟩, false⟩] := by
  rw [State.shipTables, if_pos hpartner]
  rfl

theorem omiTablesShip_answers (h : Taken s u src rq 0x16 [.owner] false 8 [(2, 6)] [obPart (rq.p 0 2)])
    (hp : rq.p 0 2 ≤ 1023) (hlen : rq.dlen % 8 = 0) (hactive : u.partActive (rq.p 0 2) = true)
    (hmir : bit (u.rd (.keyPtctl (rq.p 0 2))) 62 = true) (hdma : env.dmaOk = true)
    (haddrs : (rq.frameAddrs env).all (fun a => a % 4096 == 0 && u.physOk a) = true) (hack : env.ack = true)
    (hpartner : u.hasPartner = true) :
    Completes (.omiTablesShip src rq env) s fun t => ∃ v, Answers t v src rq 0x16 false [] ∧
      v.fab.out = u.fab.out ++ [⟨u.partnerId, false, false, .tables ⟨rq.p 0 2, u.rd (.keyPtctl (rq.p 0 2)),
        u.rd (.keyPtroot (rq.p 0 2)), u.grantsOf (rq.p 0 2),
        (rq.frameAddrs env).map fun a => (a / 4096, (u.frameKey a).1 + 256 * b2n (u.frameKey a).2),
        (rq.frameAddrs env).map fun a => u.frameImage (a / 4096)⟩, false⟩] := by
  have hframes : (rq.frameAddrs env).any (fun a => a % 4096 != 0 || !u.physOk a) = false :=
    any_eq_false_of_all haddrs fun a => by simp [bne]
  refine Taken.answers ⟨0x16, byOwner, false, false, 8, [(2, 6)]⟩ rfl h (by simp [prm, hp, hlen])
    ⟨_, (if_neg (by simp [hactive])).trans ((if_neg (by simp [hmir])).trans ((if_neg (by simp [hdma])).trans
      ((if_neg (Bool.eq_false_iff.mp hframes)).trans (if_neg (by simp [hack]))))), ?_⟩
  exact (u.readBuffer src rq).shipTables_out _ _ _ hpartner

/-! Code, memory, the journal key and admission. -/

/-- The TCM block descriptor that OMI_TCM_CODE_LOAD makes (R243). -/
def tcmCodeWord (p key mk : Nat) : Word :=
  setFld (setFld (setFld (setBit (setBit 0 63 true) 62 true) 57 48 p) 47 40 key) 39 39 mk

theorem tcmCodeWord_fields {p key : Nat} (mk : Nat) (hp : p ≤ 1023) (hkey : key < 2 ^ 8) :
    bit (tcmCodeWord p key mk) 63 = true ∧ bit (tcmCodeWord p key mk) 62 = true ∧
      fld (tcmCodeWord p key mk) 57 48 = p ∧ fld (tcmCodeWord p key mk) 47 40 = key := by
  unfold tcmCodeWord
  simp only [testBit_setFld, bit_setBit, fld_setFld_ne, fld_setFld, Nat.reduceLeDiff, Nat.reduceLT, or_true, and_false, if_true,
    if_false, Nat.reduceAdd, Nat.reduceSub, Nat.reduceEqDiff]
  refine ⟨trivial, trivial, ?_, ?_⟩ <;> omega

/-- A block of code that was loaded stands among those of the device, with its descriptor, words and tick. -/
theorem exists_codeBlock (l : List (Nat × Word × List TWord × Nat)) (b mk tick : Nat) (ws : List TWord) {p key : Nat}
    (hp : p ≤ 1023) (hkey : key < 2 ^ 8) : ∃ x ∈ l ++ [(b, tcmCodeWord p key mk, ws, tick)],
      x.1 = b ∧ bit x.2.1 63 = true ∧ bit x.2.1 62 = true ∧ fld x.2.1 57 48 = p ∧ fld x.2.1 47 40 = key ∧
      x.2.2.1 = ws ∧ x.2.2.2 = tick := by
  obtain ⟨h63, h62, h57, h47⟩ := tcmCodeWord_fields mk hp hkey
  exact ⟨_, List.mem_append_right _ (List.mem_singleton.mpr rfl), rfl, h63, h62, h57, h47, rfl, rfl⟩

theorem omiTcmCodeLoad_answers (h : Taken s u src rq 0x17 [.owner] false 16 [(1, 1), (6, 2)] [obPart (rq.p 2 2)])
    (hb : rq.p 0 1 ≤ 63) (hp : rq.p 2 2 ≤ 1023) (hmk : rq.p 5 1 ≤ 1) (haddr : rq.p 8 8 % 4096 = 0)
    (hphys : u.physOk (rq.p 8 8) = true) (hactive : u.partActive (rq.p 2 2) = true) :
    Completes (.omiTcmCodeLoad src rq env) s fun t => ∃ v, Answers t v src rq 0x17 false [] ∧ ∃ x ∈ v.mp.code,
      x.1 = rq.p 0 1 ∧ bit x.2.1 63 = true ∧ bit x.2.1 62 = true ∧ fld x.2.1 57 48 = rq.p 2 2 ∧
      fld x.2.1 47 40 = rq.p 4 1 ∧ x.2.2.1 = ((List.range 512).map fun i => u.memWord (rq.p 8 8 + 8 * i)) ∧
      x.2.2.2 = u.tick + 1 :=
  Taken.answers ⟨0x17, byOwner, false, false, 16, [(1, 1), (6, 2)]⟩ rfl h (by simp [prm, hb, hp, hmk, haddr, hphys])
    ⟨_, if_neg (by simp [hactive]), exists_codeBlock _ _ _ _ _ hp (rq.p_byte_lt 4)⟩

theorem omiMemoryLayoutSet_answers {pm pp : Nat} (h : Taken s u src rq 0x18 [.owner] false 16 [] [obLayout])
    (hm : rq.p 0 8 % 4096 = 0) (hun : rq.p 8 8 % 4096 = 0) (hfit : rq.p 0 8 + rq.p 8 8 ≤ u.layout.d)
    (hpartner : u.hasPartner = true → rq.p 0 8 = pp ∧ u.layout.d - rq.p 0 8 - rq.p 8 8 = pm)
    (hparts : u.regs.all (fun r => match r.1 with | .keyPtctl p => p == 0 || !bit r.2 63 | _ => true) = true) :
    Completes (.omiMemoryLayoutSet src rq env pm pp) s fun t => ∃ v,
      Answers t v src rq 0x18 false (toBytes 8 u.layout.d ++ toBytes 8 (u.layout.d - rq.p 0 8 - rq.p 8 8)) ∧
      v = { u with layout := ⟨u.layout.cap, rq.p 0 8, rq.p 8 8, u.layout.d - rq.p 0 8 - rq.p 8 8⟩ } := by
  have hidle := any_eq_false_of_all hparts
    (f := fun r => match r.1 with | .keyPtctl p => p != 0 && bit r.2 63 | _ => false) fun ⟨r, w⟩ => by
      cases r with
      | keyPtctl p => simp [bne]
      | _ => rfl
  have hm' : rq.p 0 8 ≤ u.layout.d := by omega
  exact Taken.answers ⟨0x18, byOwner, false, false, 16, []⟩ rfl h
    (by simpa [prm, hm, hun, hfit, hm'] using hpartner)
    ⟨_, if_neg fun hbad => Bool.false_ne_true (hidle.symm.trans hbad), rfl⟩

theorem omiJournalKeySet_answers {c : Cred} {k : Nat} (h : Taken s u src rq 0x19 [.owner] false 48 [(1, 7)] [])
    (hcred : u.mp.creds.find? (fun c => c.kind == 5) = some c) (hkey : Config.unwrapKey c.key (rq.p 8 40) = some k)
    (hprev : ∀ e, u.vault.prevKey = some e → (u.vault.own ++ u.vault.ptn).all (fun r => r.keyep != e.1) = true)
    (hack : u.hasPartner = true → env.ack = true) :
    Completes (.omiJournalKeySet src rq env) s fun t => ∃ v, Answers t v src rq 0x19 false [] ∧
      v.vault = { u.vault with key := some (rq.p 0 1, k), prevKey := u.vault.key } := by
  refine Taken.answers ⟨0x19, byOwner, false, false, 48, [(1, 7)]⟩ rfl h (by simp) ?_
  dsimp only
  rw [hcred]
  dsimp only
  rw [hkey]
  refine ⟨_, (if_neg ?_).trans (if_neg (by simpa using hack)), rfl⟩
  cases hkeys : u.vault.prevKey with
  | none => exact Bool.false_ne_true
  | some e => exact Bool.eq_false_iff.mp (any_eq_false_of_all (hprev e hkeys) fun _ => rfl)

theorem State.takeRelease_queues (s : State) (pq q : Nat) : ∃ qs, s.takeRelease pq q = { s with queues := qs } := by
  unfold State.takeRelease
  dsimp only
  split
  · exact ⟨s.queues, rfl⟩
  · exact ⟨_, rfl⟩

theorem omiTakeoverQueueSet_answers (h : Taken s u src rq 0x1A [.owner] false 8 [(4, 4)] [obQueue (rq.p 2 2)])
    (hpq : rq.p 0 2 ≤ 4095) (hq : rq.p 2 2 ≤ 4095) (henabled : bit (u.rd (.intQcfg (rq.p 2 2))) 63 = true) :
    Completes (.omiTakeoverQueueSet src rq env) s fun t => ∃ v, Answers t v src rq 0x1A false [] ∧
      v = { u with takeQ := v.takeQ, queues := v.queues } ∧ (u.fab.custody = false → v.queues = u.queues) ∧
      v.takeQ.find? (·.1 == rq.p 0 2) = some (rq.p 0 2, rq.p 2 2) := by
  refine Taken.answers ⟨0x1A, byOwner, false, false, 8, [(4, 4)]⟩ rfl h (by simp [prm, hpq, hq])
    ⟨_, (if_neg (by omega)).trans (if_neg (by simp [henabled])), ?_⟩
  cases hcustody : u.fab.custody
  · exact ⟨rfl, fun _ => rfl, find?_sins ..⟩
  · obtain ⟨qs, hqs⟩ := State.takeRelease_queues { u with takeQ := sins u.takeQ (rq.p 0 2) (rq.p 2 2) } (rq.p 0 2) (rq.p 2 2)
    rw [if_pos rfl, hqs]
    exact ⟨rfl, fun hno => (Bool.false_ne_true hno.symm).elim, find?_sins ..⟩

theorem omiAdmitSet_answers (h : Taken s u src rq 0x1B [.owner] false 8 [(2, 6)] []) :
    Completes (.omiAdmitSet src rq env) s fun t => ∃ v, Answers t v src rq 0x1B false [] ∧
      v.rf .tsqAdmit 15 0 = rq.p 0 2 ∧ v.rf .tsqAdmit 17 16 = u.rf .tsqAdmit 17 16 ∧
      ∀ r, r ≠ .tsqAdmit → v.rd r = u.rd r :=
  Taken.answers ⟨0x1B, byOwner, false, false, 8, [(2, 6)]⟩ rfl h (by simp)
    ⟨_, rfl, u.rf_wf_fits _ (by decide) (by decide) (rq.p_lt 0 2), u.rf_wf_other _ 15 0 _ 17 16,
      fun _ hr => (u.rd_wf ..).trans (if_neg hr)⟩

/-- Settles O55, clause by clause: the doorbell by SEQ, the request area, the stored response, then each command by the
lemma on what it does. -/
theorem mailboxAndSetupCommands : Obligations.MailboxAndSetupCommands := by
  unfold Obligations.MailboxAndSetupCommands
  intro s u src rq env
  refine ⟨fun m seq fn size hfw hpfail => ⟨mbxDoorbell_discarded, fun howner hsize => ⟨fun hnext hidle =>
      ⟨mbxDoorbell_takes hfw hpfail howner hsize hnext hidle, mbxDoorbell_unassigned hfw hpfail howner hsize hnext hidle,
        mbxDoorbell_otherSeq hfw hpfail howner hsize hnext hidle⟩,
      mbxDoorbell_repeats hfw hpfail howner hsize, mbxDoorbell_seqErr hfw hpfail howner hsize⟩⟩,
    fun _ _ _ _ hi => ⟨areaWrite_stranger hi, areaWrite_owner hi⟩, State.omiEnd_mbx, omiHealthRead_answers,
    omiFaultLogRead_answers,
    fun h hp hmir hunv hmkey h8 h8' h16 h16' h24 h24' hn hpartner =>
      ⟨omiPartitionCreate_new h hp hmir hunv hmkey ⟨⟨h8, h8'⟩, ⟨h16, h16'⟩, ⟨h24, h24'⟩, hn⟩ hpartner,
        omiPartitionCreate_active h hp hmir hunv hmkey ⟨⟨h8, h8'⟩, ⟨h16, h16'⟩, ⟨h24, h24'⟩, hn⟩ hpartner⟩,
    omiPartitionDelete_answers, fun _ => omiFunctionBind_answers, omiQueueCreate_answers, omiQueueDelete_answers,
    omiGrantSet_answers, omiTablesShip_answers, omiTcmCodeLoad_answers, fun _ _ => omiMemoryLayoutSet_answers,
    fun _ _ => omiJournalKeySet_answers, omiTakeoverQueueSet_answers, omiAdmitSet_answers⟩

end Sys2Proof.Machine
end

section
/-!
PROOFS. Remote repair (R279): a map of lines that lists one line twice, and the repair of that line.
-/
namespace Sys2Proof.Machine

/-- A device whose ledger memory begins with the replica area, and whose map of lines lists line 0 twice: to read its state
takes the first, and a repair removes the stale one alone. -/
def State.staleTwice : State :=
  { State.reset with
    layout := ⟨2 ^ 36, 0, 0, 2 ^ 35⟩
    lines := [(0, .stale), (0, .ue)] }

theorem staleTwice_line : State.staleTwice.line 0 = .stale ∧ State.staleTwice.area 0 = .replica := by decide

/-- The line once its present contents have come. -/
theorem staleTwice_repaired : (match exec (.repairComplete 0 (List.replicate 8 raw0)) State.staleTwice with
    | .next t => decide (t.line 0 = .ue)
    | _ => false) = true := by decide +kernel

/-- Refutes O45: the clause on REPAIR_COMPLETE says that a stale line for which no remote read waits is good once its present
contents have come. The statement is about every state, so also about one whose map of lines lists the line twice: the repair
removes the stale entry, and the other one, which it had hidden, is then the state of the line. -/
theorem not_memoryChannels : ¬ Obligations.MemoryChannels := by
  unfold Obligations.MemoryChannels
  intro h
  obtain ⟨-, -, -, -, -, -, hrepair, -⟩ := h 0 State.staleTwice
  obtain ⟨t, hexec, -, -, hgood⟩ := hrepair 0 (List.replicate 8 raw0) rfl (.inr staleTwice_line)
  have hbad := staleTwice_repaired
  simp only [hexec, decide_eq_true_eq] at hbad
  have hline : t.line 0 = .ok := hgood fun p hp => absurd hp List.not_mem_nil
  exact absurd (hline.symm.trans hbad) (by decide)

end Sys2Proof.Machine
end

section
/-!
PROOFS. The clock of a tick: its number, its phase, its flip and the resets asked for. The operations that a boundary of the
tick is made of keep it; the boundary itself sets it.
-/
namespace Sys2Proof.Machine

/-- What the boundaries of a tick act on: the number and the phase of the tick, what it has admitted, whether it has flipped,
and the resets that were asked for. -/
structure Clock where
  tick : Nat
  phase : Nat
  admitted : Nat
  flipped : Bool
  warm : Option Nat
  parts : List Nat

/-- The clock of a state. -/
def State.clock (s : State) : Clock :=
  ⟨s.tick, s.rf .tsqStatus 2 0, s.sched.admitted, s.sched.flipped, s.resets.warm, s.resets.parts⟩

variable (s : State)

theorem State.clock_runs (x : List Run) : State.clock { s with runs := x } = s.clock := rfl
theorem State.clock_fab (x : Fab) : State.clock { s with fab := x } = s.clock := rfl
theorem State.clock_keys (x : SMap Nat) : State.clock { s with keys := x } = s.clock := rfl
theorem State.clock_async (x : SMap Async) : State.clock { s with async := x } = s.clock := rfl
theorem State.clock_waits (x : List (Nat × Nat)) (y : List (Nat × Reader)) :
    State.clock { s with repairWait := x, lineDead := y } = s.clock := rfl
theorem State.clock_waitsFree (x : List (Nat × Nat)) (n : Nat) :
    State.clock { s with repairWait := x, free := n } = s.clock := rfl

@[simp] theorem State.ite_clock (c : Prop) [Decidable c] (t u : State) :
    (if c then t else u).clock = if c then t.clock else u.clock := apply_ite State.clock c t u

@[simp] theorem State.ite_fst_clock {β : Type} (c : Prop) [Decidable c] (p q : State × β) :
    (if c then p else q).1.clock = if c then p.1.clock else q.1.clock :=
  apply_ite (fun p : State × β => p.1.clock) c p q

@[simp] theorem State.foldl_clock {α : Type} (f : State → α → State) (h : ∀ t a, (f t a).clock = t.clock) (l : List α)
    (s : State) : (l.foldl f s).clock = s.clock := foldl_keeps State.clock f h l s

@[simp] theorem State.setCores_clock (es : List Nat) (c : Core) : (s.setCores es c).clock = s.clock := rfl
@[simp] theorem State.modCore_clock (e : Nat) (f : Core → Core) : (s.modCore e f).clock = s.clock := rfl
@[simp] theorem State.setNpu_clock (u : Nat) (n : Npu) : (s.setNpu u n).clock = s.clock := rfl
@[simp] theorem State.modSlotX_clock (c sl : Nat) (f : SlotX → SlotX) : (s.modSlotX c sl f).clock = s.clock := rfl
@[simp] theorem State.modFab_clock (f : Fab → Fab) : (s.modFab f).clock = s.clock := rfl
@[simp] theorem State.modMp_clock (f : MpState → MpState) : (s.modMp f).clock = s.clock := rfl
@[simp] theorem State.modFmu_clock (f : Fmu → Fmu) : (s.modFmu f).clock = s.clock := rfl
@[simp] theorem State.modHif_clock (f : Hif → Hif) : (s.modHif f).clock = s.clock := rfl
@[simp] theorem State.modVault_clock (f : Vault → Vault) : (s.modVault f).clock = s.clock := rfl
@[simp] theorem State.modRun_clock (isn : Nat) (f : Run → Run) : (s.modRun isn f).clock = s.clock := rfl
@[simp] theorem State.send_clock (d : Nat) (p b : Bool) (m : Msg) : (s.send d p b m).clock = s.clock := rfl
@[simp] theorem State.takeSeq_clock (typ : Nat) : (s.takeSeq typ).1.clock = s.clock := rfl
@[simp] theorem State.setLine_clock (pa : Nat) (v : LineSt) : (s.setLine pa v).clock = s.clock := rfl
@[simp] theorem State.unprotect_clock : s.unprotect.clock = s.clock := rfl
@[simp] theorem State.poisonWords_clock (i n : Nat) : (s.poisonWords i n).clock = s.clock := rfl

/-- A register apart from TSQ_TICK and TSQ_STATUS. -/
@[simp] theorem State.wr_clock {r : Reg} (h : r ≠ .tsqTick) (h' : r ≠ .tsqStatus) (w : Word) :
    (s.wr r w).clock = s.clock := by
  simp [State.clock, State.tick, State.rf, h.symm, h'.symm]

@[simp] theorem State.wf_clock {r : Reg} (h : r ≠ .tsqTick) (h' : r ≠ .tsqStatus) (hi lo v : Nat) :
    (s.wf r hi lo v).clock = s.clock := s.wr_clock h h' _

@[simp] theorem State.count_clock {r : Reg} (h : r ≠ .tsqTick) (h' : r ≠ .tsqStatus) (hi lo n : Nat) :
    (s.count r hi lo n).clock = s.clock := s.wr_clock h h' _

theorem State.Told.clock {s t : State} (h : s.Told t) : t.clock = s.clock := by
  obtain ⟨_, _, rfl⟩ := h
  rfl

theorem State.Quiet.clock {t u : State} (h : t.Quiet u) : t.clock = u.clock := by
  obtain ⟨⟨hbeside, hrd⟩, -⟩ := h
  have hsched : t.sched = u.sched := by have := congrArg State.sched hbeside; exact this
  have hresets : t.resets = u.resets := by have := congrArg State.resets hbeside; exact this
  simp [State.clock, State.tick, State.rf, hsched, hresets, hrd]

@[simp] theorem State.report_clock (sig cls : Nat) (root first : Loc) (d : Nat) :
    (s.report sig cls root first d).clock = s.clock := (s.report_told ..).clock
@[simp] theorem State.alarm_clock (sig : Nat) (l : Loc) (d : Nat) : (s.alarm sig l d).clock = s.clock :=
  (s.alarm_told ..).clock
@[simp] theorem State.event_clock (sig : Nat) (l : Loc) (d : Nat) : (s.event sig l d).clock = s.clock :=
  (s.event_told ..).clock
@[simp] theorem State.raiseOne_clock (i d e : Nat) : (s.raiseOne i d e).clock = s.clock := rfl
@[simp] theorem State.trcExc_clock (e vec lev : Nat) (rpc : Word) : (s.trcExc e vec lev rpc).clock = s.clock :=
  (trcExc_quiet s e vec lev rpc).clock
@[simp] theorem State.trcWake_clock (e : Nat) (pc : Word) : (s.trcWake e pc).clock = s.clock :=
  (trcWake_quiet s e pc).clock
@[simp] theorem State.trcEmit_clock (e : Nat) (pc : Word) (bs : List Byte) : (s.trcEmit e pc bs).clock = s.clock :=
  (trcEmit_quiet s e pc bs).clock

/-! Aborts. -/

@[simp] theorem State.rollbackAll_clock (A : List Nat) : (s.rollbackAll A).clock = s.clock := by
  simp [State.rollbackAll]

@[simp] theorem State.abortRuns_clock (A : List Nat) (isOvr : Bool) : (s.abortRuns A isOvr).clock = s.clock := by
  have hovers (B : List Nat) (t : State) :
      (B.foldl (fun s _ => (s.count .tsqCnt 63 48 1).event sgTX_OVERRUN (s.locElement 0x0D) 0) t).clock = t.clock := by simp
  unfold State.abortRuns
  dsimp only
  split
  · rfl
  · rw [State.count_clock _ (by decide) (by decide)]
    split
    · rw [hovers, State.clock_runs, State.rollbackAll_clock]
    · rw [State.clock_runs, State.rollbackAll_clock]

@[simp] theorem State.cancelReqs_clock (es : List Nat) : (s.cancelReqs es).clock = s.clock := by
  unfold State.cancelReqs
  rw [State.foldl_clock _ fun t u => t.setNpu_clock u _, State.clock_waits]

@[simp] theorem State.dropRuns_clock (A : List Nat) : (s.dropRuns A).clock = s.clock := by
  unfold State.dropRuns
  dsimp only
  rw [State.foldl_clock _ fun t e => t.modCore_clock e _, State.clock_waitsFree, State.cancelReqs_clock]

@[simp] theorem State.dropExt_clock (saves : List Nat) : (s.dropExt saves).clock = s.clock := rfl

@[simp] theorem State.abortNow_clock (A : List Nat) (isOvr : Bool) : (s.abortNow A isOvr).clock = s.clock := by
  simp [State.abortNow]

@[simp] theorem State.rollRemotes_clock (issuer : Nat) (keep : Nat → Bool) :
    (s.rollRemotes issuer keep).clock = s.clock := by
  simp [State.rollRemotes]

/-! Exceptions. -/

@[simp] theorem State.carveout_clock (pa : Nat) : (s.carveout pa).clock = s.clock := by
  unfold State.carveout; split <;> simp

@[simp] theorem State.vecEntry_clock (vbr : Word) (v : Nat) : (s.vecEntry vbr v).1.clock = s.clock := by
  unfold State.vecEntry; dsimp only; split <;> simp

@[simp] theorem State.leaveC6_clock (e : Nat) : (s.leaveC6 e).clock = s.clock := by simp [State.leaveC6]

@[simp] theorem State.freezeCores_clock (es : List Nat) : (s.freezeCores es).clock = s.clock := by
  simp -implicitDefEqProofs [State.freezeCores]

@[simp] theorem State.latchEvent_clock (c sl kind pos gx gy : Nat) :
    (s.latchEvent c sl kind pos gx gy).clock = s.clock := by
  simp [State.latchEvent]

@[simp] theorem State.stopWith_clock (e kind sig gx gy detail : Nat) :
    (s.stopWith e kind sig gx gy detail).clock = s.clock := by
  unfold State.stopWith
  split <;> simp [State.setSlotState]

@[simp] theorem State.stopUnit_clock (e kind sig gx gy : Nat) : (s.stopUnit e kind sig gx gy).clock = s.clock :=
  s.stopWith_clock ..

@[simp] theorem State.takeExc_clock (e : Nat) (c : Core) (x : Exc) (rpc : Word) :
    (s.takeExc e c x rpc).clock = s.clock := by
  unfold State.takeExc
  dsimp only
  split
  · simp
  split
  · simp
  split
  · simp
  · split <;> simp

@[simp] theorem State.powerOff_clock (e : Nat) : (s.powerOff e).clock = s.clock := by
  unfold State.powerOff
  dsimp only
  rw [State.clock_async, State.modCore_clock, State.cancelReqs_clock]

@[simp] theorem State.machineCheck_clock (e : Nat) (c : Core) (src restart : Nat) (rpc : Word) :
    (s.machineCheck e c src restart rpc).clock = s.clock := by
  simp [State.machineCheck, State.retireCore, State.degrade, State.degradeCopy]

/-! Lines of memory. -/

@[simp] theorem State.memUe_clock (pa : Nat) : (s.memUe pa).clock = s.clock := by simp [State.memUe]

@[simp] theorem State.askRepair_clock (pa : Nat) (lost : Bool) : (s.askRepair pa lost).clock = s.clock := by
  simp [State.askRepair]

@[simp] theorem State.loseLine_clock (pa : Nat) : (s.loseLine pa).clock = s.clock := by
  unfold State.loseLine
  dsimp only
  split
  · exact s.setLine_clock ..
  split
  · exact s.poisonWords_clock ..
  split
  · exact s.clock_keys _
  · exact s.poisonWords_clock ..

@[simp] theorem State.lineRead_clock (pa : Nat) (by_ : Reader) : (s.lineRead pa by_).1.clock = s.clock := by
  unfold State.lineRead
  split
  · rfl
  · dsimp only
    split <;> simp

/-! Posting units. -/

@[simp] theorem State.npuFull_clock (u : Nat) : (s.npuFull u).clock = s.clock := by simp [State.npuFull]
@[simp] theorem State.startFill_clock (u pa : Nat) : (s.startFill u pa).clock = s.clock := by simp [State.startFill]
@[simp] theorem State.npuDead_clock (isn pa : Nat) : (s.npuDead isn pa).clock = s.clock := by simp [State.npuDead]
@[simp] theorem State.dropPoison_clock (u : Nat) (x : NEntry) : (s.dropPoison u x).clock = s.clock := by
  simp [State.dropPoison]
@[simp] theorem State.testAbort_clock (u : Nat) : (s.testAbort u).clock = s.clock := by simp [State.testAbort]

@[simp] theorem State.npuEnqueue_clock (ch : Nat) (q : NReq) : (s.npuEnqueue ch q).clock = s.clock := by
  unfold State.npuEnqueue
  split <;> simp

theorem State.npuEntry_clock (isn pa : Nat) (needLog post : Bool) :
    (s.npuEntry isn pa needLog post).1.clock = s.clock := by
  unfold State.npuEntry
  repeat' split
  all_goals simp

theorem State.npuTouch_clock (isn pa : Nat) : (s.npuTouch isn pa).1.clock = s.clock := by
  have hentry := s.npuEntry_clock isn pa false false
  unfold State.npuTouch
  split
  next h => rwa [h] at hentry
  next h => rw [h] at hentry; exact hentry

@[simp] theorem State.stageTouch_clock (isn pa : Nat) : (s.stageTouch isn pa).clock = s.clock := by
  have htouch := s.npuTouch_clock isn pa
  unfold State.stageTouch
  split
  · simp
  split
  next h => rw [h] at htouch; simpa using htouch
  next h => rw [h] at htouch; exact htouch

@[simp] theorem State.npuRemote_clock (src okey pa : Nat) (amount : Word) (floor : Option Word) :
    (s.npuRemote src okey pa amount floor).1.clock = s.clock := by
  unfold State.npuRemote
  dsimp only
  repeat' split
  all_goals simp

/-! Translation. -/

@[simp] theorem State.physChecks_clock (w : Who) (k : AK) (pa : Nat) (pf wr : Bool) (key : Nat) (fp : Bool) :
    (s.physChecks w k pa pf wr key fp).1.clock = s.clock := by
  unfold State.physChecks
  repeat' split
  all_goals simp

@[simp] theorem State.xlate_clock (tlb : List TlbItem) (w : Who) (k : AK) (va : Nat) (step2 : Bool) :
    (s.xlate tlb w k va step2).1.clock = s.clock := by
  unfold State.xlate
  split
  · simp
  · split
    · rfl
    · simp

/-! Remote operations. -/

@[simp] theorem State.reply_clock (src : Nat) (r : RReply) : (s.reply src r).1.clock = s.clock := by
  simp [State.reply]

theorem State.remoteCheck_clock (src : Nat) (rq : RReq) (isRead : Bool) :
    (s.remoteCheck src rq isRead).1.clock = s.clock := by
  have hxlate (w : Who) := s.xlate_clock s.fabTlb w (if isRead then .pread else .post) (raOff rq.ra) false
  unfold State.remoteCheck
  split
  · rfl
  · dsimp only
    split
    · rfl
    · split <;> exact hxlate _

theorem State.remoteAt_clock (src : Nat) (rq : RReq) (pa : Nat) (wait : Bool) :
    (s.remoteAt src rq pa wait).1.clock = s.clock := by
  have hpost : (if wait && s.npuBehind pa false then (s, none) else s.npuRemote src rq.okey pa rq.amount
      rq.floor).1.clock = s.clock := by simp
  unfold State.remoteAt
  split
  next h => rw [h] at hpost; simpa using hpost
  next h =>
    rw [h] at hpost
    rw [← hpost]
    dsimp only
    split
    · split
      · exact (State.clock_fab _ _).trans (State.send_clock ..)
      · simp
    · simp

@[simp] theorem State.targetPost_clock (src : Nat) (rq : RReq) : (s.targetPost src rq).1.clock = s.clock := by
  have hcheck := s.remoteCheck_clock src rq false
  unfold State.targetPost
  split
  · simp
  split
  · simp
  split
  · rfl
  split
  next h => rw [h] at hcheck; simpa using hcheck
  next h => rw [h] at hcheck; exact (State.remoteAt_clock ..).trans hcheck

theorem State.readAt_clock (src : Nat) (rq : RReq) (pa : Nat) : (s.readAt src rq pa).1.clock = s.clock := by
  have hline : (if s.cachedWord pa then (s, LineRes.good) else s.lineRead pa (.remote src rq.rid)).1.clock = s.clock := by
    simp
  unfold State.readAt
  split
  next h => rw [h] at hline; exact hline
  next h => rw [h] at hline; simpa using hline
  next h => rw [h] at hline; simpa using hline

@[simp] theorem State.targetRead_clock (src : Nat) (rq : RReq) : (s.targetRead src rq).1.clock = s.clock := by
  have hcheck := s.remoteCheck_clock src rq true
  unfold State.targetRead
  split
  · simp
  split
  · rfl
  split
  next h => rw [h] at hcheck; simpa using hcheck
  next h => rw [h] at hcheck; exact (State.readAt_clock ..).trans hcheck

@[simp] theorem State.notice_clock (dst okey : Nat) : (s.notice dst okey).clock = s.clock := by simp [State.notice]

@[simp] theorem State.lateDone_clock (q : RWait) : (s.lateDone q).clock = s.clock := by
  unfold State.lateDone
  split
  · simp [↓State.clock_fab]
  · rfl

/-! A late answer. -/

/-- y has the clock of x. -/
def Cx.SameClock (x y : Cx) : Prop := y.s.clock = x.s.clock

theorem sameClock_preorder : Preorder' Cx.SameClock := ⟨fun _ => rfl, fun _ _ _ h g => Eq.trans g h⟩

theorem sameClock_bind {α β : Type} {a : Op α} {f : α → Op β} (ha : Within Cx.SameClock a)
    (hf : ∀ v, Within Cx.SameClock (f v)) : Within Cx.SameClock (a >>= f) := within_bind sameClock_preorder ha hf

theorem sameClock_runOf : Within Cx.SameClock runOf := by
  refine sameClock_bind (fun _ => rfl) fun x => ?_
  split <;> exact fun _ => rfl

theorem sameClock_lateReply : Within Cx.SameClock lateReply := by
  refine sameClock_bind (fun _ => rfl) fun x => ?_
  split <;> exact fun _ => rfl

theorem sameClock_remoteAnswer (isRead : Bool) (ra : Nat) (r : RReply) :
    Within Cx.SameClock (remoteAnswer isRead ra r) := by
  unfold remoteAnswer
  refine sameClock_bind sameClock_runOf fun _ => ?_
  repeat' first | with_reducible refine sameClock_bind ?_ fun _ => ?_ | split
  all_goals exact fun _ => rfl

theorem finishOp_clock {a : Op Unit} (h : Within Cx.SameClock a) (e free : Nat) (x : Cx) :
    (finishOp e free (a x)).clock = x.s.clock := by
  unfold finishOp
  split
  next hy => exact h.ok hy
  next hy => exact h.error hy
  next hy =>
    dsimp only
    split
    · exact (State.machineCheck_clock ..).trans (h.error hy)
    · exact (State.takeExc_clock ..).trans (h.error hy)

theorem resume_clock {body : Op Unit} (h : Within Cx.SameClock body) (e w : Nat) :
    (s.resume e w body).clock = s.clock := (finishOp_clock h ..).trans rfl

@[simp] theorem State.rreply_clock (r : RReply) : (s.rreply r).clock = s.clock := by
  unfold State.rreply
  split
  · rfl
  split
  · rfl
  dsimp only
  split
  · exact State.lateDone_clock ..
  split
  · exact resume_clock _ (sameClock_bind sameClock_lateReply fun _ => sameClock_remoteAnswer _ _ _) ..
  · rfl

@[simp] theorem State.selfReply_clock (p : State × Option RReply) : (State.selfReply p).clock = p.1.clock := by
  unfold State.selfReply
  split <;> simp

@[simp] theorem State.heldRemotes_clock : s.heldRemotes.clock = s.clock := by simp [State.heldRemotes]

@[simp] theorem State.closeRemote_clock (u : Nat) : (s.closeRemote u).clock = s.clock := by
  unfold State.closeRemote
  refine (State.foldl_clock _ (fun t q => ?_) _ _).trans (State.setNpu_clock ..)
  split <;> simp

/-! What the pulse begins. -/

@[simp] theorem State.msix_clock (f v : Nat) : (s.msix f v).clock = s.clock := by
  unfold State.msix
  dsimp only
  split
  · rfl
  split <;> rfl

@[simp] theorem State.omiStore_clock (src : OmiSrc) (r : OmiResp) : (s.omiStore src r).clock = s.clock := by
  unfold State.omiStore
  split <;> simp [State.mbxMsg, State.setMbx]

@[simp] theorem State.omiFinish_clock (cmd obj status : Nat) : (s.omiFinish cmd obj status).clock = s.clock := by
  unfold State.omiFinish
  split <;> simp [State.omiEnd]

@[simp] theorem State.shipBack_clock : s.shipBack.clock = s.clock := by
  simp -implicitDefEqProofs [State.shipBack]

theorem State.clock_work (rs : List Run) (qs : SMap Queue) (i j : SMap Idem) :
    State.clock { s with runs := rs, queues := qs, idem := i, idemPtn := j } = s.clock := rfl

@[simp] theorem State.dropCustody_clock : s.dropCustody.clock = s.clock := by
  have hparts (ps : List Nat) (t : State) :
      (ps.foldl (fun (k : State) p => (k.wr (.keyPtctl p) 0).wr (.keyPtroot p) 0) t).clock = t.clock := by simp
  exact (State.clock_work _ _ _ _ _).trans ((State.modVault_clock _ _).trans (hparts _ s))

@[simp] theorem State.restorePulse_clock : s.restorePulse.clock = s.clock := by
  unfold State.restorePulse
  split <;> simp -implicitDefEqProofs

theorem State.clock_drain (x : List (Nat × Nat)) : State.clock { s with cluDrain := x } = s.clock := rfl

@[simp] theorem State.applyRoll_clock (r : VRoll) : (s.applyRoll r).clock = s.clock := by
  have hcores (t : State) : ((List.range 8).foldl (fun (s : State) i =>
      s.modCore (r.cluster * 8 + i) fun k => k.storeVendor r) t).clock = t.clock := by simp -implicitDefEqProofs
  unfold State.applyRoll
  dsimp only
  split
  · rw [State.foldl_clock _ fun t sl => t.modSlotX_clock .., State.modMp_clock, hcores]
  · rw [State.clock_drain, State.modMp_clock, hcores]

@[simp] theorem State.dueRolls_clock : s.dueRolls.clock = s.clock := by simp [State.dueRolls]

@[simp] theorem State.leaveReset_clock (t : Nat) : (s.leaveReset t).clock = s.clock := by
  simp -implicitDefEqProofs [State.leaveReset]

@[simp] theorem State.setTxreq_clock (c sl : Nat) (on : Bool) : (s.setTxreq c sl on).clock = s.clock := by
  simp -implicitDefEqProofs [State.setTxreq]

@[simp] theorem State.designate_clock (g : Nat) : (s.designate g).clock = s.clock := by
  unfold State.designate
  dsimp only
  split <;> simp

@[simp] theorem State.trcTick_clock (e : Nat) : (s.trcTick e).clock = s.clock := by
  unfold State.trcTick
  split
  · rfl
  · simp [(modSrc_quiet s _ _).clock]

@[simp] theorem State.corePulse_clock (e : Nat) : (s.corePulse e).clock = s.clock := by
  simp [State.corePulse]

@[simp] theorem State.dropTlb_clock (keep : TlbItem → Bool) : (s.dropTlb keep).clock = s.clock := rfl

@[simp] theorem State.routeEpoch_clock : s.routeEpoch.clock = s.clock := by simp [State.routeEpoch]

@[simp] theorem State.hbInstant_clock : s.hbInstant.clock = s.clock := by simp [State.hbInstant, State.heartbeat]

@[simp] theorem State.leaseRenew_clock : s.leaseRenew.clock = s.clock := by simp [State.leaseRenew]

@[simp] theorem State.handoverReq_clock : s.handoverReq.clock = s.clock := by simp [State.handoverReq]

@[simp] theorem State.reprotect_clock : s.reprotect.clock = s.clock := by
  unfold State.reprotect
  split
  · exact (State.event_clock ..).trans s.unprotect_clock
  · rfl

@[simp] theorem State.refreshStatus_clock : s.refreshStatus.clock = s.clock := by
  unfold State.refreshStatus State.restCauses
  dsimp only
  split <;> simp

@[simp] theorem State.refreshPage_clock : s.refreshPage.clock = s.clock := by simp [State.refreshPage]

/-! Batches. -/

theorem State.stageAccess_clock (w : Who) (k : AK) (va : Nat) : (s.stageAccess w k va).1.clock = s.clock := by
  have hxlate := s.xlate_clock [] w k va true
  unfold State.stageAccess
  split
  · rfl
  split
  next h => rwa [h] at hxlate
  next h => rwa [h] at hxlate

theorem State.foldl_fst_clock {α β : Type} (f : State × β → α → State × β) (h : ∀ p a, (f p a).1.clock = p.1.clock)
    (l : List α) (p : State × β) : (l.foldl f p).1.clock = p.1.clock := by
  induction l generalizing p with
  | nil => rfl
  | cons a l ih => exact (ih _).trans (h p a)

theorem State.stageList_clock (w : Who) (p : Prog) : (s.stageList w p).1.clock = s.clock := by
  unfold State.stageList
  split
  · rfl
  refine State.foldl_fst_clock _ (fun r i => ?_) _ _
  obtain ⟨t, _ | ws⟩ := r
  · rfl
  · have haccess := t.stageAccess_clock w .read (p.stage + 8 * i)
    dsimp only
    split
    next h => rwa [h] at haccess
    next h =>
      rw [h] at haccess
      split <;> exact haccess

@[simp] theorem State.touchWords_clock (r : Run) (w : Who) (ws : List Word) : (s.touchWords r w ws).clock = s.clock := by
  refine State.foldl_clock _ (fun t e => ?_) _ s
  split
  · rfl
  next va _ =>
    have haccess := t.stageAccess_clock w .pread va
    split
    next h => rwa [h] at haccess
    next h => rw [h] at haccess; simpa using haccess

@[simp] theorem State.endRun_clock (isn status vec detail : Nat) : (s.endRun isn status vec detail).clock = s.clock :=
  s.modRun_clock ..

theorem State.clock_window (m : SMap Nat) : State.clock { s with sched := { s.sched with window := m } } = s.clock := rfl

@[simp] theorem State.admitExact_clock (isn : Nat) : (s.admitExact isn).clock = s.clock := by
  unfold State.admitExact
  split
  · rfl
  next r _ =>
    split
    · simp
    · simp
    next g p _ _ =>
      have hlist := s.stageList_clock (s.stageWho r.part p.key) p
      split
      · simp
      dsimp only
      split
      next h => rw [h] at hlist; simpa using hlist
      next h => rw [h] at hlist; simpa [↓State.clock_window] using hlist

@[simp] theorem State.batch_clock (g : Nat) : (s.batch g).clock = s.clock := by simp [State.batch]

@[simp] theorem State.giveAllFrames_clock : s.giveAllFrames.clock = s.clock := by
  refine State.foldl_clock _ (fun t p => State.foldl_clock _ (fun u r => ?_) _ t) _ s
  split <;> rfl

end Sys2Proof.Machine
end

section
/-!
PROOFS. The boundaries of a tick but the flip: the pulse, remote close, stage close and the seal deadline (R294, R304, R313, R437,
R507).
-/
namespace Sys2Proof.Machine

variable (s : State)

/-! The pulse. -/

theorem State.modSched_clock {f : Sched → Sched} (ha : ∀ k, (f k).admitted = k.admitted)
    (hf : ∀ k, (f k).flipped = k.flipped) : (s.modSched f).clock = s.clock := by
  simp only [State.clock, State.modSched_sched, ha, hf]
  rfl

theorem State.clock_inv {r : Resets} (h : r = s.resets) (x : List Nat) :
    State.clock { s with resets := { r with inv := x } } = s.clock := by
  subst h
  rfl

theorem State.clock_reset : State.clock { s with cluInReset := [], lineDead := [] } = s.clock := rfl

theorem State.clock_opening :
    (s.modSched fun k => { k with isOpen := k.isOpen || k.opening, opening := false }).clock = s.clock := rfl

theorem State.clock_noUnit (l : List Nat) : (s.modSched fun k => { k with noUnit := l }).clock = s.clock := rfl

/-- The next tick opens: nothing is admitted and nothing has flipped. -/
theorem State.clock_fresh (start : Nat) : State.clock { s with sched := { s.sched with
    start := start, admitted := 0, window := [], idemFull := false, flipped := false, missed := 0 } } =
    { s.clock with admitted := 0, flipped := false } := rfl

@[simp] theorem State.atTime_clock (t : Nat) : (s.atTime t).clock = s.clock := by
  unfold State.atTime
  split
  · simp
  · rfl

theorem State.wf_tick_clock (t : Nat) : (s.wf .tsqTick 47 0 t).clock = { s.clock with tick := t % 2 ^ 48 } := by
  have htick : (s.wf .tsqTick 47 0 t).tick = t % 2 ^ 48 := s.rf_wf_same _ _ _ _ (by decide) (by decide)
  have hphase := s.rf_wf_ne (show Reg.tsqStatus ≠ .tsqTick by decide) 47 0 t 2 0
  unfold State.clock
  rw [htick, hphase]
  rfl

theorem State.wf_phase_clock (v : Nat) : (s.wf .tsqStatus 2 0 v).clock = { s.clock with phase := v % 8 } := by
  have htick : (s.wf .tsqStatus 2 0 v).tick = s.tick := s.rf_wf_ne (by decide) ..
  have hphase : (s.wf .tsqStatus 2 0 v).rf .tsqStatus 2 0 = v % 8 := s.rf_wf_same _ _ _ _ (by decide) (by decide)
  unfold State.clock
  rw [htick, hphase]
  rfl

/-- SYNC stands in TSQ_STATUS beside the phase. -/
theorem State.wf_sync_clock (v : Nat) : (s.wf .tsqStatus 4 4 v).clock = s.clock := by
  have htick : (s.wf .tsqStatus 4 4 v).tick = s.tick := s.rf_wf_ne (by decide) ..
  have hphase := s.rf_wf_apart .tsqStatus 4 4 v 2 0 (by decide) (by decide) (by decide) (by decide)
  unfold State.clock
  rw [htick, hphase]
  rfl

@[simp] theorem State.syncBack_clock : s.syncBack.clock = s.clock := by
  unfold State.syncBack
  dsimp only
  split <;> exact s.wf_sync_clock _

@[simp] theorem State.periodAt_clock (t : Nat) : (s.periodAt t).clock = s.clock := by
  unfold State.periodAt
  dsimp only
  split
  · split <;> simp [State.modSched_clock]
  · rfl

/-- The clock of a tick that has just begun: phase 0, nothing admitted, not flipped. -/
theorem State.pulse_clock (t : Nat) :
    (s.pulse t).clock = ⟨t % 2 ^ 48, 0, 0, false, s.resets.warm, s.resets.parts⟩ := by
  unfold State.pulse
  extract_lets -merge start left dropped rs aborted pulsed old new fresh ticked synced back regioned queued reset
    opened none_ alarmed noted inv swept resets cleared leased handed batched
  have haborted : aborted.clock = s.clock := by rw [State.clock_runs, State.dropRuns_clock]
  have hpulsed : pulsed.clock = s.clock := by simp -implicitDefEqProofs [pulsed, haborted]
  have hfresh : fresh.clock = { s.clock with admitted := 0, flipped := false } := by
    rw [← hpulsed]
    exact pulsed.clock_fresh start
  have hticked : ticked.clock = { fresh.clock with tick := t % 2 ^ 48 } := by
    rw [State.wf_tick_clock, State.atTime_clock]
  have hsynced : synced.clock = { ticked.clock with phase := 0 } := by
    rw [State.dueRolls_clock, State.syncBack_clock, State.wf_phase_clock, State.periodChange, State.periodAt_clock]
  have hback : back.clock = synced.clock := synced.leaveReset_clock t
  have hqueued : queued.clock = back.clock := by simp -implicitDefEqProofs [queued, regioned]
  have hreset : reset.clock = queued.clock := queued.clock_reset
  have hopened : opened.clock = reset.clock := reset.restorePulse.clock_opening.trans reset.restorePulse_clock
  have halarmed : alarmed.clock = opened.clock := by simp -implicitDefEqProofs [alarmed]
  have hnoted : noted.clock = alarmed.clock := alarmed.clock_noUnit none_
  have hswept : swept.clock = noted.clock := by simp -implicitDefEqProofs [swept]
  have hcleared : cleared.clock = swept.clock := swept.clock_inv (r := resets) rfl []
  have hleased : leased.clock = cleared.clock := by simp -implicitDefEqProofs [leased]
  have hbatched : batched.clock = leased.clock := by simp -implicitDefEqProofs [batched, handed]
  rw [State.refreshPage_clock, State.refreshStatus_clock, State.reprotect_clock, State.heldRemotes_clock, hbatched,
    hleased, hcleared, hswept, hnoted, halarmed, hopened, hreset, hqueued, hback, hsynced, hticked, hfresh]
  rfl

theorem tickPulse_starts (hup : bit (s.rd .hupStatus) 0 = false) (hwarm : s.sched.warm = false) :
    Completes .tickPulse s fun t => t.clock = ⟨(s.tick + 1) % 2 ^ 48, 0, 0, false, s.resets.warm, s.resets.parts⟩ := by
  refine ⟨s.pulse ((s.tick + 1) % 2 ^ 48), ?_, (s.pulse_clock _).trans (by rw [Nat.mod_mod])⟩
  show execTickPulse s = _
  unfold execTickPulse
  simp only [hup, hwarm, Bool.false_eq_true, if_false]

/-! Boundaries in a warm reset. -/

theorem State.atTime_frame (t : Nat) : ∃ r, s.atTime t = { s with regs := r } := by
  unfold State.atTime
  split
  · exact ⟨_, rfl⟩
  · exact ⟨s.regs, rfl⟩

theorem State.periodAt_frame (t : Nat) :
    ∃ r h, s.periodAt t = { s with regs := r, sched := { s.sched with history := h } } := by
  unfold State.periodAt
  dsimp only
  split
  · split <;> exact ⟨_, _, rfl⟩
  · exact ⟨s.regs, s.sched.history, rfl⟩

theorem State.heartbeat_frame : ∃ f, s.heartbeat = { s with fab := f } := by
  unfold State.heartbeat
  split
  · exact ⟨s.fab, rfl⟩
  · exact ⟨_, rfl⟩

theorem State.hbTally_frame : ∃ f m a, s.hbTally = { s with fab := f, fmu := m, async := a } := by
  unfold State.hbTally
  split
  · exact ⟨s.fab, s.fmu, s.async, rfl⟩
  split
  · exact ⟨_, s.fmu, s.async, rfl⟩
  · obtain ⟨m, a, htold⟩ := (s.modFab fun f => { f with hbMiss := f.hbMiss + 1 }).event_told sgHEARTBEAT_MISSED
      s.locDevice (detBytes 2 s.partnerId)
    exact ⟨_, m, a, htold⟩

theorem State.hbInstant_frame : ∃ f m a, s.hbInstant = { s with fab := f, fmu := m, async := a } := by
  obtain ⟨g, m, a, htally⟩ := s.hbTally_frame
  obtain ⟨f, hbeat⟩ := s.hbTally.heartbeat_frame
  exact ⟨f, m, a, by rw [State.hbInstant_eq, hbeat, htally]⟩

/-- In a warm reset a boundary passes: time goes on and nothing is scheduled (R437, R507). -/
theorem tickPulse_passes (hup : bit (s.rd .hupStatus) 0 = false) (hwarm : s.sched.warm = true) :
    Completes .tickPulse s fun t => t.clock = s.clock ∧ t.sched.start = s.sched.start + s.period ∧ t.runs = s.runs ∧
      t.npus = s.npus := by
  let u := (s.modSched fun k => { k with start := s.sched.start + s.period, missed := s.sched.missed + 1 }).atTime
    (s.sched.start + s.period)
  let v := u.periodAt (s.tick + (s.sched.missed + 1))
  refine ⟨v.hbInstant, ?_, ?_, ?_⟩
  · show execTickPulse s = _
    unfold execTickPulse
    simp only [hup, hwarm, Bool.false_eq_true, if_false, if_true]
    rfl
  · rw [State.hbInstant_clock, State.periodAt_clock, State.atTime_clock]
    rfl
  · obtain ⟨r, hu⟩ := (s.modSched fun k =>
      { k with start := s.sched.start + s.period, missed := s.sched.missed + 1 }).atTime_frame (s.sched.start + s.period)
    obtain ⟨r', h, hv⟩ := u.periodAt_frame (s.tick + (s.sched.missed + 1))
    obtain ⟨f, m, a, hbeat⟩ := v.hbInstant_frame
    rw [hbeat]
    change v.sched.start = _ ∧ v.runs = _ ∧ v.npus = _
    rw [show v = _ from hv]
    change u.sched.start = _ ∧ u.runs = _ ∧ u.npus = _
    rw [show u = _ from hu]
    exact ⟨rfl, rfl, rfl⟩

/-! Remote close, stage close and the seal deadline. -/

@[simp] theorem State.notices_clock : s.notices.clock = s.clock := by simp [State.notices]

@[simp] theorem State.sendRemoteClose_clock : s.sendRemoteClose.clock = s.clock := by
  simp -implicitDefEqProofs [State.sendRemoteClose]

theorem remoteClose_phase (hphase : s.rf .tsqStatus 2 0 = 0) (hwarm : s.sched.warm = false) :
    Completes .remoteClose s fun t => t.clock.phase = 1 := by
  refine ⟨_, if_neg (by simp [hphase, hwarm]), ?_⟩
  dsimp only
  rw [State.sendRemoteClose_clock, State.notices_clock, State.remoteCopy, State.modVault_clock, State.abortNow_clock,
    State.clock_runs, State.foldl_clock _ fun t u => t.closeRemote_clock u, State.wf_phase_clock]

theorem State.clock_shipped (x : Fab) (m : Fmu) : State.clock { s with fab := x, fmu := m } = s.clock := rfl

/-- What a reshipment changes. -/
theorem State.reship_frame (t : Nat) : ∃ f m, s.reship t = { s with fab := f, fmu := m } := by
  unfold State.reship
  split
  · split
    · exact ⟨s.fab, s.fmu, rfl⟩
    · exact ⟨_, _, rfl⟩
  · exact ⟨s.fab, s.fmu, rfl⟩

theorem State.reships_frame (ts : List Nat) : ∃ f m, ts.foldl State.reship s = { s with fab := f, fmu := m } :=
  foldl_rel (fun s t : State => ∃ f m, t = { s with fab := f, fmu := m }) (fun s => ⟨s.fab, s.fmu, rfl⟩)
    (fun _ _ _ h h' => by obtain ⟨_, _, rfl⟩ := h; obtain ⟨f, m, rfl⟩ := h'; exact ⟨f, m, rfl⟩) _
    (fun s t => s.reship_frame t) ts s

theorem sealDeadline_phase (hphase : s.rf .tsqStatus 2 0 = 2) :
    Completes .sealDeadline s fun t => t.clock.phase = 3 ∧ t.cores = s.cores ∧ t.mem = s.mem ∧ t.sched = s.sched := by
  obtain ⟨r, htime⟩ := s.atTime_frame (s.sched.start + s.period - 400)
  let u := (s.atTime (s.sched.start + s.period - 400)).wf .tsqStatus 2 0 3
  have hu : u.clock.phase = 3 ∧ u.cores = s.cores ∧ u.mem = s.mem ∧ u.sched = s.sched := by
    refine ⟨by rw [State.wf_phase_clock], ?_⟩
    simp only [u, htime]
    exact ⟨rfl, rfl, rfl⟩
  obtain ⟨f, m, hreships⟩ := u.reships_frame u.sched.unsealed
  refine ⟨u.sched.unsealed.foldl State.reship u, if_neg (by simp [hphase]), ?_⟩
  clear_value u
  rw [hreships]
  dsimp only
  rwa [State.clock_shipped]

/-! Stage close. -/

@[simp] theorem State.stageAborts_clock : s.stageAborts.clock = s.clock := by simp [State.stageAborts]

/-- No posting unit holds a request. -/
def State.emptyQueues : State :=
  (List.range 12).foldl (fun (s : State) u => s.setNpu u { s.npu u with queue := [] }) s

theorem State.emptyQueues_npu {u : Nat} (hu : u < 12) : (s.emptyQueues.npu u).queue = [] := by
  refine foldl_establishes (fun u t => (t.npu u).queue = []) _ (fun t u => ?_) (fun t u v hv => ?_) _ s u
    (List.mem_range.mpr hu)
  · rw [State.npu_setNpu, if_pos rfl]
  · rw [State.npu_setNpu]
    split
    · rfl
    · exact hv

theorem State.emptyQueues_clock : s.emptyQueues.clock = s.clock :=
  State.foldl_clock _ (fun t u => t.setNpu_clock u _) _ s

theorem State.emptyQueues_fab : s.emptyQueues.fab = s.fab :=
  foldl_keeps State.fab _ (fun t u => t.setNpu_fab u _) _ s

/-- What stage close makes of the fabric's records: no notice waits, and what names no run of this tick is dropped. -/
def State.closedFab (f : Fab) : Fab :=
  { f with
    notices := [], waits := f.waits.filter fun p => (s.run p.2.isn).isNone,
    closes := f.closes.filter fun c => c.tick + 2 > s.tick || s.hasPartner && !s.fab.custody,
    ownPins := f.ownPins.filter fun p => p.tick == s.tick }

/-- The resets asked for fall due, and each slot may be captured again. -/
def State.fallDue : State :=
  { s with slots := s.slots.map fun (p : Nat × SlotX) => (p.1, { p.2 with captured := false }),
           resets := { s.resets with due := s.resets.warm.isSome, partsDue := s.resets.parts } }

theorem State.fallDue_clock : s.fallDue.clock = s.clock := rfl
theorem State.fallDue_fab : s.fallDue.fab = s.fab := rfl
theorem State.fallDue_npu (u : Nat) : s.fallDue.npu u = s.npu u := rfl
theorem State.fallDue_due : s.fallDue.resets.due = s.clock.warm.isSome := rfl
theorem State.fallDue_partsDue : s.fallDue.resets.partsDue = s.clock.parts := rfl

/-- Stage close settles the runs that cannot commit in phase 2, drops the notices, empties the queues and lets the resets
fall due. -/
theorem execStageClose_eq (hphase : s.rf .tsqStatus 2 0 < 2) (hwarm : s.sched.warm = false) :
    ∃ t : State, t.clock = ⟨s.tick, 2, s.sched.admitted, s.sched.flipped, s.resets.warm, s.resets.parts⟩ ∧
      execStageClose s = .next (t.modFab t.closedFab).emptyQueues.fallDue := by
  unfold execStageClose
  rw [if_neg (by simp [hwarm, Nat.not_le.mpr hphase])]
  extract_lets begun closed aborted told fabbed emptied
  have hbegun : begun.clock = { s.clock with phase := 2 } := by rw [State.wf_phase_clock, State.atTime_clock]
  have hclosed : closed.clock = begun.clock := by simp -implicitDefEqProofs [closed]
  have haborted : aborted.clock = closed.clock := by simp -implicitDefEqProofs [aborted]
  have htold : told.clock = aborted.clock := by simp -implicitDefEqProofs [told]
  have hfabbed : fabbed = told.modFab told.closedFab := rfl
  have hemptied : emptied = fabbed.emptyQueues := rfl
  refine ⟨told, htold.trans (haborted.trans (hclosed.trans hbegun)), ?_⟩
  rw [← hfabbed, ← hemptied]
  rfl

theorem stageClose_phase (hphase : s.rf .tsqStatus 2 0 < 2) (hwarm : s.sched.warm = false) :
    Completes .stageClose s fun t => t.clock.phase = 2 ∧ t.fab.notices = [] ∧ (∀ u < 12, (t.npu u).queue = []) ∧
      t.resets.due = s.resets.warm.isSome ∧ t.resets.partsDue = s.resets.parts := by
  obtain ⟨t, hclock, hclose⟩ := execStageClose_eq s hphase hwarm
  refine ⟨_, hclose, ?_⟩
  simp -implicitDefEqProofs only [State.fallDue_clock, State.fallDue_fab, State.fallDue_npu, State.fallDue_due,
    State.fallDue_partsDue, State.emptyQueues_clock, State.emptyQueues_fab, State.modFab_clock, hclock]
  exact ⟨trivial, rfl, fun u hu => State.emptyQueues_npu _ hu, trivial, trivial⟩

end Sys2Proof.Machine
end

section
/-!
PROOFS. The flip (R280, R285, R294, R302, R322): the words it brings to memory, the runs it commits, and the tick it leaves to be
sealed.
-/
namespace Sys2Proof.Machine

variable (s : State)

/-! The words that a flip brings to memory. -/

theorem Memory.readBytes_congr {m m' : List Host.Cell} (n : Nat) {a : Nat}
    (h : ∀ i, a ≤ i → i < a + n → Memory.read m' i = Memory.read m i) :
    Memory.readBytes m' a n = Memory.readBytes m a n := by
  induction n generalizing a with
  | zero => rfl
  | succ n ih =>
    rw [Memory.readBytes, Memory.readBytes, h a (by omega) (by omega), ih fun i hi hlt => h i (by omega) (by omega)]

/-- The word of an address holds a value, in its bytes and in its tag. -/
def State.Stores (a : Nat) (v : TWord) : Prop :=
  Memory.readBytes s.mem (a / 8 * 8) 8 = toBytes 8 v.val.toNat ∧ sget tRAW s.tags (a / 8) = v.tag

theorem State.putWord_stores {a b : Nat} (v : TWord) (h : a / 8 = b / 8) : (s.putWord a v).Stores b v := by
  constructor
  · have hlen : 8 = (toBytes 8 v.val.toNat).length := (length_toBytes _ _).symm
    rw [← h]
    conv_lhs => rw [hlen]
    exact Memory.readBytes_writeBytes ..
  · rw [State.putWord_tags, if_pos h.symm]

theorem State.putWord_stores_apart {a b : Nat} (v w : TWord) (h : a / 8 ≠ b / 8) (hb : s.Stores b w) :
    (s.putWord a v).Stores b w := by
  obtain ⟨hmem, htag⟩ := hb
  constructor
  · rw [← hmem]
    refine Memory.readBytes_congr 8 fun i hi hlt => ?_
    rw [State.putWord_read, length_toBytes, if_neg (by omega)]
  · rw [State.putWord_tags, if_neg (Ne.symm h), htag]

/-- The addresses of a unit's flipped words, with the values they bring to memory. -/
def Npu.brought (n : Npu) : List (Nat × TWord) := n.flipped.map fun x => (x.addr, x.r)

theorem Npu.brought_pin (n : Npu) (a : Nat) (t : Nat) :
    Npu.brought { n with cache := n.cache.map fun y => if y.addr == a then { y with pin := some t } else y } =
      n.brought := by
  let pin (y : NEntry) : NEntry := if y.addr == a then { y with pin := some t } else y
  have hst (y : NEntry) : (pin y).st = y.st := by
    simp only [pin]
    split <;> rfl
  have hword (y : NEntry) : ((pin y).addr, (pin y).r) = (y.addr, y.r) := by
    simp only [pin]
    split <;> rfl
  show ((n.cache.map pin).filter fun x => x.st == .flipped).map _ = _
  rw [List.filter_map, List.map_map, Npu.brought, Npu.flipped]
  simp only [Function.comp_def, hst, hword]

theorem State.flipWord_frame (u : Nat) (x : NEntry) :
    ∃ m g n, s.flipWord u x = { s with mem := m, tags := g, npus := n } := by
  unfold State.flipWord
  split
  · exact ⟨s.mem, s.tags, _, rfl⟩
  · exact ⟨_, _, s.npus, rfl⟩

theorem State.flipWord_brought (u : Nat) (x : NEntry) (v : Nat) :
    ((s.flipWord u x).npu v).brought = (s.npu v).brought := by
  unfold State.flipWord
  split
  · rw [State.npu_setNpu]
    split
    next h => rw [h, Npu.brought_pin]
    next => rfl
  · rfl

theorem State.flipWord_stores (u : Nat) (x : NEntry) (h : s.chanState (chanOf x.addr) ≠ 3) :
    (s.flipWord u x).Stores x.addr x.r := by
  unfold State.flipWord
  rw [if_neg (by simpa using h)]
  exact s.putWord_stores x.r rfl

theorem State.Stores.flipWord {a : Nat} {w : TWord} (h : s.Stores a w) (u : Nat) (x : NEntry)
    (hx : x.addr / 8 = a / 8 → x.r = w) : (s.flipWord u x).Stores a w := by
  unfold State.flipWord
  split
  · exact h
  · by_cases hword : x.addr / 8 = a / 8
    · exact hx hword ▸ s.putWord_stores x.r hword
    · exact s.putWord_stores_apart x.r w hword h

/-- Every posting unit's staged words become flipped ones. -/
def State.flipUnits : State := (List.range 12).foldl (fun (s : State) u => s.setNpu u (s.npu u).flip) s

/-- A posting unit brings its flipped words to memory. -/
def State.flipUnit (u : Nat) : State := (s.npu u).flipped.foldl (fun s x => s.flipWord u x) s

/-- Every posting unit brings its flipped words to memory. -/
def State.flipWords : State := (List.range 12).foldl State.flipUnit s

theorem foldl_setNpu_npu (f : Npu → Npu) (l : List Nat) (hl : l.Nodup) (v : Nat) (s : State) :
    (l.foldl (fun (s : State) u => s.setNpu u (f (s.npu u))) s).npu v = if v ∈ l then f (s.npu v) else s.npu v := by
  induction l generalizing s with
  | nil => rfl
  | cons u l ih =>
    obtain ⟨hu, hl⟩ := List.nodup_cons.mp hl
    rw [List.foldl_cons, ih hl, State.npu_setNpu]
    by_cases hv : v = u
    · subst hv
      simp [hu]
    · simp [hv]

theorem State.flipUnits_npu {u : Nat} (hu : u < 12) : s.flipUnits.npu u = (s.npu u).flip :=
  (foldl_setNpu_npu Npu.flip _ List.nodup_range u s).trans (if_pos (List.mem_range.mpr hu))

/-- t is s with other memory and other posting units, which bring the same words. -/
structure State.Flipping (t : State) : Prop where
  frame : ∃ m g n, t = { s with mem := m, tags := g, npus := n }
  brought : ∀ v, (t.npu v).brought = (s.npu v).brought

theorem State.Flipping.refl : s.Flipping s := ⟨⟨_, _, _, rfl⟩, fun _ => rfl⟩

theorem State.Flipping.trans {s t u : State} (h : s.Flipping t) (h' : t.Flipping u) : s.Flipping u := by
  obtain ⟨⟨_, _, _, rfl⟩, hbrought⟩ := h
  obtain ⟨⟨m, g, n, rfl⟩, hbrought'⟩ := h'
  exact ⟨⟨m, g, n, rfl⟩, fun v => (hbrought' v).trans (hbrought v)⟩

theorem State.Flipping.chanState {s t : State} (h : s.Flipping t) (ch : Nat) : t.chanState ch = s.chanState ch := by
  obtain ⟨⟨m, g, n, rfl⟩, -⟩ := h
  rfl

theorem State.flipping_foldl {α : Type} (f : State → α → State) (h : ∀ (s : State) a, s.Flipping (f s a)) (l : List α)
    (s : State) : s.Flipping (l.foldl f s) := foldl_rel State.Flipping State.Flipping.refl (fun _ _ _ => .trans) f h l s

theorem State.flipWord_flipping (u : Nat) (x : NEntry) : s.Flipping (s.flipWord u x) :=
  ⟨s.flipWord_frame u x, s.flipWord_brought u x⟩

theorem State.flipUnit_flipping (u : Nat) : s.Flipping (s.flipUnit u) :=
  State.flipping_foldl _ (fun t x => t.flipWord_flipping u x) _ s

theorem State.flipWords_flipping : s.Flipping s.flipWords := State.flipping_foldl _ State.flipUnit_flipping _ s

/-- A word keeps its value where all that is brought to it is that value. -/
theorem State.Stores.flipUnit {s : State} {a : Nat} {w : TWord} (h : s.Stores a w) (u : Nat)
    (hsame : ∀ p ∈ (s.npu u).brought, p.1 / 8 = a / 8 → p.2 = w) : (s.flipUnit u).Stores a w :=
  List.foldlRecOn (motive := fun t : State => t.Stores a w) _ _ h fun t ht x hx =>
    ht.flipWord t u x (hsame _ (List.mem_map_of_mem hx))

theorem State.flipUnit_stores {u : Nat} {p : Nat × TWord} (hp : p ∈ (s.npu u).brought)
    (hch : s.chanState (chanOf p.1) ≠ 3) (hsame : ∀ q ∈ (s.npu u).brought, q.1 / 8 = p.1 / 8 → q.2 = p.2) :
    (s.flipUnit u).Stores p.1 p.2 := by
  obtain ⟨x, hx, rfl⟩ := List.mem_map.mp hp
  have hkeep (y : NEntry) (hy : y ∈ (s.npu u).flipped) := hsame _ (List.mem_map_of_mem hy)
  obtain ⟨before, after, hsplit⟩ := List.append_of_mem hx
  unfold State.flipUnit
  rw [hsplit] at hkeep ⊢
  rw [List.foldl_append, List.foldl_cons]
  have hbefore := State.flipping_foldl _ (fun t x => t.flipWord_flipping u x) before s
  refine List.foldlRecOn (motive := fun t : State => t.Stores x.addr x.r) after _
    (State.flipWord_stores _ u x (by rwa [hbefore.chanState])) fun t ht y hy => ?_
  exact ht.flipWord t u y (hkeep y (by simp [hy]))

/-- Where all that is brought to a word is one value, and its channel is not lost, the flip leaves that value in memory. -/
theorem State.flipWords_stores {u : Nat} {p : Nat × TWord} (hu : u < 12) (hp : p ∈ (s.npu u).brought)
    (hch : s.chanState (chanOf p.1) ≠ 3)
    (hsame : ∀ v < 12, ∀ q ∈ (s.npu v).brought, q.1 / 8 = p.1 / 8 → q.2 = p.2) : s.flipWords.Stores p.1 p.2 := by
  obtain ⟨before, after, hsplit⟩ := List.append_of_mem (List.mem_range.mpr hu)
  have hafter (v : Nat) (hv : v ∈ after) : v < 12 := List.mem_range.mp (by simp [hsplit, hv])
  unfold State.flipWords
  rw [hsplit, List.foldl_append, List.foldl_cons]
  have hbefore := State.flipping_foldl _ State.flipUnit_flipping before s
  have hown := State.flipUnit_stores (before.foldl State.flipUnit s) (by rwa [hbefore.brought])
    (by rwa [hbefore.chanState]) (by rw [hbefore.brought]; exact hsame u hu)
  have hflipping := hbefore.trans (State.flipUnit_flipping (before.foldl State.flipUnit s) u)
  refine (List.foldlRecOn (motive := fun t => s.Flipping t ∧ t.Stores p.1 p.2) after _ ⟨hflipping, hown⟩ ?_).2
  rintro t ⟨ht, hstores⟩ v hv
  exact ⟨ht.trans (t.flipUnit_flipping v), hstores.flipUnit v (by rw [ht.brought]; exact hsame v (hafter v hv))⟩

/-! The executed runs commit. -/

theorem mem_insRun {f : Run → Nat} {r x : Run} {l : List Run} : x ∈ insRun f r l ↔ x = r ∨ x ∈ l := by
  induction l with
  | nil => simp [insRun]
  | cons q l ih =>
    unfold insRun
    split
    · exact List.mem_cons
    · rw [List.mem_cons, ih, List.mem_cons]
      tauto

theorem mem_sortRuns {f : Run → Nat} {x : Run} {l : List Run} : x ∈ sortRuns f l ↔ x ∈ l := by
  have hfold (a : List Run) : x ∈ l.foldl (fun a r => insRun f r a) a ↔ x ∈ l ∨ x ∈ a := by
    induction l generalizing a with
    | nil => simp
    | cons r l ih =>
      rw [List.foldl_cons, ih, mem_insRun, List.mem_cons]
      tauto
  simpa [sortRuns] using hfold []

/-- t is s but for its runs, its idempotency entries and its vault. -/
def State.Committing (t : State) : Prop := ∃ rs i v, t = { s with runs := rs, idem := i, vault := v }

theorem State.Committing.refl : s.Committing s := ⟨s.runs, s.idem, s.vault, rfl⟩

theorem State.Committing.trans {s t u : State} (h : s.Committing t) (h' : t.Committing u) : s.Committing u := by
  obtain ⟨_, _, _, rfl⟩ := h
  obtain ⟨rs, i, v, rfl⟩ := h'
  exact ⟨rs, i, v, rfl⟩

/-- The result of a run is committed, and its record joins the others. -/
def State.commitRun (p : State × List JRec) (r : Run) : State × List JRec :=
  let (s, rec) := (p.1.idemDone r).journal (p.1.resultRec r)
  (s.modRun r.isn fun r => { r with st := .committed }, p.2 ++ [rec])

theorem State.idemDone_frame (r : Run) : ∃ i, s.idemDone r = { s with idem := i } := by
  unfold State.idemDone
  split
  · exact ⟨_, rfl⟩
  · exact ⟨s.idem, rfl⟩

theorem State.commitRun_frame (p : State × List JRec) (r : Run) : ∃ i v, (State.commitRun p r).1 =
    { p.1 with runs := p.1.runs.map fun q => if q.isn == r.isn then { q with st := .committed } else q
               idem := i, vault := v } := by
  obtain ⟨i, hidem⟩ := p.1.idemDone_frame r
  obtain ⟨v, rec, hjournal, -, -⟩ := (p.1.idemDone r).journal_frame (p.1.resultRec r)
  refine ⟨i, v, ?_⟩
  unfold State.commitRun
  rw [hjournal, hidem]
  rfl

theorem State.commitRuns_committing (l : List Run) (p : State × List JRec) :
    p.1.Committing (l.foldl State.commitRun p).1 := by
  refine foldl_rel (fun p q : State × List JRec => p.1.Committing q.1) (fun p => .refl p.1) (fun _ _ _ => .trans) _
    (fun p r => ?_) l p
  obtain ⟨i, v, hcommit⟩ := State.commitRun_frame p r
  exact ⟨_, i, v, hcommit⟩

/-- A run that is still executed has not been committed. -/
theorem State.commitRuns_executed {x : Run} (hst : x.st = .executed) (l : List Run) (p : State × List JRec)
    (hx : x ∈ (l.foldl State.commitRun p).1.runs) : x ∈ p.1.runs ∧ ∀ r ∈ l, x.isn ≠ r.isn := by
  induction l generalizing p with
  | nil => exact ⟨hx, fun r hr => absurd hr List.not_mem_nil⟩
  | cons r l ih =>
    obtain ⟨hx, hrest⟩ := ih _ hx
    obtain ⟨i, v, hcommit⟩ := State.commitRun_frame p r
    rw [hcommit] at hx
    obtain ⟨y, hy, rfl⟩ := List.mem_map.mp hx
    split at hst
    · cases hst
    next hne =>
      rw [if_neg hne] at hrest ⊢
      exact ⟨hy, List.forall_mem_cons.mpr ⟨by simpa using hne, hrest⟩⟩

theorem State.commitRuns_none_executed (f : Run → Nat) (recs : List JRec) :
    ∀ r ∈ ((sortRuns f (s.runs.filter fun r => r.st == .executed)).foldl State.commitRun (s, recs)).1.runs,
      r.st ≠ .executed := by
  intro r hr hst
  obtain ⟨hr, hothers⟩ := State.commitRuns_executed hst _ _ hr
  exact hothers r (mem_sortRuns.mpr (List.mem_filter.mpr ⟨hr, by simp [hst]⟩)) rfl

/-! The tick's log goes out, or the tick is sealed. -/

/-- t has the memory and the flip of s, and no run more is executed in it. -/
structure State.SealKeeps (t : State) : Prop where
  mem : t.mem = s.mem
  tags : t.tags = s.tags
  flipped : t.sched.flipped = s.sched.flipped
  lastCommit : t.sched.lastCommit = s.sched.lastCommit
  executed : (∀ r ∈ s.runs, r.st ≠ .executed) → ∀ r ∈ t.runs, r.st ≠ .executed

theorem State.SealKeeps.trans {s t u : State} (h : s.SealKeeps t) (h' : t.SealKeeps u) : s.SealKeeps u :=
  ⟨h'.mem.trans h.mem, h'.tags.trans h.tags, h'.flipped.trans h.flipped, h'.lastCommit.trans h.lastCommit,
    fun hruns => h'.executed (h.executed hruns)⟩

theorem State.SealKeeps.refl : s.SealKeeps s := ⟨rfl, rfl, rfl, rfl, id⟩

theorem State.sealPoint_keeps : s.SealKeeps s.sealPoint := ⟨rfl, rfl, rfl, rfl, id⟩

theorem State.setNpu_keeps (u : Nat) (n : Npu) : s.SealKeeps (s.setNpu u n) := ⟨rfl, rfl, rfl, rfl, id⟩

theorem State.modVault_keeps (f : Vault → Vault) : s.SealKeeps (s.modVault f) := ⟨rfl, rfl, rfl, rfl, id⟩

theorem State.send_keeps (d : Nat) (p b : Bool) (m : Msg) : s.SealKeeps (s.send d p b m) := ⟨rfl, rfl, rfl, rfl, id⟩

theorem State.unpin_keeps (t : Nat) (l : List Nat) :
    s.SealKeeps (l.foldl (fun (s : State) u => s.setNpu u ((s.npu u).unpin t)) s) :=
  foldl_rel State.SealKeeps State.SealKeeps.refl (fun _ _ _ => .trans) _ (fun t' u => t'.setNpu_keeps u _) l s

theorem Run.sealed_executed (t : Nat) {q : Run} (h : q.st ≠ .executed) :
    (if q.st == .committed && q.tick == t then { q with st := .isSealed } else q).st ≠ .executed := by
  split
  · exact nofun
  · exact h

theorem State.sealTick_keeps (t : Nat) : s.SealKeeps (s.sealTick t) := by
  unfold State.sealTick
  split
  · exact .refl s
  · extract_lets -merge rest pcs old sc pc rs vault marked
    have hmarked : s.SealKeeps marked := ⟨rfl, rfl, rfl, rfl, fun hruns r hr => by
      obtain ⟨q, hq, rfl⟩ := List.mem_map.mp hr
      exact Run.sealed_executed t (hruns q hq)⟩
    exact hmarked.trans ((marked.unpin_keeps t _).trans (State.sealPoint_keeps _))

theorem State.shipLog_keeps (images : List FrameImg) (recs : List JRec) : s.SealKeeps (s.shipLog images recs) := by
  unfold State.shipLog
  split
  · exact (s.modVault_keeps _).trans (State.sealTick_keeps _ _)
  · dsimp only
    split
    · exact s.modVault_keeps _
    · exact (s.modVault_keeps _).trans (State.send_keeps ..)

/-- A tick whose log goes to the partner stays as it is until the partner acknowledges. -/
theorem State.shipLog_sched (h : s.sealsAlone = false) (images : List FrameImg) (recs : List JRec) :
    (s.shipLog images recs).sched = s.sched := by
  unfold State.shipLog
  rw [if_neg (by simp [h])]
  dsimp only
  split <;> rfl

/-! The flip. -/

/-- t has the memory, the registers, the fabric and the ticks not sealed of s. -/
structure State.Ground (t : State) : Prop where
  mem : t.mem = s.mem
  tags : t.tags = s.tags
  regs : t.regs = s.regs
  fuses : t.fuses = s.fuses
  fab : t.fab = s.fab
  unsealed : t.sched.unsealed = s.sched.unsealed

/-- The tick has flipped, and waits for its seal. -/
def State.markFlipped : State :=
  { s with sched := { s.sched with
      unsealed := s.sched.unsealed ++ [s.tick], flipped := true, lastCommit := s.tick } }

theorem execFlip_eq (hphase : s.rf .tsqStatus 2 0 = 2) (hvault : s.vaultOk = true) (hflipped : s.sched.flipped = false) :
    ∃ (t : State) (images : List FrameImg) (recs : List JRec),
      (s.atTime (s.sched.start + s.period - 1100)).flipUnits.flipWords.Ground t ∧ (∀ r ∈ t.runs, r.st ≠ .executed) ∧
      execFlip s = .next (t.markFlipped.shipLog images recs) := by
  unfold execFlip
  rw [if_neg (by simp [hphase, hvault, hflipped])]
  extract_lets -merge timed banks flipped words frames schedule
  have hbrought : flipped = (s.atTime (s.sched.start + s.period - 1100)).flipUnits.flipWords := rfl
  rw [← hbrought]
  clear_value flipped
  split
  next ship wait _ =>
    extract_lets -merge shipped sent shipping copies kept done
    have hkept : flipped.Ground kept := ⟨rfl, rfl, rfl, rfl, rfl, rfl⟩
    clear_value kept
    have hcommitting := State.commitRuns_committing done (kept, [])
    have hexecuted := kept.commitRuns_none_executed (·.okey) []
    split
    next t recs hcommitted =>
      change done.foldl State.commitRun (kept, []) = (t, recs) at hcommitted
      rw [hcommitted] at hcommitting
      extract_lets -merge remotes
      obtain ⟨v, rec, hjournal, -, -⟩ := t.journal_frame (.commit t.tick done.length remotes)
      rw [hjournal]
      refine ⟨{ t with vault := v }, _, _, ?_, fun r hr => ?_, rfl⟩
      · obtain ⟨rs, i, w, rfl⟩ := hcommitting
        exact ⟨hkept.mem, hkept.tags, hkept.regs, hkept.fuses, hkept.fab, hkept.unsealed⟩
      · exact hexecuted r (by rw [hcommitted]; exact hr)

theorem State.flipUnits_frame : ∃ n, s.flipUnits = { s with npus := n } := by
  refine foldl_rel (fun s t : State => ∃ n, t = { s with npus := n }) (fun s => ⟨s.npus, rfl⟩) (fun _ _ _ h h' => ?_) _
    (fun t u => ⟨_, rfl⟩) _ s
  obtain ⟨_, rfl⟩ := h
  obtain ⟨n, rfl⟩ := h'
  exact ⟨n, rfl⟩

/-- What the flip of the posting units leaves as it was, up to the time at which it is done. -/
theorem State.flipWords_frame (t : Nat) :
    ∃ m g n, (s.atTime t).flipUnits.flipWords = { s.atTime t with mem := m, tags := g, npus := n } := by
  obtain ⟨n, hunits⟩ := (s.atTime t).flipUnits_frame
  obtain ⟨m, g, n', hwords⟩ := (s.atTime t).flipUnits.flipWords_flipping.frame
  exact ⟨m, g, n', hwords.trans (by rw [hunits])⟩

/-- t is in the tick of s, with the same ticks to seal, and seals alone exactly where s does. -/
structure State.SameTick (t : State) : Prop where
  tick : t.tick = s.tick
  sealsAlone : t.sealsAlone = s.sealsAlone
  unsealed : t.sched.unsealed = s.sched.unsealed

theorem State.Ground.sameTick {s t : State} {τ : Nat} (h : (s.atTime τ).flipUnits.flipWords.Ground t) :
    s.SameTick t := by
  obtain ⟨m, g, n, hframe⟩ := s.flipWords_frame τ
  rw [hframe] at h
  have hrd (r : Reg) (hr : r ≠ .fabTime) : t.rd r = s.rd r := by
    rw [← s.atTime_rd τ hr, State.rd, State.rd, h.regs, h.fuses]
  have hfab : t.fab = s.fab := h.fab.trans (s.atTime_fab τ)
  refine ⟨?_, ?_, h.unsealed.trans (congrArg Sched.unsealed (s.atTime_sched τ))⟩
  · rw [State.tick, State.rf, hrd _ (by decide), ← State.rf, ← State.tick]
  · rw [State.sealsAlone, State.hasPartner, hrd _ (by decide), hfab, ← State.hasPartner, ← State.sealsAlone]

theorem State.flipWords_brought (t : Nat) {u : Nat} (hu : u < 12) :
    ((s.atTime t).flipUnits.npu u).brought = (s.npu u).flip.brought := by
  obtain ⟨r, htime⟩ := s.atTime_frame t
  rw [State.flipUnits_npu _ hu, htime]
  rfl

theorem State.flipUnits_chanState (t ch : Nat) : (s.atTime t).flipUnits.chanState ch = s.chanState ch := by
  obtain ⟨n, hunits⟩ := (s.atTime t).flipUnits_frame
  rw [hunits]
  exact congrArg (fld · 2 0) (s.atTime_rd t nofun)

/-- A flipped word that nothing else is brought to stands in memory after the flip. -/
theorem State.flip_stores (t : Nat) {u : Nat} (hu : u < 12) {x : NEntry} (hx : x ∈ (s.npu u).flip.flipped)
    (hch : s.chanState (chanOf x.addr) ≠ 3)
    (hsame : ∀ v < 12, ∀ y ∈ (s.npu v).flip.flipped, y.addr / 8 = x.addr / 8 → y.r = x.r) :
    (s.atTime t).flipUnits.flipWords.Stores x.addr x.r := by
  refine (s.atTime t).flipUnits.flipWords_stores (p := (x.addr, x.r)) hu ?_ ?_ fun v hv q hq => ?_
  · rw [s.flipWords_brought t hu]
    exact List.mem_map_of_mem hx
  · rwa [State.flipUnits_chanState]
  · rw [s.flipWords_brought t hv] at hq
    obtain ⟨y, hy, rfl⟩ := List.mem_map.mp hq
    exact hsame v hv y hy

theorem State.markFlipped_mem : s.markFlipped.mem = s.mem := rfl
theorem State.markFlipped_tags : s.markFlipped.tags = s.tags := rfl

theorem flip_commits (hphase : s.rf .tsqStatus 2 0 = 2) (hvault : s.vaultOk = true) (hflipped : s.sched.flipped = false) :
    Completes .flip s fun t =>
      t.sched.flipped = true ∧ t.sched.lastCommit = s.tick ∧
      (s.sealsAlone = false → t.sched.unsealed = s.sched.unsealed ++ [s.tick]) ∧ (∀ r ∈ t.runs, r.st ≠ .executed) ∧
      ∀ u < 12, ∀ x ∈ (s.npu u).flip.flipped, s.chanState (chanOf x.addr) ≠ 3 →
        (∀ v < 12, ∀ y ∈ (s.npu v).flip.flipped, y.addr / 8 = x.addr / 8 → y.r = x.r) → t.Stores x.addr x.r := by
  obtain ⟨t, images, recs, hground, hexecuted, hflip⟩ := execFlip_eq s hphase hvault hflipped
  have hsame := hground.sameTick
  have hkeeps := t.markFlipped.shipLog_keeps images recs
  refine ⟨_, hflip, hkeeps.flipped, hkeeps.lastCommit.trans hsame.tick, fun halone => ?_, hkeeps.executed hexecuted,
    fun u hu x hx hch hx' => ?_⟩
  · have halone' : t.markFlipped.sealsAlone = false := hsame.sealsAlone.trans halone
    rw [State.shipLog_sched _ halone']
    exact congrArg₂ (fun l n => l ++ [n]) hsame.unsealed hsame.tick
  · obtain ⟨hmem, htags⟩ := s.flip_stores (s.sched.start + s.period - 1100) hu hx hch hx'
    have hmem' := hkeeps.mem.trans (t.markFlipped_mem.trans hground.mem)
    have htags' := hkeeps.tags.trans (t.markFlipped_tags.trans hground.tags)
    exact ⟨(congrArg (Memory.readBytes · _ 8) hmem').trans hmem, (congrArg (sget tRAW · _) htags').trans htags⟩

/-! The entries of a posting unit at the flip and at the pulse. -/

theorem Npu.flip_cache {n : Npu} {i : Nat} {x : NEntry} (h : n.cache[i]? = some x) :
    n.flip.cache[i]? = some (if x.st == .staged then
      { x with st := .flipped, r := ⟨pdecOf (wordVal x.r.val + remoteSum n.log x.addr 4096), tPDEC⟩ } else x) := by
  rw [Npu.flip, List.getElem?_map, h]
  rfl

theorem Npu.pulse_cache {n : Npu} {i : Nat} {x : NEntry} (h : n.cache[i]? = some x) :
    n.pulse.cache[i]? = some x.pulse := by
  rw [Npu.pulse, List.getElem?_map, h]
  rfl

theorem Npu.flip_pulse_cache {n : Npu} {i : Nat} {x : NEntry} (h : n.cache[i]? = some x) :
    (x.st = .staged → n.flip.cache[i]? = some { x with
      st := .flipped, r := ⟨pdecOf (wordVal x.r.val + remoteSum n.log x.addr 4096), tPDEC⟩ }) ∧
    (x.st ≠ .staged → n.flip.cache[i]? = some x) ∧
    (x.st = .flipped → n.pulse.cache[i]? = some ⟨x.addr, x.r, x.r, 0xFFFF, .clean, [], x.pin, false⟩) ∧
    (x.st ≠ .flipped → n.pulse.cache[i]? = some ⟨x.addr, x.c, x.c, 0xFFFF, .clean, [], x.pin, false⟩) := by
  rw [Npu.flip_cache h, Npu.pulse_cache h]
  refine ⟨fun hst => ?_, fun hst => ?_, fun hst => ?_, fun hst => ?_⟩
  · rw [if_pos (by simp [hst])]
  · rw [if_neg (by simpa using hst)]
  · simp [NEntry.pulse, hst]
  · simp [NEntry.pulse, hst]

/-- Settles O46: the clock of the pulse, of remote close, of stage close and of the seal deadline, the words, the runs
and the ticks of the flip, and the entries of a posting unit. -/
theorem tickPhases : Obligations.TickPhases := by
  unfold Obligations.TickPhases
  refine ⟨fun s => ?_, fun n i x => Npu.flip_pulse_cache⟩
  refine ⟨fun hup hwarm => ?_, fun hup hwarm => ?_, remoteClose_phase s, stageClose_phase s,
    sealDeadline_phase s, flip_commits s⟩
  · obtain ⟨t, hpulse, hclock⟩ := tickPulse_starts s hup hwarm
    exact ⟨t, hpulse, congrArg Clock.tick hclock, congrArg Clock.phase hclock, congrArg Clock.admitted hclock,
      congrArg Clock.flipped hclock⟩
  · obtain ⟨t, hpulse, hclock, hrest⟩ := tickPulse_passes s hup hwarm
    exact ⟨t, hpulse, congrArg Clock.tick hclock, congrArg Clock.phase hclock, hrest⟩

end Sys2Proof.Machine
end
